-- ==== Sys2Proof/Word.lean ====
section
/-! DEFINITION. The machine words of the VZ9640: a parameter value is 32 bits (R402), a byte is 8. -/

namespace Sys2Proof

/-- One parameter word. -/
abbrev Word := BitVec 32

/-- One byte of flash, of a packet or of a frame. -/
abbrev Byte := BitVec 8

end Sys2Proof
end

