-- ==== Sys2Proof/Syntax.lean ====
section
/-! DEFINITION. The commands of the block: one constructor of `Instr` per row of spec/opcode_table.json.
The table gives no operands; those here are the model's (log 2). Every command carries the instant `t` in
picoseconds since the model's start at which it occurs (log 1). -/

namespace Sys2Proof

/-- The roles of R401; Factory stands outside the order. -/
inductive Role where
  | observer | operator | service | commissioner | integrator | factory
  deriving DecidableEq, Repr

/-- Role codes of R401. -/
def Role.code : Role → Nat
  | .observer => 1 | .operator => 2 | .service => 3 | .commissioner => 4 | .integrator => 5 | .factory => 6

/-- A role meets a named role when it is that role or a higher one; Factory writes nothing (R401). -/
def Role.meets (r named : Role) : Bool :=
  decide (r ≠ .factory) && decide (named.code ≤ r.code)

/-- A hardware fault in a lane during a period (R164, R165): the mask flips bits of word `word` of block `block`, numbered as R165
numbers them, in Lane X's own value or in Lane Y's encoded one. -/
structure LaneHit where
  block : Nat
  word : Nat
  mask : BitVec 48
  laneY : Bool
  deriving DecidableEq, Repr

/-- A reference of one leg: the leg, its duty (Q4.27, R241) and its phase in ticks. -/
structure LegRef where
  leg : Nat
  duty : Int
  phase : Nat
  deriving DecidableEq, Repr

/-- What befalls one partition (inner, or the outer step) in a period: faults of the lanes. -/
structure PartIn where
  port : Nat
  outer : Bool
  hits : List LaneHit
  deriving DecidableEq, Repr

/-- What reaches the outer step of a port from outside the engine: a contactor confirmation from Lattice arriving for this step (R119),
some true closed, some false open. -/
structure OuterIn where
  confirm : Option Bool
  deriving DecidableEq, Repr

/-- SFDP contents (R65, R66): density in Mbit, and whether a quad read is declared. -/
structure Sfdp where
  mbit : Nat
  quad : Bool
  deriving DecidableEq, Repr

/-- Topologies of R25. -/
inductive Topology where
  | twoLevel | il2 | il3 | il4 | tType | dc (k : Nat)
  deriving DecidableEq, Repr

/-- One port declared by section 0x0001, whose byte layout the spec does not give (log 8): port number,
topology and the leg groups it owns (0-based). -/
structure PortDecl where
  port : Nat
  topo : Topology
  groups : List Nat
  deriving DecidableEq, Repr

/-- What CONTENT_CHECK takes from content whose layout the spec leaves to the image builder (log 8): the declared ports, the
sections refused by a rule the spec does not give (constant counts of R158) with their type, the quantities declared for sample
addresses (R31: scope and index, elements, fast channels of a sampled quantity, points of a computed one in the form of R176), the
initial words of the extra compares (parameter, word; R246), whether the Lattice program's I/O references are in range (R346), and
the bytes of the largest outer state image (R324). -/
structure ContentIn where
  ports : List PortDecl
  badSections : List Nat
  quants : List (Nat × Nat × List Nat × List Nat)
  compares : List (Nat × BitVec 32)
  latticeIoOk : Bool
  outerImageBytes : Nat
  deriving DecidableEq, Repr

/-- The findings of SELF-TEST (R82): failing items with their detail, failed fast channels and slow channels,
failed islands, and the smallest S in ps of each 100 µs of the rail search of item 5, step by step (R190). -/
structure SelfTest where
  failed : List (Nat × Nat)
  fastFailed : List Nat
  slowFailed : List Nat
  islandsFailed : List (Nat × Nat)
  slacks : List Int
  skew : List (Nat × Int)
  deriving DecidableEq, Repr

/-- A CAN frame (R364): identifier, extended format, remote frame, FD format, bit-rate switch, data bytes, and whether its CRC field holds
the ISO CRC over it, which that of a node with the non-ISO CRC does not. -/
structure CanFrame where
  id : Nat
  ext : Bool := false
  rtr : Bool := false
  fd : Bool := false
  brs : Bool := false
  data : List Byte := []
  crcOk : Bool := true
  deriving DecidableEq, Repr

/-- Who submits a CAN frame (R38, R368). -/
inductive CanSrc where
  | lattice | link | timeMaster | safety
  deriving DecidableEq, Repr

/-- How a transmit attempt ended (R369, R370): an acknowledge error tells whether a dominant bit was seen in the passive
error flag. -/
inductive CanResult where
  | ok | ackError (dominant : Bool) | error | lostArbitration
  deriving DecidableEq, Repr

/-- The outer state of one port in the holder's image (R324), whose byte layout the spec does not give (log 8):
accumulators Q8.39 for ω, E, the p and q filters and the Glaze (value, rate of p, q, v, f), Q4.27 for V_meas and x_add,
the hard-limit budget and the excursion time in ps, and the state words of each block of the outer partition. -/
structure OuterImage where
  port : Nat
  omega : Int
  theta : BitVec 32
  e : Int
  pF : Int
  qF : Int
  vMeas : Int
  glz : List (Int × Int)
  xAdd : Int
  budgetPs : Nat
  rtOpen : Bool
  rtPs : Nat
  cells : List (List Int)
  deriving DecidableEq, Repr

/-- One call of a standard block in a Lattice cycle (R349): the instance by its name hash, its inputs (IN, CLK or CU; CD;
R; LD) and its PT in ms or PV. -/
structure LatCall where
  hash : Nat
  a : Bool
  b : Bool := false
  r : Bool := false
  ld : Bool := false
  p : Int := 0
  deriving DecidableEq, Repr

/-- One arithmetic case of R345 in an execution: its sticky bit (0 saturation, 1 division by zero, 2 index, 3 REAL), the code offset, the
type of the result as a kind of R357, the exact result or index, the bounds of an index, and the variable that takes the result. -/
structure LatArith where
  flag : Nat
  offset : Nat
  kind : Nat := 0x13
  exact : Int := 0
  lo : Int := 0
  hi : Int := 0
  dest : Option Nat := none
  deriving DecidableEq, Repr

/-- What one execution of the Lattice program produced: the code's form is the image builder's (R344), so its results are
given here (log 12). Local outputs, port-command words, remote digital outputs by station, remote analogue words 32-63,
arithmetic cases in order, standard-block calls in order, and variables written by name hash. -/
structure LatOut where
  douts : Nat
  words : List Nat
  rdo : List Nat
  rao : List Int
  arith : List LatArith
  calls : List LatCall
  vars : List (Nat × Word)
  deriving DecidableEq, Repr

/-- Who asks (R111, R121, R275): a session of some role, the Lattice port-command word, or the automatic clear. -/
inductive Requester where
  | role (r : Role) | lattice | auto
  deriving DecidableEq, Repr

/-- The commands, one constructor per row of the table, in its order. Operands that recur (log 2): `t` the instant in ps (log 1);
`p` a port 0-3; `l` a leg 0-23; `i` or `sw` an island or switch 0-47, leg l driving islands 2l (high side) and 2l + 1 (low side);
`g` a leg group 0-3; `ch` a fast, slow or CAN channel from 0; `m` a slow modulator; `k`, `n` an output, input or compare from 0;
`e` an Ethernet port 0-1; `st` a remote station 0-7; `slot` an image slot 0-1; `f` a capture instance 1 or 2; `v` the word
written; `role` or `req` who asks; `sid` a session identifier; `path` 0-3 as R410 numbers them; `ip`, `port` an IPv4 address and
a UDP port; `bytes` a packet, frame or payload; `ioOk`, `readbackOk` what a check outside the spec's data found. -/
inductive Instr where
  /-- VIN_RISE (R454): VIN rises through 8.6 V and the unit leaves OFF for RESET. -/
  | vinRise (t : Nat)
  /-- VIN_UNDERVOLTAGE (R454): VIN stays below 8.2 V for more than 10 µs and the unit enters RESET with the undervoltage in force. -/
  | vinUndervoltage (t : Nat)
  /-- SHELL_WATCHDOG_EXPIRY (R85): The shell watchdog in SAFE expires and the unit goes to RESET. -/
  | shellWatchdogExpiry (t : Nat)
  /-- RESET_COMPLETE (R85): Rails are good and fuses are read with no VIN undervoltage in force, so the unit enters REF-LOCK. -/
  | resetComplete (t : Nat)
  /-- BOOT_REFERENCE_SELECT (R57): 8 ms after leaving RESET the unit picks crystal, REF_IN or the fallback clock as boot reference,
  or goes to FAULT-HOLD. -/
  | bootReferenceSelect (t : Nat) (crystal : Bool) (refInKHz : Nat)
  /-- LOCK_DECLARED (R59): The phase error has held within ±200 ps for lock_cycles, so the PLL declares lock and raises 0x0301. -/
  | lockDeclared (t : Nat) (band : Nat)
  /-- LOCK_ATTEMPT_TIMEOUT (R59): A lock attempt that has not locked after 2 ms fails. -/
  | lockAttemptTimeout (t : Nat)
  /-- REFERENCE_LOSS (R58): SAFE sees no reference edge for 16 periods, or the frequency lies outside ±2 %; PLL outputs are gated
  and the procedure of R64 starts. -/
  | referenceLoss (t : Nat) (discards : List Nat)
  /-- PHASE_WINDOW_LOSS (R60): The phase error lies outside ±200 ps for 4 reference cycles and lock is lost. -/
  | phaseWindowLoss (t : Nat) (discards : List Nat)
  /-- RELOCK_ATTEMPT (R64): A relock attempt on the declared reference runs 100 ms after the loss and every 100 ms after that; the
  eighth failure leads to FAULT-HOLD. -/
  | relockAttempt (t : Nat) (refValid : Bool)
  /-- ATTEMPT_COUNT_RESET (R64): After 60 s of continuous lock the relock attempt count returns to 0. -/
  | attemptCountReset (t : Nat)
  /-- SAFE_CROSS_MONITOR (R34): The PLL-side cross-monitor finds SAFE off by more than ±2 % and the unit goes to SAFE-STOP with
  cause 0x0D. -/
  | safeCrossMonitor (t : Nat)
  /-- SFDP_READ (R66): The unit reads SFDP at 10 MHz and selects the flash read mode, or marks both slots 0x01. -/
  | sfdpRead (t : Nat) (info : Option Sfdp)
  /-- SLOT_CHECK (R77): Completion of a slot check: magic, header, variant, signer, streamed SHA-256, signature, rollback counter
  and serial. -/
  | slotCheck (t : Nat) (slot : Nat)
  /-- CONTENT_CHECK (R79): Completion of the content check of the chosen image, which leads to SELF-TEST or READY-REFUSED. -/
  | contentCheck (t : Nat) (c : ContentIn)
  /-- SELF_TEST_COMPLETE (R82): SELF-TEST ends and the unit enters READY, READY-UNBOUND, SAFE-STOP or FAULT-HOLD. -/
  | selfTestComplete (t : Nat) (r : SelfTest)
  /-- RESTART (R86): A Service write of restart sends the unit to RESET when every port is IDLE or PORT-STOP. -/
  | restart (t : Nat) (role : Role) (v : Word)
  /-- NEXT_SLOT_WRITE (R88): A Commissioner write of next_slot names a valid slot for the next boot. -/
  | nextSlotWrite (t : Nat) (role : Role) (v : Word)
  /-- PARAMETER_WRITE (R403): Write of a parameter that has no behaviour of its own, checked for class, role, range and state and
  applied whole. -/
  | parameterWrite (t : Nat) (role : Role) (id : Nat) (v : Word)
  /-- PERIOD_TICK (R230): The unit-wide period timer expires; this is the sample instant and the update point, where committed
  references take effect. -/
  | periodTick (t : Nat) (markBack frameSent : Bool) (lost : List Bool)
  /-- FAST_CONVERSION (R208): An extra fast conversion i of a group falls at i·Δ after the sample instant and goes to capture taps
  and supervision. -/
  | fastConversion (t : Nat) (g i : Nat) (raws : List Int)
  /-- SAMPLE_ENTRY (R207): At the end of the conversion window the port's sample words enter Q-SMP. -/
  | sampleEntry (t : Nat) (p : Nat) (samples : List Int) (frozen : List Bool)
  /-- FEEDBACK_LOST (R173): An element that has been unusable for 16 periods is lost, and the port goes to PORT-STOP or open loop by
  its role. -/
  | feedbackLost (t : Nat) (p role elem : Nat)
  /-- FEEDBACK_RECOVER (R174): After fb_recover usable periods the port leaves open loop, or a lost 0x04/0x07 element returns to
  measurement. -/
  | feedbackRecover (t : Nat) (p role : Nat)
  /-- LANE_COMPLETION (R154): A lane signals completion by handshake and its slack is captured: the slack follows
  from `t` alone, and `hs`, the handshake itself, carries no value. -/
  | laneCompletion (t : Nat) (laneY : Bool) (hs : Unit)
  /-- COMPUTE_DEADLINE (R154): The deadline register fires; a lane that has not completed is late. -/
  | computeDeadline (t : Nat)
  /-- COMPARE_WINDOW_END (R165): The comparator decodes and compares both lanes, commits agreed partitions and counts failed periods. -/
  | compareWindowEnd (t : Nat) (parts : List PartIn)
  /-- OUTER_STEP (R110): Once per outer period each port evaluates its state inputs in fixed order and integrates its outer law. -/
  | outerStep (t : Nat) (p : Nat) (m : OuterIn)
  /-- EXCURSION_CLOSE (R138): V has stayed in band for rt_reset and the excursion closes. -/
  | excursionClose (t : Nat) (p : Nat)
  /-- LIM_RELEASE_EXPIRY (R133): Saturation has been inactive for lim_release and the port returns from LIMITED to RUN. -/
  | limReleaseExpiry (t : Nat) (p : Nat)
  /-- HARD_BUDGET_EXHAUSTED (R126): The hard-limit budget count reaches i_hard_time and L_s falls to i_lim_cont. -/
  | hardBudgetExhausted (t : Nat) (p : Nat)
  /-- HARD_BUDGET_REFILLED (R126): The budget count returns to 0 after exhaustion and L_s rises to i_lim_hard. -/
  | hardBudgetRefilled (t : Nat) (p : Nat)
  /-- ENERGISE (R111): An energise request from the Operator or Lattice is checked and raises the port to ARMED. -/
  | energise (t : Nat) (req : Requester) (p : Nat) (v : Word)
  /-- STOP_PORT (R121): stop 0x01 stops one port through Glaze ramp-down and contactor opening. -/
  | stopPort (t : Nat) (req : Requester) (p : Nat)
  /-- STOP_UNIT (R121): stop 0x02 stops every energised port and is the unit stop request. -/
  | stopUnit (t : Nat) (req : Requester)
  /-- ARM_TIMEOUT (R112): No start condition is met within arm_timeout and the port returns to IDLE. -/
  | armTimeout (t : Nat) (p : Nat)
  /-- BUS_DEAD_DETECTED (R113): bus_v has stayed below dead_level for dead_time and the bus is dead. -/
  | busDeadDetected (t : Nat) (p : Nat)
  /-- BUS_LIVE_DETECTED (R113): bus_v has stayed at or above live_level for 20 ms and the bus is live. -/
  | busLiveDetected (t : Nat) (p : Nat) (f : Unit) (ang : Unit)
  /-- BACKOFF_EXPIRY (R116): The random dead-bus backoff ends and the port checks the bus again. -/
  | backoffExpiry (t : Nat) (p : Nat)
  /-- COORDINATED_START (R115): At bs_start the scheduled port begins its ramp with θ = 0, or takes the case of the table. -/
  | coordinatedStart (t : Nat) (p : Nat)
  /-- SCHEDULE_CANCEL (R115): Network time becomes invalid before the start instant and the schedule is cancelled. -/
  | scheduleCancel (t : Nat) (p : Nat)
  /-- SYNC_DWELL_COMPLETE (R118): All sync windows have held for sync_dwell and the close permissive is raised. -/
  | syncDwellComplete (t : Nat) (p : Nat)
  /-- CLOSE_TIMEOUT (R119): No contactor confirmation has arrived within close_timeout. -/
  | closeTimeout (t : Nat) (p : Nat)
  /-- SYNC_TIMEOUT (R120): The port has not closed within sync_timeout and returns to IDLE. -/
  | syncTimeout (t : Nat) (p : Nat)
  /-- STOP_TIMEOUT (R121): stop_timeout expires during a stop and the open request is raised. -/
  | stopTimeout (t : Nat) (p : Nat)
  /-- INJ_START (R179): inj_cmd 0x01 starts a test-signal injection when its conditions hold. -/
  | injStart (t : Nat) (role : Role)
  /-- INJ_STOP (R179): inj_cmd 0x02 aborts a running injection with code 0x01. -/
  | injStop (t : Nat) (role : Role)
  /-- FR_POINT_COMPLETE (R180): Demodulation at one stepped-sine frequency ends and its table entry is stored.
  The entry follows from the state; the four places for its fields carry no value. -/
  | frPointComplete (t : Nat) (freq gain phase magA : Unit)
  /-- INJECTION_COMPLETE (R180): The injection runs to its end and raises 0x0E02. -/
  | injectionComplete (t : Nat)
  /-- RAIL_WINDOW_END (R188): At the end of each 1 ms window the core rail is raised, lowered or held. -/
  | railWindowEnd (t : Nat)
  /-- RAIL_READBACK_FAULT (R189): The rail read-back differs by more than 10 mV for 1 ms and the unit enters FAULT-HOLD. -/
  | railReadbackFault (t : Nat) (uV : Nat)
  /-- PROOFER_SECOND (R187): At the end of each second the slack histogram and minimum are updated and the ladder is evaluated. -/
  | prooferSecond (t : Nat)
  /-- LADDER_CHANGE (R160): A pending rung or restore takes effect at the outer boundary, and the law set and period change together. -/
  | ladderChange (t : Nat)
  /-- LADDER_CMD_RUNG (R194): A Commissioner ladder_cmd of 0x03 or 0x04 takes a pending rung at the next outer boundary. -/
  | ladderCmdRung (t : Nat) (role : Role) (v : Word)
  /-- LADDER_RESTORE (R196): ladder_cmd 0x10 restores the primary set and dropped blocks at the next outer boundary. -/
  | ladderRestore (t : Nat) (role : Role)
  /-- DATED_WARNING_REPEAT (R195): The dated warning 0x1D08 repeats every 24 h. -/
  | datedWarningRepeat (t : Nat)
  /-- PROOFER_HOUR (R198): Once per power-on hour the record ring, forecast, V_on baselines and shares are updated. -/
  | prooferHour (t : Nat)
  /-- VCE_MEASUREMENT (R199): An island measures on-state voltage and the Proofer corrects it. -/
  | vceMeasurement (t : Nat) (sw : Nat) (raw : Nat) (i : Int)
  /-- VCE_REBASE (R202): vce_rebase clears the port's baselines and sets derate to 1.0. -/
  | vceRebase (t : Nat) (role : Role) (p : Nat) (v : Word)
  /-- WINDOW_COMPARATOR_FIRE (R214): A fast input crosses win_hi or win_lo and its target legs turn off softly. -/
  | windowComparatorFire (t : Nat) (ch : Nat) (upper : Bool)
  /-- WINDOW_COMPARATOR_RELEASE (R214): The input returns inside by win_hyst and the comparator releases. -/
  | windowComparatorRelease (t : Nat) (ch : Nat)
  /-- FA_CLEAR (R227): A Service fa_clear clears the sticky over-range and window bits. -/
  | faClear (t : Nat) (role : Role) (ch : Nat) (v : Word)
  /-- SLOW_SCAN_START (R221): Every sm_scan each modulator starts converting its used channels in order. -/
  | slowScanStart (t : Nat) (m : Nat)
  /-- SLOW_CONVERSION_DONE (R220): A slow conversion ends with its N-th filter output and the modulator powers down. -/
  | slowConversionDone (t : Nat) (ch : Nat) (code : Int)
  /-- SLOW_OVER_RANGE (R223): The modulator bit is constant for 32 clocks, so the conversion is reset and abandoned. -/
  | slowOverRange (t : Nat) (ch : Nat) (high : Bool)
  /-- SLOW_RESULT_STALE (R225): A slow result older than 2 · sm_scan is marked stale. -/
  | slowResultStale (t : Nat) (ch : Nat)
  /-- CARRIER_BOUNDARY (R231): A leg's carrier reaches its boundary, a load point for the members of its update set. -/
  | carrierBoundary (t : Nat) (l : Nat)
  /-- LEG_EDGE (R236): The carrier counter reaches the compare count and y changes, issuing the outgoing off command. -/
  | legEdge (t : Nat) (l : Nat)
  /-- DEAD_TIME_EXPIRY (R239): The dead time of the commutation ends and the incoming on command is issued. -/
  | deadTimeExpiry (t : Nat) (l : Nat)
  /-- EXTRA_COMPARE_FIRE (R247): An extra compare fires and samples, triggers a capture or inverts a timed output, with contention
  settled by R51. -/
  | extraCompareFire (t : Nat) (l k : Nat) (share : Bool)
  /-- MOD_RELEASE (R243): mod_release ends the held state when every shadow set is complete. -/
  | modRelease (t : Nat) (role : Role) (p : Nat) (v : Word)
  /-- NS_CROSSING_REPORT (R251): The low-side island reports the near and far NS crossings and the next dead time of the type is set. -/
  | nsCrossingReport (t : Nat) (l : Nat) (near far : Option Nat) (fault : Bool)
  /-- DT_ADAPTIVE_RESUME (R252): After 1,000 usable periods a leg returns from dt_fix to adaptive dead time. -/
  | dtAdaptiveResume (t : Nat) (l : Nat)
  /-- KEEP_ALIVE_SEND (R259): A keep-alive is sent to every island of a used leg at least every 200 ns. -/
  | keepAliveSend (t : Nat)
  /-- ISLAND_ON_COMMAND (R262): An on command arrives at an island and turns it on when the interlock conditions hold. -/
  | islandOnCommand (t : Nat) (i : Nat)
  /-- ISLAND_OFF_COMMAND (R257): An off command arrives at an island and a partner notice is delivered. -/
  | islandOffCommand (t : Nat) (i : Nat)
  /-- OFF_CONFIRM (R262): The partner's gate falls below VN + 2 V and OFF-confirm is relayed to the waiting island. -/
  | offConfirm (t : Nat) (i : Nat)
  /-- TURN_ON_TIMEOUT (R263): An on command not permitted within 2.0 µs is dropped; a second drop within 1 s is a leg fault. -/
  | turnOnTimeout (t : Nat) (i : Nat)
  /-- GATE_NOT_OFF (R263): A gate has not reached OFF-confirm 2.0 µs after its off command, which is a leg fault with cause 0x0B. -/
  | gateNotOff (t : Nat) (i : Nat)
  /-- ISLAND_WATCHDOG_EXPIRY (R260): An island receives no keep-alive until its watchdog expires and turns its switch off. -/
  | islandWatchdogExpiry (t : Nat) (i : Nat)
  /-- ISLAND_LOST (R261): An island's status path delivers nothing for 2.0 µs, which is a leg fault with cause 0x09. -/
  | islandLost (t : Nat) (i : Nat)
  /-- DESATURATION (R267): DS is above ds_thresh while the switch is on, so it turns off softly and the leg faults. -/
  | desaturation (t : Nat) (i : Nat)
  /-- GATE_PLATEAU_MISSING (R267): The gate rises above gs_plateau_v too early, so the switch turns off softly and the leg faults. -/
  | gatePlateauMissing (t : Nat) (i : Nat)
  /-- GATE_NOT_ON (R267): At the end of ds_blank the gate is not above gs_plateau_v and the switch turns off normally. -/
  | gateNotOn (t : Nat) (i : Nat)
  /-- ISLAND_UNDERVOLTAGE (R280): VP or VN crosses its undervoltage threshold and the island holds off. -/
  | islandUndervoltage (t : Nat) (i : Nat) (vpLow vnLow : Bool)
  /-- ISLAND_SUPPLY_RECOVER (R280): VP and VN return inside their recovery thresholds and undervoltage ends. -/
  | islandSupplyRecover (t : Nat) (i : Nat)
  /-- SOFT_OFF_FULL_STRENGTH (R268): 5.0 µs after soft turn-off began, GO changes to full-strength sink. -/
  | softOffFullStrength (t : Nat) (i : Nat)
  /-- LEG_FAULT_RUN_END (R271): The 10 µs run ends and the port continues derated or goes to PORT-STOP. -/
  | legFaultRunEnd (t : Nat) (p : Nat)
  /-- ISL_PULSE (R266): A Service isl_pulse turns an island on for the time written. -/
  | islPulse (t : Nat) (role : Role) (i : Nat) (v : Word)
  /-- ISL_PULSE_END (R266): The pulse time ends and the island turns off normally. -/
  | islPulseEnd (t : Nat) (i : Nat)
  /-- TRIP_INPUT_ASSERT (R273): TRIP_N goes low past its filter and its named ports turn off and go to PORT-STOP. -/
  | tripInputAssert (t : Nat) (n : Nat)
  /-- TRIP_INPUT_RELEASE (R273): TRIP_N returns high and trip_level clears. -/
  | tripInputRelease (t : Nat) (n : Nat)
  /-- PROT_CLEAR (R275): A clear request unlatches faulted legs and takes a PORT-STOP port to IDLE, or is refused. -/
  | protClear (t : Nat) (req : Requester) (p : Nat) (v : Word)
  /-- AUTO_CLEAR (R276): auto_wait after a stop the unit attempts an automatic clear, or latches when tries are used up. -/
  | autoClear (t : Nat) (p : Nat)
  /-- IST_CMD (R277): A Service ist_cmd starts the comparator self-test of an island. -/
  | istCmd (t : Nat) (role : Role) (i : Nat) (v : Word)
  /-- IST_COMPLETE (R277): The island self-test ends with a pass or fail and a mark on the leg. -/
  | istComplete (t : Nat) (i bits : Nat)
  /-- SAFETY_EVALUATION (R286): Each ms both safety channels evaluate SGO, SBC and SCC, drive their outputs and compare. -/
  | safetyEvaluation (t : Nat) (differ : Bool) (outs : List (Bool × Nat))
  /-- SGO_DEMAND (R289): An SGO demand is recognised and the enables are removed within 5 µs. -/
  | sgoDemand (t : Nat) (cause input : Nat)
  /-- SAFE_INPUT_CHANGE (R300): A safe input's channels hold a level for sin_filter and the input changes state. -/
  | safeInputChange (t : Nat) (n : Nat) (a b : Bool)
  /-- INPUT_DISCREPANCY (R300): The channels differ for longer than sin_disc_time, which is an input fault with cause 0x07. -/
  | inputDiscrepancy (t : Nat) (n : Nat)
  /-- INPUT_TEST_PULSE (R301): A safe-input test pulse runs and is judged, and a confirmed miss is a fault. -/
  | inputTestPulse (t : Nat) (n : Nat) (chB passed : Bool)
  /-- OUTPUT_OFF_PULSE (R302): An energised safety output is switched off for 400 µs and its read-back is judged. -/
  | outputOffPulse (t : Nat) (k : Nat) (low : Bool)
  /-- OUTPUT_READBACK_FAULT (R302): An output's read-back disagrees with its command for 1 ms, which is an output fault. -/
  | outputReadbackFault (t : Nat) (k : Nat)
  /-- VSO_UNDERVOLTAGE (R449): VSO stays below 16 V for 1 ms with an output energised, which is an output fault. -/
  | vsoUndervoltage (t : Nat)
  /-- COIL_CHECK (R294): Once per second a de-energised brake coil is tested for open or short. -/
  | coilCheck (t : Nat) (k i1 i2 i3 : Nat)
  /-- HOLDING_TEST_END (R295): The holding test ends after sbc_hold_time with a pass. -/
  | holdingTestEnd (t : Nat)
  /-- MIRROR_TIME_EXPIRY (R298): At scc_mirror_time the contactor mirrors are judged against the command. -/
  | mirrorTimeExpiry (t : Nat)
  /-- STRAP_READ (R305): Every 100 ms the straps are read and judged for open, short or change. -/
  | strapRead (t : Nat) (pattern faulty : Nat)
  /-- SAFETY_COMMIT (R307): A Commissioner safety_commit fuses one commit and writes the committed record. -/
  | safetyCommit (t : Nat) (role : Role) (v : Word) (readbackOk : Bool)
  /-- SAFETY_PACKET_COPY (R310): A safety packet copy arrives on a path, is checked and may open the comparison window. -/
  | safetyPacketCopy (t : Nat) (path : Nat) (bytes : List Byte)
  /-- SAFETY_WINDOW_CLOSE (R310): The comparison window closes and the copies are accepted or discarded. -/
  | safetyWindowClose (t : Nat)
  /-- PACKET_TIMEOUT (R311): No packet has been accepted for the packet timeout, so the command bits go to 0 with cause 0x05. -/
  | packetTimeout (t : Nat)
  /-- STATUS_PACKET_SEND (R309): Every sp_period the unit sends its status packet on every enabled path. -/
  | statusPacketSend (t : Nat)
  /-- SAFETY_RESET (R312): A reset edge on input 6, or a packet reset bit, takes the unit from SAFE-STOP or is refused. -/
  | safetyReset (t : Nat) (source : Nat)
  /-- PAIR_FRAME_RECEIVE (R319): A pair-link frame arrives and is checked, carrying a renewal, give-up, state image or announce. -/
  | pairFrameReceive (t : Nat) (bytes : List Byte) (image : List OuterImage) (forwarded : List (Nat × Word × Nat))
  /-- PAIR_ANNOUNCE (R320): An unpaired unit with pair_enable sends an announce frame every 1 ms. -/
  | pairAnnounce (t : Nat)
  /-- MISMATCH_REPEAT (R320): While a pair mismatch lasts, 0x1D41 is raised every 10 s. -/
  | mismatchRepeat (t : Nat)
  /-- LEASE_MARK_RECEIVE (R322): The standby sees a mark, renews s_rx and aligns its period timer. -/
  | leaseMarkReceive (t : Nat) (errPs : Int)
  /-- RENEWAL_UNCONFIRMED_LIMIT (R329): The holder reaches s_c + 15 without a confirmed renewal, stops driving and gives up. -/
  | renewalUnconfirmedLimit (t : Nat)
  /-- LEASE_EXPIRY_TAKEOVER (R330): No renewal through s_rx + 17, so the standby takes the biscuit. -/
  | leaseExpiryTakeover (t : Nat)
  /-- BISCUIT_TAKE (R332): After a give-up frame the standby takes the biscuit at the first permitted update point. -/
  | biscuitTake (t : Nat)
  /-- PAIR_SOLO (R321): A Commissioner pair_solo makes a lone unit holder. -/
  | pairSolo (t : Nat) (role : Role) (v : Word)
  /-- PAIR_HANDOVER (R331): pair_handover gives up the biscuit at the next outer boundary and restarts the holder. -/
  | pairHandover (t : Nat) (role : Role) (v : Word)
  /-- STANDBY_ISLAND_TEST (R326): Every 100 ms the standby tests one used island's comparators. -/
  | standbyIslandTest (t : Nat) (bits : Nat)
  /-- STANDBY_HEALTH_TIMEOUT (R327): No complete standby health report arrives for 3 s and the standby is unfit. -/
  | standbyHealthTimeout (t : Nat)
  /-- PAIR_FRAME_SILENCE (R337): No valid frame arrives for 16 periods while paired and 0x1D44 is raised. -/
  | pairFrameSilence (t : Nat)
  /-- LATTICE_CYCLE_START (R338): A Lattice cycle starts at a period tick with its input read, or the start is skipped on overrun. -/
  | latticeCycleStart (t : Nat) (di : Nat)
  /-- LATTICE_EXECUTION_END (R339): The program's execution ends and the output image is written. -/
  | latticeExecutionEnd (t : Nat) (out : LatOut)
  /-- LATTICE_WATCHDOG (R342): Execution runs longer than lat_wd, so Lattice stops and the unit enters FAULT-HOLD. -/
  | latticeWatchdog (t : Nat)
  /-- LATTICE_FORCE (R350): A Service lat_force with operation 0x1 forces one element. -/
  | latticeForce (t : Nat) (role : Role) (v : Word)
  /-- LATTICE_UNFORCE (R350): A Service lat_force with operation 0x0 removes one force. -/
  | latticeUnforce (t : Nat) (role : Role) (v : Word)
  /-- LAT_FLAGS_CLEAR (R345): A Service write of 0 clears lat_flags. -/
  | latFlagsClear (t : Nat) (role : Role) (v : Word)
  /-- LAT_ACTIVATE (R359): A Commissioner lat_activate requests a program exchange, or is refused. -/
  | latActivate (t : Nat) (role : Role) (v : Word)
  /-- PROGRAM_EXCHANGE (R360): At the boundary after the output write the banks swap and state is carried by identity. -/
  | programExchange (t : Nat) (crcOk : Bool)
  /-- HEARTBEAT_RECEIVE (R352): A CANopen heartbeat arrives and updates the station's state. -/
  | heartbeatReceive (t : Nat) (st : Nat) (state : Nat)
  /-- HEARTBEAT_TIMEOUT (R352): No heartbeat arrives within rio_hb_time and the station is lost. -/
  | heartbeatTimeout (t : Nat) (st : Nat)
  /-- TPDO_RECEIVE (R351): A station TPDO arrives, or is discarded when short. -/
  | tpdoReceive (t : Nat) (st n : Nat) (bytes : List Byte)
  /-- CAN_FRAME_RECEIVE (R367): A received CAN frame is routed by identifier to safety, time, remote I/O or Bergil link. -/
  | canFrameReceive (t : Nat) (ch : Nat) (f : CanFrame) (durPs : Nat)
  /-- CAN_SUBMIT (R368): A producer submits a frame to Q-CANTX or a slot, or is refused. -/
  | canSubmit (t : Nat) (ch : Nat) (f : CanFrame) (src : CanSrc)
  /-- CAN_TX_ATTEMPT_END (R369): A transmit attempt ends in success, error or lost arbitration, and the retry limit is applied. -/
  | canTxAttemptEnd (t : Nat) (ch : Nat) (r : CanResult) (durPs : Nat)
  /-- BUS_OFF_RECOVERY (R372): After 128 occurrences of 11 recessive bits the channel rejoins. -/
  | busOffRecovery (t : Nat) (ch : Nat)
  /-- CAN_BUSOFF_CMD (R372): A Service can_busoff_cmd starts bus-off recovery counting. -/
  | canBusoffCmd (t : Nat) (role : Role) (ch : Nat) (v : Word)
  /-- TIME_REFERENCE_SEND (R373): Every 10 ms a CAN time master sends or replaces a reference frame. -/
  | timeReferenceSend (t : Nat) (ch : Nat)
  /-- CAN_SOURCE_TIMEOUT (R375): No usable CAN reference pairing for 30 ms makes the CAN source invalid. -/
  | canSourceTimeout (t : Nat) (ch : Nat)
  /-- ETH_LINK_UP (R376): An Ethernet link comes up. -/
  | ethLinkUp (t : Nat) (e : Nat)
  /-- ETH_LINK_DOWN (R376): An Ethernet link goes down. -/
  | ethLinkDown (t : Nat) (e : Nat)
  /-- ETH_FRAME_RECEIVE (R377): A received Ethernet frame is handled as ARP, ICMP, Bergil link, safety, PTP or discarded. -/
  | ethFrameReceive (t : Nat) (e : Nat) (fcsOk : Bool) (bytes : List Byte)
  /-- PTP_SYNC_LOSS (R379): Sync has not arrived within 3 intervals, or the port loses as-capable, and the PTP source becomes
  invalid or fails over. -/
  | ptpSyncLoss (t : Nat) (e : Nat)
  /-- PTP_FAILBACK (R379): ETHA has held a grandmaster for 10 s and synchronisation returns to it. -/
  | ptpFailback (t : Nat)
  /-- TXTS_DISCARD (R380): A transmit stamp that nobody has taken for 10 ms is discarded. -/
  | txtsDiscard (t : Nat) (e : Nat)
  /-- HOLDOVER_EXPIRY (R381): time_holdover ends and time_state goes to 0x04. -/
  | holdoverExpiry (t : Nat)
  /-- TIME_STEP (R383): A Service time_step makes the pending step at once. -/
  | timeStep (t : Nat) (role : Role) (v : Word)
  /-- TOUT_ARM (R387): A write of tout_mode arms a TIME_OUT as one-shot or periodic. -/
  | toutArm (t : Nat) (role : Role) (k : Nat) (v : Word)
  /-- TIME_OUT_PULSE (R387): Internal time reaches a TIME_OUT instant and the pulse starts. -/
  | timeOutPulse (t : Nat) (k : Nat)
  /-- TIME_OUT_PULSE_END (R387): The pulse width ends. -/
  | timeOutPulseEnd (t : Nat) (k : Nat)
  /-- BL_DATAGRAM_RECEIVE (R393): A Bergil link UDP datagram arrives and enters Q-CMD, or is dropped. -/
  | blDatagramReceive (t : Nat) (e ip port : Nat) (bytes : List Byte)
  /-- BL_SEGMENT_RECEIVE (R394): A Bergil link CAN segment arrives and is reassembled. -/
  | blSegmentReceive (t : Nat) (ch : Nat) (bytes : List Byte)
  /-- BL_REASSEMBLY_TIMEOUT (R394): More than 50 ms since the first segment, so the partial packet is discarded. -/
  | blReassemblyTimeout (t : Nat) (ch : Nat)
  /-- BL_PACKET_PROCESS (R400): The link engine takes a packet from Q-CMD once credits are reserved and checks it in order. -/
  | blPacketProcess (t : Nat) (ioOk readbackOk : Bool)
  /-- SESSION_OPEN (R398): A session-open packet is verified and a session is opened or refused. -/
  | sessionOpen (t : Nat) (path ip port : Nat) (bytes : List Byte)
  /-- SESSION_IDLE (R398): sess_idle passes without a valid request and the session ends. -/
  | sessionIdle (t : Nat) (sid : Nat)
  /-- READ (R403): Read command 0x0001 returns the values of the listed IDs, all or nothing. -/
  | read (t : Nat) (sid : Nat) (ids : List Nat)
  /-- WRITE (R403): Write command 0x0002 applies all items or none. -/
  | write (t : Nat) (sid : Nat) (items : List (Nat × Word))
  /-- BULK_READ (R404): Bulk read command 0x0003 returns a slice of a bulk target. -/
  | bulkRead (t : Nat) (sid target offset length : Nat)
  /-- BULK_WRITE_BEGIN (R405): Command 0x0004 begins a bulk write and erases a slot. -/
  | bulkWriteBegin (t : Nat) (sid target total : Nat) (digest : List Byte)
  /-- BULK_WRITE_DATA (R405): Command 0x0005 carries in-order bulk data. -/
  | bulkWriteData (t : Nat) (sid offset : Nat) (bytes : List Byte)
  /-- BULK_WRITE_END (R405): Command 0x0006 ends a bulk write and checks the target. -/
  | bulkWriteEnd (t : Nat) (sid : Nat) (ioOk : Bool)
  /-- SLOT_ERASE_DONE (R405): The erase of a bulk-write slot completes and data is accepted. -/
  | slotEraseDone (t : Nat)
  /-- BULK_WRITE_TIMEOUT (R405): 60 s pass without a data packet and the bulk write aborts. -/
  | bulkWriteTimeout (t : Nat)
  /-- SUBSCRIBE (R406): Command 0x0007 starts or ends a telemetry subscription. -/
  | subscribe (t : Nat) (sid period flags : Nat) (ids : List Nat)
  /-- READ_EVENTS (R402): Command 0x0008 returns records from the event store ring. -/
  | readEvents (t : Nat) (sid first count : Nat)
  /-- RE_BIND (R414): Command 0x0009 fuses a re-binding record of the old serial and key. -/
  | reBind (t : Nat) (sid : Nat) (bytes : List Byte) (readbackOk : Bool)
  /-- REPLACE_INTEGRATOR_KEY (R413): Command 0x000A fuses a new integrator key fingerprint, or the first one. -/
  | replaceIntegratorKey (t : Nat) (sid : Nat) (bytes : List Byte) (readbackOk : Bool)
  /-- RAISE_FLOOR (R413): Command 0x000B raises the anti-rollback floor. -/
  | raiseFloor (t : Nat) (sid floor : Nat) (readbackOk : Bool)
  /-- CLOSE_SESSION (R398): Command 0x000C ends the session. -/
  | closeSession (t : Nat) (sid : Nat)
  /-- TELEMETRY_SEND (R407): Each subscription period a telemetry packet is sent with values, epoch and events. -/
  | telemetrySend (t : Nat) (sid : Nat)
  /-- ANNOUNCE_SEND (R415): Every ann_period and at READY entry the unit broadcasts an announcement. -/
  | announceSend (t : Nat)
  /-- PEER_ABSENT (R415): A peer is silent for 10 × ann_period and is marked absent. -/
  | peerAbsent (t : Nat) (i : Nat)
  /-- AUDIT_ENTRY_WRITE (R410): The audit writer writes a Q-LOG entry to the flash region, erasing sectors as needed. -/
  | auditEntryWrite (t : Nat)
  /-- RESPONSE_SEGMENT_RETRY (R394): A CAN response waiting for Q-CANTX credits is retried every 1 ms and discarded after 100 ms. -/
  | responseSegmentRetry (t : Nat)
  /-- EVENT_WRITER_TAKE (R42): The event writer takes a record from Q-EVT into the store ring and telemetry. -/
  | eventWriterTake (t : Nat)
  /-- CAPTURE_TRIGGER (R427): A capture trigger source fires and is stamped, starting or retriggering a crumb or being missed. -/
  | captureTrigger (t : Nat) (f line : Nat)
  /-- CRUMB_COMPLETE (R429): The post-trigger rows are done, or the crumb ends early, and it is closed. -/
  | crumbComplete (t : Nat) (f : Nat)
  /-- CAPTURE_REARM (R429): After its dead time the disturbance recorder reserves units and is armed again. -/
  | captureRearm (t : Nat) (f : Nat)
  /-- CR_ARM (R434): cr_arm 0x01 arms a capture function. -/
  | crArm (t : Nat) (role : Role) (f : Nat)
  /-- CR_DISARM (R434): cr_arm 0x02 disarms a capture function. -/
  | crDisarm (t : Nat) (role : Role) (f : Nat)
  /-- CR_FORCE (R427): A Service cr_force triggers an armed function. -/
  | crForce (t : Nat) (role : Role) (f : Nat) (v : Word)
  /-- CRUMB_LOCK_EXPIRY (R433): 10 s after the session's last read the crumb lock ends. -/
  | crumbLockExpiry (t : Nat)
  /-- CONTROL_SUPPLY_LOST (R454): VIN falls so far that the control side loses its supply, and the unit is OFF. -/
  | controlSupplyLost (t : Nat)
  /-- CAN_ERROR_DETECTED (R372): The controller detects a bus error while receiving, raises REC and may enter error-passive. -/
  | canErrorDetected (t : Nat) (ch : Nat) (dominant : Bool)
  /-- BULK_READ_COPY_EXPIRY (R404): 10 s after a bulk read at offset 0, the copy that the session holds is released. -/
  | bulkReadCopyExpiry (t : Nat) (sid : Nat)
  /-- MID_PERIOD_LOAD (R244): With upd_mode 0x01 the reference leg's counter reaches mid-period, which is a load point for a changed
  period. -/
  | midPeriodLoad (t : Nat) (l : Nat)
  /-- IL_MIN_TIME_ELAPSED (R262): il_min_time elapses on the island's own timer after the partner notice, and a pending turn-on proceeds. -/
  | ilMinTimeElapsed (t : Nat) (i : Nat)
  /-- GATE_ABOVE_PLATEAU (R265): In T-type an inner switch's gate rises above gs_plateau_v, which permits the pending turn-on of its
  outer switch. -/
  | gateAbovePlateau (t : Nat) (i : Nat)
  /-- PDELAY_REQ_SEND (R379): At each peer-delay interval the unit sends Pdelay_Req on every enabled port. -/
  | pdelayReqSend (t : Nat)
  /-- GRANDMASTER_SYNC_SEND (R379): As grandmaster the unit sends Sync with Follow_Up, and Announce, at its log intervals. -/
  | grandmasterSyncSend (t : Nat)
  /-- AUTO_WINDOW_AGE_OUT (R276): A clear try leaves the last auto_window, and auto_used falls. -/
  | autoWindowAgeOut (t : Nat) (p : Nat)
  deriving DecidableEq, Repr

end Sys2Proof
end

