-- ==== Sys2Proof/Config.lean ====
section
/-! DEFINITION. What the spec leaves open: free values, which have no body, so that a claim holds whatever they are. -/

namespace Sys2Proof

/-- The n-th fresh 32-bit value the unit draws: the back-off draw of R116, the session identifier and the nonces
of R398, and every value the spec leaves undefined. The counter stands in `State.freeCtr`. Log 6. -/
opaque Config.freeWord : Nat → BitVec 32

/-- Output or state word `k` of a block whose function the spec names but does not give: SEQSPLIT, RES and OBS (R155, R103), on its
constants, inputs and state words. Log 45. -/
opaque Config.openBlock : (typ : Nat) → (consts ins cells : List Int) → (k : Nat) → Int

/-- The observer of R103 step 1 with the separation into sequences of step 4, whose form the spec does not give: output or state word `k`
from the parameters (`lf_pu`, `cf_pu`, `lg_pu`, `obs_gain`), the angle, the voltage reference applied in the period, the element values
of the period and the state words. Log 11. -/
opaque Config.observer : (par : List Int) → (angle : Nat) → (ref : Int × Int) → (vals : List (Nat × Nat × Int)) → (cells : List Int) →
  (k : Nat) → Int

/-- A positive-sequence synchronous-frame tracker, whose form the spec does not give: output or state word `k` from its bandwidth in Hz,
the ps since its last run, the element values and the state words (R102, R113). Log 11. -/
opaque Config.tracker : (bandwidth : Nat) → (ps : Nat) → (vals : List (Nat × Nat × Int)) → (cells : List Int) → (k : Nat) → Int

/-- The value at a sample address of a quantity that the unit or a pair computes in a way the spec does not give (R31), in an inner
period. Log 45. -/
opaque Config.openQuantity : (addr : Nat) → (period : Nat) → BitVec 32

/-- Slice `k` of a holder frame, 160 bytes as one number: the outer state image and the items that the holder forwards (R319, R324), whose
layout in the slices the spec does not give. Log 36. -/
opaque Config.imageSlice : (image : List OuterImage) → (items : List (Nat × BitVec 32 × Nat)) → (k : Nat) → BitVec 1280

end Sys2Proof
end

