-- ==== Sys2Proof/Machine/Operands.lean ====
section
/-! DEFINITION. The number forms and byte forms of the spec: Q4.27 words and 48-bit Q8.39 accumulators (R12, R13,
R161, R162), angles (R14), little-endian fields (R6), the image's CRC-32C (R70, R71) and SHA-256 (R75, R76), the
diverse encoding of Lane Y (R164), the PRBS generator (R178), curve interpolation (R139) and stamp extension (R19). -/

namespace Sys2Proof.Machine

/-! ### Rounding and saturation -/

/-- One per unit in Q4.27 (R12). -/
def one27 : Int := 134217728

/-- One per unit in the Q8.39 accumulator (R161). -/
def one39 : Int := 549755813888

/-- Division by a positive number, rounded to nearest with ties to even (R161). -/
def rneDiv (n : Int) (d : Nat) : Int :=
  let q := n / (d : Int)
  let r := n % (d : Int)
  if (d : Int) < 2 * r then q + 1
  else if 2 * r = (d : Int) ∧ q % 2 = 1 ∧ d ≠ 0 then q + 1
  else q

/-- Clamp between two bounds. -/
def clampI (lo hi z : Int) : Int := max lo (min hi z)

/-- Saturation at the range ends of Q4.27 (R12, R13). -/
def satQ27 (z : Int) : Int := clampI (-2147483648) 2147483647 z

/-- Saturation at the range ends of the signed 48-bit accumulator (R161, R162). -/
def satAcc (z : Int) : Int := clampI (-140737488355328) 140737488355327 z

/-- A Q4.27 value as an accumulator value. -/
def accOf27 (z : Int) : Int := z * 4096

/-- A result written out of an accumulator: rounded to Q4.27, then saturated (R161). -/
def q27OfAcc (z : Int) : Int := satQ27 (rneDiv z 4096)

/-- The word of a signed value. -/
def wordOfInt (z : Int) : Word := BitVec.ofInt 32 z

/-- The word of an unsigned value that saturates at 32 bits. -/
def wordSat (n : Nat) : Word := BitVec.ofNat 32 (min n 0xFFFFFFFF)

/-- Product of two accumulator values, rounded once (R161). -/
def mulAcc (a b : Int) : Int := satAcc (rneDiv (a * b) 549755813888)

/-- An accumulator value times the rational `n / d`, rounded once. -/
def scaleAcc (a n : Int) (d : Nat) : Int := satAcc (rneDiv (a * n) d)

/-- The rational `n / d` as a Q4.27 constant, rounded to nearest and saturated (R13, R163). -/
def const27 (n : Int) (d : Nat) : Int := satQ27 (rneDiv (n * one27) d)

/-- Integer square root rounding down (R161, SQRT), by halving steps of at most `fuel` bits. -/
def isqrtGo : Nat → Nat → Nat → Nat
  | 0, _, r => r
  | fuel + 1, n, r =>
    let c := r + 2 ^ fuel
    isqrtGo fuel n (if c * c ≤ n then c else r)

/-- Floor of the square root of a number below 2^200. -/
def isqrt (n : Nat) : Nat := isqrtGo 100 n 0

/-- The square root of n/d rounded to nearest; a tie cannot occur. -/
def sqrtRound (n d : Nat) : Nat :=
  let r := isqrt (n / max 1 d)
  if (2 * r + 1) * (2 * r + 1) * max 1 d < 4 * n then r + 1 else r

/-- Sign of a value: −1, 0 or 1. -/
def sgn (z : Int) : Int := if 0 < z then 1 else if z < 0 then -1 else 0

/-- A DIV block's divisor bounded below in magnitude by a floor, keeping its sign; the positive floor for a zero
divisor (R162). -/
def divFloor (d floor : Int) : Int :=
  if d.natAbs < floor.natAbs then (if d < 0 then -floor else floor) else d

/-! ### Angles (R14) -/

/-- The signed reading of an angle difference, in 2^-32 turns, within −0.5 to +0.5 turn. -/
def angDiff (a b : Word) : Int := (a - b).toInt

/-- Sixty degrees in counts (R136). -/
def deg60 : Int := 715827883

/-! ### Bit fields and bytes -/

/-- The field [lo + n − 1 : lo] of a number (R5). -/
def fld (x lo n : Nat) : Nat := (x / 2 ^ lo) % 2 ^ n

/-- Bit `k` of a number. -/
def bitAt (x k : Nat) : Bool := decide (x / 2 ^ k % 2 = 1)

/-- 1 for true, 0 for false. -/
def b01 (b : Bool) : Nat := if b then 1 else 0

/-- Little-endian bytes of a number, `n` of them (R6). -/
def leBytes : Nat → Nat → List Byte
  | 0, _ => []
  | n + 1, x => BitVec.ofNat 8 x :: leBytes n (x / 256)

/-- The number that little-endian bytes spell (R6). -/
def leNat : List Byte → Nat
  | [] => 0
  | b :: bs => b.toNat + 256 * leNat bs

/-- The `n`-byte little-endian field at an offset; missing bytes read zero. -/
def leAt (bs : List Byte) (off n : Nat) : Nat := leNat ((bs.drop off).take n)

/-- Big-endian number of a list of bytes (published standards, R6). -/
def beNat (bs : List Byte) : Nat := bs.foldl (fun a b => a * 256 + b.toNat) 0

/-- Big-endian bytes of a number, `n` of them. -/
def beBytes (n x : Nat) : List Byte := (leBytes n x).reverse

/-- Number of set bits among the low 32. -/
def popCount (x : Nat) : Nat := (List.range 32).foldl (fun a k => a + x / 2 ^ k % 2) 0

/-! ### CRC-32C (R70, R71): reflected polynomial 0x82F63B78. PRESUMED from the published standard, log 7. -/

/-- Eight shifts of the CRC register. -/
def crcBits : Nat → BitVec 32 → BitVec 32
  | 0, c => c
  | k + 1, c => crcBits k (if c.getLsbD 0 then (c >>> 1) ^^^ 0x82F63B78#32 else c >>> 1)

/-- CRC-32C of a byte string with an initial value, final XOR 0xFFFFFFFF (R309). -/
def crc32cFrom (init : BitVec 32) (bs : List Byte) : BitVec 32 :=
  ~~~ (bs.foldl (fun c b => crcBits 8 (c ^^^ b.zeroExtend 32)) init)

/-- CRC-32C of a byte string. -/
def crc32c (bs : List Byte) : BitVec 32 := crc32cFrom 0xFFFFFFFF#32 bs

/-! ### SHA-256 (R75, R76, R410) and SHA-512 (R75). PRESUMED from the published standard, log 7. -/

/-- The fractional bits of the cube roots of the first eighty primes, 64 bits each, five to an entry. -/
def sha2Bits : List Nat := [
  0x428a2f98d728ae227137449123ef65cdb5c0fbcfec4d3b2fe9b5dba58189dbbc3956c25bf348b538,
  0x59f111f1b605d019923f82a4af194f9bab1c5ed5da6d8118d807aa98a303024212835b0145706fbe,
  0x243185be4ee4b28c550c7dc3d5ffb4e272be5d74f27b896f80deb1fe3b1696b19bdc06a725c71235,
  0xc19bf174cf692694e49b69c19ef14ad2efbe4786384f25e30fc19dc68b8cd5b5240ca1cc77ac9c65,
  0x2de92c6f592b02754a7484aa6ea6e4835cb0a9dcbd41fbd476f988da831153b5983e5152ee66dfab,
  0xa831c66d2db43210b00327c898fb213fbf597fc7beef0ee4c6e00bf33da88fc2d5a79147930aa725,
  0x06ca6351e003826f142929670a0e6e7027b70a8546d22ffc2e1b21385c26c9264d2c6dfc5ac42aed,
  0x53380d139d95b3df650a73548baf63de766a0abb3c77b2a881c2c92e47edaee692722c851482353b,
  0xa2bfe8a14cf10364a81a664bbc423001c24b8b70d0f89791c76c51a30654be30d192e819d6ef5218,
  0xd69906245565a910f40e35855771202a106aa07032bbd1b819a4c116b8d2d0c81e376c085141ab53,
  0x2748774cdf8eeb9934b0bcb5e19b48a8391c0cb3c5c95a634ed8aa4ae3418acb5b9cca4f7763e373,
  0x682e6ff3d6b2b8a3748f82ee5defb2fc78a5636f43172f6084c87814a1f0ab728cc702081a6439ec,
  0x90befffa23631e28a4506cebde82bde9bef9a3f7b2c67915c67178f2e372532bca273eceea26619c,
  0xd186b8c721c0c207eada7dd6cde0eb1ef57d4f7fee6ed17806f067aa72176fba0a637dc5a2c898a6,
  0x113f9804bef90dae1b710b35131c471b28db77f523047d8432caab7b40c724933c9ebe0a15c9bebc,
  0x431d67c49c100d4c4cc5d4becb3e42b6597f299cfc657e2a5fcb6fab3ad6faec6c44198c4a475817]

/-- Round constant `t` at `w` bits: the leading bits of its cube root. -/
def sha2K (w t : Nat) : BitVec w :=
  BitVec.ofNat w (sha2Bits.getD (t / 5) 0 / 2 ^ (64 * (4 - t % 5)) % 2 ^ 64 / 2 ^ (64 - w))

/-- What sets one function of the family apart: rounds, the rotations of the two mixing functions of a round, and of the two of
the schedule, whose last entry is a shift. -/
structure Sha2 where
  rounds : Nat
  mixA : List Nat
  mixE : List Nat
  old : List Nat
  new : List Nat
  deriving DecidableEq, Repr

/-- SHA-256. -/
def sha2Small : Sha2 := ⟨64, [2, 13, 22], [6, 11, 25], [7, 18, 3], [17, 19, 10]⟩

/-- SHA-512. -/
def sha2Large : Sha2 := ⟨80, [28, 34, 39], [14, 18, 41], [1, 8, 7], [19, 61, 6]⟩

/-- A word's rotations, added bit by bit. -/
def rotations {w : Nat} (rs : List Nat) (x : BitVec w) : BitVec w := rs.foldl (fun a r => a ^^^ x.rotateRight r) 0

/-- Two rotations and a shift, added bit by bit. -/
def scheduleMix {w : Nat} (rs : List Nat) (x : BitVec w) : BitVec w := rotations (rs.take 2) x ^^^ x >>> rs.getD 2 0

/-- The schedule, newest word first, with `n` words more. -/
def sha2Extend {w : Nat} (f : Sha2) : Nat → List (BitVec w) → List (BitVec w)
  | 0, ws => ws
  | n + 1, ws =>
    sha2Extend f n ((scheduleMix f.new (ws.getD 1 0) + scheduleMix f.old (ws.getD 14 0) + ws.getD 6 0 + ws.getD 15 0) :: ws)

/-- One round: the working words by position, the first and the fifth replaced, the others moved on. -/
def sha2Round {w : Nat} (f : Sha2) (v : List (BitVec w)) (kw : BitVec w) : List (BitVec w) :=
  let at_ := fun (k : Nat) => v.getD k 0
  let add := kw + at_ 7 + rotations f.mixE (at_ 4) + (at_ 6 ^^^ (at_ 4 &&& (at_ 5 ^^^ at_ 6)))
  let top := rotations f.mixA (at_ 0) + ((at_ 0 &&& (at_ 1 ||| at_ 2)) ||| (at_ 1 &&& at_ 2))
  (add + top) :: v.take 3 ++ (at_ 3 + add) :: (v.drop 4).take 3

/-- Rounds `t` onward over the schedule, oldest word first. -/
def sha2Rounds {w : Nat} (f : Sha2) : Nat → List (BitVec w) → List (BitVec w) → List (BitVec w)
  | _, v, [] => v
  | t, v, x :: xs => sha2Rounds f (t + 1) (sha2Round f v (sha2K w t + x)) xs

/-- The chaining value after one block of sixteen words. -/
def sha2Block {w : Nat} (f : Sha2) (h : List (BitVec w)) (blk : List Byte) : List (BitVec w) :=
  let first := (List.range 16).map fun i => BitVec.ofNat w (beNat ((blk.drop (w / 8 * i)).take (w / 8)))
  List.zipWith (· + ·) h (sha2Rounds f 0 h (sha2Extend f (f.rounds - 16) first.reverse).reverse)

/-- The chaining value after `n` blocks. -/
def sha2Blocks {w : Nat} (f : Sha2) : Nat → List (BitVec w) → List Byte → List (BitVec w)
  | 0, h, _ => h
  | n + 1, h, m => sha2Blocks f n (sha2Block f h (m.take (2 * w))) (m.drop (2 * w))

/-- A message padded to whole blocks of `2 * w` bytes, its length in bits in the last `w / 4`. -/
def sha2Pad (w : Nat) (m : List Byte) : List Byte :=
  let zeros := (4 * w - 1 - w / 4 - m.length % (2 * w)) % (2 * w)
  m ++ [0x80#8] ++ List.replicate zeros 0#8 ++ beBytes (w / 4) (8 * m.length)

/-- The digest of a message; `start` holds the fractional bits of the square roots of the first eight primes. -/
def sha2 {w : Nat} (f : Sha2) (start : Nat) (m : List Byte) : List Byte :=
  let h := ((List.range 8).map fun k => BitVec.ofNat w (start / 2 ^ (w * k))).reverse
  let p := sha2Pad w m
  (sha2Blocks f (p.length / (2 * w)) h p).flatMap fun x => beBytes (w / 8) x.toNat

/-- SHA-256 of a byte string, as 32 bytes. -/
def sha256 (m : List Byte) : List Byte :=
  sha2 (w := 32) sha2Small 0x6a09e667bb67ae853c6ef372a54ff53a510e527f9b05688c1f83d9ab5be0cd19 m

/-! ### Lane Y (R164) -/

/-- c_j: `lane_seed` rotated left by (j mod 32). -/
def laneOffset (seed : Word) (j : Nat) : Word := seed.rotateLeft (j % 32)

/-- e = (NOT x) + c_j modulo 2^32. -/
def laneEnc (c x : Word) : Word := ~~~ x + c

/-- x = NOT (e − c_j) modulo 2^32. -/
def laneDec (c e : Word) : Word := ~~~ (e - c)

/-- The 48-bit offset of an accumulator, c_j[15:0] followed by c_j. -/
def laneOffset48 (c : Word) : BitVec 48 := (c.extractLsb' 0 16) ++ c

/-! ### PRBS (R178) -/

/-- The stages XORed into the feedback bit for an order; none outside 7–23. -/
def prbsTaps (order : Nat) : List Nat :=
  match order with
  | 7 => [7, 6] | 8 => [8, 6, 5, 4] | 9 => [9, 5] | 10 => [10, 7] | 11 => [11, 9]
  | 12 => [12, 6, 4, 1] | 13 => [13, 4, 3, 1] | 14 => [14, 5, 3, 1] | 15 => [15, 14]
  | 16 => [16, 15, 13, 4] | 17 => [17, 14] | 18 => [18, 11] | 19 => [19, 6, 2, 1]
  | 20 => [20, 17] | 21 => [21, 19] | 22 => [22, 21] | 23 => [23, 18]
  | _ => []

/-- One bit of the sequence: the output bit sn, and the register after the shift (stage k at position k − 1). -/
def prbsStep (order : Nat) (reg : List Bool) : Bool × List Bool :=
  let out := reg.getD (order - 1) false
  let b := (prbsTaps order).foldl (fun a k => xor a (reg.getD (k - 1) false)) false
  (out, (b :: reg).take order)

/-! ### Stamps and curves -/

/-- R19: full time of a stamp, from the epoch record's stream stamp and its full time in ns. -/
def extendStamp (epochStamp : Word) (epochNs : Int) (stamp : Word) : Int :=
  epochNs + (stamp - epochStamp).toInt

/-- Time in ms and voltage in 0.0001 pu of one curve word (R139). -/
def curvePoint (w : Word) : Nat × Nat := (w.toNat / 65536, w.toNat % 65536)

/-- The voltage of a curve at an elapsed time in ps, in 1/(d·10^4) pu as numerator and d (R139). -/
def curveGo (tPs : Nat) : (Nat × Nat) → List (Nat × Nat) → Int × Nat
  | (_, v0), [] => (v0, 1)
  | (t0, v0), (t1, v1) :: rest =>
    if t1 * 1000000000 ≤ tPs then curveGo tPs (t1, v1) rest
    else
      let d := (t1 - t0) * 1000000000
      ((v0 : Int) * d + ((v1 : Int) - v0) * ((tPs : Int) - (t0 : Int) * 1000000000), d)

/-- The curve's voltage at an elapsed time, as a Q4.27 value rounded to nearest (R13, R139). -/
def curveAt (ws : List Word) (tPs : Nat) : Int :=
  match ws.map curvePoint with
  | [] => 0
  | p :: ps =>
    let (n, d) := curveGo tPs p ps
    const27 n (d * 10000)

/-- R139: a curve is admissible (times non-decreasing from 0, field ranges; `up` for UV, down for OV; bound by
the start threshold in Q4.27). -/
def curveOk (up : Bool) (ws : List Word) (start : Int) : Bool :=
  let ps := ws.map curvePoint
  (ps.headD (1, 0)).1 = 0 &&
  ps.all (fun p => p.1 ≤ 60000 && p.2 ≤ 15000 &&
    (if up then decide (const27 p.2 10000 ≤ start) else decide (start ≤ const27 p.2 10000))) &&
  (List.zip ps ps.tail).all (fun (a, b) => a.1 ≤ b.1 && (if up then a.2 ≤ b.2 else b.2 ≤ a.2))

/-! ### Glaze (R143) -/

/-- One shaped quantity: value and rate in Q8.39, whether x ≠ g, and the sign of the last e. -/
structure Glz where
  x : Int := 0
  r : Int := 0
  lim : Bool := false
  sign : Int := 0
  deriving DecidableEq, Repr

/-- One outer step of R143: target g (Q8.39), rate limit in µpu/s, jerk in µpu/s², outer period in ps. The flag
tells a reversal (R145): e changed sign while r ≠ 0. -/
def Glz.shape (q : Glz) (g : Int) (rate jerk tPs : Nat) : Glz × Bool :=
  let e := g - q.x
  if e = 0 then (⟨q.x, 0, false, 0⟩, false)
  else
    let rev := decide (q.sign * sgn e = -1) && decide (q.r ≠ 0)
    let rMax := rneDiv ((rate : Int) * one39) 1000000
    let root : Int := isqrt (2 * jerk * e.natAbs * 549755813888 / 1000000)
    let rs := sgn e * min rMax root
    let jt := rneDiv ((jerk : Int) * tPs * one39) (1000000 * 1000000000000)
    let r := satAcc (q.r + clampI (-jt) jt (rs - q.r))
    let x1 := satAcc (q.x + rneDiv (r * tPs) 1000000000000)
    if sgn (g - x1) = -(sgn e) then (⟨g, 0, false, sgn e⟩, rev)
    else (⟨x1, r, decide (x1 ≠ g), sgn e⟩, rev)

end Sys2Proof.Machine

namespace Sys2Proof

/-! ### Topology (R21, R25, R234) -/

/-- Legs used by a topology. -/
def Topology.legs : Topology → Nat
  | .twoLevel => 3 | .il2 => 6 | .il3 => 9 | .il4 => 12 | .tType => 6 | .dc k => k

/-- Groups owned by a topology (R25). -/
def Topology.groups : Topology → Nat
  | .il3 => 2 | .il4 => 2 | _ => 1

/-- A topology of the table of R25. -/
def Topology.ok : Topology → Bool
  | .dc k => decide (1 ≤ k ∧ k ≤ 6)
  | _ => true

/-- DC topologies. -/
def Topology.isDc : Topology → Bool
  | .dc _ => true
  | _ => false

/-- Legs per phase n; k for a DC port (R129, R234). -/
def Topology.perPhase : Topology → Nat
  | .twoLevel => 1 | .il2 => 2 | .il3 => 3 | .il4 => 4 | .tType => 1 | .dc k => k

/-- Phase of port-relative leg index q (R234); a DC leg is its own phase. -/
def Topology.phaseOf (t : Topology) (q : Nat) : Nat :=
  match t with
  | .tType => q / 2
  | .dc _ => q
  | t => q / t.perPhase

/-- Automatic φ of port-relative leg index q at period P (R234), rounded down to an even tick. -/
def Topology.autoPhase (t : Topology) (q P : Nat) : Nat :=
  match t with
  | .twoLevel => 0
  | .tType => 0
  | .dc k => if k = 0 then 0 else q * P / k / 2 * 2
  | t => (q % t.perPhase) * P / t.perPhase / 2 * 2

end Sys2Proof

namespace Sys2Proof.Machine

/-- Compare count of a duty (Q4.27) at period P (R236): rounding to nearest, ties to even. -/
def compareCount (saw : Bool) (duty : Int) (P : Nat) : Int :=
  if saw then rneDiv (duty * P) 134217728
  else rneDiv ((one27 - duty) * P) 268435456

end Sys2Proof.Machine
end

