-- ==== Sys2Proof/Machine/State.lean ====
section
/-! DEFINITION. The state of the block as plain data, the reasons a step can stop, and the state after reset.
Every 32-bit parameter word lives in `regs` under its identifier (R436); what a parameter does not show whole has a
typed field. Instants are picoseconds since the model's start (log 1). -/

namespace Sys2Proof.Machine

/-- Reasons the machine stops. No meaning of this block ends in a fault: every failure the spec describes is an
effect on the state (R85, R270, R287). The constructor is kept for the interface. -/
inductive Fault where
  /-- Never raised: the block has no stop of its own. Safe. -/
  | none
  deriving DecidableEq, Repr

/-- Reasons a command has no meaning. -/
inductive Refusal where
  /-- Raised by a dispatch arm whose command has no meaning yet. Safe. -/
  | notModelled (mnemonic : String)
  deriving DecidableEq, Repr

/-! ### Unit -/

/-- Unit states of R84. -/
inductive UnitState where
  | off | reset | refLock | imageLoad | selfTest | ready | readyUnbound | readyRefused
  | energise | run | limited | rideThrough | stopping | standby | faultHold | safeStop
  deriving DecidableEq, Repr

/-- Codes of R84. -/
def UnitState.code : UnitState → Nat
  | .off => 0x00 | .reset => 0x01 | .refLock => 0x02 | .imageLoad => 0x03 | .selfTest => 0x04
  | .ready => 0x10 | .readyUnbound => 0x11 | .readyRefused => 0x12 | .energise => 0x20
  | .run => 0x30 | .limited => 0x31 | .rideThrough => 0x32 | .stopping => 0x40 | .standby => 0x50
  | .faultHold => 0x60 | .safeStop => 0x70

/-- The timers of the rows that recur (log 9): the evaluation of the safety channels (R286), the straps (R305), the test pulses of
each input channel (R301), the off-pulses of each output (R302), the coils (R294), the status packet (R309), the pair announce
(R320), the standby's island test (R326), the peer delay, Sync and Announce of PTP (R379), the time reference of each CAN channel
(R373), the announcement (R415), and the starts that Lattice skips without ticks (R340). -/
inductive Timer where
  | safety | strap | testPulse (n : Nat) (chB : Bool) | offPulse (k : Nat) | coil (k : Nat) | status | pairAnnounce | islandTest
  | pdelay | sync | gmAnnounce | tref (ch : Nat) | announce | latSkip | segRetry
  deriving DecidableEq, Repr

/-- What the shell holds of the unit besides its state: undervoltage of VIN in force (R454), the instant RESET
ended (R81), planned surrender under way (R195), an engine surrender or give-up waiting for the
update point (R169, R331), a SAFE cross-monitor finding or safety demand held since RESET (R287), the
instant at which the inner switches of T-type phases lose their enables (R289). -/
structure UnitSt where
  st : UnitState := .reset
  vinUv : Bool := false
  resetEnd : Nat := 0
  planned : Bool := false
  surrender : Bool := false
  held : Bool := false
  innerOff : Option Nat := none
  deriving DecidableEq, Repr

/-- Fuses that no parameter shows (R75, R307, R396, R413, R414): unit key, factory key, key of the active
re-binding record, and the safety commitment. The fuses that parameters show stand in `regs` (R440). -/
structure Fuses where
  unitKey : BitVec 128 := 0
  factoryKey : BitVec 128 := 0
  rebindKey : Option (BitVec 128) := none
  deriving DecidableEq, Repr

/-! ### Events (R41, R42, R408) -/

/-- An event record (R408): internal time in ns, code, instance, severity byte, context, stream stamp. -/
structure EvRec where
  timeNs : Nat
  code : Nat
  inst : Nat
  sev : Nat
  ctx : BitVec 64
  stamp : BitVec 32
  deriving DecidableEq, Repr

/-- One coalescing counter (R41). -/
structure Coal where
  code : Nat
  inst : Nat
  count : Nat
  stamp : BitVec 32
  deriving DecidableEq, Repr

/-- Q-EVT with its counters, and the event store ring: `ring` holds the newest records oldest first, `first` is the
record number of its head (R402), so `first` also counts the records overwritten (R42). -/
structure EvSt where
  q : List EvRec := []
  coal : List Coal := []
  ovf : Nat := 0
  ovfStamp : BitVec 32 := 0
  ovfCommon : Bool := false
  ovfKept : Bool := false
  ring : List EvRec := []
  first : Nat := 0
  deriving DecidableEq, Repr

/-! ### Reference and PLL (R55-R64) -/

/-- What the PLL is trying to lock to. -/
inductive RefSrc where
  | crystal | refIn | fallback
  deriving DecidableEq, Repr

/-- Why a lock attempt runs: at boot (R57), the scheduled relock of IMAGE-LOAD (R57), the standby crystal of R64
step 2, the fallback clock, or a numbered attempt (R64 step 3). -/
inductive AttemptKind where
  | boot | scheduled | standby | fallback | attempt
  deriving DecidableEq, Repr

/-- A lock attempt in progress. -/
structure Attempt where
  target : RefSrc
  kind : AttemptKind
  start : Nat
  deriving DecidableEq, Repr

/-- The reference procedure: boot reference and its frequency in kHz, the attempt in progress, whether the unit runs
locked and on what, since when, the start of the last attempt, whether a relock procedure runs,
the reference that the image declares, whether start-up waits for it,
the attempts that failed since 60 s of lock (R64), the reference that a phase-window loss names for the first attempt (R60), and
the loss that stopped TIME: its instant and the context of its event (R61). -/
structure RefSt where
  boot : RefSrc := .fallback
  bootKHz : Nat := 25000
  attempt : Option Attempt := none
  lockedTo : Option RefSrc := none
  lockedAt : Nat := 0
  lastAttempt : Nat := 0
  relocking : Bool := false
  decl : Option RefSrc := none
  startupWaits : Bool := false
  fails : Nat := 0
  first : Option RefSrc := none
  down : Option (Nat × Nat) := none
  deriving DecidableEq, Repr

/-! ### Image (R69-R79) -/

/-- One wrapped key entry of section 0x0009 (R397): code, enabled, unwrapped key when it unwrapped. -/
structure KeyEntry where
  code : Nat
  enabled : Bool
  key : Option (BitVec 128)
  deriving DecidableEq, Repr

/-- One block of a law graph (R158) with its input references (R159) and its constants, and whether the ladder has dropped it. -/
structure GraphBlock where
  typ : Nat
  optional : Bool
  bypass : Bool
  rank : Nat
  cost : Nat
  ins : Nat
  outs : Nat
  key : Nat
  refs : List Nat := []
  consts : List Int := []
  dropped : Bool := false
  deriving DecidableEq, Repr

/-- One partition of a law graph (R157). -/
structure Graph where
  port : Nat
  outer : Bool
  blocks : List GraphBlock
  deriving DecidableEq, Repr

/-- A quantity that the image declares (R31): scope and index, number of elements, and the fast channel of each element of a
sampled quantity, or the point of the port's graph that a computed one names, in the form of R176. -/
structure Quantity where
  addr : Nat
  len : Nat
  chans : List Nat
  points : List Nat := []
  deriving DecidableEq, Repr

/-- What the unit keeps of the booted image: whether a slot is chosen and foreign, its bound serial, the declared
ports, the graphs of the primary and the alternate set, the 32-byte pair digest, keys, and the safety block bytes. -/
structure ImgSt where
  loaded : Bool := false
  foreign : Bool := false
  boundSerial : Nat := 0
  graphs : List Graph := []
  altGraphs : List Graph := []
  quants : List Quantity := []
  hasAlt : Bool := false
  digest : List Byte := []
  keys : List KeyEntry := []
  claims : List (List Byte) := []
  deriving DecidableEq, Repr

/-- Ferroelectric memory (R78, R197, R198, R203, R308, R411, R439): the next_slot record (none when its check fails), the retained
LIVE record with its digest, the ladder record (`ladderPrim`: groups dropped in the primary set), rung entries, hourly ring, the
committed safety record, audit anchors. Lifetime words and vce records stand in `regs` (R440). -/
structure Fram where
  nextSlot : Option Nat := some 0
  live : List (Nat × BitVec 32) := []
  liveDigest : List Byte := []
  ladderDigest : List Byte := []
  ladderRung : Nat := 1
  ladderDropped : Nat := 0
  ladderSet : Nat := 0
  ladderPrim : Nat := 0
  rungs : List (List Byte) := []
  anchors : List (Nat × List Byte) := []
  safety : Nat × Nat := (0, 0)
  deriving DecidableEq, Repr

/-! ### Ports (R90-R150, R171-R175, R268-R276) -/

/-- Port states of R110. -/
inductive PortState where
  | idle | armed | energising | syncing | run | limited | portStop
  deriving DecidableEq, Repr

/-- Codes of R110. -/
def PortState.code : PortState → Nat
  | .idle => 0 | .armed => 1 | .energising => 2 | .syncing => 3 | .run => 4 | .limited => 5 | .portStop => 0xF

/-- What an ARMED port is waiting for (R112-R116): a start condition; the end of a back-off; a contactor
confirmation for a dead-bus ramp; the contactor's opening before it continues; the scheduled instant (internal
ns), with the contactor confirmed or not. -/
inductive ArmPhase where
  | waiting
  | backoff (untilPs : Nat)
  | closing (since : Nat)
  | reopening
  | scheduled (atNs : Nat)
  deriving DecidableEq, Repr

/-- The bus as last declared (R113). -/
inductive BusSeen where
  | dead | live | neither
  deriving DecidableEq, Repr

/-- The outer law's state (R93-R100, R126, R127, R131, R143), in accumulators. An outer step that mismatches or is
abandoned keeps none of it (R166, R168), so the engine saves it beside the port. -/
structure LawSt where
  omega : Int := 0
  e : Int := 0
  pF : Int := 0
  qF : Int := 0
  glzP : Glz := {}
  glzQ : Glz := {}
  glzV : Glz := {}
  glzF : Glz := {}
  omegaFrz : Option Int := none
  clampW : Bool := false
  clampE : Bool := false
  slipping : Bool := false
  gfD : Int := 0
  gfQ : Int := 0
  deriving DecidableEq, Repr

/-- The sums the engine keeps over an outer period (R93, R129, R130, R136): p and q in accumulators, V in Q4.27, their number, the
first angle of the capacitor voltage with the sum of the angles from it, the same of the bus voltage with its magnitudes, whether saturation acted, and each clipped leg with its
largest reference. -/
structure OuterAcc where
  p : Int := 0
  q : Int := 0
  v : Int := 0
  n : Nat := 0
  th0 : BitVec 32 := 0
  dth : Int := 0
  busTh0 : BitVec 32 := 0
  busDth : Int := 0
  busV : Int := 0
  sat : Bool := false
  clips : List (Nat × Int) := []
  deriving DecidableEq, Repr

/-- Supervision of one element (R171-R175): role, element, consecutive unusable periods, lost, usable run, first failing
test of the run. -/
structure FbEl where
  role : Nat
  elem : Nat
  bad : Nat := 0
  lost : Bool := false
  good : Nat := 0
  test : Nat := 0
  deriving DecidableEq, Repr

/-- One Q-SMP entry (R207, R38): stamp of the sample instant, the words, and the overwrite flag. -/
structure SmpEntry where
  stamp : BitVec 32
  words : List (BitVec 32)
  ovw : Bool := false
  deriving DecidableEq, Repr

/-- One Q-REF entry (R241): stamp of its commit, generation, the leg references, the carrier period (0 where the graph gives
none), and the overwrite flag (R38). -/
structure RefEntry where
  stamp : BitVec 32
  gen : Nat
  refs : List LegRef
  period : Nat
  ovw : Bool := false
  deriving DecidableEq, Repr

/-- One Q-OUT entry (R147): stamp of its commit, ω, E, `rv`, `xv`, the effective limit, the current reference of a grid-following
port (R102), the voltage reference at the outer step, and the overwrite flag (R38). -/
structure OutEntry where
  stamp : BitVec 32
  omega : Int
  e : Int
  rv : Int := 0
  xv : Int := 0
  lim : Int := 0
  iD : Int := 0
  iQ : Int := 0
  vD : Int := 0
  vQ : Int := 0
  ovw : Bool := false
  deriving DecidableEq, Repr

/-- What a partition of a law graph keeps from its last agreed execution (R159, R165): each block's inputs, outputs and state
words. -/
structure PartSt where
  ins : List (List Int) := []
  outs : List (List Int) := []
  cells : List (List Int) := []
  deriving DecidableEq, Repr

/-- The estimates of one AC port's inner partition in a period (R103 step 1 and the separation into sequences of step 4), in Q4.27:
capacitor voltage and output current in the dq frames of both sequences, the angle of the positive-sequence voltage (R14), both parts of
the converter-side current, angle and magnitude of the positive-sequence bus voltage (R136), and the observer's prediction of each
element for the next period (role, element, value). -/
structure InnerRes where
  vd : Int
  vq : Int
  id : Int
  iq : Int
  thetaV : BitVec 32
  iPos : Int × Int
  iNeg : Int × Int
  vNeg : Int × Int
  iNegOut : Int × Int
  busAng : BitVec 32
  busMag : Int
  pred : List (Nat × Nat × Int)
  deriving DecidableEq, Repr

/-- A synchronous-frame tracker (R102, R113): magnitude and frequency in Q4.27, angle, and its state words. -/
structure TrkSt where
  v : Int := 0
  f : Int := 0
  ang : BitVec 32 := 0
  cells : List Int := []
  deriving DecidableEq, Repr

/-- The integrators of the voltage loop in accumulators (R101, R103 step 4): both components of the positive and of the negative
sequence; on a DC port the first. -/
structure LoopSt where
  pos : Int × Int := (0, 0)
  neg : Int × Int := (0, 0)
  deriving DecidableEq, Repr

/-- What an outer step had before it ran, put back when it mismatches or is abandoned (R166, R168): the port state, the law, the
budget and L_s of R126, jump and slip history, the excursion, and the words it shows. -/
structure OuterSave where
  st : PortState
  law : LawSt
  budget : Nat
  lim : Int
  jumpPrev : Option (BitVec 32)
  jumpIncs : List Int
  deltaPrev : Option Int
  slipAt : Option Nat
  dwellFrom : Option Nat
  rt : Bool × Nat × Option Nat
  words : List (Nat × BitVec 32)
  deriving DecidableEq, Repr

/-- A port. `used` tells that the image declares it (R26). Instants are in ps; none means not running. `outIn` is what the inner
partition last took from Q-OUT, `outNext` what the outer step under way will put there; `legDuty` the duties that the law itself forms, with the state words `res` of
its resonators (R103); `vRef`, `iSat` and `legClip` the voltage
reference of R98 and R100, the two parts of the current reference after R128 and the clipped leg references of R129 in the last
agreed period; `xAdd` stands in the accumulator (R127). `busLow` and `busHigh` tell since when the bus lies below `dead_level`, and
at or above `live_level` (R113); `jumpBus` that the last θ_m was the bus's (R136); `budget` counts ps times `hard_cooldown` (R126).
`outerRan` tells that this outer period's step has begun, `outerLeft` what operations it has left (R153), and `stepAt` its instant
while its evaluation of the port state has ended with no change, so that a timer may act in it (R110). `cause` is the event code
behind the last change of the port state, 0 for none (R86). `busTrk` and `gfTrk` are the trackers of the bus and of a
grid-following port, `obs` the state words of the observer (R102, R103, R113). `loop` holds the voltage loop's integrators, `lls` the line-to-line
capacitor voltages of the last half cycle, newest first (R138). `vals` are the element
values the lanes read, measured or substituted, and `pred` the observer's predictions (R172). `deadLegs` are the faulted legs of a
derated port (R271). `noCarrier` holds the carriers until the port is energised again (R61). -/
structure PortSt where
  used : Bool := false
  topo : Topology := .twoLevel
  firstGroup : Nat := 0
  st : PortState := .idle
  since : Nat := 0
  mode : Nat := 0
  accepted : Bool := false
  arm : ArmPhase := .waiting
  contactor : Bool := false
  confirmIn : Option Bool := none
  bus : BusSeen := .neither
  busTrk : TrkSt := {}
  gfTrk : TrkSt := {}
  obs : List Int := []
  busLow : Option Nat := none
  busHigh : Option Nat := none
  law : LawSt := {}
  saved : Option OuterSave := none
  outerRan : Bool := false
  outerLeft : Nat := 0
  stepAt : Option Nat := none
  cause : Nat := 0
  gIn : PartSt := {}
  gOut : PartSt := {}
  acc : OuterAcc := {}
  done : OuterAcc := {}
  theta48 : Nat := 0
  outIn : OutEntry := ⟨0, 0, 0, 0, 0, 0, 0, 0, 0, 0, false⟩
  outNext : OutEntry := ⟨0, 0, 0, 0, 0, 0, 0, 0, 0, 0, false⟩
  qOut : List OutEntry := []
  vRef : Int × Int := (0, 0)
  loop : LoopSt := {}
  lls : List (Int × Int × Int) := []
  iSat : (Int × Int) × Int × Int := ((0, 0), 0, 0)
  legClip : List (Nat × Int) := []
  legDuty : List (Nat × Int) := []
  res : List (List Int) := []
  heldRun : Nat := 0
  xAdd : Int := 0
  tviStart : Option Nat := none
  rampDown : Bool := false
  inner : Option InnerRes := none
  dwellFrom : Option Nat := none
  permissiveAt : Option Nat := none
  dthPred : Int := 0
  stopAt : Option Nat := none
  openAsked : Bool := false
  jumpPrev : Option (BitVec 32) := none
  jumpIncs : List Int := []
  jumpBus : Bool := false
  deltaPrev : Option Int := none
  slipAt : Option Nat := none
  rtOpen : Bool := false
  rtPs : Nat := 0
  rtBandFrom : Option Nat := none
  budget : Nat := 0
  exhausted : Bool := false
  lim : Int := 0
  limAt : Nat := 0
  satAt : Nat := 0
  fb : List FbEl := []
  vals : List (Nat × Nat × Int) := []
  pred : List (Nat × Nat × Int) := []
  sumBad : List (Nat × Nat) := []
  residBad : List ((Nat × Nat) × Nat) := []
  openLoop : Option Nat := none
  runFrom : Option Nat := none
  legDecide : Bool := false
  protDown : Bool := false
  smpFired : Option Nat := none
  fLegNum : Nat := 1
  fLegDen : Nat := 1
  deadLegs : List Nat := []
  tries : List Nat := []
  autoAt : Option Nat := none
  latCmdFail : Bool := false
  stopPend : Bool := false
  firstCause : Nat := 0
  fbBlocked : Bool := false
  dcOk : Nat := 0
  thrOk : Nat := 0
  qSmp : List SmpEntry := []
  smpTaken : Option SmpEntry := none
  smpSeen : Bool := false
  smpOvr : Nat := 0
  qRef : Option RefEntry := none
  outOvr : Nat := 0
  refOvr : Nat := 0
  perGen : Nat := 0
  noCarrier : Bool := false
  realign : Bool := false
  torn : List Nat := []
  deriving DecidableEq, Repr

/-! ### Engine, injection, Proofer -/

/-- The engine (R151-R170): inner periods begun since RESET, slacks captured this period (ps), late lanes (bit 0 X, bit 1 Y),
whether the period has been judged and its slack taken, the numbers of the failed periods among the last 1,000, the instant, the
stream stamp and the internal time (ns) of the last period tick, the inner periods since the last outer boundary, and the outer
boundaries since RESET; whether the period timer runs, by how many ticks this period is trimmed (R322, R386), and the PWM
ticks counted up to the last period tick (R349). -/
structure EngSt where
  count : Nat := 0
  doneX : Option Int := none
  doneY : Option Int := none
  late : Nat := 0
  judged : Bool := false
  slackDone : Bool := false
  fails : List Nat := []
  running : Bool := false
  trim : Int := 0
  ticks : Nat := 0
  tickAt : Nat := 0
  tickStamp : BitVec 32 := 0
  tickNs : Nat := 0
  outerIdx : Nat := 0
  bounds : Nat := 0
  deriving DecidableEq, Repr

/-- The injection (R176-R180): register of the PRBS, port, partition, wave and destination, start, periods of the partition
since, stored table entries; the point it acts at; the frequency of a stepped sine and the periods at it; the signal of this period and the values at
the two response points; and the demodulation sums of both points, cosine and sine, with 117 fraction bits. -/
structure InjSt where
  prbs : List Bool := []
  port : Nat := 0
  outer : Bool := false
  periods : Nat := 0
  wave : Nat := 0
  dest : Nat := 0
  point : Nat := 0
  startedAt : Nat := 0
  table : List (List Byte) := []
  idx : Nat := 0
  at_ : Nat := 0
  sig : Int := 0
  va : Int := 0
  vb : Int := 0
  sumA : Int × Int := (0, 0)
  sumB : Int × Int := (0, 0)
  deriving DecidableEq, Repr

/-- A pending ladder action for the next outer boundary (R191, R194, R196). -/
inductive Rung where
  | two | three (commanded : Bool) | four (commanded : Bool) | restore
  deriving DecidableEq, Repr

/-- Per-switch ageing (R199-R202): the hour's sum and count, baseline hours and sum. -/
structure VceSt where
  sum : Nat := 0
  n : Nat := 0
  lastAt : Option Nat := none
  baseHours : Nat := 0
  baseSum : Nat := 0
  baseN : Nat := 0
  lastN : Nat := 0
  deriving DecidableEq, Repr

/-- The Proofer (R184-R203). Slack values in ps. `secNo` is the second of internal time in progress (R187), `winAt` and `hourAt` the
starts of the window (R188) and of the power-on hour (R198); `pendRungs` are the ladder actions for an outer boundary, oldest first,
each with the boundaries still to come (R191, R334). -/
structure PrfSt where
  secNo : Nat := 0
  winAt : Nat := 0
  hourAt : Nat := 0
  winMin : Option Int := none
  winEmergency : Bool := false
  goodWins : Nat := 0
  secBins : List Nat := List.replicate 16 0
  secMin : Option Int := none
  hist : List Nat := List.replicate 16 0
  secAllMax : Bool := false
  lastRungAt : Option Nat := none
  okSecs : Nat := 0
  pendRungs : List (Rung × Nat) := []
  passed : List Nat := []
  datedAt : Option Nat := none
  lowSecs : Nat := 0
  hourMin : Option (Int × Nat) := none
  ring : List (Int × Nat) := []
  report : List Byte := []
  reportSeq : Nat := 0
  sw : List VceSt := List.replicate 48 {}
  deriving DecidableEq, Repr

/-! ### Conversion (R206-R229) -/

/-- A fast channel (R212, R213, R218): in an out-of-range run, the end of the neighbour window after it, the
conversion-0 codes since modulation began (at most 64, newest first), stuck-suspect, and the words of the conversions of the
last period that had any, conversion 0 first. -/
structure FastSt where
  run : Bool := false
  winEnd : Option Nat := none
  codes : List Int := []
  stuck : Bool := false
  convs : List (BitVec 32) := []
  deriving DecidableEq, Repr

/-- A slow channel: when its last result was stamped, whether stale was reported, and outside its limits. -/
structure SlowSt where
  at_ : Option Nat := none
  stampV : BitVec 32 := 0
  staleTold : Bool := false
  outside : Bool := false
  deriving DecidableEq, Repr

/-- A modulator of the slow converters (R220, R221): last scan start, scan in progress since, channel converting, and
when it began. -/
structure ModSt where
  lastScan : Option Nat := none
  scanFrom : Option Nat := none
  chan : Option Nat := none
  chanFrom : Nat := 0
  deriving DecidableEq, Repr

/-! ### Modulation (R230-R255) -/

/-- A leg's modulator (R231-R252): last boundary (ps) and boundaries since the port's start, region of a T-type phase, edges made in
the period in progress, rise wanted at a sawtooth boundary, a delayed edge (its y and the number of boundaries at its request), last
edge, instant of the next boundary, turn-on awaiting its dead time, last turn-on issued, commutation type and dead time in use, a
live commutation whose outcome is not reported yet, results waiting to govern (type, instant, ps), commutations without a near
crossing, passed its first boundary, loaded compare words, last firings (twice the compare, plus 1 for the share word; ps), dropped
turn-ons and conflicts within 1 s, T-type inner switches waiting for both outer confirmations, and the instant of those. -/
structure LegSt where
  boundary : Nat := 0
  bounds : Nat := 0
  upper : Bool := true
  edgeR : Bool := false
  edgeF : Bool := false
  upWant : Bool := false
  delayed : Option (Bool × Nat) := none
  lastEdge : Option Nat := none
  nextB : Option Nat := none
  onAt : Option Nat := none
  turnOn : Nat := 0
  ctype : Nat := 0
  dtUsed : Nat := 0
  measuring : Bool := false
  waiting : List (Nat × Nat × Nat) := []
  missRun : Nat := 0
  started : Bool := false
  xcNow : List (BitVec 32) := List.replicate 6 0
  xsNow : List (BitVec 32) := List.replicate 6 0
  fires : List (Nat × Nat) := []
  drops : List Nat := []
  conflicts : List Nat := []
  innerWait : Bool := false
  innerFrom : Option Nat := none
  thr : Option (Int × Int) := none
  deriving DecidableEq, Repr

/-! ### Islands (R256-R283) -/

/-- An island (R256-R281): instants at which an on and an off command on their way arrive (R239, R257), last command on, turn-on
pending since, instants of the last on command and of the partner notice of the partner's last off command, off command not yet
confirmed, switch on, gate above `gs_plateau_v`, OFF-confirm, soft turn-off since and at full strength, latched off, lost,
undervoltage (bit 0 VP, bit 1 VN), enable, last keep-alive, pulse length asked for and end, self-test running since, NS fault,
watchdog expired, detection bits 3-5 and 10 of `isl_status`, failed-test mark. -/
structure IslSt where
  onDue : Option Nat := none
  offDue : Option Nat := none
  onCmd : Bool := false
  pendAt : Option Nat := none
  cmdAt : Nat := 0
  noticeAt : Option Nat := none
  offAt : Option Nat := none
  on : Bool := false
  above : Bool := false
  offConf : Bool := true
  soft : Option Nat := none
  softFull : Bool := false
  latched : Bool := false
  lost : Bool := false
  uv : Nat := 0
  enable : Bool := false
  keepAt : Nat := 0
  pulseLen : Nat := 0
  pulseEnd : Option Nat := none
  testing : Option Nat := none
  nsFault : Bool := false
  wdExpired : Bool := false
  flags : Nat := 0
  marked : Bool := false
  deriving DecidableEq, Repr

/-! ### Safety (R284-R312) -/

/-- A dual-channel safe input (R299-R301): reported, filtered channels, permissive, discrepancy (0 none, 1 fault, 2 both
low since, 3 then both high), differing since, test-pulse fault per channel, a miss to confirm per channel, pulses
passed in a row per channel, and the instant of the last change of state. -/
structure SinSt where
  seen : Bool := false
  a : Bool := false
  b : Bool := false
  perm : Bool := false
  disc : Nat := 0
  diffAt : Option Nat := none
  tpBadA : Bool := false
  tpBadB : Bool := false
  tpMissA : Bool := false
  tpMissB : Bool := false
  tpPassA : Nat := 0
  tpPassB : Nat := 0
  changed : Nat := 0
  deriving DecidableEq, Repr

/-- A safety output (R302): commanded, read-back high, stuck on, stuck off, short, a failed off-pulse to confirm, read
back low with no current since, and a fault held since the last reset. -/
structure SoutSt where
  cmd : Bool := false
  high : Bool := false
  stuckOn : Bool := false
  stuckOff : Bool := false
  short : Bool := false
  miss : Bool := false
  lowFrom : Option Nat := none
  fault : Bool := false
  deriving DecidableEq, Repr

/-- The safety functions: inputs and outputs; a profile in force, the profile word and CRC-32C of the running block;
fault causes held and demands noted (cause, detail); gates permitted (SGO not demanding); packet reception (last accepted
sequence, sequence of the last closed window, open window with its copies, single-path run and mode, timeout armed at,
bits at 0 by a timeout, bits in force, causes awaiting a packet) and sending (sequence, last packet); reset requests
waiting; SBC (on since, request: 1 waiting, 2 waiting and arrived during a test); SCC (on, last command change, closed,
request and its edge, mirrors seen open since de-energising, mirror faults told, mirrors open since); holding test (since,
last pass, failed); coil checks; straps (last pattern, faulty lands, good reads, equal valid reads); last clock finding. -/
structure SafSt where
  sin : List SinSt := List.replicate 8 {}
  sout : List SoutSt := List.replicate 6 {}
  inForce : Bool := false
  blkProfile : Nat := 0
  blkCrc : Nat := 0
  faults : List (Nat × Nat) := []
  dem : List (Nat × Nat) := []
  gates : Bool := false
  lastSeq : Option Nat := none
  closedSeq : Option Nat := none
  win : Option (Nat × List (Nat × List Byte)) := none
  single : Nat := 0
  singleOn : Bool := false
  timer : Option Nat := none
  timedOut : Bool := false
  cmd : Option Nat := none
  await : List Nat := []
  txSeq : Nat := 0
  status : List Byte := []
  resetIn : Bool := false
  resetPkt : Bool := false
  sbcOn : Option Nat := none
  rel : Nat := 0
  sccOn : Bool := false
  sccAt : Nat := 0
  sccClosed : Bool := false
  sccReq : Bool := false
  sccEdge : Bool := false
  mirSeen : List Bool := [false, false]
  mirBad : List Bool := [false, false]
  mirOpen : Option Nat := none
  test : Option Nat := none
  passAt : Option Nat := none
  failed : Bool := false
  coilOk : List Bool := [true, true]
  strapLast : Option Nat := none
  strapBad : Nat := 0
  strapOk : Nat := 0
  strapEq : Nat := 0
  clockBad : Option Nat := none
  hwBad : Bool := false
  sccFail : Bool := false
  cmdPath : Nat := 0
  raw : List (Option (Bool × Bool)) := List.replicate 8 none
  deriving DecidableEq, Repr

/-! ### Standby pair (R317-R334) -/

/-- The pair: holds the biscuit; last frame or mark heard; period of the last valid frame and whether its silence was told; partner
state last reported; the announcement last judged (mismatch told at); a give-up under way (cause, release point) and the partner's
(release point, header arrival); received outer state image and port states waiting for the boundary, and writes and commands
forwarded by the partner or to it; ladder word last taken; health report being received and the last complete one with its instant;
unfit reasons; tracking run; next island to test. Last frame sent, with the outer image and the items that its slice carries, and
the period it was of; the outer image being sent and the health report being sent (report number, bytes left); start of the mark on
`PAIR_LEASE`; error of a mark that came before its tick; last announcement heard; period of the frame before the last; the partner's
own unfit reason; and the event of a FAULT-HOLD that waits for its release point. -/
structure PairSt where
  holds : Bool := false
  heardAt : Option Nat := none
  frameSeq : Nat := 0
  silenceTold : Bool := false
  partnerState : Nat := 0
  mismatchAt : Option Nat := none
  giveUp : Option (Nat × Nat) := none
  release : Option (Nat × Nat) := none
  image : List OuterImage := []
  portWord : Option Nat := none
  forwarded : List (Nat × BitVec 32 × Nat) := []
  outbox : List (Nat × BitVec 32 × Nat) := []
  rxReport : List (BitVec 8) := []
  report : List (BitVec 8) := []
  reportAt : Nat := 0
  unfit : List Nat := []
  trackBad : Nat := 0
  testIdx : Nat := 0
  sent : List (BitVec 8) := []
  sentImage : List OuterImage := []
  sentItems : List (Nat × BitVec 32 × Nat) := []
  txImage : List OuterImage := []
  markAt : Option Nat := none
  early : Option Int := none
  annAt : Option Nat := none
  prevSeq : Nat := 0
  sentSeq : Option Nat := none
  txSeq : Nat := 0
  txBuf : List (BitVec 8) := []
  farUnfit : Nat := 0
  holdCause : Nat := 0
  deriving DecidableEq, Repr

/-! ### Lattice (R338-R360) -/

/-- A standard block instance (R349, R360): name hash, kind (R357), elapsed time in µs, output, stored inputs, counter
value, and whether its first call after an exchange is still to come. -/
structure LatBlk where
  hash : Nat
  kind : Nat
  et : Nat := 0
  q : Bool := false
  in1 : Bool := false
  in2 : Bool := false
  cv : Int := 0
  fresh : Bool := false
  deriving DecidableEq, Repr

/-- A program (R356-R359): identifier, loaded on line, identity entries (hash, kind, slot or offset), initial data, and what
the checks of R358 found: signature and CRCs, limits with identity table, I/O references. -/
structure LatProg where
  id : Nat := 0
  online : Bool := false
  idents : List (Nat × Nat × Nat) := []
  data : List (BitVec 8) := []
  verified : Bool := true
  limitsOk : Bool := true
  ioOk : Bool := true
  deriving DecidableEq, Repr

/-- A remote station (R351-R354): last heartbeat (or the first cycle), an operational heartbeat waiting for the input read,
lost since the last input read, last words received, TPDOs received since the station came back, substitutes in force. -/
structure StationSt where
  lastHb : Option Nat := none
  back : Bool := false
  lostNew : Bool := false
  di : Nat := 0
  aw : List Int := [0, 0, 0, 0]
  gotDi : Bool := false
  gotAw : Bool := false
  subst : Bool := false
  shown : List Int := [0, 0, 0, 0]
  shownDi : Nat := 0
  deriving DecidableEq, Repr

/-- Lattice: section present, allowed to run since SELF-TEST, first cycle done; the period tick last served as a cycle start;
executing, start of the cycle and of the one before, an overrun told in this run; the snapshot (local inputs, port status words,
unit bits, remote inputs, analogue words with their status bytes), the mask of lost stations given to the error task; the outputs
last written (port-command words, remote digital and analogue); forces (area, index, value); block instances, variables by name
hash, the running program, the inactive bank and a pending exchange; the stations. -/
structure LatSt where
  present : Bool := false
  may : Bool := false
  busy : Bool := false
  startAt : Nat := 0
  prevStart : Option Nat := none
  tick : Option Nat := none
  overTold : Bool := false
  di : Nat := 0
  words : List Nat := [0, 0, 0, 0]
  unitBits : Nat := 0
  rdi : List Nat := List.replicate 8 0
  ai : List (Int × Nat) := List.replicate 64 (0, 0)
  lostMask : Nat := 0
  cmdPrev : List Nat := [0, 0, 0, 0]
  rdo : List Nat := List.replicate 8 0
  rao : List Int := List.replicate 32 0
  forces : List (Nat × Nat × BitVec 32) := []
  blks : List LatBlk := []
  vars : List (Nat × BitVec 32) := []
  prog : LatProg := {}
  bank : Option LatProg := none
  pendingX : Bool := false
  st : List StationSt := List.replicate 8 {}
  deriving DecidableEq, Repr

/-! ### CAN, Ethernet and time (R364-R388) -/

/-- A frame waiting for transmission (R368, R369): its source, counted attempts, last submission instant. -/
structure CanEnt where
  f : CanFrame
  src : CanSrc
  tries : Nat := 0
  at_ : Nat := 0
  deriving DecidableEq, Repr

/-- A CAN channel (R368-R375): Q-CANTX, the two slots, bus-off (since, recovery counting), run of removals without
acknowledge; as time master the next sequence and the start of frame of the last reference sent (ns); as follower the last
sequence and own stamp (ns), usable pairings since the source was invalid, the last usable sequence and its instant; Q-CANRX (frame and its length in ps);
the instant from which the controller takes part in traffic (R61); the instant of the last error frame it sent (R364). -/
structure CanSt where
  q : List CanEnt := []
  safety : Option CanEnt := none
  tref : Option CanEnt := none
  busOff : Option Nat := none
  counting : Bool := false
  countFrom : Nat := 0
  noAck : Nat := 0
  txSeq : Nat := 0
  prevSof : Option Nat := none
  rxSeq : Option Nat := none
  rxStamp : Nat := 0
  pairs : Nat := 0
  usedSeq : Nat := 0
  usedAt : Nat := 0
  rxq : List (CanFrame × Nat) := []
  joinAt : Nat := 0
  errFrame : Option Nat := none
  deriving DecidableEq, Repr

/-- PTP on one port (R379, R380): the grandmaster heard (priority vector, identity) and since when; the last Sync with its
Follow_Up and its log interval; a Sync awaiting its Follow_Up (sequence, own stamp in ns, correction in ns); the peer-delay
request (sequence, unanswered) and its response (t2, own stamp t4, in ns); Q-TXTS entries (message type, sequence, stamp in ns,
instant); sequences of the Sync and Announce messages it sends. -/
structure PtpSt where
  gm : Option (Nat × Nat) := none
  gmAt : Nat := 0
  syncAt : Option Nat := none
  syncLog : Int := -3
  sync : Option (Nat × Nat × Int) := none
  pdSeq : Nat := 0
  pdWait : Bool := false
  pdResp : Option (Int × Nat) := none
  txts : List (Nat × Nat × Nat × Nat) := []
  seq : Nat := 0
  annSeq : Nat := 0
  deriving DecidableEq, Repr

/-- A message a port sends (R377, R379): an ARP request or reply (operation, addresses), an ICMP echo reply, a UDP datagram
(peer, ports), or a PTP message (type, sequence, body). -/
inductive EthMsg where
  | arp (op ip : Nat) (mac : List (BitVec 8))
  | icmp (ip : Nat) (body : List (BitVec 8))
  | udp (ip src dst : Nat) (body : List (BitVec 8))
  | ptp (typ seq : Nat) (body : List (BitVec 8))
  deriving DecidableEq, Repr

/-- A frame sent: the message, and the IEEE 802.1Q tag (VID, priority) where it carries one. -/
structure EthTx where
  msg : EthMsg
  tag : Option (Nat × Nat)
  deriving DecidableEq, Repr

/-- An Ethernet port: addresses learnt by ARP, PTP, and the last frame sent. -/
structure EthSt where
  arp : List (Nat × List (BitVec 8)) := []
  ptp : PtpSt := {}
  sent : Option EthTx := none
  deriving DecidableEq, Repr

/-- A `TIME_OUT` (R387, R388): armed, the start and the next instant in ns, whether it repeats, and the end of a pulse
in progress (ps). -/
structure ToutSt where
  armed : Bool := false
  periodic : Bool := false
  startNs : Nat := 0
  nextNs : Nat := 0
  pulseEnd : Option Nat := none
  deriving DecidableEq, Repr

/-- Internal time's source (R381-R384): a source was acquired since RESET, a source newly in force whose first correction is
due, which sources are valid, holdover since, a step due in service (ns), steps and stops so far (R384), the grandmaster and port
last told (R379), and the run of periods within a tick (R386). -/
structure TimeSt where
  acquired : Bool := false
  acquire : Bool := false
  ptpValid : Bool := false
  canValid : Bool := false
  heldFrom : Option Nat := none
  pendNs : Option Int := none
  steps : Nat := 0
  stops : Nat := 0
  toldGm : Nat := 0
  toldPort : Nat := 255
  cycRun : Nat := 0
  deriving DecidableEq, Repr

/-! ### Bergil link, roles and audit (R393-R415) -/

/-- A packet in Q-CMD: path (R410), source address and port (0 on CAN), bytes. -/
structure CmdPkt where
  path : Nat
  ip : Nat
  port : Nat
  bytes : List (BitVec 8)
  deriving DecidableEq, Repr

/-- A telemetry subscription (R406, R407): period in ms, flags, identifiers, sequence, backlog of events, events lost, skips,
instant of the last packet and the epoch marks it carried. -/
structure SubSt where
  period : Nat
  flags : Nat
  ids : List Nat
  seq : Nat := 0
  backlog : List EvRec := []
  lost : Bool := false
  skipped : Nat := 0
  lastAt : Nat := 0
  mark : Nat × Nat × Nat := (0, 0, 0)
  deriving DecidableEq, Repr

/-- A session (R398, R399, R404): identifier, role, keys, source, last valid request, highest accepted sequence, the last 16
accepted tags with their responses, subscription, the copy of a bulk read (target, bytes, instant), the locked crumb with
its last read. -/
structure SessSt where
  sid : Nat
  role : Role
  krq : BitVec 128
  krs : BitVec 128
  path : Nat
  ip : Nat
  port : Nat
  lastAt : Nat
  high : Option Nat := none
  recent : List (BitVec 128 × Option (List (BitVec 8))) := []
  sub : Option SubSt := none
  copy : Option (Nat × List (BitVec 8) × Nat) := none
  lock : Option (Nat × Nat) := none
  deriving DecidableEq, Repr

/-- A bulk write (R405): session, target, total, digest, bytes received (the bank's; a slot's stand in flash), their count,
erase in progress, last data. -/
structure BulkSt where
  sid : Nat
  target : Nat
  total : Nat
  digest : List (BitVec 8)
  bytes : List (BitVec 8) := []
  got : Nat := 0
  erasing : Bool := false
  lastAt : Nat := 0
  deriving DecidableEq, Repr

/-- A packet being reassembled on CAN (R394): first segment's instant, transfer number, next index, bytes so far. -/
structure ReasmSt where
  since : Nat
  xfer : Nat
  next : Nat
  bytes : List (BitVec 8)
  deriving DecidableEq, Repr

/-- A peer of the table of R415. -/
structure PeerSt where
  ip : Nat
  serial : Nat
  heardAt : Nat
  present : Bool
  deriving DecidableEq, Repr

/-- A telemetry packet in Q-TEL (R38): the Ethernet ports it is for, its session, address and UDP port, and its bytes. -/
structure TelPkt where
  es : List Nat
  sid : Nat
  ip : Nat
  port : Nat
  bytes : List (BitVec 8)
  deriving DecidableEq, Repr

/-- The link engine: Q-CMD, Q-TEL, Q-LOG (entries as R410 lays them out, without number and hash), sessions, security sources told
(source, instant), the bulk write, the reassembly of each CAN channel, responses waiting for credits (channel, segments,
since), the transfer numbers, peers, last announcement sent, the last packet sent (path, bytes), and the hash of the newest audit entry. -/
structure LinkSt where
  cmds : List CmdPkt := []
  tel : List TelPkt := []
  log : List (List (BitVec 8)) := []
  sess : List SessSt := []
  told : List (Nat × Nat) := []
  bulk : Option BulkSt := none
  reasm : List (Option ReasmSt) := [none, none]
  waiting : List (Nat × List CanFrame × Nat) := []
  xfer : List Nat := [0, 0]
  peers : List PeerSt := []
  annSeq : Nat := 0
  sent : Option (Nat × List (BitVec 8)) := none
  lastHash : List (BitVec 8) := []
  deriving DecidableEq, Repr

/-! ### Capture (R421-R434) -/

/-- One row as it is taken (R425, R431): its words, stream stamp and internal time in ns, the epoch marks, and whether network
time was valid. -/
structure CapRow where
  ws : List (BitVec 32)
  stamp : BitVec 32
  ns : Nat
  mark : Nat × Nat × Nat
  valid : Bool
  deriving DecidableEq, Repr

/-- A crumb (R431): number, kind, units held, row and inner period in ns, channel table, row width in bytes, first stamp and
header epoch record, rows stored, rows before the trigger row, trigger stamp and source, status, end code, gap table with a gap
in progress and the rows lost, epoch table with stamp and marks of its last record, triggers missed and dead time before it,
whether it is recording. -/
structure Crumb where
  no : Nat
  kind : Nat
  units : List Nat
  rowNs : Nat
  innerNs : Nat
  chans : List (List (BitVec 8))
  width : Nat
  stamp : BitVec 32 := 0
  epoch : List (BitVec 8) := []
  rows : List (List (BitVec 32)) := []
  pre : Nat := 0
  trigStamp : BitVec 32 := 0
  source : Nat := 0
  status : Nat := 0
  endCode : Nat := 0
  gaps : List (Nat × Nat) := []
  gapNow : Nat := 0
  lost : Nat := 0
  epochs : List (Nat × List (BitVec 8)) := []
  epStamp : BitVec 32 := 0
  epMark : Nat × Nat × Nat := (0, 0, 0)
  missed : Nat := 0
  dead : Nat := 0xFFFFFFFF
  recording : Bool := true
  deriving DecidableEq, Repr

/-- A capture function (R421-R430): units reserved, rows kept before a trigger (oldest first, none a row lost), ticks since
arming, a trigger waiting for its row (code, stamp), the crumb being recorded, post rows left, a run of missed triggers told and
their number since the last crumb, the tick of the last row taken and the dead time before the next crumb, an injection crumb, rows
cycle-locked, rows due since RESET and the row in which a trigger was missed last. -/
structure CapFn where
  units : List Nat := []
  kept : List (Option CapRow) := []
  tick : Nat := 0
  trig : Option (Nat × BitVec 32) := none
  cur : Option Nat := none
  postLeft : Nat := 0
  missRun : Bool := false
  missed : Nat := 0
  deadFrom : Option Nat := none
  dead : Nat := 0xFFFFFFFF
  inj : Bool := false
  lockedRows : Bool := false
  rowNo : Nat := 0
  missRow : Option Nat := none
  deriving DecidableEq, Repr

/-- The capture engine: the units each function claims (function, unit, shared), the two functions, crumbs held, the number of
the next, own drive of `SYNC_LINE` until, the instant of the time trigger that has fired (ns), and Q-CAP: the function of each row that
waits, and the row, or none where it was dropped. -/
structure CapSt where
  q : List (Nat × Option CapRow) := []
  claims : List (Nat × Nat × Bool) := []
  fns : List CapFn := [{}, {}]
  crumbs : List Crumb := []
  next : Nat := 0
  syncUntil : Nat := 0
  timeFired : Option Nat := none
  deriving DecidableEq, Repr

/-! ### The whole state -/

/-- The state of the block. -/
structure State where
  now : Nat := 0
  fine : Nat := 0
  strFine : Nat := 0
  unit : UnitSt := {}
  regs : List (Nat × BitVec 32) := []
  fuses : Fuses := {}
  fram : Fram := {}
  flash : List Host.Cell := []
  sfdpQuad : Bool := false
  ref : RefSt := {}
  img : ImgSt := {}
  ev : EvSt := {}
  ports : List PortSt := List.replicate 4 {}
  eng : EngSt := {}
  inj : InjSt := {}
  prf : PrfSt := {}
  fast : List FastSt := List.replicate 48 {}
  slow : List SlowSt := List.replicate 32 {}
  mods : List ModSt := List.replicate 4 {}
  legs : List LegSt := List.replicate 24 {}
  isl : List IslSt := List.replicate 48 {}
  seqRun : List Nat := []
  lines : List Nat := List.replicate 13 0
  dout : List Bool := List.replicate 12 false
  saf : SafSt := {}
  pair : PairSt := {}
  lat : LatSt := {}
  can : List CanSt := [{}, {}]
  eth : List EthSt := [{}, {}]
  time : TimeSt := {}
  tout : List ToutSt := [{}, {}, {}, {}]
  link : LinkSt := {}
  cap : CapSt := {}
  timers : List (Timer × Nat) := []
  freeCtr : Nat := 0
  pending : List Instr := []
  deriving DecidableEq, Repr

/-- The machine right after reset (R85, R438): unit state RESET, every parameter at its default, queues empty. -/
def State.reset : State := {}

end Sys2Proof.Machine
end

