-- ==== Sys2Proof/Machine/Flags.lean ====
section
/-! DEFINITION. Status words and output levels that the spec computes from the state: the outputs of R84, the sample
word of R209, the slow result word of R222, the severity byte of R408 and the class groups of R41. -/

namespace Sys2Proof.Machine

/-- `READY_N` is low in READY, ENERGISE, RUN, LIMITED, RIDE-THROUGH and STANDBY (R84). -/
def UnitState.readyNLow : UnitState → Bool
  | .ready | .energise | .run | .limited | .rideThrough | .standby => true
  | _ => false

/-- States in which a unit may come to hold the biscuit when a pair forms (R320). -/
def UnitState.mayHold : UnitState → Bool
  | .ready | .energise | .run | .limited | .rideThrough | .stopping => true
  | _ => false

/-- `FAULT_N` is low in READY-UNBOUND, READY-REFUSED, FAULT-HOLD and SAFE-STOP (R84). -/
def UnitState.faultNLow : UnitState → Bool
  | .readyUnbound | .readyRefused | .faultHold | .safeStop => true
  | _ => false

/-- States in which factory defaults rule the networks (R80, R84, R416). -/
def UnitState.factory : UnitState → Bool
  | .readyUnbound | .readyRefused => true
  | _ => false

/-- Start-up states, in which the outputs are safe and a cause is held (R83, R287). -/
def UnitState.startUp : UnitState → Bool
  | .off | .reset | .refLock | .imageLoad | .selfTest => true
  | _ => false

/-- The unit is in service (R383). -/
def UnitState.inService : UnitState → Bool
  | .energise | .run | .limited | .rideThrough | .standby => true
  | _ => false

/-- Port states in which the legs switch: the port modulates (R218, R271). -/
def PortState.switching : PortState → Bool
  | .energising | .syncing | .run | .limited => true
  | _ => false

/-- RUN or LIMITED. -/
def PortState.running : PortState → Bool
  | .run | .limited => true
  | _ => false

/-- IDLE or PORT-STOP. -/
def PortState.atRest : PortState → Bool
  | .idle | .portStop => true
  | _ => false

/-- The class of an event code (R52). -/
def evClass (code : Nat) : Nat := fld code 12 4

/-- The kept group of R41: classes 5 to 7. -/
def evKept (code : Nat) : Bool := decide (5 ≤ evClass code ∧ evClass code ≤ 7)

/-- Severity byte of R408: class, network time not valid, TIME stopped. -/
def severity (code : Nat) (timeValid stopped : Bool) : Nat :=
  evClass code + 16 * b01 (!timeValid) + 32 * b01 stopped

/-- The sample word of R209. -/
def sampleWord (code : Int) (ovr neigh stuck : Bool) (ch seq : Nat) : Word :=
  BitVec.ofNat 32 ((code % 16384).toNat * 262144 + b01 ovr * 131072 + b01 neigh * 65536 + b01 stuck * 32768
    + ch % 128 * 256 + seq % 256)

/-- The signed code of a sample word. -/
def sampleCode (w : Word) : Int := (w.sshiftRight 18).toInt

/-- The slow result word of R222. -/
def slowWord (code : Int) (ovr outside failed : Bool) (ch : Nat) : Word :=
  BitVec.ofNat 32 ((code % 16777216).toNat * 256 + b01 ovr * 128 + b01 outside * 64 + b01 failed * 32 + ch % 32)

/-- The bytes of an event record (R408). -/
def EvRec.bytes (e : EvRec) : List Byte :=
  leBytes 8 e.timeNs ++ leBytes 2 e.code ++ leBytes 1 e.inst ++ leBytes 1 e.sev ++ leBytes 8 e.ctx.toNat
    ++ leBytes 4 e.stamp.toNat

/-- Bit `k` of a word set or cleared. -/
def putBit (w : Word) (k : Nat) (b : Bool) : Word :=
  if b then w ||| BitVec.twoPow 32 k else w &&& ~~~ (BitVec.twoPow 32 k)

end Sys2Proof.Machine
end

