-- ==== Sys2Proof/Machine/Params.lean ====
section
/-! DEFINITION. The parameter table of the VZ9640 (R436, R437) row by row from the tables of the owning chapters:
identifiers (R7, R8), access class (R9), naming role (R401), range and format, and default (R438). -/

namespace Sys2Proof.Machine

/-- The access classes of R9. -/
inductive Cls where
  | cfg | live | safe | stat | cnt | cmd
  deriving DecidableEq, Repr

/-- The range of a field: any word, an unsigned or signed interval taken in steps, or listed values. -/
inductive Rng where
  | any
  | u (lo hi step : Nat)
  | s (lo hi : Int) (step : Nat)
  | oneOf (vs : List Nat)
  deriving DecidableEq, Repr

/-- One row of a parameter table: the identifiers `base + istep * n + k` for instance `n` (of `insts`, or of
`insts2P` on the VZ9640-2P, R2) and field `k` (of `fields`), with their class, naming role, range and defaults
(one per field where there are several fields, else one per instance; a single default holds for all). -/
structure ParamRow where
  base : Nat
  insts : Nat
  insts2P : Nat
  istep : Nat
  fields : Nat
  cls : Cls
  role : Role
  rng : Rng
  dflt : List Nat
  deriving DecidableEq, Repr

/-- Rows of block 0x01. -/
def params01 : List ParamRow := [
  ⟨0x010000, 1, 1, 0x100, 1, .stat, .observer, .any, [0x20000A11]⟩,  -- serial_lo R417
  ⟨0x010001, 1, 1, 0x100, 1, .stat, .observer, .any, [0x419C]⟩,  -- serial_hi R417
  ⟨0x010002, 1, 1, 0x100, 1, .stat, .observer, .any, [4]⟩,  -- variant R417
  ⟨0x010003, 1, 1, 0x100, 1, .stat, .observer, .any, [0]⟩,  -- grade R417
  ⟨0x010004, 1, 1, 0x100, 8, .stat, .observer, .any, [0]⟩,  -- int_fpr0–int_fpr7 R417
  ⟨0x01000C, 1, 1, 0x100, 1, .stat, .observer, .any, [0x20000A11]⟩,  -- bound_serial_lo R417
  ⟨0x01000D, 1, 1, 0x100, 1, .stat, .observer, .any, [0x419C]⟩,  -- bound_serial_hi R417
  ⟨0x01000E, 1, 1, 0x100, 1, .stat, .observer, .any, [16]⟩,  -- rebind_left R417
  ⟨0x01000F, 1, 1, 0x100, 1, .stat, .observer, .any, [4]⟩,  -- keyrep_left R417
  ⟨0x010010, 1, 1, 0x100, 1, .stat, .observer, .any, [255]⟩  -- floor_steps_left R417
  ]

/-- Rows of block 0x02. -/
def params02 : List ParamRow := [
  ⟨0x020000, 1, 1, 0x100, 1, .stat, .observer, .any, [1]⟩,  -- unit_state R86
  ⟨0x020001, 1, 1, 0x100, 1, .stat, .observer, .any, [0]⟩,  -- last_cause R86
  ⟨0x020002, 1, 1, 0x100, 1, .stat, .observer, .any, [0]⟩,  -- selftest_result R86
  ⟨0x020003, 1, 1, 0x100, 1, .cmd, .service, (.oneOf [1]), [0]⟩  -- restart R86
  ]

/-- Rows of block 0x03. -/
def params03 : List ParamRow := [
  ⟨0x030000, 1, 1, 0x100, 1, .cfg, .observer, (.u 0 2 1), [0]⟩,  -- ref_source R87
  ⟨0x030001, 1, 1, 0x100, 1, .cfg, .observer, (.oneOf [10000, 12500, 20000, 25000, 40000, 50000]), [0x61A8]⟩,  -- ref_in_freq R87
  ⟨0x030002, 1, 1, 0x100, 1, .cfg, .observer, (.u 64 4096 1), [256]⟩,  -- lock_cycles R87
  ⟨0x030003, 1, 1, 0x100, 1, .stat, .observer, .any, [0]⟩,  -- pll_state R87
  ⟨0x030004, 1, 1, 0x100, 1, .stat, .observer, .any, [0]⟩,  -- ref_in_use R87
  ⟨0x030005, 1, 1, 0x100, 1, .stat, .observer, .any, [0]⟩,  -- vco_band R87
  ⟨0x030006, 1, 1, 0x100, 1, .stat, .observer, .any, [0]⟩,  -- relock_attempts R87
  ⟨0x030007, 1, 1, 0x100, 1, .cnt, .service, .any, [0]⟩,  -- lock_loss_count R87
  ⟨0x030008, 1, 1, 0x100, 1, .stat, .observer, .any, [0]⟩  -- last_lock_time R87
  ]

/-- Rows of block 0x04. -/
def params04 : List ParamRow := [
  ⟨0x040000, 1, 1, 0x100, 1, .stat, .observer, .any, [255]⟩,  -- boot_slot R88
  ⟨0x040001, 1, 1, 0x100, 1, .live, .commissioner, (.u 0 1 1), [0]⟩,  -- next_slot R88
  ⟨0x040002, 1, 1, 0x100, 1, .stat, .observer, .any, [0]⟩,  -- slot_a_status R88
  ⟨0x040003, 1, 1, 0x100, 1, .stat, .observer, .any, [0]⟩,  -- slot_b_status R88
  ⟨0x040004, 1, 1, 0x100, 1, .stat, .observer, .any, [0]⟩,  -- image_id R88
  ⟨0x040005, 1, 1, 0x100, 1, .stat, .observer, .any, [0]⟩,  -- image_counter R88
  ⟨0x040006, 1, 1, 0x100, 1, .stat, .observer, .any, [0]⟩,  -- rollback_floor R88
  ⟨0x040007, 1, 1, 0x100, 1, .stat, .observer, .any, [0]⟩,  -- pair_digest_lo R88
  ⟨0x040008, 1, 1, 0x100, 1, .stat, .observer, .any, [0]⟩,  -- pair_digest_hi R88
  ⟨0x040009, 1, 1, 0x100, 1, .stat, .observer, .any, [0]⟩,  -- flash_size R88
  ⟨0x04000A, 1, 1, 0x100, 1, .stat, .observer, .any, [0]⟩  -- startup_time R88
  ]

/-- Rows of block 0x08. -/
def params08a : List ParamRow := [
  ⟨0x080000, 4, 2, 0x100, 1, .stat, .observer, .any, [0]⟩,  -- port_state R122
  ⟨0x080001, 4, 2, 0x100, 1, .cfg, .observer, (.u 0 2 1), [0]⟩,  -- port_mode R122
  ⟨0x080002, 4, 2, 0x100, 1, .cfg, .observer, (.u 10000 10000000 1), [0xF4240]⟩,  -- s_base R122
  ⟨0x080003, 4, 2, 0x100, 1, .cfg, .observer, (.u 50000 2000000 1), [0xA8750]⟩,  -- v_base R122
  ⟨0x080004, 4, 2, 0x100, 1, .cfg, .observer, .any, [0xC350]⟩,  -- f_nom R122
  ⟨0x080005, 4, 2, 0x100, 1, .stat, .observer, .any, [0]⟩,  -- i_base R122
  ⟨0x080006, 4, 2, 0x100, 1, .cmd, .operator, (.u 1 4 1), [0]⟩,  -- energise R122
  ⟨0x080007, 4, 2, 0x100, 1, .cmd, .operator, (.u 1 2 1), [0]⟩,  -- stop R122
  ⟨0x080008, 4, 2, 0x100, 1, .cfg, .observer, (.u 0 1 1), [0]⟩,  -- bus_sense R122
  ⟨0x080009, 4, 2, 0x100, 1, .cfg, .observer, (.u 0 1 1), [1]⟩,  -- has_contactor R122
  ⟨0x08000A, 4, 2, 0x100, 1, .cfg, .observer, (.s 2684355 40265318 1), [0xCCCCCD]⟩,  -- dead_level R122
  ⟨0x08000B, 4, 2, 0x100, 1, .cfg, .observer, (.u 20 2000 1), [100]⟩,  -- dead_time R122
  ⟨0x08000C, 4, 2, 0x100, 1, .cfg, .observer, (.s 40265318 127506842 1), [0x6666666]⟩,  -- live_level R122
  ⟨0x08000D, 4, 2, 0x100, 1, .cfg, .observer, (.u 20 5000 1), [1000]⟩,  -- ramp_time R122
  ⟨0x08000E, 4, 2, 0x100, 1, .cfg, .observer, (.s 0 134217728 1), [0x666666]⟩,  -- tvi_r0 R122
  ⟨0x08000F, 4, 2, 0x100, 1, .cfg, .observer, (.s 0 134217728 1), [0x2666666]⟩,  -- tvi_x0 R122
  ⟨0x080010, 4, 2, 0x100, 1, .cfg, .observer, (.u 10 2000 1), [200]⟩,  -- tvi_decay R122
  ⟨0x080011, 4, 2, 0x100, 1, .cfg, .observer, (.u 0 500 1), [500]⟩,  -- backoff_max R122
  ⟨0x080012, 4, 2, 0x100, 1, .stat, .observer, .any, [0]⟩,  -- backoff_drawn R122
  ⟨0x080013, 4, 2, 0x100, 1, .live, .operator, .any, [0]⟩,  -- bs_start_s R122
  ⟨0x080014, 4, 2, 0x100, 1, .live, .operator, (.u 0 999999999 1), [0]⟩,  -- bs_start_ns R122
  ⟨0x080015, 4, 2, 0x100, 1, .cfg, .observer, (.u 11930465 238609294 1), [0x38E38E4]⟩,  -- sync_angle_win R122
  ⟨0x080016, 4, 2, 0x100, 1, .cfg, .observer, (.s 67109 1342177 1), [0x41893]⟩,  -- sync_freq_win R122
  ⟨0x080017, 4, 2, 0x100, 1, .cfg, .observer, (.s 671089 13421773 1), [0x3D70A4]⟩,  -- sync_volt_win R122
  ⟨0x080018, 4, 2, 0x100, 1, .cfg, .observer, (.u 20 1000 1), [100]⟩,  -- sync_dwell R122
  ⟨0x080019, 4, 2, 0x100, 1, .cfg, .observer, (.u 0 200 1), [50]⟩,  -- close_time R122
  ⟨0x08001A, 4, 2, 0x100, 1, .cfg, .observer, (.u 100 10000 1), [1000]⟩,  -- close_timeout R122
  ⟨0x08001B, 4, 2, 0x100, 1, .cfg, .observer, (.u 1 600 1), [60]⟩,  -- sync_timeout R122
  ⟨0x08001C, 4, 2, 0x100, 1, .cfg, .observer, (.u 1 600 1), [10]⟩,  -- arm_timeout R122
  ⟨0x08001D, 4, 2, 0x100, 1, .cfg, .observer, (.u 100 10000 1), [2000]⟩  -- stop_timeout R122
  ]

/-- Rows of block 0x08. -/
def params08b : List ParamRow := [
  ⟨0x08001E, 4, 2, 0x100, 1, .stat, .observer, .any, [0]⟩,  -- refuse_code R122
  ⟨0x08001F, 4, 2, 0x100, 1, .stat, .observer, .any, [0]⟩,  -- bus_v R122
  ⟨0x080020, 4, 2, 0x100, 1, .stat, .observer, .any, [0]⟩,  -- bus_f R122
  ⟨0x080021, 4, 2, 0x100, 1, .stat, .observer, .any, [0]⟩,  -- bus_angle_diff R122
  ⟨0x080022, 4, 2, 0x100, 1, .stat, .observer, .any, [0]⟩,  -- lattice_out R122
  ⟨0x080023, 4, 2, 0x100, 1, .cnt, .service, .any, [0]⟩,  -- energise_count R122
  ⟨0x080024, 4, 2, 0x100, 1, .cnt, .service, .any, [0]⟩  -- sync_fail_count R122
  ]

/-- Rows of block 0x09. -/
def params09a : List ParamRow := [
  ⟨0x090000, 4, 2, 0x100, 1, .live, .commissioner, (.u 100 20000 1), [4000]⟩,  -- h_inertia R123
  ⟨0x090001, 4, 2, 0x100, 1, .live, .commissioner, (.u 0 20000 1), [0]⟩,  -- d_damp R123
  ⟨0x090002, 4, 2, 0x100, 1, .live, .commissioner, (.u 50 1000 1), [400]⟩,  -- pf_droop R123
  ⟨0x090003, 4, 2, 0x100, 1, .live, .commissioner, (.u 50 1000 1), [400]⟩,  -- qv_droop R123
  ⟨0x090004, 4, 2, 0x100, 1, .cfg, .observer, (.u 0 1 1), [0]⟩,  -- qv_mode R123
  ⟨0x090005, 4, 2, 0x100, 1, .live, .commissioner, (.u 100 100000 1), [2000]⟩,  -- kv_int R123
  ⟨0x090006, 4, 2, 0x100, 1, .cfg, .observer, (.s 134217728 201326592 1), [0x999999A]⟩,  -- e_max R123
  ⟨0x090007, 4, 2, 0x100, 1, .cfg, .observer, (.s 1342177 26843546 1), [0x666666]⟩,  -- f_dev_max R123
  ⟨0x090008, 4, 2, 0x100, 1, .live, .commissioner, (.s 0 67108864 1), [0]⟩,  -- rv R123
  ⟨0x090009, 4, 2, 0x100, 1, .live, .commissioner, (.s 0 67108864 1), [0xCCCCCD]⟩,  -- xv R123
  ⟨0x09000A, 4, 2, 0x100, 1, .cfg, .observer, (.u 0 50000 1), [0x1388]⟩,  -- p_filt_tc R123
  ⟨0x09000B, 4, 2, 0x100, 1, .cfg, .observer, (.u 0 50000 1), [0x1388]⟩,  -- q_filt_tc R123
  ⟨0x09000C, 4, 2, 0x100, 1, .live, .operator, (.s (-134217728) 134217728 1), [0]⟩,  -- p_set R123
  ⟨0x09000D, 4, 2, 0x100, 1, .live, .operator, (.s (-134217728) 134217728 1), [0]⟩,  -- q_set R123
  ⟨0x09000E, 4, 2, 0x100, 1, .live, .operator, (.s 107374182 161061274 1), [0x8000000]⟩,  -- v_set R123
  ⟨0x09000F, 4, 2, 0x100, 1, .live, .operator, (.s 120795955 147639501 1), [0x8000000]⟩,  -- f_ref R123
  ⟨0x090010, 4, 2, 0x100, 1, .live, .commissioner, (.s 0 2147483647 1), [0x8000000]⟩,  -- kp_v R123
  ⟨0x090011, 4, 2, 0x100, 1, .live, .commissioner, (.u 0 1000000 1), [300]⟩,  -- ki_v R123
  ⟨0x090012, 4, 2, 0x100, 1, .cfg, .observer, (.u 0 1 1), [1]⟩,  -- neg_seq_en R123
  ⟨0x090013, 4, 2, 0x100, 1, .live, .commissioner, (.s 0 2147483647 1), [0x8000000]⟩,  -- kp_v_neg R123
  ⟨0x090014, 4, 2, 0x100, 1, .live, .commissioner, (.u 0 1000000 1), [300]⟩,  -- ki_v_neg R123
  ⟨0x090015, 4, 2, 0x100, 1, .live, .commissioner, (.s 0 2147483647 1), [0x3333333]⟩,  -- kp_i R123
  ⟨0x090016, 4, 2, 0x100, 1, .cfg, .observer, (.u 0 31 1), [1]⟩,  -- res_enable R123
  ⟨0x090017, 4, 2, 0x100, 1, .cfg, .observer, (.u 0 31 1), [0]⟩,  -- res_optional R123
  ⟨0x090018, 4, 2, 0x100, 5, .live, .commissioner, (.u 0 1000000 1), [200, 50, 50, 20, 20]⟩,  -- kr_h1, kr_h5, kr_h7, kr_h11, kr_h13 R123
  ⟨0x09001D, 4, 2, 0x100, 1, .live, .commissioner, (.s 0 2147483647 1), [0x4000000]⟩,  -- k_ad R123
  ⟨0x09001E, 4, 2, 0x100, 1, .live, .commissioner, (.s 0 2147483647 1), [0x199999A]⟩,  -- kp_bal R123
  ⟨0x09001F, 4, 2, 0x100, 1, .live, .commissioner, (.s 0 134217728 1), [0x4000000]⟩,  -- obs_gain R123
  ⟨0x090020, 4, 2, 0x100, 1, .cfg, .observer, (.s 1342177 134217728 1), [0xCCCCCD]⟩,  -- lf_pu R123
  ⟨0x090021, 4, 2, 0x100, 1, .cfg, .observer, (.s 1342177 134217728 1), [0x666666]⟩  -- cf_pu R123
  ]

/-- Rows of block 0x09. -/
def params09b : List ParamRow := [
  ⟨0x090022, 4, 2, 0x100, 1, .cfg, .observer, (.s 0 134217728 1), [0]⟩,  -- lg_pu R123
  ⟨0x090023, 4, 2, 0x100, 1, .cfg, .observer, (.u 1 100 1), [20]⟩,  -- gf_pll_bw R123
  ⟨0x090024, 4, 2, 0x100, 1, .live, .commissioner, (.u 1 500 1), [20]⟩,  -- tau_c R123
  ⟨0x090025, 4, 2, 0x100, 1, .live, .commissioner, (.u 50 1000 1), [400]⟩,  -- vi_droop R123
  ⟨0x090028, 4, 2, 0x100, 1, .stat, .observer, .any, [0]⟩,  -- omega R123
  ⟨0x090029, 4, 2, 0x100, 1, .stat, .observer, .any, [0]⟩,  -- theta R123
  ⟨0x09002A, 4, 2, 0x100, 1, .stat, .observer, .any, [0]⟩,  -- e_mag R123
  ⟨0x09002B, 4, 2, 0x100, 1, .stat, .observer, .any, [0]⟩,  -- p_meas R123
  ⟨0x09002C, 4, 2, 0x100, 1, .stat, .observer, .any, [0]⟩,  -- q_meas R123
  ⟨0x09002D, 4, 2, 0x100, 1, .stat, .observer, .any, [0]⟩,  -- v_meas R123
  ⟨0x09002E, 4, 2, 0x100, 1, .stat, .observer, .any, [0]⟩  -- law_flags R123
  ]

/-- Rows of block 0x0A. -/
def params0Aa : List ParamRow := [
  ⟨0x0A0000, 4, 2, 0x100, 1, .cfg, .observer, (.s 134217728 402653184 1), [0xC000000]⟩,  -- i_lim_hard R148
  ⟨0x0A0001, 4, 2, 0x100, 1, .cfg, .observer, (.u 0 3000 1), [1000]⟩,  -- i_hard_time R148
  ⟨0x0A0002, 4, 2, 0x100, 1, .cfg, .observer, (.s 67108864 201326592 1), [0x8CCCCCD]⟩,  -- i_lim_cont R148
  ⟨0x0A0003, 4, 2, 0x100, 1, .cfg, .observer, (.u 1 100 1), [10]⟩,  -- hard_cooldown R148
  ⟨0x0A0004, 4, 2, 0x100, 1, .live, .commissioner, (.s 67108864 402653184 1), [0x7333333]⟩,  -- i_vi_start R148
  ⟨0x0A0005, 4, 2, 0x100, 1, .live, .commissioner, (.s 0 2147483647 1), [0x4000000]⟩,  -- k_vi_x R148
  ⟨0x0A0006, 4, 2, 0x100, 1, .live, .commissioner, (.u 1 20 1), [5]⟩,  -- vi_xr R148
  ⟨0x0A0007, 4, 2, 0x100, 1, .live, .commissioner, (.s 0 134217728 1), [0x4000000]⟩,  -- x_add_max R148
  ⟨0x0A0008, 4, 2, 0x100, 1, .live, .commissioner, (.u 1 500 1), [20]⟩,  -- vi_fall_tc R148
  ⟨0x0A0009, 4, 2, 0x100, 1, .cfg, .observer, (.u 0 2 1), [0]⟩,  -- neg_seq_prio R148
  ⟨0x0A000A, 4, 2, 0x100, 1, .cfg, .observer, (.s 0 134217728 1), [0x4000000]⟩,  -- neg_share_max R148
  ⟨0x0A000B, 4, 2, 0x100, 1, .cfg, .observer, (.u 100 150 1), [110]⟩,  -- leg_lim_margin R148
  ⟨0x0A000C, 4, 2, 0x100, 1, .cfg, .observer, (.u 119304647 1073741824 1), [0x15555555]⟩,  -- slip_angle_max R148
  ⟨0x0A000D, 4, 2, 0x100, 1, .cfg, .observer, (.u 1 100 1), [10]⟩,  -- k_slip R148
  ⟨0x0A000E, 4, 2, 0x100, 1, .cfg, .observer, (.u 1 1000 1), [20]⟩,  -- lim_release R148
  ⟨0x0A000F, 4, 2, 0x100, 1, .cfg, .observer, (.u 59652324 357913941 1), [0x71C71C7]⟩,  -- pj_detect R148
  ⟨0x0A0010, 4, 2, 0x100, 1, .cfg, .observer, (.u 0 1 1), [0]⟩,  -- pj_action R148
  ⟨0x0A0011, 4, 2, 0x100, 1, .cfg, .observer, (.u 0 1 1), [1]⟩,  -- rt_enable R148
  ⟨0x0A0012, 4, 2, 0x100, 1, .cfg, .observer, (.u 0 1 1), [1]⟩,  -- rt_measure R148
  ⟨0x0A0013, 4, 2, 0x100, 1, .cfg, .observer, (.s 67108864 127506842 1), [0x7333333]⟩,  -- rt_uv_start R148
  ⟨0x0A0014, 4, 2, 0x100, 1, .cfg, .observer, (.s 140928614 201326592 1), [0x8CCCCCD]⟩,  -- rt_ov_start R148
  ⟨0x0A0015, 4, 2, 0x100, 1, .cfg, .observer, (.u 20 2000 1), [100]⟩,  -- rt_reset R148
  ⟨0x0A0020, 4, 2, 0x100, 10, .cfg, .observer, .any, [0, 0x960000, 0x960BB8, 0x2BC1388, 0x5DC1B58, 0xBB82134, 0xBB82134, 0xBB82134, 0xBB82134, 0xBB82134]⟩,  -- rt_uv_pt0–rt_uv_pt9 R148
  ⟨0x0A002A, 4, 2, 0x100, 10, .cfg, .observer, .any, [0x32C8, 0xC832C8, 0xC82EE0, 0x3E82EE0, 0x3E82CEC, 0xEA602CEC, 0xEA602CEC, 0xEA602CEC, 0xEA602CEC, 0xEA602CEC]⟩,  -- rt_ov_pt0–rt_ov_pt9 R148
  ⟨0x0A0034, 4, 2, 0x100, 1, .stat, .observer, .any, [0]⟩,  -- i_lim_eff R148
  ⟨0x0A0035, 4, 2, 0x100, 1, .stat, .observer, .any, [1000]⟩,  -- hard_budget R148
  ⟨0x0A0036, 4, 2, 0x100, 1, .stat, .observer, .any, [0]⟩,  -- x_add R148
  ⟨0x0A0037, 4, 2, 0x100, 1, .stat, .observer, .any, [0]⟩,  -- delta_slip R148
  ⟨0x0A0038, 4, 2, 0x100, 1, .stat, .observer, .any, [0]⟩,  -- i_pk_meas R148
  ⟨0x0A0039, 4, 2, 0x100, 1, .stat, .observer, .any, [0]⟩  -- rt_state R148
  ]

/-- Rows of block 0x0A. -/
def params0Ab : List ParamRow := [
  ⟨0x0A003A, 4, 2, 0x100, 1, .stat, .observer, .any, [0]⟩,  -- rt_elapsed R148
  ⟨0x0A003B, 4, 2, 0x100, 1, .cnt, .service, .any, [0]⟩,  -- lim_count R148
  ⟨0x0A003C, 4, 2, 0x100, 1, .cnt, .service, .any, [0]⟩,  -- rt_trip_count R148
  ⟨0x0A003D, 4, 2, 0x100, 1, .cnt, .service, .any, [0]⟩,  -- pj_count R148
  ⟨0x0A003E, 4, 2, 0x100, 1, .cnt, .service, .any, [0]⟩  -- slip_count R148
  ]

/-- Rows of block 0x0B. -/
def params0B : List ParamRow := [
  ⟨0x0B0000, 4, 2, 0x100, 1, .live, .commissioner, (.u 1000 100000000 1), [0x30D40]⟩,  -- glz_p_rate R149
  ⟨0x0B0001, 4, 2, 0x100, 1, .live, .commissioner, (.u 1000 1000000000 1), [0xF4240]⟩,  -- glz_p_jerk R149
  ⟨0x0B0002, 4, 2, 0x100, 1, .live, .commissioner, (.u 1000 100000000 1), [0x30D40]⟩,  -- glz_q_rate R149
  ⟨0x0B0003, 4, 2, 0x100, 1, .live, .commissioner, (.u 1000 1000000000 1), [0xF4240]⟩,  -- glz_q_jerk R149
  ⟨0x0B0004, 4, 2, 0x100, 1, .live, .commissioner, (.u 1000 100000000 1), [0xC350]⟩,  -- glz_v_rate R149
  ⟨0x0B0005, 4, 2, 0x100, 1, .live, .commissioner, (.u 1000 1000000000 1), [0x7A120]⟩,  -- glz_v_jerk R149
  ⟨0x0B0006, 4, 2, 0x100, 1, .live, .commissioner, (.u 1000 100000000 1), [0x2710]⟩,  -- glz_f_rate R149
  ⟨0x0B0007, 4, 2, 0x100, 1, .live, .commissioner, (.u 1000 1000000000 1), [0xC350]⟩,  -- glz_f_jerk R149
  ⟨0x0B0008, 4, 2, 0x100, 1, .stat, .observer, .any, [0]⟩,  -- glz_p R149
  ⟨0x0B0009, 4, 2, 0x100, 1, .stat, .observer, .any, [0]⟩,  -- glz_q R149
  ⟨0x0B000A, 4, 2, 0x100, 1, .stat, .observer, .any, [0]⟩,  -- glz_v R149
  ⟨0x0B000B, 4, 2, 0x100, 1, .stat, .observer, .any, [0]⟩,  -- glz_f R149
  ⟨0x0B000C, 4, 2, 0x100, 1, .stat, .observer, .any, [0]⟩,  -- glz_limited R149
  ⟨0x0B000D, 4, 2, 0x100, 1, .cnt, .service, .any, [0]⟩  -- glz_reversal_count R149
  ]

/-- Rows of block 0x0C. -/
def params0C : List ParamRow := [
  ⟨0x0C0000, 1, 1, 0x100, 1, .cfg, .observer, (.u 800 10000 5), [1000]⟩,  -- t_inner R181
  ⟨0x0C0001, 1, 1, 0x100, 1, .cfg, .observer, (.u 10 100 1), [20]⟩,  -- outer_ratio R181
  ⟨0x0C0002, 1, 1, 0x100, 1, .cfg, .observer, (.u 0 256 1), [128]⟩,  -- outer_slice_ops R181
  ⟨0x0C0003, 1, 1, 0x100, 1, .cfg, .observer, .any, [0x5A3C96E1]⟩,  -- lane_seed R181
  ⟨0x0C0004, 1, 1, 0x100, 1, .stat, .observer, .any, [0]⟩,  -- period_seq R181
  ⟨0x0C0005, 1, 1, 0x100, 1, .stat, .observer, .any, [0]⟩,  -- engine_state R181
  ⟨0x0C0006, 1, 1, 0x100, 1, .stat, .observer, .any, [0]⟩,  -- fail_run R181
  ⟨0x0C0007, 1, 1, 0x100, 1, .stat, .observer, .any, [0]⟩,  -- fail_window R181
  ⟨0x0C0008, 1, 1, 0x100, 1, .cnt, .service, .any, [0]⟩,  -- mismatch_count R181
  ⟨0x0C0009, 1, 1, 0x100, 1, .cnt, .service, .any, [0]⟩,  -- late_count R181
  ⟨0x0C000A, 1, 1, 0x100, 1, .cnt, .service, .any, [0]⟩,  -- outer_abandon_count R181
  ⟨0x0C000B, 1, 1, 0x100, 1, .stat, .observer, .any, [0]⟩,  -- last_mismatch R181
  ⟨0x0C000C, 1, 1, 0x100, 1, .stat, .observer, .any, [0]⟩,  -- law_set R181
  ⟨0x0C000D, 1, 1, 0x100, 1, .stat, .observer, .any, [0]⟩,  -- t_inner_alt R181
  ⟨0x0C000E, 1, 1, 0x100, 1, .stat, .observer, .any, [0]⟩,  -- outer_ratio_alt R181
  ⟨0x0C0040, 4, 2, 0x10, 1, .stat, .observer, .any, [0]⟩,  -- ops_inner R181
  ⟨0x0C0041, 4, 2, 0x10, 1, .stat, .observer, .any, [0]⟩,  -- ops_outer R181
  ⟨0x0C0042, 4, 2, 0x10, 1, .stat, .observer, .any, [0]⟩,  -- fb_state R181
  ⟨0x0C0043, 4, 2, 0x10, 1, .cfg, .observer, (.s 2684355 67108864 1), [0xCCCCCD]⟩,  -- fb_sum_tol R181
  ⟨0x0C0044, 4, 2, 0x10, 1, .cfg, .observer, (.s 6710886 134217728 1), [0x199999A]⟩,  -- fb_resid_tol R181
  ⟨0x0C0045, 4, 2, 0x10, 1, .cfg, .observer, (.u 2 64 1), [8]⟩,  -- fb_plaus_n R181
  ⟨0x0C0046, 4, 2, 0x10, 1, .cfg, .observer, (.u 1000 1000000 1), [0x2710]⟩,  -- fb_recover R181
  ⟨0x0C0047, 4, 2, 0x10, 1, .cnt, .service, .any, [0]⟩,  -- fb_subst_count R181
  ⟨0x0C0048, 4, 2, 0x10, 1, .cnt, .service, .any, [0]⟩,  -- fb_lost_count R181
  ⟨0x0C0049, 4, 2, 0x10, 1, .cnt, .service, .any, [0]⟩,  -- hold_count R181
  ⟨0x0C004A, 4, 2, 0x10, 1, .cnt, .service, .any, [0]⟩  -- sat_count R181
  ]

/-- Rows of block 0x0D. -/
def params0Da : List ParamRow := [
  ⟨0x0D0000, 1, 1, 0x100, 1, .cfg, .observer, (.u 140000 400000 1), [0x27100]⟩,  -- slack_target R204
  ⟨0x0D0001, 1, 1, 0x100, 1, .cfg, .observer, (.u 800000 900000 2500), [0xDBBA0]⟩,  -- rail_max R204
  ⟨0x0D0002, 1, 1, 0x100, 1, .stat, .observer, .any, [780000]⟩,  -- rail_now R204
  ⟨0x0D0003, 1, 1, 0x100, 1, .stat, .observer, .any, [0]⟩,  -- rail_high_water R204
  ⟨0x0D0004, 1, 1, 0x100, 1, .stat, .observer, .any, [0]⟩,  -- slack_x_last R204
  ⟨0x0D0005, 1, 1, 0x100, 1, .stat, .observer, .any, [0]⟩,  -- slack_y_last R204
  ⟨0x0D0006, 1, 1, 0x100, 1, .stat, .observer, .any, [0]⟩,  -- slack_min_1s R204
  ⟨0x0D0007, 1, 1, 0x100, 1, .stat, .observer, .any, [0x7FFFFFFF]⟩,  -- slack_min_life R204
  ⟨0x0D0008, 1, 1, 0x100, 1, .stat, .observer, .any, [0]⟩,  -- slack_hist R204
  ⟨0x0D0009, 1, 1, 0x100, 1, .stat, .observer, .any, [0xFFFFFFFF]⟩,  -- fc_rail_hours R204
  ⟨0x0D000A, 1, 1, 0x100, 1, .stat, .observer, .any, [0xFFFFFFFF]⟩,  -- fc_floor_hours R204
  ⟨0x0D000B, 1, 1, 0x100, 1, .stat, .observer, .any, [1]⟩,  -- ladder_rung R204
  ⟨0x0D000C, 1, 1, 0x100, 1, .stat, .observer, .any, [0]⟩,  -- ladder_dropped R204
  ⟨0x0D000D, 1, 1, 0x100, 1, .cfg, .observer, (.u 0 3 1), [0]⟩,  -- ladder_allow R204
  ⟨0x0D000E, 1, 1, 0x100, 1, .cmd, .commissioner, (.oneOf [3, 4, 16]), [0]⟩,  -- ladder_cmd R204
  ⟨0x0D000F, 1, 1, 0x100, 1, .stat, .observer, .any, [0]⟩,  -- ladder_pending R204
  ⟨0x0D0010, 1, 1, 0x100, 1, .stat, .observer, .any, [128]⟩,  -- slice_ops_eff R204
  ⟨0x0D0011, 1, 1, 0x100, 1, .cnt, .service, .any, [0]⟩,  -- rail_step_count R204
  ⟨0x0D0012, 1, 1, 0x100, 1, .cnt, .service, .any, [0]⟩,  -- emergency_count R204
  ⟨0x0D0013, 1, 1, 0x100, 1, .stat, .observer, .any, [0]⟩,  -- power_on_hours R204
  ⟨0x0D0014, 1, 1, 0x100, 1, .stat, .observer, .any, [0]⟩,  -- health_report R204
  ⟨0x0D0015, 1, 1, 0x100, 1, .cfg, .observer, (.u 100 5000 1), [500]⟩,  -- vce_derate_share R204
  ⟨0x0D0016, 1, 1, 0x100, 1, .cfg, .observer, (.u 0 1000 1), [200]⟩,  -- vce_derate_gain R204
  ⟨0x0D0017, 1, 1, 0x100, 1, .cfg, .observer, (.s 67108864 134217728 1), [0x5999999]⟩,  -- derate_min R204
  ⟨0x0D0018, 1, 1, 0x100, 1, .cfg, .observer, (.u 100 10000 1), [2000]⟩,  -- vce_alarm_share R204
  ⟨0x0D0019, 1, 1, 0x100, 1, .cfg, .observer, (.u 0 19200 1), [0x2800]⟩,  -- vce_tref R204
  ⟨0x0D001A, 1, 1, 0x100, 1, .cfg, .observer, (.u 0 10000 1), [4000]⟩,  -- vce_alpha R204
  ⟨0x0D001B, 1, 1, 0x100, 1, .cfg, .observer, (.u 1 1000 1), [24]⟩,  -- vce_base_hours R204
  ⟨0x0D1000, 4, 2, 0x100, 1, .stat, .observer, .any, [0x8000000]⟩,  -- derate R204
  ⟨0x0D1001, 4, 2, 0x100, 1, .stat, .observer, .any, [0]⟩  -- vce_worst R204
  ]

/-- Rows of block 0x0D. -/
def params0Db : List ParamRow := [
  ⟨0x0D1002, 4, 2, 0x100, 1, .cmd, .commissioner, (.oneOf [1]), [0]⟩,  -- vce_rebase R204
  ⟨0x0D1003, 4, 2, 0x100, 1, .cnt, .service, .any, [0]⟩,  -- derate_count R204
  ⟨0x0D2000, 48, 24, 0x100, 1, .stat, .observer, .any, [0]⟩,  -- vce_share R204
  ⟨0x0D2001, 48, 24, 0x100, 1, .stat, .observer, .any, [0]⟩,  -- vce_corr R204
  ⟨0x0D2002, 48, 24, 0x100, 1, .stat, .observer, .any, [0]⟩,  -- vce_baseline R204
  ⟨0x0D2003, 48, 24, 0x100, 1, .cnt, .service, .any, [0]⟩  -- vce_count R204
  ]

/-- Rows of block 0x0E. -/
def params0E : List ParamRow := [
  ⟨0x0E0000, 1, 1, 0x100, 1, .cmd, .commissioner, (.u 1 2 1), [0]⟩,  -- inj_cmd R182
  ⟨0x0E0001, 1, 1, 0x100, 1, .live, .commissioner, (.u 0 3 1), [0]⟩,  -- inj_port R182
  ⟨0x0E0002, 1, 1, 0x100, 1, .live, .commissioner, .any, [0]⟩,  -- inj_point R182
  ⟨0x0E0003, 1, 1, 0x100, 1, .live, .commissioner, (.u 1 3 1), [3]⟩,  -- inj_wave R182
  ⟨0x0E0004, 1, 1, 0x100, 1, .live, .commissioner, (.s 0 26843546 1), [0x147AE1]⟩,  -- inj_amp R182
  ⟨0x0E0005, 1, 1, 0x100, 1, .cfg, .observer, (.s 0 26843546 1), [0x666666]⟩,  -- inj_amp_max R182
  ⟨0x0E0006, 1, 1, 0x100, 1, .cfg, .observer, (.s 67108864 201326592 1), [0x8000000]⟩,  -- inj_guard_i R182
  ⟨0x0E0007, 1, 1, 0x100, 1, .live, .commissioner, (.u 7 23 1), [11]⟩,  -- prbs_order R182
  ⟨0x0E0008, 1, 1, 0x100, 1, .live, .commissioner, (.u 1 256 1), [1]⟩,  -- prbs_hold R182
  ⟨0x0E0009, 1, 1, 0x100, 1, .live, .commissioner, .any, [1000]⟩,  -- chirp_f0 R182
  ⟨0x0E000A, 1, 1, 0x100, 1, .live, .commissioner, .any, [0x989680]⟩,  -- chirp_f1 R182
  ⟨0x0E000B, 1, 1, 0x100, 1, .live, .commissioner, (.u 100 600000 1), [0x2710]⟩,  -- chirp_time R182
  ⟨0x0E000C, 1, 1, 0x100, 1, .live, .commissioner, .any, [0x2710]⟩,  -- ss_f_start R182
  ⟨0x0E000D, 1, 1, 0x100, 1, .live, .commissioner, .any, [0x989680]⟩,  -- ss_f_stop R182
  ⟨0x0E000E, 1, 1, 0x100, 1, .live, .commissioner, (.u 1 256 1), [64]⟩,  -- ss_points R182
  ⟨0x0E000F, 1, 1, 0x100, 1, .live, .commissioner, (.u 1 1000 1), [10]⟩,  -- ss_settle R182
  ⟨0x0E0010, 1, 1, 0x100, 1, .live, .commissioner, (.u 1 10000 1), [20]⟩,  -- ss_cycles R182
  ⟨0x0E0011, 1, 1, 0x100, 1, .live, .commissioner, .any, [0xFFFFFFFF]⟩,  -- resp_point_a R182
  ⟨0x0E0012, 1, 1, 0x100, 1, .live, .commissioner, .any, [0]⟩,  -- resp_point_b R182
  ⟨0x0E0013, 1, 1, 0x100, 1, .live, .commissioner, .any, [2]⟩,  -- inj_dest R182
  ⟨0x0E0014, 1, 1, 0x100, 1, .stat, .commissioner, .any, [0]⟩,  -- inj_state R182
  ⟨0x0E0015, 1, 1, 0x100, 1, .stat, .commissioner, .any, [0]⟩,  -- inj_abort R182
  ⟨0x0E0016, 1, 1, 0x100, 1, .stat, .commissioner, .any, [0]⟩,  -- fr_points R182
  ⟨0x0E0017, 1, 1, 0x100, 1, .stat, .commissioner, .any, [0]⟩,  -- fr_table R182
  ⟨0x0E0018, 1, 1, 0x100, 1, .cnt, .service, .any, [0]⟩,  -- inj_count R182
  ⟨0x0E0019, 1, 1, 0x100, 1, .cfg, .observer, (.u 0 1 1), [0]⟩  -- inj_allow R182
  ]

/-- Rows of block 0x10. -/
def params10 : List ParamRow := [
  ⟨0x100000, 48, 24, 0x100, 1, .cfg, .observer, (.u 0 16383 1), [0]⟩,  -- fa_role R227
  ⟨0x100001, 48, 24, 0x100, 1, .cfg, .observer, (.s 13421773 2134061875 1), [0x8000000]⟩,  -- fa_fs_pu R227
  ⟨0x100002, 48, 24, 0x100, 1, .cfg, .observer, (.s (-512) 511 1), [0]⟩,  -- fa_offset R227
  ⟨0x100003, 48, 24, 0x100, 1, .cfg, .observer, (.s (-9008) 9008 4), [0x2330]⟩,  -- win_hi R227
  ⟨0x100004, 48, 24, 0x100, 1, .cfg, .observer, (.s (-9008) 9008 4), [0xFFFFDCD0]⟩,  -- win_lo R227
  ⟨0x100005, 48, 24, 0x100, 1, .cfg, .observer, (.u 0 256 4), [32]⟩,  -- win_hyst R227
  ⟨0x100006, 48, 24, 0x100, 1, .cfg, .observer, (.u 0 1 1), [0]⟩,  -- win_target R227
  ⟨0x100007, 48, 24, 0x100, 1, .cfg, .observer, (.u 0 1000 1), [4]⟩,  -- stuck_floor R227
  ⟨0x100008, 48, 24, 0x100, 1, .stat, .observer, .any, [0]⟩,  -- fa_status R227
  ⟨0x100009, 48, 24, 0x100, 1, .cmd, .service, (.oneOf [1]), [0]⟩,  -- fa_clear R227
  ⟨0x10000A, 48, 24, 0x100, 1, .stat, .observer, .any, [0]⟩,  -- fa_last R227
  ⟨0x10000B, 48, 24, 0x100, 1, .stat, .observer, .any, [0]⟩,  -- fa_variance R227
  ⟨0x10000C, 48, 24, 0x100, 1, .cnt, .service, .any, [0]⟩,  -- ovr_count R227
  ⟨0x10000D, 48, 24, 0x100, 1, .cnt, .service, .any, [0]⟩,  -- win_count R227
  ⟨0x10000E, 48, 24, 0x100, 1, .cnt, .service, .any, [0]⟩,  -- stuck_count R227
  ⟨0x103000, 4, 2, 0x100, 1, .cfg, .observer, (.u 1 10 1), [1]⟩,  -- grp_os R227
  ⟨0x103001, 4, 2, 0x100, 1, .stat, .observer, .any, [255]⟩,  -- grp_owner R227
  ⟨0x103002, 4, 2, 0x100, 1, .cnt, .service, .any, [0]⟩,  -- grp_discard_count R227
  ⟨0x103003, 4, 2, 0x100, 1, .cnt, .service, .any, [0]⟩  -- grp_seq_err R227
  ]

/-- Rows of block 0x11. -/
def params11 : List ParamRow := [
  ⟨0x110000, 32, 32, 0x100, 1, .cfg, .observer, .any, [0]⟩,  -- sa_role R228
  ⟨0x110001, 32, 32, 0x100, 1, .cfg, .observer, (.u 1 4 1), [3]⟩,  -- sa_order R228
  ⟨0x110002, 32, 32, 0x100, 1, .cfg, .observer, (.u 16 1024 1), [256]⟩,  -- sa_decim R228
  ⟨0x110003, 32, 32, 0x100, 1, .cfg, .observer, (.u 1 1024 1), [1]⟩,  -- sa_div R228
  ⟨0x110004, 32, 32, 0x100, 1, .cfg, .observer, .any, [0x80000000]⟩,  -- sa_lim_lo R228
  ⟨0x110005, 32, 32, 0x100, 1, .cfg, .observer, .any, [0x7FFFFFFF]⟩,  -- sa_lim_hi R228
  ⟨0x110006, 32, 32, 0x100, 1, .stat, .observer, .any, [0]⟩,  -- sa_code R228
  ⟨0x110007, 32, 32, 0x100, 1, .stat, .observer, .any, [0]⟩,  -- sa_value R228
  ⟨0x110008, 32, 32, 0x100, 1, .stat, .observer, .any, [0]⟩,  -- sa_status R228
  ⟨0x110009, 32, 32, 0x100, 1, .cnt, .service, .any, [0]⟩,  -- sa_ovr_count R228
  ⟨0x11000A, 32, 32, 0x100, 1, .cnt, .service, .any, [0]⟩,  -- sa_limit_count R228
  ⟨0x110010, 32, 32, 0x100, 16, .cfg, .observer, .any, [0]⟩,  -- sa_tab0–sa_tab15 R228
  ⟨0x112000, 4, 4, 0x100, 1, .cfg, .observer, (.u 1 10000 1), [100]⟩,  -- sm_scan R228
  ⟨0x112001, 4, 4, 0x100, 1, .stat, .observer, .any, [0]⟩,  -- sm_scan_time R228
  ⟨0x112002, 4, 4, 0x100, 1, .cnt, .service, .any, [0]⟩  -- sm_reset_count R228
  ]

/-- Rows of block 0x14. -/
def params14 : List ParamRow := [
  ⟨0x140000, 24, 12, 0x100, 1, .cfg, .observer, .any, [0xFFFFFFFF]⟩,  -- phase0 R253
  ⟨0x140001, 24, 12, 0x100, 6, .live, .service, .any, [0]⟩,  -- xc0–xc5 R253
  ⟨0x140007, 24, 12, 0x100, 1, .stat, .observer, .any, [0]⟩,  -- d_active R253
  ⟨0x140008, 24, 12, 0x100, 1, .stat, .observer, .any, [0]⟩,  -- ph_active R253
  ⟨0x140009, 24, 12, 0x100, 1, .stat, .observer, .any, [0]⟩,  -- gen_active R253
  ⟨0x14000A, 24, 12, 0x100, 1, .live, .service, (.s 0 134217728 1), [0]⟩,  -- sh_duty R253
  ⟨0x14000B, 24, 12, 0x100, 1, .live, .service, .any, [0]⟩,  -- sh_phase R253
  ⟨0x14000C, 24, 12, 0x100, 1, .stat, .observer, .any, [0]⟩,  -- sh_gen R253
  ⟨0x14000D, 24, 12, 0x100, 1, .stat, .observer, .any, [0]⟩,  -- leg_out R253
  ⟨0x14000E, 24, 12, 0x100, 1, .cnt, .service, .any, [0]⟩,  -- min_pulse_count R253
  ⟨0x14000F, 24, 12, 0x100, 1, .cnt, .service, .any, [0]⟩,  -- ref_clamp_count R253
  ⟨0x140010, 24, 12, 0x100, 1, .cnt, .service, .any, [0]⟩,  -- xc_lost_count R253
  ⟨0x140011, 24, 12, 0x100, 6, .live, .service, .any, [0]⟩,  -- xs0–xs5 R253
  ⟨0x142000, 4, 2, 0x100, 1, .cfg, .observer, (.u 0 1 1), [0]⟩,  -- carrier R253
  ⟨0x142001, 4, 2, 0x100, 1, .cfg, .observer, (.u 8000 4000000 2), [0x27100]⟩,  -- period0 R253
  ⟨0x142002, 4, 2, 0x100, 1, .cfg, .observer, (.u 0 1 1), [0]⟩,  -- upd_mode R253
  ⟨0x142003, 4, 2, 0x100, 1, .cfg, .observer, (.u 0 1 1), [1]⟩,  -- smp_sync R253
  ⟨0x142004, 4, 2, 0x100, 1, .cfg, .observer, .any, [0]⟩,  -- smp_offset R253
  ⟨0x142005, 4, 2, 0x100, 1, .cfg, .observer, (.u 0 2000 1), [200]⟩,  -- min_pulse R253
  ⟨0x142006, 4, 2, 0x100, 1, .cfg, .observer, (.u 1 255 1), [8]⟩,  -- torn_limit R253
  ⟨0x142007, 4, 2, 0x100, 1, .stat, .observer, .any, [0]⟩,  -- mod_state R253
  ⟨0x142008, 4, 2, 0x100, 1, .stat, .observer, .any, [0]⟩,  -- p_active R253
  ⟨0x142009, 4, 2, 0x100, 1, .live, .service, (.u 8000 4000000 2), [0x27100]⟩,  -- sh_period R253
  ⟨0x14200A, 4, 2, 0x100, 1, .cnt, .service, .any, [0]⟩,  -- torn_count R253
  ⟨0x14200B, 4, 2, 0x100, 1, .cmd, .service, (.oneOf [1]), [0]⟩,  -- mod_release R253
  ⟨0x14200C, 4, 2, 0x100, 1, .stat, .observer, .any, [255]⟩,  -- ref_leg R253
  ⟨0x14200D, 4, 2, 0x100, 1, .stat, .observer, .any, [0]⟩  -- realign_ticks R253
  ]

/-- Rows of block 0x15. -/
def params15 : List ParamRow := [
  ⟨0x150000, 24, 12, 0x100, 1, .stat, .observer, .any, [0]⟩,  -- dt_mode R254
  ⟨0x150001, 24, 12, 0x100, 6, .stat, .observer, .any, [0x7A120]⟩,  -- dt_now0–dt_now5 R254
  ⟨0x150007, 24, 12, 0x100, 6, .stat, .observer, .any, [0]⟩,  -- dt_meas0–dt_meas5 R254
  ⟨0x15000D, 24, 12, 0x100, 1, .stat, .observer, .any, [0]⟩,  -- dt_trans R254
  ⟨0x15000E, 24, 12, 0x100, 1, .cnt, .service, .any, [0]⟩,  -- dt_trunc_count R254
  ⟨0x15000F, 24, 12, 0x100, 1, .cnt, .service, .any, [0]⟩,  -- dt_ceil_count R254
  ⟨0x150010, 24, 12, 0x100, 1, .cnt, .service, .any, [0]⟩,  -- ns_lost_count R254
  ⟨0x152000, 4, 2, 0x100, 1, .cfg, .observer, (.u 0 1 1), [1]⟩,  -- dt_adapt R254
  ⟨0x152001, 4, 2, 0x100, 1, .live, .commissioner, (.u 10 200 1), [40]⟩,  -- dt_margin R254
  ⟨0x152002, 4, 2, 0x100, 1, .cfg, .observer, (.u 20 500 1), [100]⟩,  -- dt_floor R254
  ⟨0x152003, 4, 2, 0x100, 1, .cfg, .observer, (.s 0 26843546 1), [0x28F5C3]⟩,  -- dt_i_band R254
  ⟨0x152004, 4, 2, 0x100, 6, .cfg, .observer, (.u 20 5000 1), [500]⟩,  -- dt_fix0–dt_fix5 R254
  ⟨0x15200A, 4, 2, 0x100, 1, .cfg, .observer, (.u 100 2000 1), [500]⟩,  -- ns_ratio R254
  ⟨0x15200B, 4, 2, 0x100, 1, .cfg, .observer, (.u 8 255 1), [32]⟩  -- ns_miss_n R254
  ]

/-- Rows of block 0x16. -/
def params16 : List ParamRow := [
  ⟨0x160000, 48, 24, 0x100, 1, .stat, .observer, .any, [0]⟩,  -- isl_state R281
  ⟨0x160001, 48, 24, 0x100, 1, .stat, .observer, .any, [0]⟩,  -- isl_status R281
  ⟨0x160002, 48, 24, 0x100, 1, .cfg, .observer, (.u 1000 10000 50), [0x1B58]⟩,  -- ds_thresh R281
  ⟨0x160003, 48, 24, 0x100, 1, .cfg, .observer, (.u 200 5000 5), [1000]⟩,  -- ds_blank R281
  ⟨0x160004, 48, 24, 0x100, 1, .cfg, .observer, (.u 0 500 5), [100]⟩,  -- ds_filter R281
  ⟨0x160005, 48, 24, 0x100, 1, .cfg, .observer, (.u 3000 14000 50), [0x2EE0]⟩,  -- gs_plateau_v R281
  ⟨0x160006, 48, 24, 0x100, 1, .cfg, .observer, (.u 0 1000 5), [150]⟩,  -- gs_plateau_min R281
  ⟨0x160007, 48, 24, 0x100, 1, .cmd, .service, (.oneOf [1]), [0]⟩,  -- ist_cmd R281
  ⟨0x160008, 48, 24, 0x100, 1, .stat, .observer, .any, [0]⟩,  -- ist_result R281
  ⟨0x160009, 48, 24, 0x100, 1, .cmd, .service, (.u 10 1000 1), [0]⟩,  -- isl_pulse R281
  ⟨0x16000A, 48, 24, 0x100, 1, .stat, .observer, .any, [0]⟩,  -- vce_raw R281
  ⟨0x16000B, 48, 24, 0x100, 1, .stat, .observer, .any, [0]⟩,  -- soft_off_time R281
  ⟨0x16000C, 48, 24, 0x100, 1, .stat, .observer, .any, [0]⟩,  -- skew_cal R281
  ⟨0x16000D, 48, 24, 0x100, 1, .cnt, .service, .any, [0]⟩,  -- ds_count R281
  ⟨0x16000E, 48, 24, 0x100, 1, .cnt, .service, .any, [0]⟩,  -- plateau_count R281
  ⟨0x16000F, 48, 24, 0x100, 1, .cnt, .service, .any, [0]⟩,  -- hs_timeout_count R281
  ⟨0x160010, 48, 24, 0x100, 1, .cnt, .service, .any, [0]⟩,  -- conflict_count R281
  ⟨0x160011, 48, 24, 0x100, 1, .cnt, .service, .any, [0]⟩,  -- uvlo_count R281
  ⟨0x160012, 48, 24, 0x100, 1, .cnt, .service, .any, [0]⟩  -- wd_count R281
  ]

/-- Rows of block 0x17. -/
def params17 : List ParamRow := [
  ⟨0x170000, 24, 12, 0x100, 1, .stat, .observer, .any, [0]⟩,  -- leg_prot R282
  ⟨0x170001, 24, 12, 0x100, 1, .stat, .observer, .any, [0]⟩,  -- leg_trip_phase R282
  ⟨0x170002, 24, 12, 0x100, 1, .cnt, .service, .any, [0]⟩,  -- leg_fault_count R282
  ⟨0x172000, 4, 2, 0x100, 1, .stat, .observer, .any, [0]⟩,  -- prot_state R282
  ⟨0x172001, 4, 2, 0x100, 1, .stat, .observer, .any, [0]⟩,  -- legs_faulted R282
  ⟨0x172002, 4, 2, 0x100, 1, .stat, .observer, .any, [0x8000000]⟩,  -- f_leg R282
  ⟨0x172003, 4, 2, 0x100, 1, .stat, .observer, .any, [0]⟩,  -- stop_cause R282
  ⟨0x172004, 4, 2, 0x100, 1, .cmd, .operator, (.oneOf [1]), [0]⟩,  -- prot_clear R282
  ⟨0x172005, 4, 2, 0x100, 1, .stat, .observer, .any, [0]⟩,  -- clear_refuse R282
  ⟨0x172006, 4, 2, 0x100, 1, .cfg, .observer, (.u 20 1000 5), [50]⟩,  -- il_min_time R282
  ⟨0x172007, 4, 2, 0x100, 1, .cfg, .observer, (.u 0 1 1), [1]⟩,  -- leg_fault_cont R282
  ⟨0x172008, 4, 2, 0x100, 1, .cfg, .observer, (.u 0 15 1), [0]⟩,  -- auto_mask R282
  ⟨0x172009, 4, 2, 0x100, 1, .cfg, .observer, (.u 0 7 1), [0]⟩,  -- auto_tries R282
  ⟨0x17200A, 4, 2, 0x100, 1, .cfg, .observer, (.u 10 10000 1), [1000]⟩,  -- auto_wait R282
  ⟨0x17200B, 4, 2, 0x100, 1, .cfg, .observer, (.u 1 86400 1), [3600]⟩,  -- auto_window R282
  ⟨0x17200C, 4, 2, 0x100, 1, .stat, .observer, .any, [0]⟩,  -- auto_used R282
  ⟨0x17200D, 4, 2, 0x100, 1, .cnt, .service, .any, [0]⟩,  -- prot_stop_count R282
  ⟨0x17200E, 4, 2, 0x100, 1, .cnt, .service, .any, [0]⟩,  -- clear_refuse_count R282
  ⟨0x173000, 8, 8, 0x100, 1, .cfg, .observer, (.u 0 15 1), [0]⟩,  -- trip_ports R282
  ⟨0x173001, 8, 8, 0x100, 1, .cfg, .observer, (.u 0 1 1), [0]⟩,  -- trip_action R282
  ⟨0x173002, 8, 8, 0x100, 1, .cfg, .observer, (.u 0 50 5), [20]⟩,  -- trip_filter R282
  ⟨0x173003, 8, 8, 0x100, 1, .stat, .observer, .any, [0]⟩,  -- trip_level R282
  ⟨0x173004, 8, 8, 0x100, 1, .cnt, .service, .any, [0]⟩  -- trip_in_count R282
  ]

/-- Rows of block 0x1C. -/
def params1Ca : List ParamRow := [
  ⟨0x1C0000, 1, 1, 0x100, 1, .stat, .observer, .any, [17]⟩,  -- safety_state R314
  ⟨0x1C0001, 1, 1, 0x100, 1, .stat, .observer, .any, [0]⟩,  -- safety_format R314
  ⟨0x1C0002, 1, 1, 0x100, 1, .stat, .observer, .any, [0]⟩,  -- strap_read R314
  ⟨0x1C0003, 1, 1, 0x100, 1, .safe, .observer, .any, [0]⟩,  -- profile_word R314
  ⟨0x1C0004, 1, 1, 0x100, 13, .safe, .observer, .any, [0]⟩,  -- sp_conn_id, sp_period, sp_window, sin_filter, sin_disc_time, sin_tp_en, scc_mirror_time, sbc_hold_time, sbc_test_interval, sbc_i_min, sbc_i_max, sp_can_rx_id, sp_can_tx_id R314
  ⟨0x1C0011, 1, 1, 0x100, 1, .live, .commissioner, .any, [0]⟩,  -- safety_check R314
  ⟨0x1C0012, 1, 1, 0x100, 1, .cmd, .commissioner, (.oneOf [1]), [0]⟩,  -- safety_commit R314
  ⟨0x1C0013, 1, 1, 0x100, 1, .stat, .observer, .any, [64]⟩,  -- safety_commits_left R314
  ⟨0x1C0014, 1, 1, 0x100, 1, .stat, .observer, .any, [0]⟩,  -- safe_stop_cause R314
  ⟨0x1C0015, 1, 1, 0x100, 1, .stat, .observer, .any, [0]⟩,  -- reset_refuse R314
  ⟨0x1C0016, 1, 1, 0x100, 1, .stat, .observer, .any, [0xFFFFFFFF]⟩,  -- hold_test_age R314
  ⟨0x1C0017, 1, 1, 0x100, 1, .stat, .observer, .any, [0]⟩,  -- hold_test_result R314
  ⟨0x1C0018, 1, 1, 0x100, 1, .stat, .observer, .any, [0]⟩,  -- release_refuse R314
  ⟨0x1C0019, 1, 1, 0x100, 1, .stat, .observer, .any, [0]⟩,  -- close_refuse R314
  ⟨0x1C001A, 1, 1, 0x100, 1, .stat, .observer, .any, [0]⟩,  -- sp_rx_in R314
  ⟨0x1C001B, 1, 1, 0x100, 1, .stat, .observer, .any, [0]⟩,  -- sp_tx_out R314
  ⟨0x1C001C, 1, 1, 0x100, 1, .cnt, .service, .any, [0]⟩,  -- safe_stop_count R314
  ⟨0x1C001D, 1, 1, 0x100, 1, .cnt, .service, .any, [0]⟩,  -- release_refuse_count R314
  ⟨0x1C001E, 1, 1, 0x100, 1, .cnt, .service, .any, [0]⟩,  -- close_refuse_count R314
  ⟨0x1C001F, 1, 1, 0x100, 1, .cnt, .service, .any, [0]⟩,  -- hold_test_count R314
  ⟨0x1C0020, 1, 1, 0x100, 1, .cnt, .service, .any, [0]⟩,  -- sp_differ_count R314
  ⟨0x1C0021, 1, 1, 0x100, 1, .cnt, .service, .any, [0]⟩,  -- sp_timeout_count R314
  ⟨0x1C1000, 8, 8, 0x100, 1, .stat, .observer, .any, [0]⟩,  -- sin_state R314
  ⟨0x1C1001, 1, 1, 0x100, 1, .stat, .observer, .any, [0]⟩,  -- sin_function of input 0 R299, R305, R314
  ⟨0x1C1101, 5, 5, 0x100, 1, .stat, .observer, .any, [0xFF]⟩,  -- sin_function of inputs 1-5: unused until a profile is in force
  ⟨0x1C1601, 1, 1, 0x100, 1, .stat, .observer, .any, [6]⟩,  -- sin_function of input 6
  ⟨0x1C1701, 1, 1, 0x100, 1, .stat, .observer, .any, [0xFF]⟩,  -- sin_function of input 7
  ⟨0x1C1002, 8, 8, 0x100, 1, .cnt, .service, .any, [0]⟩,  -- sin_fault_count R314
  ⟨0x1C2000, 6, 6, 0x100, 1, .stat, .observer, .any, [0]⟩,  -- sout_state R314
  ⟨0x1C2001, 6, 6, 0x100, 1, .stat, .observer, .any, [0]⟩,  -- sout_current R314
  ⟨0x1C2002, 6, 6, 0x100, 1, .cnt, .service, .any, [0]⟩,  -- sout_fault_count R314
  ⟨0x1C3000, 4, 4, 0x100, 1, .stat, .observer, .any, [0]⟩,  -- sp_path_state R314
  ⟨0x1C3001, 4, 4, 0x100, 1, .cnt, .service, .any, [0]⟩  -- sp_rx_count R314
  ]

/-- Rows of block 0x1C. -/
def params1Cb : List ParamRow := [
  ⟨0x1C3002, 4, 4, 0x100, 1, .cnt, .service, .any, [0]⟩,  -- sp_invalid_count R314
  ⟨0x1C3003, 4, 4, 0x100, 1, .cnt, .service, .any, [0]⟩,  -- sp_late_count R314
  ⟨0x1C3004, 4, 4, 0x100, 1, .cnt, .service, .any, [0]⟩  -- sp_single_count R314
  ]

/-- Rows of block 0x1D. -/
def params1D : List ParamRow := [
  ⟨0x1D0000, 1, 1, 0x100, 1, .cfg, .observer, (.u 0 1 1), [0]⟩,  -- pair_enable R336
  ⟨0x1D0001, 1, 1, 0x100, 1, .stat, .observer, .any, [0]⟩,  -- pair_state R336
  ⟨0x1D0002, 1, 1, 0x100, 1, .stat, .observer, .any, [0]⟩,  -- partner_serial_lo R336
  ⟨0x1D0003, 1, 1, 0x100, 1, .stat, .observer, .any, [0]⟩,  -- partner_serial_hi R336
  ⟨0x1D0004, 1, 1, 0x100, 1, .stat, .observer, .any, [0]⟩,  -- mismatch_reason R336
  ⟨0x1D0005, 1, 1, 0x100, 1, .stat, .observer, .any, [0]⟩,  -- lease_renewed R336
  ⟨0x1D0006, 1, 1, 0x100, 1, .stat, .observer, .any, [0xFFFFFFFF]⟩,  -- lease_left R336
  ⟨0x1D0007, 1, 1, 0x100, 1, .stat, .observer, .any, [0]⟩,  -- align_err R336
  ⟨0x1D0008, 1, 1, 0x100, 1, .stat, .observer, .any, [0]⟩,  -- sb_fit R336
  ⟨0x1D0009, 1, 1, 0x100, 1, .cfg, .observer, (.s 1342177 26843546 1), [0x666666]⟩,  -- sb_track_tol R336
  ⟨0x1D000A, 1, 1, 0x100, 1, .stat, .observer, .any, [0]⟩,  -- state_image_bytes R336
  ⟨0x1D000B, 1, 1, 0x100, 1, .cmd, .commissioner, (.oneOf [1]), [0]⟩,  -- pair_solo R336
  ⟨0x1D000C, 1, 1, 0x100, 1, .cmd, .commissioner, (.oneOf [1]), [0]⟩,  -- pair_handover R336
  ⟨0x1D000D, 1, 1, 0x100, 1, .stat, .observer, .any, [0]⟩,  -- last_gap R336
  ⟨0x1D000E, 1, 1, 0x100, 1, .stat, .observer, .any, [0]⟩,  -- sb_health_report R336
  ⟨0x1D000F, 1, 1, 0x100, 1, .cnt, .service, .any, [0]⟩,  -- takeover_count R336
  ⟨0x1D0010, 1, 1, 0x100, 1, .cnt, .service, .any, [0]⟩,  -- giveup_count R336
  ⟨0x1D0011, 1, 1, 0x100, 1, .cnt, .service, .any, [0]⟩,  -- frame_err_count R336
  ⟨0x1D0012, 1, 1, 0x100, 1, .cnt, .service, .any, [0]⟩  -- mark_miss_count R336
  ]

/-- Rows of block 0x20. -/
def params20 : List ParamRow := [
  ⟨0x200000, 1, 1, 0x100, 1, .cfg, .observer, (.u 500 100000 100), [0x2710]⟩,  -- lat_cycle R361
  ⟨0x200001, 1, 1, 0x100, 1, .cfg, .observer, (.u 1 1000 1), [100]⟩,  -- lat_wd R361
  ⟨0x200002, 1, 1, 0x100, 1, .cfg, .observer, (.u 0 4095 1), [0]⟩,  -- lat_do_safe R361
  ⟨0x200003, 1, 1, 0x100, 1, .stat, .observer, .any, [0]⟩,  -- lat_state R361
  ⟨0x200004, 1, 1, 0x100, 1, .stat, .observer, .any, [0]⟩,  -- lat_prog_id R361
  ⟨0x200005, 1, 1, 0x100, 1, .stat, .observer, .any, [0]⟩,  -- lat_src R361
  ⟨0x200006, 1, 1, 0x100, 1, .stat, .observer, .any, [0]⟩,  -- lat_cycle_m R361
  ⟨0x200007, 1, 1, 0x100, 1, .stat, .observer, .any, [0]⟩,  -- lat_exec_last R361
  ⟨0x200008, 1, 1, 0x100, 1, .stat, .observer, .any, [0]⟩,  -- lat_exec_max R361
  ⟨0x200009, 1, 1, 0x100, 1, .cnt, .service, .any, [0]⟩,  -- lat_overrun_count R361
  ⟨0x20000A, 1, 1, 0x100, 1, .cnt, .service, .any, [0]⟩,  -- lat_skip_count R361
  ⟨0x20000B, 1, 1, 0x100, 1, .stat, .service, .any, [0]⟩,  -- lat_flags R361
  ⟨0x20000C, 1, 1, 0x100, 1, .cnt, .service, .any, [0]⟩,  -- lat_arith_count R361
  ⟨0x20000D, 1, 1, 0x100, 1, .cnt, .service, .any, [0]⟩,  -- lat_cmd_drop_count R361
  ⟨0x20000E, 1, 1, 0x100, 1, .live, .service, .any, [0]⟩,  -- lat_force_val R361
  ⟨0x20000F, 1, 1, 0x100, 1, .cmd, .service, .any, [0]⟩,  -- lat_force R361
  ⟨0x200010, 1, 1, 0x100, 1, .stat, .observer, .any, [0]⟩,  -- lat_forces R361
  ⟨0x200011, 1, 1, 0x100, 1, .stat, .observer, .any, [0]⟩,  -- lat_bank_status R361
  ⟨0x200012, 1, 1, 0x100, 1, .cmd, .commissioner, (.oneOf [1]), [0]⟩,  -- lat_activate R361
  ⟨0x200013, 1, 1, 0x100, 1, .stat, .observer, .any, [0]⟩,  -- lat_xchg_refuse R361
  ⟨0x200014, 1, 1, 0x100, 1, .cnt, .service, .any, [0]⟩  -- lat_xchg_count R361
  ]

/-- Rows of block 0x21. -/
def params21 : List ParamRow := [
  ⟨0x210000, 8, 8, 0x100, 1, .cfg, .observer, (.u 0 127 1), [0]⟩,  -- rio_node R362
  ⟨0x210001, 8, 8, 0x100, 1, .cfg, .observer, (.u 1 2 1), [1]⟩,  -- rio_can R362
  ⟨0x210002, 8, 8, 0x100, 1, .cfg, .observer, (.u 10 10000 1), [100]⟩,  -- rio_hb_time R362
  ⟨0x210003, 8, 8, 0x100, 1, .cfg, .observer, (.u 0 2 1), [2]⟩,  -- rio_di_len R362
  ⟨0x210004, 8, 8, 0x100, 1, .cfg, .observer, (.u 0 2 1), [2]⟩,  -- rio_do_len R362
  ⟨0x210005, 8, 8, 0x100, 1, .cfg, .observer, (.u 0 255 1), [0]⟩,  -- rio_aw_cfg R362
  ⟨0x210006, 8, 8, 0x100, 1, .cfg, .observer, (.u 0 1 1), [0]⟩,  -- rio_nmt_start R362
  ⟨0x210007, 8, 8, 0x100, 1, .cfg, .observer, (.u 0 1 1), [0]⟩,  -- rio_subst_mode R362
  ⟨0x210008, 8, 8, 0x100, 1, .cfg, .observer, (.u 0 65535 1), [0]⟩,  -- rio_subst_di R362
  ⟨0x210009, 8, 8, 0x100, 4, .cfg, .observer, (.s (-32768) 32767 1), [0]⟩,  -- rio_subst_aw0–rio_subst_aw3 R362
  ⟨0x21000D, 8, 8, 0x100, 1, .stat, .observer, .any, [0]⟩,  -- rio_state R362
  ⟨0x21000E, 8, 8, 0x100, 1, .stat, .observer, .any, [0]⟩,  -- rio_lost_cause R362
  ⟨0x21000F, 8, 8, 0x100, 1, .cnt, .service, .any, [0]⟩,  -- rio_lost_count R362
  ⟨0x210010, 8, 8, 0x100, 1, .cnt, .service, .any, [0]⟩,  -- rio_pdo_err_count R362
  ⟨0x210011, 8, 8, 0x100, 1, .cnt, .service, .any, [0]⟩  -- rio_tx_drop_count R362
  ]

/-- Rows of block 0x24. -/
def params24 : List ParamRow := [
  ⟨0x240000, 2, 2, 0x100, 1, .cfg, .observer, (.u 0 2 1), [0]⟩,  -- can_mode R389
  ⟨0x240001, 2, 2, 0x100, 1, .cfg, .observer, .any, [0x17F2020]⟩,  -- can_nbt R389
  ⟨0x240002, 2, 2, 0x100, 1, .cfg, .observer, .any, [0x11D0A0A]⟩,  -- can_dbt R389
  ⟨0x240003, 2, 2, 0x100, 1, .cfg, .observer, (.u 0 127 1), [30]⟩,  -- can_tdco R389
  ⟨0x240004, 2, 2, 0x100, 1, .cfg, .observer, (.u 0 1 1), [0]⟩,  -- can_triple R389
  ⟨0x240005, 2, 2, 0x100, 1, .cfg, .observer, (.u 0 31 1), [16]⟩,  -- can_retry R389
  ⟨0x240006, 2, 2, 0x100, 1, .cfg, .observer, (.u 0 1 1), [1]⟩,  -- can_busoff_auto R389
  ⟨0x240007, 2, 2, 0x100, 1, .cfg, .observer, (.u 0 2 1), [0]⟩,  -- can_time_role R389
  ⟨0x240008, 2, 2, 0x100, 1, .cfg, .observer, (.u 0 2047 1), [16]⟩,  -- can_tref_id R389
  ⟨0x240009, 2, 2, 0x100, 1, .cfg, .observer, (.u 0 1 1), [1]⟩,  -- can_tref_slot R389
  ⟨0x24000A, 2, 2, 0x100, 1, .stat, .observer, .any, [0]⟩,  -- can_state R389
  ⟨0x24000B, 2, 2, 0x100, 1, .stat, .observer, .any, [0]⟩,  -- can_tec R389
  ⟨0x24000C, 2, 2, 0x100, 1, .stat, .observer, .any, [0]⟩,  -- can_rec R389
  ⟨0x24000D, 2, 2, 0x100, 1, .stat, .observer, .any, [0]⟩,  -- can_alone R389
  ⟨0x24000E, 2, 2, 0x100, 1, .cmd, .service, (.oneOf [1]), [0]⟩,  -- can_busoff_cmd R389
  ⟨0x24000F, 2, 2, 0x100, 1, .stat, .observer, .any, [0]⟩,  -- can_tref_offset R389
  ⟨0x240010, 2, 2, 0x100, 1, .cnt, .service, .any, [0]⟩,  -- can_tx_count R389
  ⟨0x240011, 2, 2, 0x100, 1, .cnt, .service, .any, [0]⟩,  -- can_rx_count R389
  ⟨0x240012, 2, 2, 0x100, 1, .cnt, .service, .any, [0]⟩,  -- can_removed_count R389
  ⟨0x240013, 2, 2, 0x100, 1, .cnt, .service, .any, [0]⟩,  -- can_err_count R389
  ⟨0x240014, 2, 2, 0x100, 1, .cnt, .service, .any, [0]⟩,  -- can_busoff_count R389
  ⟨0x240015, 2, 2, 0x100, 1, .cnt, .service, .any, [0]⟩,  -- can_listen_drop_count R389
  ⟨0x240016, 2, 2, 0x100, 1, .cnt, .service, .any, [0]⟩,  -- can_tref_count R389
  ⟨0x240017, 2, 2, 0x100, 1, .cnt, .service, .any, [0]⟩  -- can_tref_skip_count R389
  ]

/-- Rows of block 0x25. -/
def params25 : List ParamRow := [
  ⟨0x250000, 2, 2, 0x100, 1, .cfg, .observer, (.u 0 1 1), [1]⟩,  -- eth_enable R390
  ⟨0x250001, 2, 2, 0x100, 1, .cfg, .observer, (.u 0 1 1), [0]⟩,  -- eth_role R390
  ⟨0x250002, 2, 2, 0x100, 1, .stat, .observer, .any, [0]⟩,  -- eth_mac_lo R390
  ⟨0x250003, 2, 2, 0x100, 1, .stat, .observer, .any, [0]⟩,  -- eth_mac_hi R390
  ⟨0x250004, 2, 2, 0x100, 1, .cfg, .observer, .any, [0xC0A8400A, 0xC0A8410A]⟩,  -- eth_ip R390
  ⟨0x250005, 2, 2, 0x100, 1, .cfg, .observer, (.u 8 30 1), [24]⟩,  -- eth_prefix R390
  ⟨0x250006, 2, 2, 0x100, 1, .cfg, .observer, .any, [0]⟩,  -- eth_gw R390
  ⟨0x250007, 2, 2, 0x100, 1, .cfg, .observer, (.u 0 4094 1), [0]⟩,  -- eth_vlan R390
  ⟨0x250008, 2, 2, 0x100, 1, .cfg, .observer, (.u 0 7 1), [5]⟩,  -- eth_pcp R390
  ⟨0x250009, 2, 2, 0x100, 1, .cfg, .observer, .any, [0]⟩,  -- sp_peer R390
  ⟨0x25000A, 2, 2, 0x100, 1, .stat, .observer, .any, [0]⟩,  -- eth_link R390
  ⟨0x25000B, 2, 2, 0x100, 1, .stat, .observer, .any, [0]⟩,  -- ptp_as_capable R390
  ⟨0x25000C, 2, 2, 0x100, 1, .stat, .observer, .any, [0]⟩,  -- ptp_pdelay R390
  ⟨0x25000D, 2, 2, 0x100, 1, .stat, .service, .any, [0]⟩,  -- txts_ovf R390
  ⟨0x25000E, 2, 2, 0x100, 1, .cnt, .service, .any, [0]⟩,  -- eth_rx_count R390
  ⟨0x25000F, 2, 2, 0x100, 1, .cnt, .service, .any, [0]⟩,  -- eth_tx_count R390
  ⟨0x250010, 2, 2, 0x100, 1, .cnt, .service, .any, [0]⟩,  -- eth_rx_err_count R390
  ⟨0x250011, 2, 2, 0x100, 1, .cnt, .service, .any, [0]⟩,  -- eth_link_down_count R390
  ⟨0x250012, 2, 2, 0x100, 1, .cnt, .service, .any, [0]⟩  -- txts_ovf_count R390
  ]

/-- Rows of block 0x26. -/
def params26a : List ParamRow := [
  ⟨0x260000, 1, 1, 0x100, 1, .stat, .observer, .any, [0]⟩,  -- time_state R391
  ⟨0x260001, 1, 1, 0x100, 1, .stat, .observer, .any, [0]⟩,  -- time_valid R391
  ⟨0x260002, 1, 1, 0x100, 1, .stat, .observer, .any, [0]⟩,  -- time_now_s R391
  ⟨0x260003, 1, 1, 0x100, 1, .stat, .observer, .any, [0]⟩,  -- time_now_ns R391
  ⟨0x260004, 1, 1, 0x100, 1, .stat, .observer, .any, [0]⟩,  -- time_offset R391
  ⟨0x260005, 1, 1, 0x100, 1, .stat, .observer, .any, [0]⟩,  -- time_rate R391
  ⟨0x260006, 1, 1, 0x100, 1, .cfg, .observer, (.u 0 2 1), [2]⟩,  -- ptp_port R391
  ⟨0x260007, 1, 1, 0x100, 1, .stat, .observer, .any, [255]⟩,  -- ptp_active R391
  ⟨0x260008, 1, 1, 0x100, 1, .cfg, .observer, (.u 0 127 1), [0]⟩,  -- ptp_domain R391
  ⟨0x260009, 1, 1, 0x100, 1, .cfg, .observer, (.u 0 255 1), [255]⟩,  -- ptp_priority1 R391
  ⟨0x26000A, 1, 1, 0x100, 1, .cfg, .observer, (.s (-5) 0 1), [0xFFFFFFFD]⟩,  -- ptp_log_sync R391
  ⟨0x26000B, 1, 1, 0x100, 1, .cfg, .observer, (.s (-3) 3 1), [0]⟩,  -- ptp_log_pdelay R391
  ⟨0x26000C, 1, 1, 0x100, 1, .cfg, .observer, (.u 100 10000 1), [800]⟩,  -- ptp_pdelay_thresh R391
  ⟨0x26000D, 1, 1, 0x100, 1, .stat, .observer, .any, [0]⟩,  -- ptp_gm_id_lo R391
  ⟨0x26000E, 1, 1, 0x100, 1, .stat, .observer, .any, [0]⟩,  -- ptp_gm_id_hi R391
  ⟨0x26000F, 1, 1, 0x100, 1, .cfg, .observer, (.u 0 60000 1), [1000]⟩,  -- time_holdover R391
  ⟨0x260010, 1, 1, 0x100, 1, .cfg, .observer, (.u 100 1000000 1), [0x2710]⟩,  -- time_valid_win R391
  ⟨0x260011, 1, 1, 0x100, 1, .cfg, .observer, (.u 0 1 1), [0]⟩,  -- time_local_valid R391
  ⟨0x260012, 1, 1, 0x100, 1, .cmd, .service, (.oneOf [1]), [0]⟩,  -- time_step R391
  ⟨0x260013, 1, 1, 0x100, 1, .stat, .observer, .any, [0]⟩,  -- time_step_pending R391
  ⟨0x260014, 1, 1, 0x100, 1, .cnt, .service, .any, [0]⟩,  -- time_step_count R391
  ⟨0x260015, 1, 1, 0x100, 1, .cfg, .observer, (.u 0 1 1), [0]⟩,  -- cyc_lock R391
  ⟨0x260016, 1, 1, 0x100, 1, .cfg, .observer, (.u 0 9995 5), [0]⟩,  -- cyc_offset R391
  ⟨0x260017, 1, 1, 0x100, 1, .stat, .observer, .any, [0]⟩,  -- cyc_lock_state R391
  ⟨0x260018, 1, 1, 0x100, 1, .stat, .observer, .any, [0]⟩,  -- cyc_phase_err R391
  ⟨0x261000, 4, 4, 0x100, 1, .live, .service, (.oneOf [0, 1, 2, 16, 17, 18]), [0]⟩,  -- tout_mode R391
  ⟨0x261001, 4, 4, 0x100, 1, .live, .service, .any, [0]⟩,  -- tout_start_s R391
  ⟨0x261002, 4, 4, 0x100, 1, .live, .service, (.u 0 999999999 1), [0]⟩,  -- tout_start_ns R391
  ⟨0x261003, 4, 4, 0x100, 1, .live, .service, (.u 1000 4000000000 1), [0x3B9ACA00]⟩,  -- tout_period R391
  ⟨0x261004, 4, 4, 0x100, 1, .live, .service, (.u 100 2000000000 1), [1000]⟩  -- tout_width R391
  ]

/-- Rows of block 0x26. -/
def params26b : List ParamRow := [
  ⟨0x261005, 4, 4, 0x100, 1, .stat, .observer, .any, [0]⟩,  -- tout_state R391
  ⟨0x261006, 4, 4, 0x100, 1, .cnt, .service, .any, [0]⟩,  -- tout_late_count R391
  ⟨0x261007, 4, 4, 0x100, 1, .cnt, .service, .any, [0]⟩  -- tout_skip_count R391
  ]

/-- Rows of block 0x28. -/
def params28 : List ParamRow := [
  ⟨0x280000, 1, 1, 0x100, 1, .cfg, .observer, (.u 0 3 1), [0]⟩,  -- bl_can_en R418
  ⟨0x280001, 1, 1, 0x100, 1, .cfg, .observer, (.u 0 2047 1), [1601]⟩,  -- bl_can_rx_id R418
  ⟨0x280002, 1, 1, 0x100, 1, .cfg, .observer, (.u 0 2047 1), [1600]⟩,  -- bl_can_tx_id R418
  ⟨0x280003, 1, 1, 0x100, 1, .cfg, .observer, (.u 10 3600 1), [300]⟩,  -- sess_idle R418
  ⟨0x280004, 1, 1, 0x100, 1, .cfg, .observer, (.u 0 60 1), [10]⟩,  -- ann_period R418
  ⟨0x280005, 1, 1, 0x100, 1, .stat, .observer, .any, [0]⟩,  -- sess_active R418
  ⟨0x280006, 1, 1, 0x100, 1, .stat, .observer, .any, [0]⟩,  -- peer_count R418
  ⟨0x280007, 1, 1, 0x100, 1, .stat, .observer, .any, [0]⟩,  -- peer_table R418
  ⟨0x280008, 1, 1, 0x100, 1, .stat, .observer, .any, [0]⟩,  -- bulk_state R418
  ⟨0x280009, 1, 1, 0x100, 1, .cnt, .service, .any, [0]⟩,  -- bl_drop_count R418
  ⟨0x28000A, 1, 1, 0x100, 1, .cnt, .service, .any, [0]⟩,  -- bl_dup_count R418
  ⟨0x28000B, 1, 1, 0x100, 1, .cnt, .service, .any, [0]⟩,  -- auth_fail_count R418
  ⟨0x28000C, 1, 1, 0x100, 1, .cnt, .service, .any, [0]⟩,  -- sess_open_count R418
  ⟨0x28000D, 1, 1, 0x100, 1, .cnt, .service, .any, [0]⟩  -- rsp_discard_count R418
  ]

/-- Rows of block 0x29. -/
def params29 : List ParamRow := [
  ⟨0x290000, 1, 1, 0x100, 1, .stat, .observer, .any, [0]⟩,  -- audit_next R419
  ⟨0x290001, 1, 1, 0x100, 1, .stat, .observer, .any, [0]⟩,  -- audit_state R419
  ⟨0x290002, 1, 1, 0x100, 1, .stat, .observer, .any, [0xFFFFFFFF]⟩,  -- audit_anchor R419
  ⟨0x290003, 1, 1, 0x100, 1, .stat, .service, .any, [0]⟩  -- audit_log R419
  ]

/-- Rows of block 0x2C. -/
def params2Ca : List ParamRow := [
  ⟨0x2C0000, 1, 1, 0x100, 1, .cfg, .observer, (.u 0 15 1), [0]⟩,  -- trg_in_edge R434
  ⟨0x2C0001, 1, 1, 0x100, 1, .cfg, .observer, (.u 0 1 1), [0]⟩,  -- sync_drive R434
  ⟨0x2C0002, 1, 1, 0x100, 1, .live, .service, .any, [0]⟩,  -- trg_time_s R434
  ⟨0x2C0003, 1, 1, 0x100, 1, .live, .service, (.u 0 999999999 1), [0]⟩,  -- trg_time_ns R434
  ⟨0x2C0004, 1, 1, 0x100, 1, .stat, .observer, .any, [0]⟩,  -- cap_units_free R434
  ⟨0x2C0005, 1, 1, 0x100, 1, .stat, .observer, .any, [0]⟩,  -- crumb_next R434
  ⟨0x2C0008, 1, 1, 0x100, 8, .cfg, .observer, (.u 0 16777215 1), [0]⟩,  -- trg_evt0–trg_evt7 R434
  ⟨0x2C0100, 2, 2, 0x100, 1, .stat, .observer, .any, [0]⟩,  -- cr_state R434
  ⟨0x2C0101, 2, 2, 0x100, 1, .stat, .observer, .any, [0]⟩,  -- cr_units R434
  ⟨0x2C0102, 1, 1, 0x100, 1, .cfg, .observer, (.u 1 1000 1), [1]⟩,  -- cr_decim R434
  ⟨0x2C0202, 1, 1, 0x100, 1, .live, .commissioner, (.u 1 1000 1), [1]⟩,  -- cr_decim R434
  ⟨0x2C0103, 1, 1, 0x100, 1, .cfg, .observer, (.u 0 1000000 1), [1000]⟩,  -- cr_pre R434
  ⟨0x2C0203, 1, 1, 0x100, 1, .live, .commissioner, (.u 0 1000000 1), [1000]⟩,  -- cr_pre R434
  ⟨0x2C0104, 1, 1, 0x100, 1, .cfg, .observer, (.u 1 4000000 1), [4000]⟩,  -- cr_post R434
  ⟨0x2C0204, 1, 1, 0x100, 1, .live, .commissioner, (.u 1 4000000 1), [4000]⟩,  -- cr_post R434
  ⟨0x2C0105, 1, 1, 0x100, 1, .cfg, .observer, (.u 0 33554431 1), [0]⟩,  -- cr_trig_mask R434
  ⟨0x2C0205, 1, 1, 0x100, 1, .live, .commissioner, (.u 0 33554431 1), [0]⟩,  -- cr_trig_mask R434
  ⟨0x2C0106, 1, 1, 0x100, 1, .cfg, .observer, (.u 0 1 1), [0]⟩,  -- cr_retrig R434
  ⟨0x2C0206, 1, 1, 0x100, 1, .live, .commissioner, (.u 0 1 1), [0]⟩,  -- cr_retrig R434
  ⟨0x2C0107, 1, 1, 0x100, 1, .cfg, .observer, (.u 0 1 1), [0]⟩,  -- cr_full R434
  ⟨0x2C0108, 2, 2, 0x100, 1, .cmd, .service, (.oneOf [1, 2]), [0]⟩,  -- cr_arm R434
  ⟨0x2C0109, 2, 2, 0x100, 1, .cmd, .service, (.oneOf [1]), [0]⟩,  -- cr_force R434
  ⟨0x2C010A, 2, 2, 0x100, 1, .cnt, .service, .any, [0]⟩,  -- cr_missed_count R434
  ⟨0x2C010B, 2, 2, 0x100, 1, .cnt, .service, .any, [0]⟩,  -- cr_gap_count R434
  ⟨0x2C010C, 2, 2, 0x100, 1, .stat, .observer, .any, [0]⟩,  -- cr_dead_last R434
  ⟨0x2C010D, 2, 2, 0x100, 1, .stat, .observer, .any, [0]⟩,  -- cr_dead_max R434
  ⟨0x2C0140, 1, 1, 0x100, 64, .cfg, .observer, .any, [0]⟩,  -- cr_ch0–cr_ch63 R434
  ⟨0x2C0240, 1, 1, 0x100, 64, .live, .commissioner, .any, [0]⟩,  -- cr_ch0–cr_ch63 R434
  ⟨0x2C4000, 128, 128, 0x100, 1, .stat, .observer, .any, [0xFFFFFFFF]⟩,  -- crumb_no R434
  ⟨0x2C4001, 128, 128, 0x100, 1, .stat, .observer, .any, [0]⟩  -- crumb_info R434
  ]

/-- Rows of block 0x2C. -/
def params2Cb : List ParamRow := [
  ⟨0x2C4002, 128, 128, 0x100, 1, .stat, .observer, .any, [0]⟩  -- crumb_data R434
  ]

/-- Rows of block 0x30. -/
def params30 : List ParamRow := [
  ⟨0x304000, 4, 2, 0x100, 1, .stat, .observer, .any, [2, 2, 2, 2]⟩,  -- q_depth R54
  ⟨0x304400, 4, 2, 0x100, 1, .stat, .observer, .any, [2, 2, 2, 2]⟩,  -- q_depth R54
  ⟨0x304800, 4, 2, 0x100, 1, .stat, .observer, .any, [1, 1, 1, 1]⟩,  -- q_depth R54
  ⟨0x304C00, 13, 13, 0x100, 1, .stat, .observer, .any, [256, 0x1000, 64, 16, 16, 32, 8, 8, 32, 32, 64, 64, 2]⟩,  -- q_depth R54
  ⟨0x304001, 4, 2, 0x100, 1, .stat, .observer, .any, [0]⟩,  -- q_high_water R54
  ⟨0x304401, 4, 2, 0x100, 1, .stat, .observer, .any, [0]⟩,  -- q_high_water R54
  ⟨0x304801, 4, 2, 0x100, 1, .stat, .observer, .any, [0]⟩,  -- q_high_water R54
  ⟨0x304C01, 13, 13, 0x100, 1, .stat, .observer, .any, [0]⟩,  -- q_high_water R54
  ⟨0x304002, 4, 2, 0x100, 1, .cnt, .service, .any, [0]⟩,  -- q_loss R54
  ⟨0x304402, 4, 2, 0x100, 1, .cnt, .service, .any, [0]⟩,  -- q_loss R54
  ⟨0x304802, 4, 2, 0x100, 1, .cnt, .service, .any, [0]⟩,  -- q_loss R54
  ⟨0x304C02, 13, 13, 0x100, 1, .cnt, .service, .any, [0]⟩  -- q_loss R54
  ]

/-- The rows of one block (R436); a block not listed there holds no parameter. -/
def paramRows (block : Nat) : List ParamRow :=
  match block with
  | 0x01 => params01
  | 0x02 => params02
  | 0x03 => params03
  | 0x04 => params04
  | 0x08 => params08a ++ params08b
  | 0x09 => params09a ++ params09b
  | 0x0A => params0Aa ++ params0Ab
  | 0x0B => params0B
  | 0x0C => params0C
  | 0x0D => params0Da ++ params0Db
  | 0x0E => params0E
  | 0x10 => params10
  | 0x11 => params11
  | 0x14 => params14
  | 0x15 => params15
  | 0x16 => params16
  | 0x17 => params17
  | 0x1C => params1Ca ++ params1Cb
  | 0x1D => params1D
  | 0x20 => params20
  | 0x21 => params21
  | 0x24 => params24
  | 0x25 => params25
  | 0x26 => params26a ++ params26b
  | 0x28 => params28
  | 0x29 => params29
  | 0x2C => params2Ca ++ params2Cb
  | 0x30 => params30
  | _ => []

/-- Instance and field position of an identifier inside a row, on the 4P (`fourP`) or the 2P. -/
def ParamRow.locate (r : ParamRow) (fourP : Bool) (id : Nat) : Option (Nat × Nat) :=
  if id < r.base then none
  else
    let d := id - r.base
    if d / r.istep < (if fourP then r.insts else r.insts2P) && d % r.istep < r.fields then
      some (d / r.istep, d % r.istep)
    else none

/-- Block, instance and field of an identifier (R7). -/
def pidBlock (id : Nat) : Nat := id / 0x10000
/-- Instance. -/
def pidInst (id : Nat) : Nat := id / 0x100 % 0x100
/-- Field. -/
def pidField (id : Nat) : Nat := id % 0x100

/-- The row of a known identifier (R436); none for an unknown one. -/
def findParam (fourP : Bool) (id : Nat) : Option ParamRow :=
  (paramRows (id / 0x10000)).find? fun r => (r.locate fourP id).isSome

/-- The Default column for an identifier of this row. -/
def ParamRow.defaultOf (r : ParamRow) (id : Nat) : Nat :=
  let k := if r.fields = 1 then (id - r.base) / r.istep else (id - r.base) % r.istep
  r.dflt.getD k (r.dflt.headD 0)

/-- What a word of the parameter space holds when nothing has been set: the default of its row; zero elsewhere. -/
def defaultWord (id : Nat) : BitVec 32 :=
  match findParam true id with
  | some r => BitVec.ofNat 32 (r.defaultOf id)
  | none => 0#32

/-- A value lies in the range of its table. -/
def Rng.holds (r : Rng) (v : BitVec 32) : Bool :=
  match r with
  | .any => true
  | .u lo hi st => decide (lo ≤ v.toNat ∧ v.toNat ≤ hi ∧ v.toNat % st = 0)
  | .s lo hi st => decide (lo ≤ v.toInt ∧ v.toInt ≤ hi ∧ v.toInt % st = 0)
  | .oneOf vs => vs.contains v.toNat

/-- `serial_lo` (R417). -/
abbrev Pid.serialLo : Nat := 0x010000
/-- `serial_hi` (R417). -/
abbrev Pid.serialHi : Nat := 0x010001
/-- `variant` (R417). -/
abbrev Pid.variant : Nat := 0x010002
/-- `grade` (R417). -/
abbrev Pid.grade : Nat := 0x010003
/-- `int_fpr0–int_fpr7` (R417). -/
abbrev Pid.intFpr (k : Nat) : Nat := 0x010004 + k
/-- `bound_serial_lo` (R417). -/
abbrev Pid.boundSerialLo : Nat := 0x01000C
/-- `bound_serial_hi` (R417). -/
abbrev Pid.boundSerialHi : Nat := 0x01000D
/-- `rebind_left` (R417). -/
abbrev Pid.rebindLeft : Nat := 0x01000E
/-- `keyrep_left` (R417). -/
abbrev Pid.keyrepLeft : Nat := 0x01000F
/-- `floor_steps_left` (R417). -/
abbrev Pid.floorStepsLeft : Nat := 0x010010
/-- `unit_state` (R86). -/
abbrev Pid.unitState : Nat := 0x020000
/-- `last_cause` (R86). -/
abbrev Pid.lastCause : Nat := 0x020001
/-- `selftest_result` (R86). -/
abbrev Pid.selftestResult : Nat := 0x020002
/-- `restart` (R86). -/
abbrev Pid.restart : Nat := 0x020003
/-- `ref_source` (R87). -/
abbrev Pid.refSource : Nat := 0x030000
/-- `ref_in_freq` (R87). -/
abbrev Pid.refInFreq : Nat := 0x030001
/-- `lock_cycles` (R87). -/
abbrev Pid.lockCycles : Nat := 0x030002
/-- `pll_state` (R87). -/
abbrev Pid.pllState : Nat := 0x030003
/-- `ref_in_use` (R87). -/
abbrev Pid.refInUse : Nat := 0x030004
/-- `vco_band` (R87). -/
abbrev Pid.vcoBand : Nat := 0x030005
/-- `relock_attempts` (R87). -/
abbrev Pid.relockAttempts : Nat := 0x030006
/-- `lock_loss_count` (R87). -/
abbrev Pid.lockLossCount : Nat := 0x030007
/-- `last_lock_time` (R87). -/
abbrev Pid.lastLockTime : Nat := 0x030008
/-- `boot_slot` (R88). -/
abbrev Pid.bootSlot : Nat := 0x040000
/-- `next_slot` (R88). -/
abbrev Pid.nextSlot : Nat := 0x040001
/-- `slot_a_status` (R88). -/
abbrev Pid.slotAStatus : Nat := 0x040002
/-- `slot_b_status` (R88). -/
abbrev Pid.slotBStatus : Nat := 0x040003
/-- `image_id` (R88). -/
abbrev Pid.imageId : Nat := 0x040004
/-- `image_counter` (R88). -/
abbrev Pid.imageCounter : Nat := 0x040005
/-- `rollback_floor` (R88). -/
abbrev Pid.rollbackFloor : Nat := 0x040006
/-- `pair_digest_lo` (R88). -/
abbrev Pid.pairDigestLo : Nat := 0x040007
/-- `pair_digest_hi` (R88). -/
abbrev Pid.pairDigestHi : Nat := 0x040008
/-- `flash_size` (R88). -/
abbrev Pid.flashSize : Nat := 0x040009
/-- `startup_time` (R88). -/
abbrev Pid.startupTime : Nat := 0x04000A
/-- `port_state` (R122). -/
abbrev Pid.portState (i : Nat) : Nat := 0x080000 + 0x100 * i
/-- `port_mode` (R122). -/
abbrev Pid.portMode (i : Nat) : Nat := 0x080001 + 0x100 * i
/-- `s_base` (R122). -/
abbrev Pid.sBase (i : Nat) : Nat := 0x080002 + 0x100 * i
/-- `v_base` (R122). -/
abbrev Pid.vBase (i : Nat) : Nat := 0x080003 + 0x100 * i
/-- `f_nom` (R122). -/
abbrev Pid.fNom (i : Nat) : Nat := 0x080004 + 0x100 * i
/-- `i_base` (R122). -/
abbrev Pid.iBase (i : Nat) : Nat := 0x080005 + 0x100 * i
/-- `energise` (R122). -/
abbrev Pid.energise (i : Nat) : Nat := 0x080006 + 0x100 * i
/-- `stop` (R122). -/
abbrev Pid.stop (i : Nat) : Nat := 0x080007 + 0x100 * i
/-- `bus_sense` (R122). -/
abbrev Pid.busSense (i : Nat) : Nat := 0x080008 + 0x100 * i
/-- `has_contactor` (R122). -/
abbrev Pid.hasContactor (i : Nat) : Nat := 0x080009 + 0x100 * i
/-- `dead_level` (R122). -/
abbrev Pid.deadLevel (i : Nat) : Nat := 0x08000A + 0x100 * i
/-- `dead_time` (R122). -/
abbrev Pid.deadTime (i : Nat) : Nat := 0x08000B + 0x100 * i
/-- `live_level` (R122). -/
abbrev Pid.liveLevel (i : Nat) : Nat := 0x08000C + 0x100 * i
/-- `ramp_time` (R122). -/
abbrev Pid.rampTime (i : Nat) : Nat := 0x08000D + 0x100 * i
/-- `tvi_r0` (R122). -/
abbrev Pid.tviR0 (i : Nat) : Nat := 0x08000E + 0x100 * i
/-- `tvi_x0` (R122). -/
abbrev Pid.tviX0 (i : Nat) : Nat := 0x08000F + 0x100 * i
/-- `tvi_decay` (R122). -/
abbrev Pid.tviDecay (i : Nat) : Nat := 0x080010 + 0x100 * i
/-- `backoff_max` (R122). -/
abbrev Pid.backoffMax (i : Nat) : Nat := 0x080011 + 0x100 * i
/-- `backoff_drawn` (R122). -/
abbrev Pid.backoffDrawn (i : Nat) : Nat := 0x080012 + 0x100 * i
/-- `bs_start_s` (R122). -/
abbrev Pid.bsStartS (i : Nat) : Nat := 0x080013 + 0x100 * i
/-- `bs_start_ns` (R122). -/
abbrev Pid.bsStartNs (i : Nat) : Nat := 0x080014 + 0x100 * i
/-- `sync_angle_win` (R122). -/
abbrev Pid.syncAngleWin (i : Nat) : Nat := 0x080015 + 0x100 * i
/-- `sync_freq_win` (R122). -/
abbrev Pid.syncFreqWin (i : Nat) : Nat := 0x080016 + 0x100 * i
/-- `sync_volt_win` (R122). -/
abbrev Pid.syncVoltWin (i : Nat) : Nat := 0x080017 + 0x100 * i
/-- `sync_dwell` (R122). -/
abbrev Pid.syncDwell (i : Nat) : Nat := 0x080018 + 0x100 * i
/-- `close_time` (R122). -/
abbrev Pid.closeTime (i : Nat) : Nat := 0x080019 + 0x100 * i
/-- `close_timeout` (R122). -/
abbrev Pid.closeTimeout (i : Nat) : Nat := 0x08001A + 0x100 * i
/-- `sync_timeout` (R122). -/
abbrev Pid.syncTimeout (i : Nat) : Nat := 0x08001B + 0x100 * i
/-- `arm_timeout` (R122). -/
abbrev Pid.armTimeout (i : Nat) : Nat := 0x08001C + 0x100 * i
/-- `stop_timeout` (R122). -/
abbrev Pid.stopTimeout (i : Nat) : Nat := 0x08001D + 0x100 * i
/-- `refuse_code` (R122). -/
abbrev Pid.refuseCode (i : Nat) : Nat := 0x08001E + 0x100 * i
/-- `bus_v` (R122). -/
abbrev Pid.busV (i : Nat) : Nat := 0x08001F + 0x100 * i
/-- `bus_f` (R122). -/
abbrev Pid.busF (i : Nat) : Nat := 0x080020 + 0x100 * i
/-- `bus_angle_diff` (R122). -/
abbrev Pid.busAngleDiff (i : Nat) : Nat := 0x080021 + 0x100 * i
/-- `lattice_out` (R122). -/
abbrev Pid.latticeOut (i : Nat) : Nat := 0x080022 + 0x100 * i
/-- `energise_count` (R122). -/
abbrev Pid.energiseCount (i : Nat) : Nat := 0x080023 + 0x100 * i
/-- `sync_fail_count` (R122). -/
abbrev Pid.syncFailCount (i : Nat) : Nat := 0x080024 + 0x100 * i
/-- `h_inertia` (R123). -/
abbrev Pid.hInertia (i : Nat) : Nat := 0x090000 + 0x100 * i
/-- `d_damp` (R123). -/
abbrev Pid.dDamp (i : Nat) : Nat := 0x090001 + 0x100 * i
/-- `pf_droop` (R123). -/
abbrev Pid.pfDroop (i : Nat) : Nat := 0x090002 + 0x100 * i
/-- `qv_droop` (R123). -/
abbrev Pid.qvDroop (i : Nat) : Nat := 0x090003 + 0x100 * i
/-- `qv_mode` (R123). -/
abbrev Pid.qvMode (i : Nat) : Nat := 0x090004 + 0x100 * i
/-- `kv_int` (R123). -/
abbrev Pid.kvInt (i : Nat) : Nat := 0x090005 + 0x100 * i
/-- `e_max` (R123). -/
abbrev Pid.eMax (i : Nat) : Nat := 0x090006 + 0x100 * i
/-- `f_dev_max` (R123). -/
abbrev Pid.fDevMax (i : Nat) : Nat := 0x090007 + 0x100 * i
/-- `rv` (R123). -/
abbrev Pid.rv (i : Nat) : Nat := 0x090008 + 0x100 * i
/-- `xv` (R123). -/
abbrev Pid.xv (i : Nat) : Nat := 0x090009 + 0x100 * i
/-- `p_filt_tc` (R123). -/
abbrev Pid.pFiltTc (i : Nat) : Nat := 0x09000A + 0x100 * i
/-- `q_filt_tc` (R123). -/
abbrev Pid.qFiltTc (i : Nat) : Nat := 0x09000B + 0x100 * i
/-- `p_set` (R123). -/
abbrev Pid.pSet (i : Nat) : Nat := 0x09000C + 0x100 * i
/-- `q_set` (R123). -/
abbrev Pid.qSet (i : Nat) : Nat := 0x09000D + 0x100 * i
/-- `v_set` (R123). -/
abbrev Pid.vSet (i : Nat) : Nat := 0x09000E + 0x100 * i
/-- `f_ref` (R123). -/
abbrev Pid.fRef (i : Nat) : Nat := 0x09000F + 0x100 * i
/-- `kp_v` (R123). -/
abbrev Pid.kpV (i : Nat) : Nat := 0x090010 + 0x100 * i
/-- `ki_v` (R123). -/
abbrev Pid.kiV (i : Nat) : Nat := 0x090011 + 0x100 * i
/-- `neg_seq_en` (R123). -/
abbrev Pid.negSeqEn (i : Nat) : Nat := 0x090012 + 0x100 * i
/-- `kp_v_neg` (R123). -/
abbrev Pid.kpVNeg (i : Nat) : Nat := 0x090013 + 0x100 * i
/-- `ki_v_neg` (R123). -/
abbrev Pid.kiVNeg (i : Nat) : Nat := 0x090014 + 0x100 * i
/-- `kp_i` (R123). -/
abbrev Pid.kpI (i : Nat) : Nat := 0x090015 + 0x100 * i
/-- `res_enable` (R123). -/
abbrev Pid.resEnable (i : Nat) : Nat := 0x090016 + 0x100 * i
/-- `res_optional` (R123). -/
abbrev Pid.resOptional (i : Nat) : Nat := 0x090017 + 0x100 * i
/-- `kr_h1, kr_h5, kr_h7, kr_h11, kr_h13` (R123). -/
abbrev Pid.krH (i : Nat) (k : Nat) : Nat := 0x090018 + 0x100 * i + k
/-- `k_ad` (R123). -/
abbrev Pid.kAd (i : Nat) : Nat := 0x09001D + 0x100 * i
/-- `kp_bal` (R123). -/
abbrev Pid.kpBal (i : Nat) : Nat := 0x09001E + 0x100 * i
/-- `obs_gain` (R123). -/
abbrev Pid.obsGain (i : Nat) : Nat := 0x09001F + 0x100 * i
/-- `lf_pu` (R123). -/
abbrev Pid.lfPu (i : Nat) : Nat := 0x090020 + 0x100 * i
/-- `cf_pu` (R123). -/
abbrev Pid.cfPu (i : Nat) : Nat := 0x090021 + 0x100 * i
/-- `lg_pu` (R123). -/
abbrev Pid.lgPu (i : Nat) : Nat := 0x090022 + 0x100 * i
/-- `gf_pll_bw` (R123). -/
abbrev Pid.gfPllBw (i : Nat) : Nat := 0x090023 + 0x100 * i
/-- `tau_c` (R123). -/
abbrev Pid.tauC (i : Nat) : Nat := 0x090024 + 0x100 * i
/-- `vi_droop` (R123). -/
abbrev Pid.viDroop (i : Nat) : Nat := 0x090025 + 0x100 * i
/-- `omega` (R123). -/
abbrev Pid.omega (i : Nat) : Nat := 0x090028 + 0x100 * i
/-- `theta` (R123). -/
abbrev Pid.theta (i : Nat) : Nat := 0x090029 + 0x100 * i
/-- `e_mag` (R123). -/
abbrev Pid.eMag (i : Nat) : Nat := 0x09002A + 0x100 * i
/-- `p_meas` (R123). -/
abbrev Pid.pMeas (i : Nat) : Nat := 0x09002B + 0x100 * i
/-- `q_meas` (R123). -/
abbrev Pid.qMeas (i : Nat) : Nat := 0x09002C + 0x100 * i
/-- `v_meas` (R123). -/
abbrev Pid.vMeas (i : Nat) : Nat := 0x09002D + 0x100 * i
/-- `law_flags` (R123). -/
abbrev Pid.lawFlags (i : Nat) : Nat := 0x09002E + 0x100 * i
/-- `i_lim_hard` (R148). -/
abbrev Pid.iLimHard (i : Nat) : Nat := 0x0A0000 + 0x100 * i
/-- `i_hard_time` (R148). -/
abbrev Pid.iHardTime (i : Nat) : Nat := 0x0A0001 + 0x100 * i
/-- `i_lim_cont` (R148). -/
abbrev Pid.iLimCont (i : Nat) : Nat := 0x0A0002 + 0x100 * i
/-- `hard_cooldown` (R148). -/
abbrev Pid.hardCooldown (i : Nat) : Nat := 0x0A0003 + 0x100 * i
/-- `i_vi_start` (R148). -/
abbrev Pid.iViStart (i : Nat) : Nat := 0x0A0004 + 0x100 * i
/-- `k_vi_x` (R148). -/
abbrev Pid.kViX (i : Nat) : Nat := 0x0A0005 + 0x100 * i
/-- `vi_xr` (R148). -/
abbrev Pid.viXr (i : Nat) : Nat := 0x0A0006 + 0x100 * i
/-- `x_add_max` (R148). -/
abbrev Pid.xAddMax (i : Nat) : Nat := 0x0A0007 + 0x100 * i
/-- `vi_fall_tc` (R148). -/
abbrev Pid.viFallTc (i : Nat) : Nat := 0x0A0008 + 0x100 * i
/-- `neg_seq_prio` (R148). -/
abbrev Pid.negSeqPrio (i : Nat) : Nat := 0x0A0009 + 0x100 * i
/-- `neg_share_max` (R148). -/
abbrev Pid.negShareMax (i : Nat) : Nat := 0x0A000A + 0x100 * i
/-- `leg_lim_margin` (R148). -/
abbrev Pid.legLimMargin (i : Nat) : Nat := 0x0A000B + 0x100 * i
/-- `slip_angle_max` (R148). -/
abbrev Pid.slipAngleMax (i : Nat) : Nat := 0x0A000C + 0x100 * i
/-- `k_slip` (R148). -/
abbrev Pid.kSlip (i : Nat) : Nat := 0x0A000D + 0x100 * i
/-- `lim_release` (R148). -/
abbrev Pid.limRelease (i : Nat) : Nat := 0x0A000E + 0x100 * i
/-- `pj_detect` (R148). -/
abbrev Pid.pjDetect (i : Nat) : Nat := 0x0A000F + 0x100 * i
/-- `pj_action` (R148). -/
abbrev Pid.pjAction (i : Nat) : Nat := 0x0A0010 + 0x100 * i
/-- `rt_enable` (R148). -/
abbrev Pid.rtEnable (i : Nat) : Nat := 0x0A0011 + 0x100 * i
/-- `rt_measure` (R148). -/
abbrev Pid.rtMeasure (i : Nat) : Nat := 0x0A0012 + 0x100 * i
/-- `rt_uv_start` (R148). -/
abbrev Pid.rtUvStart (i : Nat) : Nat := 0x0A0013 + 0x100 * i
/-- `rt_ov_start` (R148). -/
abbrev Pid.rtOvStart (i : Nat) : Nat := 0x0A0014 + 0x100 * i
/-- `rt_reset` (R148). -/
abbrev Pid.rtReset (i : Nat) : Nat := 0x0A0015 + 0x100 * i
/-- `rt_uv_pt0–rt_uv_pt9` (R148). -/
abbrev Pid.rtUvPt (i : Nat) (k : Nat) : Nat := 0x0A0020 + 0x100 * i + k
/-- `rt_ov_pt0–rt_ov_pt9` (R148). -/
abbrev Pid.rtOvPt (i : Nat) (k : Nat) : Nat := 0x0A002A + 0x100 * i + k
/-- `i_lim_eff` (R148). -/
abbrev Pid.iLimEff (i : Nat) : Nat := 0x0A0034 + 0x100 * i
/-- `hard_budget` (R148). -/
abbrev Pid.hardBudget (i : Nat) : Nat := 0x0A0035 + 0x100 * i
/-- `x_add` (R148). -/
abbrev Pid.xAdd (i : Nat) : Nat := 0x0A0036 + 0x100 * i
/-- `delta_slip` (R148). -/
abbrev Pid.deltaSlip (i : Nat) : Nat := 0x0A0037 + 0x100 * i
/-- `i_pk_meas` (R148). -/
abbrev Pid.iPkMeas (i : Nat) : Nat := 0x0A0038 + 0x100 * i
/-- `rt_state` (R148). -/
abbrev Pid.rtState (i : Nat) : Nat := 0x0A0039 + 0x100 * i
/-- `rt_elapsed` (R148). -/
abbrev Pid.rtElapsed (i : Nat) : Nat := 0x0A003A + 0x100 * i
/-- `lim_count` (R148). -/
abbrev Pid.limCount (i : Nat) : Nat := 0x0A003B + 0x100 * i
/-- `rt_trip_count` (R148). -/
abbrev Pid.rtTripCount (i : Nat) : Nat := 0x0A003C + 0x100 * i
/-- `pj_count` (R148). -/
abbrev Pid.pjCount (i : Nat) : Nat := 0x0A003D + 0x100 * i
/-- `slip_count` (R148). -/
abbrev Pid.slipCount (i : Nat) : Nat := 0x0A003E + 0x100 * i
/-- `glz_p_rate` (R149). -/
abbrev Pid.glzPRate (i : Nat) : Nat := 0x0B0000 + 0x100 * i
/-- `glz_p_jerk` (R149). -/
abbrev Pid.glzPJerk (i : Nat) : Nat := 0x0B0001 + 0x100 * i
/-- `glz_q_rate` (R149). -/
abbrev Pid.glzQRate (i : Nat) : Nat := 0x0B0002 + 0x100 * i
/-- `glz_q_jerk` (R149). -/
abbrev Pid.glzQJerk (i : Nat) : Nat := 0x0B0003 + 0x100 * i
/-- `glz_v_rate` (R149). -/
abbrev Pid.glzVRate (i : Nat) : Nat := 0x0B0004 + 0x100 * i
/-- `glz_v_jerk` (R149). -/
abbrev Pid.glzVJerk (i : Nat) : Nat := 0x0B0005 + 0x100 * i
/-- `glz_f_rate` (R149). -/
abbrev Pid.glzFRate (i : Nat) : Nat := 0x0B0006 + 0x100 * i
/-- `glz_f_jerk` (R149). -/
abbrev Pid.glzFJerk (i : Nat) : Nat := 0x0B0007 + 0x100 * i
/-- `glz_p` (R149). -/
abbrev Pid.glzP (i : Nat) : Nat := 0x0B0008 + 0x100 * i
/-- `glz_q` (R149). -/
abbrev Pid.glzQ (i : Nat) : Nat := 0x0B0009 + 0x100 * i
/-- `glz_v` (R149). -/
abbrev Pid.glzV (i : Nat) : Nat := 0x0B000A + 0x100 * i
/-- `glz_f` (R149). -/
abbrev Pid.glzF (i : Nat) : Nat := 0x0B000B + 0x100 * i
/-- `glz_limited` (R149). -/
abbrev Pid.glzLimited (i : Nat) : Nat := 0x0B000C + 0x100 * i
/-- `glz_reversal_count` (R149). -/
abbrev Pid.glzReversalCount (i : Nat) : Nat := 0x0B000D + 0x100 * i
/-- `t_inner` (R181). -/
abbrev Pid.tInner : Nat := 0x0C0000
/-- `outer_ratio` (R181). -/
abbrev Pid.outerRatio : Nat := 0x0C0001
/-- `outer_slice_ops` (R181). -/
abbrev Pid.outerSliceOps : Nat := 0x0C0002
/-- `lane_seed` (R181). -/
abbrev Pid.laneSeed : Nat := 0x0C0003
/-- `period_seq` (R181). -/
abbrev Pid.periodSeq : Nat := 0x0C0004
/-- `engine_state` (R181). -/
abbrev Pid.engineState : Nat := 0x0C0005
/-- `fail_run` (R181). -/
abbrev Pid.failRun : Nat := 0x0C0006
/-- `fail_window` (R181). -/
abbrev Pid.failWindow : Nat := 0x0C0007
/-- `mismatch_count` (R181). -/
abbrev Pid.mismatchCount : Nat := 0x0C0008
/-- `late_count` (R181). -/
abbrev Pid.lateCount : Nat := 0x0C0009
/-- `outer_abandon_count` (R181). -/
abbrev Pid.outerAbandonCount : Nat := 0x0C000A
/-- `last_mismatch` (R181). -/
abbrev Pid.lastMismatch : Nat := 0x0C000B
/-- `law_set` (R181). -/
abbrev Pid.lawSet : Nat := 0x0C000C
/-- `t_inner_alt` (R181). -/
abbrev Pid.tInnerAlt : Nat := 0x0C000D
/-- `outer_ratio_alt` (R181). -/
abbrev Pid.outerRatioAlt : Nat := 0x0C000E
/-- `ops_inner` (R181). -/
abbrev Pid.opsInner (i : Nat) : Nat := 0x0C0040 + 0x10 * i
/-- `ops_outer` (R181). -/
abbrev Pid.opsOuter (i : Nat) : Nat := 0x0C0041 + 0x10 * i
/-- `fb_state` (R181). -/
abbrev Pid.fbState (i : Nat) : Nat := 0x0C0042 + 0x10 * i
/-- `fb_sum_tol` (R181). -/
abbrev Pid.fbSumTol (i : Nat) : Nat := 0x0C0043 + 0x10 * i
/-- `fb_resid_tol` (R181). -/
abbrev Pid.fbResidTol (i : Nat) : Nat := 0x0C0044 + 0x10 * i
/-- `fb_plaus_n` (R181). -/
abbrev Pid.fbPlausN (i : Nat) : Nat := 0x0C0045 + 0x10 * i
/-- `fb_recover` (R181). -/
abbrev Pid.fbRecover (i : Nat) : Nat := 0x0C0046 + 0x10 * i
/-- `fb_subst_count` (R181). -/
abbrev Pid.fbSubstCount (i : Nat) : Nat := 0x0C0047 + 0x10 * i
/-- `fb_lost_count` (R181). -/
abbrev Pid.fbLostCount (i : Nat) : Nat := 0x0C0048 + 0x10 * i
/-- `hold_count` (R181). -/
abbrev Pid.holdCount (i : Nat) : Nat := 0x0C0049 + 0x10 * i
/-- `sat_count` (R181). -/
abbrev Pid.satCount (i : Nat) : Nat := 0x0C004A + 0x10 * i
/-- `slack_target` (R204). -/
abbrev Pid.slackTarget : Nat := 0x0D0000
/-- `rail_max` (R204). -/
abbrev Pid.railMax : Nat := 0x0D0001
/-- `rail_now` (R204). -/
abbrev Pid.railNow : Nat := 0x0D0002
/-- `rail_high_water` (R204). -/
abbrev Pid.railHighWater : Nat := 0x0D0003
/-- `slack_x_last` (R204). -/
abbrev Pid.slackXLast : Nat := 0x0D0004
/-- `slack_y_last` (R204). -/
abbrev Pid.slackYLast : Nat := 0x0D0005
/-- `slack_min_1s` (R204). -/
abbrev Pid.slackMin1s : Nat := 0x0D0006
/-- `slack_min_life` (R204). -/
abbrev Pid.slackMinLife : Nat := 0x0D0007
/-- `slack_hist` (R204). -/
abbrev Pid.slackHist : Nat := 0x0D0008
/-- `fc_rail_hours` (R204). -/
abbrev Pid.fcRailHours : Nat := 0x0D0009
/-- `fc_floor_hours` (R204). -/
abbrev Pid.fcFloorHours : Nat := 0x0D000A
/-- `ladder_rung` (R204). -/
abbrev Pid.ladderRung : Nat := 0x0D000B
/-- `ladder_dropped` (R204). -/
abbrev Pid.ladderDropped : Nat := 0x0D000C
/-- `ladder_allow` (R204). -/
abbrev Pid.ladderAllow : Nat := 0x0D000D
/-- `ladder_cmd` (R204). -/
abbrev Pid.ladderCmd : Nat := 0x0D000E
/-- `ladder_pending` (R204). -/
abbrev Pid.ladderPending : Nat := 0x0D000F
/-- `slice_ops_eff` (R204). -/
abbrev Pid.sliceOpsEff : Nat := 0x0D0010
/-- `rail_step_count` (R204). -/
abbrev Pid.railStepCount : Nat := 0x0D0011
/-- `emergency_count` (R204). -/
abbrev Pid.emergencyCount : Nat := 0x0D0012
/-- `power_on_hours` (R204). -/
abbrev Pid.powerOnHours : Nat := 0x0D0013
/-- `health_report` (R204). -/
abbrev Pid.healthReport : Nat := 0x0D0014
/-- `vce_derate_share` (R204). -/
abbrev Pid.vceDerateShare : Nat := 0x0D0015
/-- `vce_derate_gain` (R204). -/
abbrev Pid.vceDerateGain : Nat := 0x0D0016
/-- `derate_min` (R204). -/
abbrev Pid.derateMin : Nat := 0x0D0017
/-- `vce_alarm_share` (R204). -/
abbrev Pid.vceAlarmShare : Nat := 0x0D0018
/-- `vce_tref` (R204). -/
abbrev Pid.vceTref : Nat := 0x0D0019
/-- `vce_alpha` (R204). -/
abbrev Pid.vceAlpha : Nat := 0x0D001A
/-- `vce_base_hours` (R204). -/
abbrev Pid.vceBaseHours : Nat := 0x0D001B
/-- `derate` (R204). -/
abbrev Pid.derate (i : Nat) : Nat := 0x0D1000 + 0x100 * i
/-- `vce_worst` (R204). -/
abbrev Pid.vceWorst (i : Nat) : Nat := 0x0D1001 + 0x100 * i
/-- `vce_rebase` (R204). -/
abbrev Pid.vceRebase (i : Nat) : Nat := 0x0D1002 + 0x100 * i
/-- `derate_count` (R204). -/
abbrev Pid.derateCount (i : Nat) : Nat := 0x0D1003 + 0x100 * i
/-- `vce_share` (R204). -/
abbrev Pid.vceShare (i : Nat) : Nat := 0x0D2000 + 0x100 * i
/-- `vce_corr` (R204). -/
abbrev Pid.vceCorr (i : Nat) : Nat := 0x0D2001 + 0x100 * i
/-- `vce_baseline` (R204). -/
abbrev Pid.vceBaseline (i : Nat) : Nat := 0x0D2002 + 0x100 * i
/-- `vce_count` (R204). -/
abbrev Pid.vceCount (i : Nat) : Nat := 0x0D2003 + 0x100 * i
/-- `inj_cmd` (R182). -/
abbrev Pid.injCmd : Nat := 0x0E0000
/-- `inj_port` (R182). -/
abbrev Pid.injPort : Nat := 0x0E0001
/-- `inj_point` (R182). -/
abbrev Pid.injPoint : Nat := 0x0E0002
/-- `inj_wave` (R182). -/
abbrev Pid.injWave : Nat := 0x0E0003
/-- `inj_amp` (R182). -/
abbrev Pid.injAmp : Nat := 0x0E0004
/-- `inj_amp_max` (R182). -/
abbrev Pid.injAmpMax : Nat := 0x0E0005
/-- `inj_guard_i` (R182). -/
abbrev Pid.injGuardI : Nat := 0x0E0006
/-- `prbs_order` (R182). -/
abbrev Pid.prbsOrder : Nat := 0x0E0007
/-- `prbs_hold` (R182). -/
abbrev Pid.prbsHold : Nat := 0x0E0008
/-- `chirp_f0` (R182). -/
abbrev Pid.chirpF0 : Nat := 0x0E0009
/-- `chirp_f1` (R182). -/
abbrev Pid.chirpF1 : Nat := 0x0E000A
/-- `chirp_time` (R182). -/
abbrev Pid.chirpTime : Nat := 0x0E000B
/-- `ss_f_start` (R182). -/
abbrev Pid.ssFStart : Nat := 0x0E000C
/-- `ss_f_stop` (R182). -/
abbrev Pid.ssFStop : Nat := 0x0E000D
/-- `ss_points` (R182). -/
abbrev Pid.ssPoints : Nat := 0x0E000E
/-- `ss_settle` (R182). -/
abbrev Pid.ssSettle : Nat := 0x0E000F
/-- `ss_cycles` (R182). -/
abbrev Pid.ssCycles : Nat := 0x0E0010
/-- `resp_point_a` (R182). -/
abbrev Pid.respPointA : Nat := 0x0E0011
/-- `resp_point_b` (R182). -/
abbrev Pid.respPointB : Nat := 0x0E0012
/-- `inj_dest` (R182). -/
abbrev Pid.injDest : Nat := 0x0E0013
/-- `inj_state` (R182). -/
abbrev Pid.injState : Nat := 0x0E0014
/-- `inj_abort` (R182). -/
abbrev Pid.injAbort : Nat := 0x0E0015
/-- `fr_points` (R182). -/
abbrev Pid.frPoints : Nat := 0x0E0016
/-- `fr_table` (R182). -/
abbrev Pid.frTable : Nat := 0x0E0017
/-- `inj_count` (R182). -/
abbrev Pid.injCount : Nat := 0x0E0018
/-- `inj_allow` (R182). -/
abbrev Pid.injAllow : Nat := 0x0E0019
/-- `fa_role` (R227). -/
abbrev Pid.faRole (i : Nat) : Nat := 0x100000 + 0x100 * i
/-- `fa_fs_pu` (R227). -/
abbrev Pid.faFsPu (i : Nat) : Nat := 0x100001 + 0x100 * i
/-- `fa_offset` (R227). -/
abbrev Pid.faOffset (i : Nat) : Nat := 0x100002 + 0x100 * i
/-- `win_hi` (R227). -/
abbrev Pid.winHi (i : Nat) : Nat := 0x100003 + 0x100 * i
/-- `win_lo` (R227). -/
abbrev Pid.winLo (i : Nat) : Nat := 0x100004 + 0x100 * i
/-- `win_hyst` (R227). -/
abbrev Pid.winHyst (i : Nat) : Nat := 0x100005 + 0x100 * i
/-- `win_target` (R227). -/
abbrev Pid.winTarget (i : Nat) : Nat := 0x100006 + 0x100 * i
/-- `stuck_floor` (R227). -/
abbrev Pid.stuckFloor (i : Nat) : Nat := 0x100007 + 0x100 * i
/-- `fa_status` (R227). -/
abbrev Pid.faStatus (i : Nat) : Nat := 0x100008 + 0x100 * i
/-- `fa_clear` (R227). -/
abbrev Pid.faClear (i : Nat) : Nat := 0x100009 + 0x100 * i
/-- `fa_last` (R227). -/
abbrev Pid.faLast (i : Nat) : Nat := 0x10000A + 0x100 * i
/-- `fa_variance` (R227). -/
abbrev Pid.faVariance (i : Nat) : Nat := 0x10000B + 0x100 * i
/-- `ovr_count` (R227). -/
abbrev Pid.ovrCount (i : Nat) : Nat := 0x10000C + 0x100 * i
/-- `win_count` (R227). -/
abbrev Pid.winCount (i : Nat) : Nat := 0x10000D + 0x100 * i
/-- `stuck_count` (R227). -/
abbrev Pid.stuckCount (i : Nat) : Nat := 0x10000E + 0x100 * i
/-- `grp_os` (R227). -/
abbrev Pid.grpOs (i : Nat) : Nat := 0x103000 + 0x100 * i
/-- `grp_owner` (R227). -/
abbrev Pid.grpOwner (i : Nat) : Nat := 0x103001 + 0x100 * i
/-- `grp_discard_count` (R227). -/
abbrev Pid.grpDiscardCount (i : Nat) : Nat := 0x103002 + 0x100 * i
/-- `grp_seq_err` (R227). -/
abbrev Pid.grpSeqErr (i : Nat) : Nat := 0x103003 + 0x100 * i
/-- `sa_role` (R228). -/
abbrev Pid.saRole (i : Nat) : Nat := 0x110000 + 0x100 * i
/-- `sa_order` (R228). -/
abbrev Pid.saOrder (i : Nat) : Nat := 0x110001 + 0x100 * i
/-- `sa_decim` (R228). -/
abbrev Pid.saDecim (i : Nat) : Nat := 0x110002 + 0x100 * i
/-- `sa_div` (R228). -/
abbrev Pid.saDiv (i : Nat) : Nat := 0x110003 + 0x100 * i
/-- `sa_lim_lo` (R228). -/
abbrev Pid.saLimLo (i : Nat) : Nat := 0x110004 + 0x100 * i
/-- `sa_lim_hi` (R228). -/
abbrev Pid.saLimHi (i : Nat) : Nat := 0x110005 + 0x100 * i
/-- `sa_code` (R228). -/
abbrev Pid.saCode (i : Nat) : Nat := 0x110006 + 0x100 * i
/-- `sa_value` (R228). -/
abbrev Pid.saValue (i : Nat) : Nat := 0x110007 + 0x100 * i
/-- `sa_status` (R228). -/
abbrev Pid.saStatus (i : Nat) : Nat := 0x110008 + 0x100 * i
/-- `sa_ovr_count` (R228). -/
abbrev Pid.saOvrCount (i : Nat) : Nat := 0x110009 + 0x100 * i
/-- `sa_limit_count` (R228). -/
abbrev Pid.saLimitCount (i : Nat) : Nat := 0x11000A + 0x100 * i
/-- `sa_tab0–sa_tab15` (R228). -/
abbrev Pid.saTab (i : Nat) (k : Nat) : Nat := 0x110010 + 0x100 * i + k
/-- `sm_scan` (R228). -/
abbrev Pid.smScan (i : Nat) : Nat := 0x112000 + 0x100 * i
/-- `sm_scan_time` (R228). -/
abbrev Pid.smScanTime (i : Nat) : Nat := 0x112001 + 0x100 * i
/-- `sm_reset_count` (R228). -/
abbrev Pid.smResetCount (i : Nat) : Nat := 0x112002 + 0x100 * i
/-- `phase0` (R253). -/
abbrev Pid.phase0 (i : Nat) : Nat := 0x140000 + 0x100 * i
/-- `xc0–xc5` (R253). -/
abbrev Pid.xc (i : Nat) (k : Nat) : Nat := 0x140001 + 0x100 * i + k
/-- `d_active` (R253). -/
abbrev Pid.dActive (i : Nat) : Nat := 0x140007 + 0x100 * i
/-- `ph_active` (R253). -/
abbrev Pid.phActive (i : Nat) : Nat := 0x140008 + 0x100 * i
/-- `gen_active` (R253). -/
abbrev Pid.genActive (i : Nat) : Nat := 0x140009 + 0x100 * i
/-- `sh_duty` (R253). -/
abbrev Pid.shDuty (i : Nat) : Nat := 0x14000A + 0x100 * i
/-- `sh_phase` (R253). -/
abbrev Pid.shPhase (i : Nat) : Nat := 0x14000B + 0x100 * i
/-- `sh_gen` (R253). -/
abbrev Pid.shGen (i : Nat) : Nat := 0x14000C + 0x100 * i
/-- `leg_out` (R253). -/
abbrev Pid.legOut (i : Nat) : Nat := 0x14000D + 0x100 * i
/-- `min_pulse_count` (R253). -/
abbrev Pid.minPulseCount (i : Nat) : Nat := 0x14000E + 0x100 * i
/-- `ref_clamp_count` (R253). -/
abbrev Pid.refClampCount (i : Nat) : Nat := 0x14000F + 0x100 * i
/-- `xc_lost_count` (R253). -/
abbrev Pid.xcLostCount (i : Nat) : Nat := 0x140010 + 0x100 * i
/-- `xs0–xs5` (R253). -/
abbrev Pid.xs (i : Nat) (k : Nat) : Nat := 0x140011 + 0x100 * i + k
/-- `carrier` (R253). -/
abbrev Pid.carrier (i : Nat) : Nat := 0x142000 + 0x100 * i
/-- `period0` (R253). -/
abbrev Pid.period0 (i : Nat) : Nat := 0x142001 + 0x100 * i
/-- `upd_mode` (R253). -/
abbrev Pid.updMode (i : Nat) : Nat := 0x142002 + 0x100 * i
/-- `smp_sync` (R253). -/
abbrev Pid.smpSync (i : Nat) : Nat := 0x142003 + 0x100 * i
/-- `smp_offset` (R253). -/
abbrev Pid.smpOffset (i : Nat) : Nat := 0x142004 + 0x100 * i
/-- `min_pulse` (R253). -/
abbrev Pid.minPulse (i : Nat) : Nat := 0x142005 + 0x100 * i
/-- `torn_limit` (R253). -/
abbrev Pid.tornLimit (i : Nat) : Nat := 0x142006 + 0x100 * i
/-- `mod_state` (R253). -/
abbrev Pid.modState (i : Nat) : Nat := 0x142007 + 0x100 * i
/-- `p_active` (R253). -/
abbrev Pid.pActive (i : Nat) : Nat := 0x142008 + 0x100 * i
/-- `sh_period` (R253). -/
abbrev Pid.shPeriod (i : Nat) : Nat := 0x142009 + 0x100 * i
/-- `torn_count` (R253). -/
abbrev Pid.tornCount (i : Nat) : Nat := 0x14200A + 0x100 * i
/-- `mod_release` (R253). -/
abbrev Pid.modRelease (i : Nat) : Nat := 0x14200B + 0x100 * i
/-- `ref_leg` (R253). -/
abbrev Pid.refLeg (i : Nat) : Nat := 0x14200C + 0x100 * i
/-- `realign_ticks` (R253). -/
abbrev Pid.realignTicks (i : Nat) : Nat := 0x14200D + 0x100 * i
/-- `dt_mode` (R254). -/
abbrev Pid.dtMode (i : Nat) : Nat := 0x150000 + 0x100 * i
/-- `dt_now0–dt_now5` (R254). -/
abbrev Pid.dtNow (i : Nat) (k : Nat) : Nat := 0x150001 + 0x100 * i + k
/-- `dt_meas0–dt_meas5` (R254). -/
abbrev Pid.dtMeas (i : Nat) (k : Nat) : Nat := 0x150007 + 0x100 * i + k
/-- `dt_trans` (R254). -/
abbrev Pid.dtTrans (i : Nat) : Nat := 0x15000D + 0x100 * i
/-- `dt_trunc_count` (R254). -/
abbrev Pid.dtTruncCount (i : Nat) : Nat := 0x15000E + 0x100 * i
/-- `dt_ceil_count` (R254). -/
abbrev Pid.dtCeilCount (i : Nat) : Nat := 0x15000F + 0x100 * i
/-- `ns_lost_count` (R254). -/
abbrev Pid.nsLostCount (i : Nat) : Nat := 0x150010 + 0x100 * i
/-- `dt_adapt` (R254). -/
abbrev Pid.dtAdapt (i : Nat) : Nat := 0x152000 + 0x100 * i
/-- `dt_margin` (R254). -/
abbrev Pid.dtMargin (i : Nat) : Nat := 0x152001 + 0x100 * i
/-- `dt_floor` (R254). -/
abbrev Pid.dtFloor (i : Nat) : Nat := 0x152002 + 0x100 * i
/-- `dt_i_band` (R254). -/
abbrev Pid.dtIBand (i : Nat) : Nat := 0x152003 + 0x100 * i
/-- `dt_fix0–dt_fix5` (R254). -/
abbrev Pid.dtFix (i : Nat) (k : Nat) : Nat := 0x152004 + 0x100 * i + k
/-- `ns_ratio` (R254). -/
abbrev Pid.nsRatio (i : Nat) : Nat := 0x15200A + 0x100 * i
/-- `ns_miss_n` (R254). -/
abbrev Pid.nsMissN (i : Nat) : Nat := 0x15200B + 0x100 * i
/-- `isl_state` (R281). -/
abbrev Pid.islState (i : Nat) : Nat := 0x160000 + 0x100 * i
/-- `isl_status` (R281). -/
abbrev Pid.islStatus (i : Nat) : Nat := 0x160001 + 0x100 * i
/-- `ds_thresh` (R281). -/
abbrev Pid.dsThresh (i : Nat) : Nat := 0x160002 + 0x100 * i
/-- `ds_blank` (R281). -/
abbrev Pid.dsBlank (i : Nat) : Nat := 0x160003 + 0x100 * i
/-- `ds_filter` (R281). -/
abbrev Pid.dsFilter (i : Nat) : Nat := 0x160004 + 0x100 * i
/-- `gs_plateau_v` (R281). -/
abbrev Pid.gsPlateauV (i : Nat) : Nat := 0x160005 + 0x100 * i
/-- `gs_plateau_min` (R281). -/
abbrev Pid.gsPlateauMin (i : Nat) : Nat := 0x160006 + 0x100 * i
/-- `ist_cmd` (R281). -/
abbrev Pid.istCmd (i : Nat) : Nat := 0x160007 + 0x100 * i
/-- `ist_result` (R281). -/
abbrev Pid.istResult (i : Nat) : Nat := 0x160008 + 0x100 * i
/-- `isl_pulse` (R281). -/
abbrev Pid.islPulse (i : Nat) : Nat := 0x160009 + 0x100 * i
/-- `vce_raw` (R281). -/
abbrev Pid.vceRaw (i : Nat) : Nat := 0x16000A + 0x100 * i
/-- `soft_off_time` (R281). -/
abbrev Pid.softOffTime (i : Nat) : Nat := 0x16000B + 0x100 * i
/-- `skew_cal` (R281). -/
abbrev Pid.skewCal (i : Nat) : Nat := 0x16000C + 0x100 * i
/-- `ds_count` (R281). -/
abbrev Pid.dsCount (i : Nat) : Nat := 0x16000D + 0x100 * i
/-- `plateau_count` (R281). -/
abbrev Pid.plateauCount (i : Nat) : Nat := 0x16000E + 0x100 * i
/-- `hs_timeout_count` (R281). -/
abbrev Pid.hsTimeoutCount (i : Nat) : Nat := 0x16000F + 0x100 * i
/-- `conflict_count` (R281). -/
abbrev Pid.conflictCount (i : Nat) : Nat := 0x160010 + 0x100 * i
/-- `uvlo_count` (R281). -/
abbrev Pid.uvloCount (i : Nat) : Nat := 0x160011 + 0x100 * i
/-- `wd_count` (R281). -/
abbrev Pid.wdCount (i : Nat) : Nat := 0x160012 + 0x100 * i
/-- `leg_prot` (R282). -/
abbrev Pid.legProt (i : Nat) : Nat := 0x170000 + 0x100 * i
/-- `leg_trip_phase` (R282). -/
abbrev Pid.legTripPhase (i : Nat) : Nat := 0x170001 + 0x100 * i
/-- `leg_fault_count` (R282). -/
abbrev Pid.legFaultCount (i : Nat) : Nat := 0x170002 + 0x100 * i
/-- `prot_state` (R282). -/
abbrev Pid.protState (i : Nat) : Nat := 0x172000 + 0x100 * i
/-- `legs_faulted` (R282). -/
abbrev Pid.legsFaulted (i : Nat) : Nat := 0x172001 + 0x100 * i
/-- `f_leg` (R282). -/
abbrev Pid.fLeg (i : Nat) : Nat := 0x172002 + 0x100 * i
/-- `stop_cause` (R282). -/
abbrev Pid.stopCause (i : Nat) : Nat := 0x172003 + 0x100 * i
/-- `prot_clear` (R282). -/
abbrev Pid.protClear (i : Nat) : Nat := 0x172004 + 0x100 * i
/-- `clear_refuse` (R282). -/
abbrev Pid.clearRefuse (i : Nat) : Nat := 0x172005 + 0x100 * i
/-- `il_min_time` (R282). -/
abbrev Pid.ilMinTime (i : Nat) : Nat := 0x172006 + 0x100 * i
/-- `leg_fault_cont` (R282). -/
abbrev Pid.legFaultCont (i : Nat) : Nat := 0x172007 + 0x100 * i
/-- `auto_mask` (R282). -/
abbrev Pid.autoMask (i : Nat) : Nat := 0x172008 + 0x100 * i
/-- `auto_tries` (R282). -/
abbrev Pid.autoTries (i : Nat) : Nat := 0x172009 + 0x100 * i
/-- `auto_wait` (R282). -/
abbrev Pid.autoWait (i : Nat) : Nat := 0x17200A + 0x100 * i
/-- `auto_window` (R282). -/
abbrev Pid.autoWindow (i : Nat) : Nat := 0x17200B + 0x100 * i
/-- `auto_used` (R282). -/
abbrev Pid.autoUsed (i : Nat) : Nat := 0x17200C + 0x100 * i
/-- `prot_stop_count` (R282). -/
abbrev Pid.protStopCount (i : Nat) : Nat := 0x17200D + 0x100 * i
/-- `clear_refuse_count` (R282). -/
abbrev Pid.clearRefuseCount (i : Nat) : Nat := 0x17200E + 0x100 * i
/-- `trip_ports` (R282). -/
abbrev Pid.tripPorts (i : Nat) : Nat := 0x173000 + 0x100 * i
/-- `trip_action` (R282). -/
abbrev Pid.tripAction (i : Nat) : Nat := 0x173001 + 0x100 * i
/-- `trip_filter` (R282). -/
abbrev Pid.tripFilter (i : Nat) : Nat := 0x173002 + 0x100 * i
/-- `trip_level` (R282). -/
abbrev Pid.tripLevel (i : Nat) : Nat := 0x173003 + 0x100 * i
/-- `trip_in_count` (R282). -/
abbrev Pid.tripInCount (i : Nat) : Nat := 0x173004 + 0x100 * i
/-- `safety_state` (R314). -/
abbrev Pid.safetyState : Nat := 0x1C0000
/-- `safety_format` (R314). -/
abbrev Pid.safetyFormat : Nat := 0x1C0001
/-- `strap_read` (R314). -/
abbrev Pid.strapRead : Nat := 0x1C0002
/-- `profile_word` (R314). -/
abbrev Pid.profileWord : Nat := 0x1C0003
/-- `sp_conn_id` (R314). -/
abbrev Pid.spConnId : Nat := 0x1C0004
/-- `sp_period` (R314). -/
abbrev Pid.spPeriod : Nat := 0x1C0005
/-- `sp_window` (R314). -/
abbrev Pid.spWindow : Nat := 0x1C0006
/-- `sin_filter` (R314). -/
abbrev Pid.sinFilter : Nat := 0x1C0007
/-- `sin_disc_time` (R314). -/
abbrev Pid.sinDiscTime : Nat := 0x1C0008
/-- `sin_tp_en` (R314). -/
abbrev Pid.sinTpEn : Nat := 0x1C0009
/-- `scc_mirror_time` (R314). -/
abbrev Pid.sccMirrorTime : Nat := 0x1C000A
/-- `sbc_hold_time` (R314). -/
abbrev Pid.sbcHoldTime : Nat := 0x1C000B
/-- `sbc_test_interval` (R314). -/
abbrev Pid.sbcTestInterval : Nat := 0x1C000C
/-- `sbc_i_min` (R314). -/
abbrev Pid.sbcIMin : Nat := 0x1C000D
/-- `sbc_i_max` (R314). -/
abbrev Pid.sbcIMax : Nat := 0x1C000E
/-- `sp_can_rx_id` (R314). -/
abbrev Pid.spCanRxId : Nat := 0x1C000F
/-- `sp_can_tx_id` (R314). -/
abbrev Pid.spCanTxId : Nat := 0x1C0010
/-- `safety_check` (R314). -/
abbrev Pid.safetyCheck : Nat := 0x1C0011
/-- `safety_commit` (R314). -/
abbrev Pid.safetyCommit : Nat := 0x1C0012
/-- `safety_commits_left` (R314). -/
abbrev Pid.safetyCommitsLeft : Nat := 0x1C0013
/-- `safe_stop_cause` (R314). -/
abbrev Pid.safeStopCause : Nat := 0x1C0014
/-- `reset_refuse` (R314). -/
abbrev Pid.resetRefuse : Nat := 0x1C0015
/-- `hold_test_age` (R314). -/
abbrev Pid.holdTestAge : Nat := 0x1C0016
/-- `hold_test_result` (R314). -/
abbrev Pid.holdTestResult : Nat := 0x1C0017
/-- `release_refuse` (R314). -/
abbrev Pid.releaseRefuse : Nat := 0x1C0018
/-- `close_refuse` (R314). -/
abbrev Pid.closeRefuse : Nat := 0x1C0019
/-- `sp_rx_in` (R314). -/
abbrev Pid.spRxIn : Nat := 0x1C001A
/-- `sp_tx_out` (R314). -/
abbrev Pid.spTxOut : Nat := 0x1C001B
/-- `safe_stop_count` (R314). -/
abbrev Pid.safeStopCount : Nat := 0x1C001C
/-- `release_refuse_count` (R314). -/
abbrev Pid.releaseRefuseCount : Nat := 0x1C001D
/-- `close_refuse_count` (R314). -/
abbrev Pid.closeRefuseCount : Nat := 0x1C001E
/-- `hold_test_count` (R314). -/
abbrev Pid.holdTestCount : Nat := 0x1C001F
/-- `sp_differ_count` (R314). -/
abbrev Pid.spDifferCount : Nat := 0x1C0020
/-- `sp_timeout_count` (R314). -/
abbrev Pid.spTimeoutCount : Nat := 0x1C0021
/-- `sin_state` (R314). -/
abbrev Pid.sinState (i : Nat) : Nat := 0x1C1000 + 0x100 * i
/-- `sin_function` (R314). -/
abbrev Pid.sinFunction (i : Nat) : Nat := 0x1C1001 + 0x100 * i
/-- `sin_fault_count` (R314). -/
abbrev Pid.sinFaultCount (i : Nat) : Nat := 0x1C1002 + 0x100 * i
/-- `sout_state` (R314). -/
abbrev Pid.soutState (i : Nat) : Nat := 0x1C2000 + 0x100 * i
/-- `sout_current` (R314). -/
abbrev Pid.soutCurrent (i : Nat) : Nat := 0x1C2001 + 0x100 * i
/-- `sout_fault_count` (R314). -/
abbrev Pid.soutFaultCount (i : Nat) : Nat := 0x1C2002 + 0x100 * i
/-- `sp_path_state` (R314). -/
abbrev Pid.spPathState (i : Nat) : Nat := 0x1C3000 + 0x100 * i
/-- `sp_rx_count` (R314). -/
abbrev Pid.spRxCount (i : Nat) : Nat := 0x1C3001 + 0x100 * i
/-- `sp_invalid_count` (R314). -/
abbrev Pid.spInvalidCount (i : Nat) : Nat := 0x1C3002 + 0x100 * i
/-- `sp_late_count` (R314). -/
abbrev Pid.spLateCount (i : Nat) : Nat := 0x1C3003 + 0x100 * i
/-- `sp_single_count` (R314). -/
abbrev Pid.spSingleCount (i : Nat) : Nat := 0x1C3004 + 0x100 * i
/-- `pair_enable` (R336). -/
abbrev Pid.pairEnable : Nat := 0x1D0000
/-- `pair_state` (R336). -/
abbrev Pid.pairState : Nat := 0x1D0001
/-- `partner_serial_lo` (R336). -/
abbrev Pid.partnerSerialLo : Nat := 0x1D0002
/-- `partner_serial_hi` (R336). -/
abbrev Pid.partnerSerialHi : Nat := 0x1D0003
/-- `mismatch_reason` (R336). -/
abbrev Pid.mismatchReason : Nat := 0x1D0004
/-- `lease_renewed` (R336). -/
abbrev Pid.leaseRenewed : Nat := 0x1D0005
/-- `lease_left` (R336). -/
abbrev Pid.leaseLeft : Nat := 0x1D0006
/-- `align_err` (R336). -/
abbrev Pid.alignErr : Nat := 0x1D0007
/-- `sb_fit` (R336). -/
abbrev Pid.sbFit : Nat := 0x1D0008
/-- `sb_track_tol` (R336). -/
abbrev Pid.sbTrackTol : Nat := 0x1D0009
/-- `state_image_bytes` (R336). -/
abbrev Pid.stateImageBytes : Nat := 0x1D000A
/-- `pair_solo` (R336). -/
abbrev Pid.pairSolo : Nat := 0x1D000B
/-- `pair_handover` (R336). -/
abbrev Pid.pairHandover : Nat := 0x1D000C
/-- `last_gap` (R336). -/
abbrev Pid.lastGap : Nat := 0x1D000D
/-- `sb_health_report` (R336). -/
abbrev Pid.sbHealthReport : Nat := 0x1D000E
/-- `takeover_count` (R336). -/
abbrev Pid.takeoverCount : Nat := 0x1D000F
/-- `giveup_count` (R336). -/
abbrev Pid.giveupCount : Nat := 0x1D0010
/-- `frame_err_count` (R336). -/
abbrev Pid.frameErrCount : Nat := 0x1D0011
/-- `mark_miss_count` (R336). -/
abbrev Pid.markMissCount : Nat := 0x1D0012
/-- `lat_cycle` (R361). -/
abbrev Pid.latCycle : Nat := 0x200000
/-- `lat_wd` (R361). -/
abbrev Pid.latWd : Nat := 0x200001
/-- `lat_do_safe` (R361). -/
abbrev Pid.latDoSafe : Nat := 0x200002
/-- `lat_state` (R361). -/
abbrev Pid.latState : Nat := 0x200003
/-- `lat_prog_id` (R361). -/
abbrev Pid.latProgId : Nat := 0x200004
/-- `lat_src` (R361). -/
abbrev Pid.latSrc : Nat := 0x200005
/-- `lat_cycle_m` (R361). -/
abbrev Pid.latCycleM : Nat := 0x200006
/-- `lat_exec_last` (R361). -/
abbrev Pid.latExecLast : Nat := 0x200007
/-- `lat_exec_max` (R361). -/
abbrev Pid.latExecMax : Nat := 0x200008
/-- `lat_overrun_count` (R361). -/
abbrev Pid.latOverrunCount : Nat := 0x200009
/-- `lat_skip_count` (R361). -/
abbrev Pid.latSkipCount : Nat := 0x20000A
/-- `lat_flags` (R361). -/
abbrev Pid.latFlags : Nat := 0x20000B
/-- `lat_arith_count` (R361). -/
abbrev Pid.latArithCount : Nat := 0x20000C
/-- `lat_cmd_drop_count` (R361). -/
abbrev Pid.latCmdDropCount : Nat := 0x20000D
/-- `lat_force_val` (R361). -/
abbrev Pid.latForceVal : Nat := 0x20000E
/-- `lat_force` (R361). -/
abbrev Pid.latForce : Nat := 0x20000F
/-- `lat_forces` (R361). -/
abbrev Pid.latForces : Nat := 0x200010
/-- `lat_bank_status` (R361). -/
abbrev Pid.latBankStatus : Nat := 0x200011
/-- `lat_activate` (R361). -/
abbrev Pid.latActivate : Nat := 0x200012
/-- `lat_xchg_refuse` (R361). -/
abbrev Pid.latXchgRefuse : Nat := 0x200013
/-- `lat_xchg_count` (R361). -/
abbrev Pid.latXchgCount : Nat := 0x200014
/-- `rio_node` (R362). -/
abbrev Pid.rioNode (i : Nat) : Nat := 0x210000 + 0x100 * i
/-- `rio_can` (R362). -/
abbrev Pid.rioCan (i : Nat) : Nat := 0x210001 + 0x100 * i
/-- `rio_hb_time` (R362). -/
abbrev Pid.rioHbTime (i : Nat) : Nat := 0x210002 + 0x100 * i
/-- `rio_di_len` (R362). -/
abbrev Pid.rioDiLen (i : Nat) : Nat := 0x210003 + 0x100 * i
/-- `rio_do_len` (R362). -/
abbrev Pid.rioDoLen (i : Nat) : Nat := 0x210004 + 0x100 * i
/-- `rio_aw_cfg` (R362). -/
abbrev Pid.rioAwCfg (i : Nat) : Nat := 0x210005 + 0x100 * i
/-- `rio_nmt_start` (R362). -/
abbrev Pid.rioNmtStart (i : Nat) : Nat := 0x210006 + 0x100 * i
/-- `rio_subst_mode` (R362). -/
abbrev Pid.rioSubstMode (i : Nat) : Nat := 0x210007 + 0x100 * i
/-- `rio_subst_di` (R362). -/
abbrev Pid.rioSubstDi (i : Nat) : Nat := 0x210008 + 0x100 * i
/-- `rio_subst_aw0–rio_subst_aw3` (R362). -/
abbrev Pid.rioSubstAw (i : Nat) (k : Nat) : Nat := 0x210009 + 0x100 * i + k
/-- `rio_state` (R362). -/
abbrev Pid.rioState (i : Nat) : Nat := 0x21000D + 0x100 * i
/-- `rio_lost_cause` (R362). -/
abbrev Pid.rioLostCause (i : Nat) : Nat := 0x21000E + 0x100 * i
/-- `rio_lost_count` (R362). -/
abbrev Pid.rioLostCount (i : Nat) : Nat := 0x21000F + 0x100 * i
/-- `rio_pdo_err_count` (R362). -/
abbrev Pid.rioPdoErrCount (i : Nat) : Nat := 0x210010 + 0x100 * i
/-- `rio_tx_drop_count` (R362). -/
abbrev Pid.rioTxDropCount (i : Nat) : Nat := 0x210011 + 0x100 * i
/-- `can_mode` (R389). -/
abbrev Pid.canMode (i : Nat) : Nat := 0x240000 + 0x100 * i
/-- `can_nbt` (R389). -/
abbrev Pid.canNbt (i : Nat) : Nat := 0x240001 + 0x100 * i
/-- `can_dbt` (R389). -/
abbrev Pid.canDbt (i : Nat) : Nat := 0x240002 + 0x100 * i
/-- `can_tdco` (R389). -/
abbrev Pid.canTdco (i : Nat) : Nat := 0x240003 + 0x100 * i
/-- `can_triple` (R389). -/
abbrev Pid.canTriple (i : Nat) : Nat := 0x240004 + 0x100 * i
/-- `can_retry` (R389). -/
abbrev Pid.canRetry (i : Nat) : Nat := 0x240005 + 0x100 * i
/-- `can_busoff_auto` (R389). -/
abbrev Pid.canBusoffAuto (i : Nat) : Nat := 0x240006 + 0x100 * i
/-- `can_time_role` (R389). -/
abbrev Pid.canTimeRole (i : Nat) : Nat := 0x240007 + 0x100 * i
/-- `can_tref_id` (R389). -/
abbrev Pid.canTrefId (i : Nat) : Nat := 0x240008 + 0x100 * i
/-- `can_tref_slot` (R389). -/
abbrev Pid.canTrefSlot (i : Nat) : Nat := 0x240009 + 0x100 * i
/-- `can_state` (R389). -/
abbrev Pid.canState (i : Nat) : Nat := 0x24000A + 0x100 * i
/-- `can_tec` (R389). -/
abbrev Pid.canTec (i : Nat) : Nat := 0x24000B + 0x100 * i
/-- `can_rec` (R389). -/
abbrev Pid.canRec (i : Nat) : Nat := 0x24000C + 0x100 * i
/-- `can_alone` (R389). -/
abbrev Pid.canAlone (i : Nat) : Nat := 0x24000D + 0x100 * i
/-- `can_busoff_cmd` (R389). -/
abbrev Pid.canBusoffCmd (i : Nat) : Nat := 0x24000E + 0x100 * i
/-- `can_tref_offset` (R389). -/
abbrev Pid.canTrefOffset (i : Nat) : Nat := 0x24000F + 0x100 * i
/-- `can_tx_count` (R389). -/
abbrev Pid.canTxCount (i : Nat) : Nat := 0x240010 + 0x100 * i
/-- `can_rx_count` (R389). -/
abbrev Pid.canRxCount (i : Nat) : Nat := 0x240011 + 0x100 * i
/-- `can_removed_count` (R389). -/
abbrev Pid.canRemovedCount (i : Nat) : Nat := 0x240012 + 0x100 * i
/-- `can_err_count` (R389). -/
abbrev Pid.canErrCount (i : Nat) : Nat := 0x240013 + 0x100 * i
/-- `can_busoff_count` (R389). -/
abbrev Pid.canBusoffCount (i : Nat) : Nat := 0x240014 + 0x100 * i
/-- `can_listen_drop_count` (R389). -/
abbrev Pid.canListenDropCount (i : Nat) : Nat := 0x240015 + 0x100 * i
/-- `can_tref_count` (R389). -/
abbrev Pid.canTrefCount (i : Nat) : Nat := 0x240016 + 0x100 * i
/-- `can_tref_skip_count` (R389). -/
abbrev Pid.canTrefSkipCount (i : Nat) : Nat := 0x240017 + 0x100 * i
/-- `eth_enable` (R390). -/
abbrev Pid.ethEnable (i : Nat) : Nat := 0x250000 + 0x100 * i
/-- `eth_role` (R390). -/
abbrev Pid.ethRole (i : Nat) : Nat := 0x250001 + 0x100 * i
/-- `eth_mac_lo` (R390). -/
abbrev Pid.ethMacLo (i : Nat) : Nat := 0x250002 + 0x100 * i
/-- `eth_mac_hi` (R390). -/
abbrev Pid.ethMacHi (i : Nat) : Nat := 0x250003 + 0x100 * i
/-- `eth_ip` (R390). -/
abbrev Pid.ethIp (i : Nat) : Nat := 0x250004 + 0x100 * i
/-- `eth_prefix` (R390). -/
abbrev Pid.ethPrefix (i : Nat) : Nat := 0x250005 + 0x100 * i
/-- `eth_gw` (R390). -/
abbrev Pid.ethGw (i : Nat) : Nat := 0x250006 + 0x100 * i
/-- `eth_vlan` (R390). -/
abbrev Pid.ethVlan (i : Nat) : Nat := 0x250007 + 0x100 * i
/-- `eth_pcp` (R390). -/
abbrev Pid.ethPcp (i : Nat) : Nat := 0x250008 + 0x100 * i
/-- `sp_peer` (R390). -/
abbrev Pid.spPeer (i : Nat) : Nat := 0x250009 + 0x100 * i
/-- `eth_link` (R390). -/
abbrev Pid.ethLink (i : Nat) : Nat := 0x25000A + 0x100 * i
/-- `ptp_as_capable` (R390). -/
abbrev Pid.ptpAsCapable (i : Nat) : Nat := 0x25000B + 0x100 * i
/-- `ptp_pdelay` (R390). -/
abbrev Pid.ptpPdelay (i : Nat) : Nat := 0x25000C + 0x100 * i
/-- `txts_ovf` (R390). -/
abbrev Pid.txtsOvf (i : Nat) : Nat := 0x25000D + 0x100 * i
/-- `eth_rx_count` (R390). -/
abbrev Pid.ethRxCount (i : Nat) : Nat := 0x25000E + 0x100 * i
/-- `eth_tx_count` (R390). -/
abbrev Pid.ethTxCount (i : Nat) : Nat := 0x25000F + 0x100 * i
/-- `eth_rx_err_count` (R390). -/
abbrev Pid.ethRxErrCount (i : Nat) : Nat := 0x250010 + 0x100 * i
/-- `eth_link_down_count` (R390). -/
abbrev Pid.ethLinkDownCount (i : Nat) : Nat := 0x250011 + 0x100 * i
/-- `txts_ovf_count` (R390). -/
abbrev Pid.txtsOvfCount (i : Nat) : Nat := 0x250012 + 0x100 * i
/-- `time_state` (R391). -/
abbrev Pid.timeState : Nat := 0x260000
/-- `time_valid` (R391). -/
abbrev Pid.timeValid : Nat := 0x260001
/-- `time_now_s` (R391). -/
abbrev Pid.timeNowS : Nat := 0x260002
/-- `time_now_ns` (R391). -/
abbrev Pid.timeNowNs : Nat := 0x260003
/-- `time_offset` (R391). -/
abbrev Pid.timeOffset : Nat := 0x260004
/-- `time_rate` (R391). -/
abbrev Pid.timeRate : Nat := 0x260005
/-- `ptp_port` (R391). -/
abbrev Pid.ptpPort : Nat := 0x260006
/-- `ptp_active` (R391). -/
abbrev Pid.ptpActive : Nat := 0x260007
/-- `ptp_domain` (R391). -/
abbrev Pid.ptpDomain : Nat := 0x260008
/-- `ptp_priority1` (R391). -/
abbrev Pid.ptpPriority1 : Nat := 0x260009
/-- `ptp_log_sync` (R391). -/
abbrev Pid.ptpLogSync : Nat := 0x26000A
/-- `ptp_log_pdelay` (R391). -/
abbrev Pid.ptpLogPdelay : Nat := 0x26000B
/-- `ptp_pdelay_thresh` (R391). -/
abbrev Pid.ptpPdelayThresh : Nat := 0x26000C
/-- `ptp_gm_id_lo` (R391). -/
abbrev Pid.ptpGmIdLo : Nat := 0x26000D
/-- `ptp_gm_id_hi` (R391). -/
abbrev Pid.ptpGmIdHi : Nat := 0x26000E
/-- `time_holdover` (R391). -/
abbrev Pid.timeHoldover : Nat := 0x26000F
/-- `time_valid_win` (R391). -/
abbrev Pid.timeValidWin : Nat := 0x260010
/-- `time_local_valid` (R391). -/
abbrev Pid.timeLocalValid : Nat := 0x260011
/-- `time_step` (R391). -/
abbrev Pid.timeStep : Nat := 0x260012
/-- `time_step_pending` (R391). -/
abbrev Pid.timeStepPending : Nat := 0x260013
/-- `time_step_count` (R391). -/
abbrev Pid.timeStepCount : Nat := 0x260014
/-- `cyc_lock` (R391). -/
abbrev Pid.cycLock : Nat := 0x260015
/-- `cyc_offset` (R391). -/
abbrev Pid.cycOffset : Nat := 0x260016
/-- `cyc_lock_state` (R391). -/
abbrev Pid.cycLockState : Nat := 0x260017
/-- `cyc_phase_err` (R391). -/
abbrev Pid.cycPhaseErr : Nat := 0x260018
/-- `tout_mode` (R391). -/
abbrev Pid.toutMode (i : Nat) : Nat := 0x261000 + 0x100 * i
/-- `tout_start_s` (R391). -/
abbrev Pid.toutStartS (i : Nat) : Nat := 0x261001 + 0x100 * i
/-- `tout_start_ns` (R391). -/
abbrev Pid.toutStartNs (i : Nat) : Nat := 0x261002 + 0x100 * i
/-- `tout_period` (R391). -/
abbrev Pid.toutPeriod (i : Nat) : Nat := 0x261003 + 0x100 * i
/-- `tout_width` (R391). -/
abbrev Pid.toutWidth (i : Nat) : Nat := 0x261004 + 0x100 * i
/-- `tout_state` (R391). -/
abbrev Pid.toutState (i : Nat) : Nat := 0x261005 + 0x100 * i
/-- `tout_late_count` (R391). -/
abbrev Pid.toutLateCount (i : Nat) : Nat := 0x261006 + 0x100 * i
/-- `tout_skip_count` (R391). -/
abbrev Pid.toutSkipCount (i : Nat) : Nat := 0x261007 + 0x100 * i
/-- `bl_can_en` (R418). -/
abbrev Pid.blCanEn : Nat := 0x280000
/-- `bl_can_rx_id` (R418). -/
abbrev Pid.blCanRxId : Nat := 0x280001
/-- `bl_can_tx_id` (R418). -/
abbrev Pid.blCanTxId : Nat := 0x280002
/-- `sess_idle` (R418). -/
abbrev Pid.sessIdle : Nat := 0x280003
/-- `ann_period` (R418). -/
abbrev Pid.annPeriod : Nat := 0x280004
/-- `sess_active` (R418). -/
abbrev Pid.sessActive : Nat := 0x280005
/-- `peer_count` (R418). -/
abbrev Pid.peerCount : Nat := 0x280006
/-- `peer_table` (R418). -/
abbrev Pid.peerTable : Nat := 0x280007
/-- `bulk_state` (R418). -/
abbrev Pid.bulkState : Nat := 0x280008
/-- `bl_drop_count` (R418). -/
abbrev Pid.blDropCount : Nat := 0x280009
/-- `bl_dup_count` (R418). -/
abbrev Pid.blDupCount : Nat := 0x28000A
/-- `auth_fail_count` (R418). -/
abbrev Pid.authFailCount : Nat := 0x28000B
/-- `sess_open_count` (R418). -/
abbrev Pid.sessOpenCount : Nat := 0x28000C
/-- `rsp_discard_count` (R418). -/
abbrev Pid.rspDiscardCount : Nat := 0x28000D
/-- `audit_next` (R419). -/
abbrev Pid.auditNext : Nat := 0x290000
/-- `audit_state` (R419). -/
abbrev Pid.auditState : Nat := 0x290001
/-- `audit_anchor` (R419). -/
abbrev Pid.auditAnchor : Nat := 0x290002
/-- `audit_log` (R419). -/
abbrev Pid.auditLog : Nat := 0x290003
/-- `trg_in_edge` (R434). -/
abbrev Pid.trgInEdge : Nat := 0x2C0000
/-- `sync_drive` (R434). -/
abbrev Pid.syncDrive : Nat := 0x2C0001
/-- `trg_time_s` (R434). -/
abbrev Pid.trgTimeS : Nat := 0x2C0002
/-- `trg_time_ns` (R434). -/
abbrev Pid.trgTimeNs : Nat := 0x2C0003
/-- `cap_units_free` (R434). -/
abbrev Pid.capUnitsFree : Nat := 0x2C0004
/-- `crumb_next` (R434). -/
abbrev Pid.crumbNext : Nat := 0x2C0005
/-- `trg_evt0–trg_evt7` (R434). -/
abbrev Pid.trgEvt (k : Nat) : Nat := 0x2C0008 + k
/-- `cr_state` (R434). -/
abbrev Pid.crState (i : Nat) : Nat := 0x2C0100 + 0x100 * i
/-- `cr_units` (R434). -/
abbrev Pid.crUnits (i : Nat) : Nat := 0x2C0101 + 0x100 * i
/-- `cr_decim` (R434). -/
abbrev Pid.crDecim (i : Nat) : Nat := 0x2C0102 + 0x100 * i
/-- `cr_pre` (R434). -/
abbrev Pid.crPre (i : Nat) : Nat := 0x2C0103 + 0x100 * i
/-- `cr_post` (R434). -/
abbrev Pid.crPost (i : Nat) : Nat := 0x2C0104 + 0x100 * i
/-- `cr_trig_mask` (R434). -/
abbrev Pid.crTrigMask (i : Nat) : Nat := 0x2C0105 + 0x100 * i
/-- `cr_retrig` (R434). -/
abbrev Pid.crRetrig (i : Nat) : Nat := 0x2C0106 + 0x100 * i
/-- `cr_full` (R434). -/
abbrev Pid.crFull : Nat := 0x2C0107
/-- `cr_arm` (R434). -/
abbrev Pid.crArm (i : Nat) : Nat := 0x2C0108 + 0x100 * i
/-- `cr_force` (R434). -/
abbrev Pid.crForce (i : Nat) : Nat := 0x2C0109 + 0x100 * i
/-- `cr_missed_count` (R434). -/
abbrev Pid.crMissedCount (i : Nat) : Nat := 0x2C010A + 0x100 * i
/-- `cr_gap_count` (R434). -/
abbrev Pid.crGapCount (i : Nat) : Nat := 0x2C010B + 0x100 * i
/-- `cr_dead_last` (R434). -/
abbrev Pid.crDeadLast (i : Nat) : Nat := 0x2C010C + 0x100 * i
/-- `cr_dead_max` (R434). -/
abbrev Pid.crDeadMax (i : Nat) : Nat := 0x2C010D + 0x100 * i
/-- `cr_ch0–cr_ch63` (R434). -/
abbrev Pid.crCh (i : Nat) (k : Nat) : Nat := 0x2C0140 + 0x100 * i + k
/-- `crumb_no` (R434). -/
abbrev Pid.crumbNo (i : Nat) : Nat := 0x2C4000 + 0x100 * i
/-- `crumb_info` (R434). -/
abbrev Pid.crumbInfo (i : Nat) : Nat := 0x2C4001 + 0x100 * i
/-- `crumb_data` (R434). -/
abbrev Pid.crumbData (i : Nat) : Nat := 0x2C4002 + 0x100 * i
/-- `q_depth` (R54). -/
abbrev Pid.qDepth (i : Nat) : Nat := 0x304000 + 0x100 * i
/-- `q_high_water` (R54). -/
abbrev Pid.qHighWater (i : Nat) : Nat := 0x304001 + 0x100 * i
/-- `q_loss` (R54). -/
abbrev Pid.qLoss (i : Nat) : Nat := 0x304002 + 0x100 * i

end Sys2Proof.Machine
end

