-- ==== Sys2Proof/Machine/Ops.lean ====
section
/-! DEFINITION. The shared operations on the state: the clock, the word file, the event queue, the unit and port
states, and the protection and stop operations that several families take. -/

namespace Sys2Proof.Machine

/-- The outcome of a command. -/
abbrev Out := Host.Outcome State Fault Refusal

/-! ### Word file (R9, R10, R11, R438) -/

/-- A word of the file: the listed value, else the default. -/
def regsGet (rs : List (Nat × Word)) (id : Nat) : Word :=
  match rs.find? fun e => e.1 == id with
  | some e => e.2
  | none => defaultWord id

/-- The file without an identifier. -/
def regsDel (rs : List (Nat × Word)) (id : Nat) : List (Nat × Word) := rs.filter fun e => e.1 != id

/-- Insertion into the rising order. -/
def regsIns (id : Nat) (w : Word) : List (Nat × Word) → List (Nat × Word)
  | [] => [(id, w)]
  | e :: rs => if id < e.1 then (id, w) :: e :: rs else e :: regsIns id w rs

/-- Writing one word: a default is not listed. -/
def regsPut (rs : List (Nat × Word)) (id : Nat) (w : Word) : List (Nat × Word) :=
  if w = defaultWord id then regsDel rs id else regsIns id w (regsDel rs id)

/-- The canonical form of the word file: identifiers strictly rising, no entry equal to its default. -/
def regsWf : List (Nat × Word) → Bool
  | [] => true
  | [e] => decide (e.2 ≠ defaultWord e.1)
  | e :: f :: rs => decide (e.2 ≠ defaultWord e.1) && decide (e.1 < f.1) && regsWf (f :: rs)

/-- A parameter word. -/
def State.w (s : State) (id : Nat) : Word := regsGet s.regs id
/-- A parameter as an unsigned number. -/
def State.n (s : State) (id : Nat) : Nat := (s.w id).toNat
/-- A parameter as a signed number. -/
def State.z (s : State) (id : Nat) : Int := (s.w id).toInt
/-- Write one parameter word. -/
def State.setW (s : State) (id : Nat) (w : Word) : State := { s with regs := regsPut s.regs id w }
/-- Write one parameter as a number, saturating at 32 bits. -/
def State.setN (s : State) (id n : Nat) : State := s.setW id (wordSat n)
/-- Write one parameter as a signed number. -/
def State.setZ (s : State) (id : Nat) (z : Int) : State := s.setW id (wordOfInt z)
/-- Add to a counter, saturating (R11). -/
def State.bumpBy (s : State) (id k : Nat) : State := s.setN id (s.n id + k)
/-- Count one (R11). -/
def State.bump (s : State) (id : Nat) : State := s.bumpBy id 1
/-- Bit `k` of a parameter. -/
def State.bit (s : State) (id k : Nat) : Bool := (s.w id).getLsbD k
/-- Set or clear bit `k` of a parameter. -/
def State.setBit (s : State) (id k : Nat) (b : Bool) : State := s.setW id (putBit (s.w id) k b)

/-- Fold a function over a list of indices. -/
def State.each (s : State) (is : List Nat) (f : State → Nat → State) : State := is.foldl f s

/-- Apply a function when a condition holds. -/
def State.onlyIf (s : State) (c : Bool) (f : State → State) : State := if c then f s else s

/-! ### Clock (R17, R18, R382, R384) -/

/-- TIME is stopped: holdover-invalid with its source gone (R61); `time_state` 0x05 (R381). -/
def State.timeStopped (s : State) : Bool := decide (s.n Pid.timeState = 5)
/-- Internal time in ns on the PTP timescale (R17). -/
def State.intNs (s : State) : Nat := s.fine / 1000000000000
/-- The free-running stream stamp (R18). -/
def State.stamp (s : State) : Word := BitVec.ofNat 32 (s.strFine / 1000000000000)
/-- One tick in ps (R230). -/
def tickPs : Nat := 625
/-- One ms, one µs and one s in ps. -/
def psMs : Nat := 1000000000
/-- One microsecond in ps. -/
def psUs : Nat := 1000000
/-- One second in ps. -/
def psS : Nat := 1000000000000
/-- Two requests within 1 ns of each other are a tie (R47). -/
def tiePs : Nat := 1000

/-- Time passes until the instant of the command: internal time runs at its corrected rate (R382) and the stream
stamp with it, unless TIME is stopped. An instant not later than the present changes nothing. -/
def State.advance (s : State) (t : Nat) : State :=
  if t ≤ s.now then s
  else if s.timeStopped then { s with now := t }
  else
    let k := ((1000000000 : Int) + s.z Pid.timeRate).toNat
    { s with now := t, fine := s.fine + (t - s.now) * k, strFine := s.strFine + (t - s.now) * k }

/-- A fresh free value (Config.freeWord), with the counter moved on. -/
def State.fresh (s : State) : Word × State := (Config.freeWord s.freeCtr, { s with freeCtr := s.freeCtr + 1 })

/-- The instant from which a recurring row is due. -/
def State.dueFrom (s : State) (k : Timer) : Nat := ((s.timers.find? fun e => e.1 = k).map Prod.snd).getD 0

/-- A recurring row is due at once. -/
def State.forget (s : State) (k : Timer) : State :=
  { s with timers := s.timers.filter fun e => e.1 ≠ k }

/-- A recurring row is due again a period later: on the same grid where it came in time. -/
def State.again (s : State) (k : Timer) (period : Nat) : State :=
  let d := s.dueFrom k
  let s := s.forget k
  { s with timers := (k, if s.now < d + period then d + period else s.now + period) :: s.timers }

/-- A recurring row acts when it is due (log 9). -/
def State.recur (s : State) (k : Timer) (period : Nat) (f : State → State) : State :=
  if s.now < s.dueFrom k then s else f (s.again k period)

/-! ### Events (R38, R41, R53) -/

/-- Record the occupancy of queue `q` (R54). -/
def State.highWater (s : State) (q occ : Nat) : State :=
  s.onlyIf (decide (s.n (Pid.qHighWater q) < occ)) fun s => s.setN (Pid.qHighWater q) occ
/-- Count a loss of queue `q` (R54). -/
def State.qLost (s : State) (q : Nat) : State := s.bump (Pid.qLoss q)

/-- A group is coalescing (R41 item 3). -/
def EvSt.coalescing (e : EvSt) (kept : Bool) : Bool :=
  e.coal.any (fun c => evKept c.code == kept) || (decide (0 < e.ovf) && (if kept then e.ovfKept else e.ovfCommon))

/-- Coalesce one record into the counters (R41 items 1 and 2). -/
def EvSt.coalesce (e : EvSt) (r : EvRec) : EvSt :=
  if e.coal.any fun c => c.code == r.code && c.inst == r.inst then
    { e with coal := e.coal.map fun c => if c.code = r.code ∧ c.inst = r.inst then { c with count := c.count + 1 } else c }
  else if e.coal.length < 32 then
    { e with coal := e.coal ++ [⟨r.code, r.inst, 1, r.stamp⟩] }
  else
    { e with
      ovf := e.ovf + 1
      ovfStamp := if e.ovf = 0 then r.stamp else e.ovfStamp
      ovfCommon := e.ovfCommon || !evKept r.code
      ovfKept := e.ovfKept || evKept r.code }

/-- Must the record coalesce on arrival (R41)? -/
def EvSt.mustCoalesce (e : EvSt) (r : EvRec) : Bool :=
  e.coalescing (evKept r.code) || decide ((if evKept r.code then 256 else 240) ≤ e.q.length)

/-- The record of an event raised now. -/
def State.evRec (s : State) (code inst ctx : Nat) : EvRec :=
  ⟨s.intNs, code, inst % 256, severity code (decide (s.n Pid.timeValid = 1)) s.timeStopped, BitVec.ofNat 64 ctx, s.stamp⟩

/-- Raise an event: into Q-EVT, or into the counters (R41). -/
def State.raise (s : State) (code inst ctx : Nat) : State :=
  let r := s.evRec code inst ctx
  if s.ev.mustCoalesce r then { s with ev := s.ev.coalesce r }.qLost 12
  else { s with ev := { s.ev with q := s.ev.q ++ [r] } }.highWater 12 (s.ev.q.length + 1)

/-- The PTP second nearest to the present whose low 32 bits are given (R111, R427). -/
def nearSec (sec low : Nat) : Nat := ((sec : Int) + (BitVec.ofNat 32 low - BitVec.ofNat 32 sec).toInt).toNat

/-- Signed 32-bit field of an event context. -/
def u32z (z : Int) : Nat := (wordOfInt z).toNat

/-! ### Indexed parts -/

/-- Port `p`. -/
def State.port (s : State) (p : Nat) : PortSt := s.ports.getD p {}
/-- Change port `p`. -/
def State.modPort (s : State) (p : Nat) (f : PortSt → PortSt) : State := { s with ports := s.ports.modify p f }
/-- Leg `l`. -/
def State.leg (s : State) (l : Nat) : LegSt := s.legs.getD l {}
/-- Change leg `l`. -/
def State.modLeg (s : State) (l : Nat) (f : LegSt → LegSt) : State := { s with legs := s.legs.modify l f }
/-- Island `i`. -/
def State.island (s : State) (i : Nat) : IslSt := s.isl.getD i {}
/-- Change island `i`. -/
def State.modIsl (s : State) (i : Nat) (f : IslSt → IslSt) : State := { s with isl := s.isl.modify i f }
/-- The variant is the 4P (R1, R20). -/
def State.fourP (s : State) : Bool := decide (s.n Pid.variant = 4)

/-- The used ports (R26). -/
def State.usedPorts (s : State) : List Nat := (List.range 4).filter fun p => (s.port p).used
/-- The legs a port uses (R24). -/
def PortSt.legs (q : PortSt) : List Nat :=
  if q.used then (List.range q.topo.legs).map (· + 6 * q.firstGroup) else []
/-- The groups a port owns (R22, R23), 0-based. -/
def PortSt.groups (q : PortSt) : List Nat :=
  if q.used then (List.range q.topo.groups).map (· + q.firstGroup) else []
/-- The used port that owns a leg, if any (R24). -/
def State.portOfLeg (s : State) (l : Nat) : Option Nat := (List.range 4).find? fun p => (s.port p).legs.contains l
/-- The used port that owns a group. -/
def State.portOfGroup (s : State) (g : Nat) : Option Nat := (List.range 4).find? fun p => (s.port p).groups.contains g
/-- Reference leg of a port (R232). -/
def PortSt.refLeg (q : PortSt) : Nat := 6 * q.firstGroup
/-- A DC port (R100). -/
def State.isDc (s : State) (p : Nat) : Bool := decide (s.n (Pid.portMode p) = 2)

/-- The unit's serial as one number. -/
def State.serial (s : State) : Nat := s.n Pid.serialHi * 2 ^ 32 + s.n Pid.serialLo

/-- The inner period in force, ns: the alternate after rung 4 (R160, R194). -/
def State.tInnerNs (s : State) : Nat := if s.n Pid.lawSet = 1 then s.n Pid.tInnerAlt else s.n Pid.tInner
/-- The outer ratio in force: the alternate after rung 3 or 4 (R191). -/
def State.ratio (s : State) : Nat :=
  if s.n Pid.lawSet = 1 ∨ (s.img.hasAlt ∧ s.fram.ladderSet = 1) then s.n Pid.outerRatioAlt
  else s.n Pid.outerRatio
/-- The outer period in force, ps (R153). -/
def State.outerPs (s : State) : Nat := s.tInnerNs * 1000 * s.ratio

/-- Three or four ports are used: the longer windows of R151 apply. -/
def State.manyPorts (s : State) : Bool := decide (3 ≤ s.usedPorts.length)
/-- Lengths of the conversion and the compare window, ps (R151); the commit window lasts 100 ns. -/
def State.convWin (s : State) : Nat := if s.manyPorts then 100000 else 80000
/-- The compare window. -/
def State.compareWin (s : State) : Nat := if s.manyPorts then 50000 else 40000
/-- `t_inner` in ticks (R230). -/
def State.innerTicks (s : State) : Nat := s.tInnerNs * 1000 / tickPs
/-- The update point that ends the present period (R152): the expiry of the period timer's count, which the trim of the period moves by
whole ticks (R230, R322, R386). -/
def State.periodEnd (s : State) : Nat := (s.eng.tickAt + (s.innerTicks + s.eng.trim) * tickPs).toNat
/-- The end of the compare window. -/
def State.compareAt (s : State) : Nat := s.periodEnd - 100000
/-- The deadline of the lanes (R151, R154). -/
def State.deadlineAt (s : State) : Nat := s.compareAt - s.compareWin

/-- What internal time has gained since an instant not later than the present, in its own fine units. -/
def State.fineSince (s : State) (inst : Nat) : Nat :=
  (s.now - inst) * (if s.timeStopped then 0 else ((1000000000 : Int) + s.z Pid.timeRate).toNat)
/-- The stream stamp of an instant not later than the present (R18). -/
def State.stampAt (s : State) (inst : Nat) : Word := BitVec.ofNat 32 ((s.strFine - s.fineSince inst) / 1000000000000)
/-- Internal time of an instant not later than the present, in its fine units (R17). -/
def State.fineAt (s : State) (inst : Nat) : Nat := s.fine - s.fineSince inst

/-- M of R338: periods in a Lattice cycle. -/
def State.latM (s : State) : Nat := (rneDiv ((s.n Pid.latCycle : Int) * 1000) s.tInnerNs).toNat

/-! ### Measured quantities of a channel (R211) -/

/-- Per-unit value of a code on a channel (R211), Q4.27. -/
def State.chanPu (s : State) (ch : Nat) (code : Int) : Int :=
  satQ27 (rneDiv ((code - s.z (Pid.faOffset ch)) * s.z (Pid.faFsPu ch)) 8192)

/-- Channels of a port's groups in ascending order. -/
def State.portChans (s : State) (p : Nat) : List Nat :=
  (s.port p).groups.flatMap fun g => (List.range 12).map (12 * g + ·)

/-- The elements of a port (R92): role, element, channel. -/
def State.elems (s : State) (p : Nat) : List (Nat × Nat × Nat) :=
  ((s.portChans p).filter fun ch => s.n (Pid.faRole ch) % 256 ≠ 0).map fun ch =>
    (s.n (Pid.faRole ch) % 256, s.n (Pid.faRole ch) / 256 % 256, ch)

/-- The latest conversion-0 value of an element, none where the port has no such channel. -/
def State.elemPu (s : State) (p role elem : Nat) : Option Int :=
  match (s.elems p).find? fun e => e.1 = role ∧ e.2.1 = elem with
  | some e => some (s.chanPu e.2.2 (sampleCode (s.w (Pid.faLast e.2.2))))
  | none => none

/-- An element is unusable in the present period (R171). -/
def State.elemBad (s : State) (p role elem : Nat) : Bool :=
  (s.port p).fb.any fun e => e.role = role && e.elem = elem && (decide (e.bad ≠ 0) || e.lost)

/-! ### Roles and refusals (R9, R401) -/

/-- A LIVE or CMD write needs its role (R401), and a standby refuses every one (R324). -/
def State.roleOk (s : State) (role named : Role) : Bool := role.meets named && decide (s.unit.st ≠ .standby)

/-- Role of a requester; the Lattice word acts as an Operator (R111), and a standby ignores its own (R324). -/
def State.reqOk (s : State) (r : Requester) (named : Role) : Bool :=
  match r with
  | .role x => s.roleOk x named
  | .lattice => decide (named = .operator) && decide (s.unit.st ≠ .standby)
  | .auto => false

/-! ### Lattice outputs of a port (R122) -/

/-- Bit `k` of `lattice_out`. -/
def State.latOut (s : State) (p k : Nat) (b : Bool) : State := s.setBit (Pid.latticeOut p) k b
/-- Raise the open request. -/
def State.askOpen (s : State) (p : Nat) : State := (s.latOut p 2 true).modPort p fun q => { q with openAsked := true }
/-- Withdraw the close request and the permissive. -/
def State.dropClose (s : State) (p : Nat) : State :=
  ((s.latOut p 0 false).latOut p 1 false).modPort p fun q => { q with permissiveAt := none, dwellFrom := none }

/-! ### Remote stations (R352) -/

/-- A remote station. -/
def State.station (s : State) (k : Nat) : StationSt := s.lat.st.getD k {}
/-- Change Lattice's state. -/
def State.modLat (s : State) (f : LatSt → LatSt) : State := { s with lat := f s.lat }
/-- Change a station. -/
def State.modStation (s : State) (k : Nat) (f : StationSt → StationSt) : State := s.modLat fun x => { x with st := x.st.modify k f }

/-- A station is lost (R352): cause, count, event; substitutes follow at the next input read (R353). -/
def State.stationLost (s : State) (k cause : Nat) : State :=
  let s := s.modStation k fun x => { x with lostNew := true, back := false }
  let s := ((s.setN (Pid.rioState k) 3).setN (Pid.rioLostCause k) cause).bump (Pid.rioLostCount k)
  s.raise 0x1167 k (s.n (Pid.rioNode k) * 256 + cause)

/-! ### CAN channel states (R364, R371, R372) -/

/-- A CAN channel. -/
def State.canCh (s : State) (ch : Nat) : CanSt := s.can.getD ch {}
/-- Change a CAN channel. -/
def State.modCan (s : State) (ch : Nat) (f : CanSt → CanSt) : State := { s with can := s.can.modify ch f }

/-- The mode in force of a channel (R364, R416), as `can_state` codes it. -/
def State.canCode (s : State) (ch : Nat) : Nat :=
  let mode := s.n (Pid.canMode ch)
  if mode = 0 ∨ s.unit.st.startUp ∨ s.unit.st.factory then 0
  else match s.ref.lockedTo with
    | none => 5
    | some .fallback => 5
    | some _ =>
      if mode = 2 ∨ s.unit.st = .standby then 4
      else if (s.canCh ch).busOff.isSome then 3
      else if 128 ≤ s.n (Pid.canTec ch) ∨ 128 ≤ s.n (Pid.canRec ch) then 2
      else 1

/-- Show `can_state`; a channel that is no longer available loses its present stations with cause 0x03 (R352), and a time
master that no longer drives starts anew (R374). -/
def State.canShow (s : State) : State :=
  s.each [0, 1] fun s ch =>
    let c := s.canCode ch
    let s := s.setN (Pid.canState ch) c
    if c = 1 ∨ c = 2 then s
    else
      let s := s.modCan ch fun x => { x with prevSof := none }
      s.each ((List.range 8).filter fun k => s.n (Pid.rioNode k) ≠ 0 && decide (s.n (Pid.rioCan k) = ch + 1) &&
        (decide (s.n (Pid.rioState k) = 2) || (s.station k).back || (c = 5 && decide (s.n (Pid.rioState k) = 1)))) fun s k =>
          s.stationLost k 3

/-! ### Ethernet links (R376) -/

/-- A port may train: enabled, past start-up, on the declared reference (R61, R376). -/
def State.ethMay (s : State) (e : Nat) : Bool :=
  decide (s.n (Pid.ethEnable e) = 1) && !s.unit.st.startUp && (match s.ref.lockedTo with
    | some .fallback => false
    | some _ => true
    | none => false)

/-- Ports that may train begin to. -/
def State.ethShow (s : State) : State :=
  s.each ((List.range 2).filter fun e => s.ethMay e && decide (s.n (Pid.ethLink e) = 0)) fun s e => s.setN (Pid.ethLink e) 1

/-! ### Internal time: state, validity, steps (R381-R384, R388) -/

/-- Change the time source's state. -/
def State.modTime (s : State) (f : TimeSt → TimeSt) : State := { s with time := f s.time }

/-- Network time is valid (R381, R383): never while a step is pending; a source newly in force keeps what was until its
first correction. -/
def State.timeValidNow (s : State) : Bool :=
  s.time.pendNs.isNone && (match s.n Pid.timeState with
  | 1 | 2 =>
    if s.time.acquire then decide (s.n Pid.timeValid = 1) else decide ((s.z Pid.timeOffset).natAbs ≤ s.n Pid.timeValidWin)
  | 3 => true
  | 5 => false
  | _ => decide (s.n Pid.timeLocalValid = 1))

/-- Show validity; a change to not valid raises 0x8665 with its cause. -/
def State.showValid (s : State) (cause : Nat) : State :=
  let was := decide (s.n Pid.timeValid = 1)
  let now := s.timeValidNow
  (s.onlyIf (was && !now) fun s => s.raise 0x8665 0 cause).setN Pid.timeValid (b01 now)

/-- Change `time_state` (R381). -/
def State.setTimeState (s : State) (new cause : Nat) : State :=
  let old := s.n Pid.timeState
  if old = new then s.showValid cause
  else ((s.raise 0x0661 0 (old * 256 + new)).setN Pid.timeState new).showValid cause

/-- A `TIME_OUT`. -/
def State.touts (s : State) (k : Nat) : ToutSt := s.tout.getD k {}
/-- Change a `TIME_OUT`. -/
def State.modTout (s : State) (k : Nat) (f : ToutSt → ToutSt) : State := { s with tout := s.tout.modify k f }

/-- The first instant of a periodic output at or after a time. -/
def firstFrom (start period t : Nat) : Nat :=
  if t ≤ start ∨ period = 0 then start else start + (t - start + period - 1) / period * period

/-- A pulse starts now (R387). -/
def State.toutFire (s : State) (k : Nat) : State :=
  s.modTout k fun x => { x with pulseEnd := some (s.now + s.n (Pid.toutWidth k) * 1000) }

/-- A step of internal time acts on an armed output (R388). -/
def State.toutStep (s : State) (k old new : Nat) : State :=
  let x := s.touts k
  if !x.armed then s
  else if x.periodic then
    let per := s.n (Pid.toutPeriod k)
    let next := if old < new then firstFrom x.startNs per (new + 1) else firstFrom x.startNs per new
    let skips := if old < new ∧ per ≠ 0 ∧ x.nextNs < next then (next - x.nextNs) / per else 0
    (s.bumpBy (Pid.toutSkipCount k) skips).modTout k fun x => { x with nextNs := next }
  else if old < x.startNs ∧ x.startNs ≤ new then
    let s := ((s.toutFire k).modTout k fun x => { x with armed := false }).setN (Pid.toutState k) 3
    (s.bump (Pid.toutLateCount k)).raise 0x1668 k (min (new - x.startNs) 0xFFFFFFFF)
  else s

/-- A step of internal time (R382, R383): event with its marker, count, armed outputs; nothing is left pending. -/
def State.timeStepBy (s : State) (d : Int) (marker : Nat) : State :=
  let old := s.intNs
  let s := { s with fine := ((s.fine : Int) + d * 1000000000000).toNat }
  let s := (s.modTime fun x => { x with pendNs := none, steps := x.steps + 1 }).setZ Pid.timeStepPending 0
  let s := (s.setZ Pid.timeOffset 0).bump Pid.timeStepCount
  let s := s.raise 0x0662 0 ((d % 2 ^ 56).toNat * 256 + marker)
  (s.each [0, 1, 2, 3] fun s k => s.toutStep k old s.intNs).showValid 3

/-! ### Sessions (R398) -/

/-- Change the link engine's state. -/
def State.modLink (s : State) (f : LinkSt → LinkSt) : State := { s with link := f s.link }

/-- The bulk write aborts (R405): event; the target stays empty, or failed. -/
def State.bulkAbort (s : State) (why : Nat) : State :=
  match s.link.bulk with
  | none => s
  | some b =>
    let s := (s.modLink fun x => { x with bulk := none }).setN Pid.bulkState 0
    let s := s.onlyIf (decide (b.target = 0x10)) fun s => (s.modLat fun x => { x with bank := none }).setN Pid.latBankStatus 2
    s.raise 0x1288 b.target why

/-- A session ends (R398): event, its bulk write aborted, its copy and lock released. -/
def State.endSession (s : State) (sid why : Nat) : State :=
  match s.link.sess.find? fun x => x.sid = sid with
  | none => s
  | some x =>
    let s := s.modLink fun l => { l with sess := l.sess.filter fun y => y.sid ≠ sid }
    let s := s.setN Pid.sessActive s.link.sess.length
    let s := s.raise 0x0289 x.role.code (sid * 2 ^ 32 + why)
    match s.link.bulk with
    | some b => if b.sid = sid then s.bulkAbort 1 else s
    | none => s

/-- Every session ends. -/
def State.endSessions (s : State) (why : Nat) : State :=
  (s.link.sess.map fun x => x.sid).foldl (fun s sid => s.endSession sid why) s

/-! ### Unit state (R85) -/

/-- READY-UNBOUND takes the factory defaults of blocks 0x24, 0x25, 0x26 and 0x28 (R438). -/
def State.factoryNet (s : State) : State :=
  { s with regs := s.regs.filter fun e =>
      match findParam s.fourP e.1 with
      | some r => !(decide (r.cls = .cfg) && [0x24, 0x25, 0x26, 0x28].contains (pidBlock e.1))
      | none => true }

/-- Change the unit state; `last_cause` takes the event code of the cause (R86). A unit that leaves STANDBY without the
biscuit leaves the pair (R320, R327); a time step pending since service is made (R383); entry to READY-UNBOUND or
READY-REFUSED ends every session (R398), and entry to READY makes the announcement due (R415); the CAN modes follow (R364). -/
def State.gotoUnit (s : State) (u : UnitState) (cause : Nat) : State :=
  if s.unit.st = u then s
  else
    let old := s.unit.st
    let s := s.onlyIf (old = .standby && u ≠ .run) fun s => (s.setN Pid.pairState 0).setN Pid.sbFit 0
    let s := ({ s with unit := { s.unit with st := u } }.setN Pid.unitState u.code).setN Pid.lastCause cause
    let s := s.onlyIf (u = .ready) fun s => s.forget .announce
    let s := s.onlyIf (old.inService && !u.inService) fun s =>
      match s.time.pendNs with
      | some d => s.timeStepBy d 1
      | none => s
    (s.onlyIf u.factory fun s => s.endSessions 4).canShow.ethShow

/-- R134: RIDE-THROUGH, else LIMITED, else RUN. -/
def State.runKind (s : State) : UnitState :=
  if s.usedPorts.any fun p => (s.port p).rtOpen then .rideThrough
  else if s.usedPorts.any fun p => (s.port p).st = .limited then .limited
  else .run

/-- The declared reference is locked: not the fallback clock (R63, R64). -/
def State.refLocked (s : State) : Bool :=
  match s.ref.lockedTo with
  | some .fallback => false
  | some _ => true
  | none => false

/-- The ports with an accepted energise request (R111). -/
def State.acceptedPorts (s : State) : List Nat := s.usedPorts.filter fun p => (s.port p).accepted

/-- R134 and R121: the unit state among RUN, LIMITED and RIDE-THROUGH, and STOPPING once the last port with an
accepted request is at rest; `cause` is the event code of what changed a port (R86), RIDE-THROUGH's the excursion. -/
def State.recompute (s : State) (cause : Nat) : State :=
  match s.unit.st with
  | .run | .limited | .rideThrough =>
    if s.acceptedPorts.all fun p => (s.port p).st.atRest then s.gotoUnit .stopping cause
    else s.gotoUnit s.runKind (if s.runKind = .rideThrough then 0x2A0B else cause)
  | _ => s

/-- The event code behind the latest change of state of a port with an accepted request (R86). -/
def State.lastPortCause (s : State) : Nat :=
  (s.acceptedPorts.foldl (fun (a : Nat × Nat) p => if a.1 ≤ (s.port p).since then ((s.port p).since, (s.port p).cause) else a) (0, 0)).2

/-- R111: ENERGISE is left at the first outer step at which every port with an accepted request has settled. -/
def State.leaveEnergise (s : State) : State :=
  if s.unit.st = .energise ∧ s.acceptedPorts ≠ [] ∧
      s.acceptedPorts.all fun p => (s.port p).st.atRest || (s.port p).st.running then
    if s.acceptedPorts.any fun p => (s.port p).st.running then (s.gotoUnit .run 0).recompute 0x2A01
    else s.gotoUnit .stopping s.lastPortCause
  else s

/-- A unit of a pair drives only while it holds the biscuit (R111, R318, R321). -/
def State.mayDrive (s : State) : Bool :=
  decide (s.n Pid.pairEnable = 0) || s.pair.holds

/-! ### Injection abort (R179) -/

/-- Abort a running injection with a code of R179. -/
def State.injAbort (s : State) (code : Nat) : State :=
  if s.n Pid.injState = 1 then
    ((s.setN Pid.injState 3).setN Pid.injAbort code).raise 0x1E03 s.inj.port code
  else s

/-! ### Islands and legs (R256, R263, R265, R272) -/

/-- The islands of a leg (R256). -/
def islHigh (l : Nat) : Nat := 2 * l
/-- The low-side island of a leg. -/
def islLow (l : Nat) : Nat := 2 * l + 1
/-- The leg an island serves. -/
def legOfIsl (i : Nat) : Nat := i / 2

/-- An island of a used leg (R24, R259). -/
def State.islUsed (s : State) (i : Nat) : Bool := (s.portOfLeg (legOfIsl i)).isSome

/-- The port of a leg has T-type topology. -/
def State.isTType (s : State) (l : Nat) : Bool :=
  match s.portOfLeg l with
  | some p => decide ((s.port p).topo = .tType)
  | none => false

/-- The partner of an island: the other island of its leg; in T-type S1 with S3 and S2 with S4, where the even leg
drives S1 (high) and S4 (low) and the odd leg S2 (high) and S3 (low) (R235, R256, R265). -/
def State.partner (s : State) (i : Nat) : Nat :=
  if s.isTType (legOfIsl i) then
    match i % 4 with
    | 0 => i + 3
    | 3 => i - 3
    | 1 => i + 1
    | _ => i - 1
  else if i % 2 = 0 then i + 1 else i - 1

/-- `isl_state` (R281) from the island. -/
def IslSt.code (i : IslSt) : Nat :=
  if i.lost then 5 else if i.marked then 6 else if i.soft.isSome then 3 else if i.on then 2
  else if i.latched then 4 else if i.keepAt = 0 ∧ !i.enable then 0 else 1

/-- `isl_status` (R281) from the island: supply bits, OFF-confirm, detection flags held in `flags`, watchdog, lost,
enable. -/
def IslSt.status (i : IslSt) : Nat :=
  i.uv % 4 + 4 * b01 i.offConf + (i.flags / 8 % 8) * 8 + 64 * b01 i.nsFault + 128 * b01 i.wdExpired
    + 256 * b01 i.lost + 512 * b01 i.enable + 1024 * (i.flags / 1024 % 2)

/-- Write the words of an island after a change. -/
def State.showIsl (s : State) (i : Nat) : State :=
  (s.setN (Pid.islState i) (s.island i).code).setN (Pid.islStatus i) (s.island i).status

/-- Change an island and show it. -/
def State.chgIsl (s : State) (i : Nat) (f : IslSt → IslSt) : State := (s.modIsl i f).showIsl i

/-- A turn-on is on its way to an island or pends there. -/
def IslSt.awaits (x : IslSt) : Bool := x.pendAt.isSome || x.onDue.isSome

/-- `leg_out` (R253) from the islands: y is kept in bit 0, switching in bit 4. -/
def State.showLeg (s : State) (l : Nat) : State :=
  let h := s.island (islHigh l)
  let lo := s.island (islLow l)
  let dead := (h.awaits || lo.awaits || (s.leg l).onAt.isSome) && !h.on && !lo.on
  (((s.setBit (Pid.legOut l) 1 h.on).setBit (Pid.legOut l) 2 lo.on).setBit (Pid.legOut l) 3 dead)

/-- The phase of a leg as recorded at a trip (R274). -/
def State.legPhase (s : State) (l : Nat) : Nat :=
  let h := s.island (islHigh l)
  let lo := s.island (islLow l)
  if h.soft.isSome || lo.soft.isSome then 4
  else if h.on then 1
  else if lo.on then 2
  else if h.awaits || lo.awaits || (s.leg l).onAt.isSome then 3
  else 0

/-- An island off: the switch no longer on; a turn-on pending or on its way and a pulse are cancelled (R263, R266). -/
def IslSt.down (x : IslSt) (now : Nat) (soft : Bool) : IslSt :=
  if x.on then
    { x with on := false, onCmd := false, onDue := none, offDue := none, pendAt := none, offConf := false,
             offAt := some now, above := false,
             soft := if soft then some now else none, softFull := false, pulseLen := 0, pulseEnd := none }
  else { x with onCmd := false, onDue := none, offDue := none, pendAt := none, pulseLen := 0, pulseEnd := none }

/-- Normal turn-off by the island itself; a soft turn-off in progress is not interrupted (R269). -/
def State.islDown (s : State) (i : Nat) : State := s.chgIsl i fun x => x.down s.now false

/-- Soft turn-off of an island that is on (R268, R269). -/
def State.islSoft (s : State) (i : Nat) : State := s.chgIsl i fun x => x.down s.now true

/-- A normal off command reaches an island, and its partner the notice (R257). -/
def State.islOff (s : State) (i : Nat) : State := (s.islDown i).modIsl (s.partner i) fun x => { x with noticeAt := some s.now }

/-- The other leg of a T-type pair (R235). -/
def pairLeg (l : Nat) : Nat := if l % 2 = 0 then l + 1 else l - 1

/-- Both outer switches of a T-type phase show OFF-confirm. -/
def State.outersConf (s : State) (l : Nat) : Bool :=
  (s.island (islHigh (l / 2 * 2))).offConf && (s.island (islLow (l / 2 * 2))).offConf

/-- A turn-on that pends or is on its way is cancelled (R263, R274); a switch that is on stays so. -/
def State.dropPending (s : State) (i : Nat) : State := s.chgIsl i fun x => if x.on then { x with onDue := none, pendAt := none } else x.down s.now false

/-- One leg to high impedance in topology-safe order (R272): in T-type the outer switches (even leg) first; the
inner ones that are on wait for both outer confirmations, and their off commands follow 1.0 µs later (ISLAND_OFF_COMMAND); a turn-on of
an inner one is cancelled. The leg stops switching. -/
def State.legOff (s : State) (l : Nat) : State :=
  let s := if s.isTType l && l % 2 = 1 then
      ((s.dropPending (islHigh l)).dropPending (islLow l)).modLeg l fun x =>
        { x with innerWait := true, innerFrom := if s.outersConf l then some s.now else none }
    else (s.islOff (islHigh l)).islOff (islLow l)
  let s := s.modLeg l fun x => { x with onAt := none, started := false, delayed := none, measuring := false }
  (s.setBit (Pid.legOut l) 4 false).showLeg l

/-- Every used leg of a port to high impedance (R272). -/
def State.legsOff (s : State) (p : Nat) : State := s.each (s.port p).legs State.legOff

/-- ps rounded up to a whole tick. -/
def tickUp (ps : Nat) : Nat := (ps + tickPs - 1) / tickPs * tickPs

/-- A leg's dead times at their fallback values (R251), on the tick grid (R230). -/
def State.dtReset (s : State) (p l : Nat) : State :=
  (s.each (List.range 6) fun s k => s.setN (Pid.dtNow l k) (tickUp (s.n (Pid.dtFix p k) * 1000))).modLeg l fun x =>
    { x with waiting := [], missRun := 0 }

/-- A cause of R252 ends: when none is left the leg resumes adaptive dead time from `dt_fix`. -/
def State.dtCauseEnd (s : State) (p l k : Nat) : State :=
  if s.bit (Pid.dtMode l) k then
    let s := s.setBit (Pid.dtMode l) k false
    s.onlyIf (decide (s.n (Pid.dtMode l) = 0)) fun s => (s.dtReset p l).raise 0x0507 l 0
  else s

/-- The causes of R252 that end at a start: missed crossings, and an `NS` fault once a self-test has passed. -/
def State.dtStart (s : State) (p l : Nat) : State :=
  let i := islLow l
  let s := s.dtReset p l
  let s := s.onlyIf (!(s.island i).nsFault && decide (s.n (Pid.istResult i) / 8 % 4 = 0)) fun s => s.dtCauseEnd p l 1
  s.dtCauseEnd p l 2

/-- The modulator at a change of port state (R61, R241, R243): start on ENERGISING or SYNCING, free-run on IDLE, ARMED
and PORT-STOP, with the legs off. -/
def State.modOnState (s : State) (p : Nat) (st : PortState) : State :=
  match st with
  | .energising | .syncing =>
    let s := (s.onlyIf (decide (s.n (Pid.modState p) = 4)) fun s => s.raise 0x0503 p 2).modPort p fun q => { q with noCarrier := false }
    let s := s.onlyIf (decide (s.n (Pid.modState p) ≠ 0)) fun s => s.setN (Pid.modState p) 2
    let s := s.each (s.port p).legs fun s l => s.modLeg l fun x => { x with bounds := 0, started := false }
    s.each ((s.port p).legs.filter fun l => !s.bit (Pid.legProt l) 0) fun s l =>
      ((s.dtStart p l).modLeg l fun x => { x with innerWait := false }).setBit (Pid.legOut l) 4 s.mayDrive
  | .idle | .armed | .portStop =>
    let s := s.onlyIf (decide (s.n (Pid.modState p) = 2 ∨ s.n (Pid.modState p) = 3)) fun s => s.setN (Pid.modState p) 1
    s.legsOff p
  | _ => s

/-! ### Port states (R110, R138) -/

/-- An excursion closes without its event when the port leaves RUN and LIMITED (R138). -/
def State.dropExcursion (s : State) (p : Nat) : State :=
  if (s.port p).rtOpen then
    (s.modPort p fun q => { q with rtOpen := false, rtBandFrom := none }).setN (Pid.rtState p) 0
  else s

/-- The shaped set-points outside RUN and LIMITED (R142): p and q at 0, v and f at their targets; a DC port shapes p and v only
(R141). -/
def State.glzHold (s : State) (p : Nat) : State :=
  let v := accOf27 (s.z (Pid.vSet p))
  let f := if s.isDc p then 0 else accOf27 (s.z (Pid.fRef p))
  let s := s.modPort p fun q => { q with law := { q.law with glzP := {}, glzQ := {}, glzV := { x := v }, glzF := { x := f } } }
  (((((s.setZ (Pid.glzP p) 0).setZ (Pid.glzQ p) 0).setZ (Pid.glzV p) (q27OfAcc v)).setZ (Pid.glzF p) (q27OfAcc f)).setN
    (Pid.glzLimited p) 0).setBit (Pid.lawFlags p) 5 false

/-- A law that no longer integrates forgets its clamps, its freeze and its slip (R95, R97, R131). -/
def State.lawRest (s : State) (p : Nat) : State :=
  let s := s.modPort p fun q => { q with law := { q.law with omegaFrz := none, clampW := false, clampE := false, slipping := false } }
  ((s.setBit (Pid.lawFlags p) 0 false).setBit (Pid.lawFlags p) 1 false).setBit (Pid.lawFlags p) 4 false

/-- `fb_state` (R181): substituted and lost bits by role, bit 15 open loop; a port at rest substitutes nothing (R171). -/
def PortSt.fbWord (q : PortSt) : Nat :=
  (List.range 7).foldl (fun a r =>
    a + b01 (q.fb.any fun e => e.role = r + 1 && !q.st.atRest && (decide (e.bad ≠ 0) || e.lost)) * 2 ^ (2 * r)
      + b01 (q.fb.any fun e => e.role = r + 1 && e.lost) * 2 ^ (2 * r + 1)) (b01 q.openLoop.isSome * 32768)

/-- Write `fb_state`. -/
def State.fbShow (s : State) (p : Nat) : State := s.setN (Pid.fbState p) (s.port p).fbWord

/-- The event code behind a change of port state, 0 for none (R86): the stop's cause, the limit's entry or its release. -/
def State.portCause (s : State) (p : Nat) (old new : PortState) : Nat :=
  match old, new with
  | _, .portStop => s.n (Pid.stopCause p)
  | _, .limited => 0x2A01
  | .limited, .run => 0x0A02
  | _, _ => 0

/-- Take a port to a state: event 0x0801, modulator, excursion, injection, `lattice_out` bits 3 and 4, unit state
(R110, R122, R134, R138, R142, R179, R241). `cause` is the event code behind it (R86). A change ends this step's evaluation (R110). -/
def State.setPortBy (s : State) (p : Nat) (st : PortState) (cause : Nat) : State :=
  let old := (s.port p).st
  if old = st then s
  else
    let s := s.raise 0x0801 p (old.code * 256 + st.code)
    let s := s.modPort p fun q => { q with st := st, since := s.now, cause := cause, stepAt := none }
    let s := s.setN (Pid.portState p) st.code
    let s := s.onlyIf (decide (old = .idle)) fun s =>
      (s.modPort p fun q => { q with fb := [], sumBad := [], residBad := [] }).setN (Pid.fbState p) 0
    let s := s.onlyIf (old.running && !st.running) fun s => s.dropExcursion p
    let s := s.onlyIf (!st.running) fun s => s.glzHold p
    let s := s.onlyIf (!st.running && st ≠ .energising) fun s => s.lawRest p
    let s := s.onlyIf (old = .run && decide (s.inj.port = p)) fun s => s.injAbort 2
    let s := s.modOnState p st
    let s := (s.latOut p 3 st.running).latOut p 4 (st = .armed)
    let s := s.onlyIf st.atRest fun s =>
      (s.dropClose p).modPort p fun q => { q with stopAt := none, stopPend := false, protDown := false, rampDown := false, tviStart := none, arm := .waiting, openLoop := none }
    let s := s.onlyIf (st = .idle) fun s =>
      -- R171, R175: no supervision in IDLE, and the lost bits end with the clear
      let s := s.modPort p fun q => { q with openAsked := false, fb := [], sumBad := [], residBad := [] }
      ((s.latOut p 2 false).setW (Pid.lawFlags p) 0).fbShow p
    let s := s.onlyIf (st = .portStop) fun s =>
      -- R171: no substitution in PORT-STOP; the lost bits stay (R175)
      let s := s.modPort p fun q => { q with fb := q.fb.map fun e => { e with bad := 0 }, sumBad := [], residBad := [] }
      (s.fbShow p).setW (Pid.lawFlags p) 0
    s.recompute cause

/-- Take a port to a state whose cause is that of the change itself. -/
def State.setPort (s : State) (p : Nat) (st : PortState) : State := s.setPortBy p st (s.portCause p (s.port p).st st)

/-! ### Automatic clear (R276) -/

/-- The tries within the last `auto_window` (R276). -/
def State.autoPrune (s : State) (p : Nat) : State :=
  let win := s.n (Pid.autoWindow p) * psS
  let s := s.modPort p fun q => { q with tries := q.tries.filter fun t => s.now < t + win }
  s.setN (Pid.autoUsed p) (s.port p).tries.length

/-- Start the automatic clear, or latch when the tries are used up (R276). -/
def State.autoArm (s : State) (p : Nat) : State :=
  let s := s.autoPrune p
  if (s.port p).tries.length < s.n (Pid.autoTries p) then
    (s.modPort p fun q => { q with autoAt := some (s.now + s.n (Pid.autoWait p) * psMs) }).setBit (Pid.protState p) 4 true
  else
    ((((s.modPort p fun q => { q with autoAt := none }).setBit (Pid.protState p) 4 false).setBit (Pid.protState p) 3 true)).raise
      0x4706 p (s.n (Pid.autoTries p))

/-- A stop whose cause class is in `auto_mask` (R276). -/
def State.autoStart (s : State) (p maskBit : Nat) : State := if s.bit (Pid.autoMask p) maskBit then s.autoArm p else s

/-! ### Port faults (R110 input 1, R140, R271-R274) -/

/-- Record each leg's phase (R274). -/
def State.recordPhases (s : State) (p : Nat) : State :=
  s.each (s.port p).legs fun s l => s.setN (Pid.legTripPhase l) (s.legPhase l)

/-- The mask of the legs of a port that satisfy a condition. -/
def legMask (ls : List Nat) (f : Nat → Bool) : Nat := ls.foldl (fun a l => if f l then a + 2 ^ l else a) 0

/-- PORT-STOP for a cause of another chapter, with its event already raised: `stop_cause`, open request where the
rule asks for it, automatic clear under `auto_mask` bit 3 (R276). -/
def State.portFault (s : State) (p code : Nat) (open_ auto : Bool) : State :=
  if (s.port p).st = .portStop then s
  else
    let s := (s.setN (Pid.stopCause p) code).modPort p fun q => { q with autoAt := none }
    let s := (s.setBit (Pid.protState p) 4 false).setPort p .portStop
    let s := s.onlyIf open_ fun s => s.askOpen p
    s.onlyIf auto fun s => s.autoStart p 3

/-- Give or remove the enable of one island (R84, R256); a switch without its enable is off. -/
def State.setEnable (s : State) (b : Bool) (i : Nat) : State :=
  if (s.island i).enable = b then s
  else
    let s := s.onlyIf (!b) fun s => s.islDown i
    (s.chgIsl i fun x => { x with enable := b }).showLeg (legOfIsl i)

/-- An inner switch of a T-type phase (R235). -/
def State.innerSw (s : State) (i : Nat) : Bool := s.isTType (legOfIsl i) && decide (2 ≤ i % 4)

/-- Give or remove every pre-driver enable of the islands of used legs (R24, R84, R289): the inner switches of T-type phases lose theirs 1.0 µs
later. -/
def State.setEnables (s : State) (b : Bool) : State :=
  let s := { s with unit := { s.unit with
    innerOff := if b then none
      else if (List.range 48).any fun i => s.innerSw i && (s.island i).enable then some (s.unit.innerOff.getD (s.now + psUs)) else none } }
  s.each ((List.range 48).filter fun i => if b then s.islUsed i else !s.innerSw i) fun s i => s.setEnable b i

/-- The inner switches lose their enables once due (R289). -/
def State.innerEnables (s : State) : State :=
  match s.unit.innerOff with
  | some d =>
    if d ≤ s.now then
      s.each ((List.range 48).filter s.innerSw) (fun s i => s.setEnable false i) |> fun s => { s with unit := { s.unit with innerOff := none } }
    else s
  | none => s

/-! ### Safety functions: demands, causes and outputs (R286-R291, R299) -/

/-- The function of safe input `n` (R299, R305); `none` for an unused input. -/
inductive SinFn where
  | sgo | conn | still | mirror | reset | sccOpen | unused
  deriving DecidableEq, Repr

/-- The assignment of R299; with no profile in force only inputs 0 and 6 are evaluated (R305). -/
def State.sinFn (s : State) (n : Nat) : SinFn :=
  if !s.saf.inForce then (if n = 0 then .sgo else if n = 6 then .reset else .unused)
  else match n, s.n Pid.profileWord % 8 with
    | 0, _ => .sgo
    | 1, 0 => .conn
    | 1, _ => .sgo
    | 2, 0 => .still
    | 3, 0 => .still
    | 4, _ => .mirror
    | 5, _ => .mirror
    | 6, _ => .reset
    | 7, _ => .sccOpen
    | _, _ => .unused

/-- A safe input. -/
def State.sin (s : State) (n : Nat) : SinSt := s.saf.sin.getD n {}
/-- Change the safety state. -/
def State.modSaf (s : State) (f : SafSt → SafSt) : State := { s with saf := f s.saf }
/-- Packets are used (R306). -/
def State.packetsUsed (s : State) : Bool := s.saf.inForce && decide (s.n Pid.profileWord / 256 % 4 ≠ 0)

/-- The demands present (R288, R299, R309): cause and input. `all` takes inputs not yet reported as well. -/
def State.demandNow (s : State) (all : Bool) : List (Nat × Nat) :=
  ((List.range 8).filterMap fun n =>
    let x := s.sin n
    if x.perm || !(all || x.seen) then none
    else match s.sinFn n with
      | .sgo => some (1, n)
      | .sccOpen => some (3, n)
      | _ => none) ++
  (match s.saf.cmd with
    | some c => if s.packetsUsed && !s.saf.timedOut && !bitAt c 0 then [(2, s.saf.cmdPath)] else []
    | none => [])

/-- States in which the safety functions may energise (R84, R293). -/
def UnitState.safetyLive : UnitState → Bool
  | .ready | .energise | .run | .limited | .rideThrough | .stopping | .standby => true
  | _ => false

/-- `safety_state` (R314). -/
def State.safetyWord (s : State) : Nat :=
  let f := s.saf
  b01 (!f.gates) + 2 * b01 f.sbcOn.isSome + 4 * b01 f.sccOn + 8 * b01 f.sccClosed
    + 16 * b01 (s.unit.st.startUp || s.unit.st = .safeStop) + 32 * b01 (f.faults ≠ []) + 64 * b01 f.test.isSome
    + 128 * b01 (s.sinFn 1 = .conn && !(s.sin 1).perm) + 256 * b01 (s.sinFn 2 = .still && (s.sin 2).perm && (s.sin 3).perm)
    + 512 * b01 f.singleOn

/-- `sin_state` of an input (R314). -/
def SinSt.word (x : SinSt) : Nat :=
  b01 x.a + 2 * b01 x.b + 4 * b01 x.perm + 8 * b01 (decide (x.disc ≠ 0)) + 16 * b01 (x.tpBadA || x.tpBadB)

/-- `sout_state` of an output (R314). -/
def SoutSt.word (x : SoutSt) : Nat := b01 x.cmd + 2 * b01 x.high + 4 * b01 x.stuckOn + 8 * b01 x.stuckOff + 16 * b01 x.short

/-- Outputs follow the decisions (R84, R286-R291, R312): gates, SBC and SCC need a live state, a profile in force, no
fault and no demand; with SGO demanding every port that is not IDLE goes to PORT-STOP, never cleared automatically. -/
def State.safApply (s : State) : State :=
  let f := s.saf
  let ok := s.unit.st.safetyLive && f.inForce && f.faults.isEmpty && f.dem.isEmpty
  let s := s.onlyIf (!ok) fun s => s.modSaf fun f =>
    { f with sbcOn := none, sccOn := false, sccClosed := false, sccAt := if f.sccOn then s.now else f.sccAt,
             mirSeen := if f.sccOn then [(s.sin 4).perm, (s.sin 5).perm] else f.mirSeen }
  let s := s.modSaf fun f =>
    let c := [ok, ok, f.sbcOn.isSome, f.sbcOn.isSome, f.sccOn, f.sccOn]
    { f with gates := ok, sout := f.sout.zipWith (fun x b => { x with cmd := b, lowFrom := if b then none else x.lowFrom }) c }
  let s := s.onlyIf (decide (f.gates ≠ ok)) fun s => s.setEnables ok
  let s := s.onlyIf (!ok) fun s => s.each s.usedPorts fun s p => if (s.port p).st = .idle then s else s.portFault p 0x6C20 false false
  let s := s.each (List.range 6) fun s k => s.setN (Pid.soutState k) (s.saf.sout.getD k {}).word
  s.setN Pid.safetyState s.safetyWord

/-- One cause (R287): the first is kept, each raises 0x6C20. -/
def State.safCause (s : State) (c : Nat × Nat) : State :=
  let s := s.onlyIf (decide (s.n Pid.safeStopCause = 0)) fun s => s.setN Pid.safeStopCause c.1
  s.raise 0x6C20 0 (c.2 % 256 * 256 + c.1)

/-- The causes recognised in one evaluation (R287), lowest code first; then the unit state. -/
def State.safOnset (s : State) (cs : List (Nat × Nat)) : State :=
  if cs = [] then s
  else
    let s := ((List.range 16).flatMap fun c => cs.filter fun x => x.1 = c).foldl State.safCause s
    if s.unit.st.safetyLive then (s.gotoUnit .safeStop 0x6C20).bump Pid.safeStopCount
    else if s.unit.st.startUp then { s with unit := { s.unit with held := true } }
    else s

/-- Safety faults of one evaluation (R286-R288): held until a reset is accepted. -/
def State.safFaults (s : State) (cs : List (Nat × Nat)) : State :=
  let new := cs.filter fun c => !s.saf.faults.contains c
  ((s.modSaf fun f => { f with faults := f.faults ++ new }).safOnset new).safApply

/-- One evaluation of faults and demands (R286-R288): the faults `cs`, the SCC open demands `extra` and the demands newly present are
recognised together. -/
def State.safRecognise (s : State) (cs extra : List (Nat × Nat)) (all : Bool) : State :=
  let fresh := cs.filter fun c => !s.saf.faults.contains c
  let here := s.demandNow false
  let now := (s.demandNow true).filter fun d => all || here.contains d || s.saf.dem.contains d
  let new := now.filter fun d => !s.saf.dem.contains d
  ((s.modSaf fun f => { f with faults := f.faults ++ fresh, dem := now }).safOnset (fresh ++ extra ++ new)).safApply

/-- Demands as they arrive (R286, R288): a demand newly present is recognised. -/
def State.safDemands (s : State) (all : Bool) : State := s.safRecognise [] [] all

/-- The unfit reason in force (R327): the first of the unit's own, else the one that the partner told; 0 none. -/
def PairSt.unfitCode (q : PairSt) : Nat := q.unfit.headD q.farUnfit

/-- Show `sb_fit` (R327): fit only while a standby is paired and no unfit reason holds. -/
def State.showFit (s : State) : State :=
  let fit := decide (s.n Pid.pairState = 1 ∨ s.n Pid.pairState = 2) && decide (s.pair.unfitCode = 0)
  s.setN Pid.sbFit (if fit then 1 else s.pair.unfitCode * 256)

/-- An unfit reason comes or goes (R326, R327): a transition to unfit raises 0x1D45. -/
def State.setUnfit (s : State) (reason : Nat) (on : Bool) : State :=
  let old := s.pair.unfit
  let new := if on then (if old.contains reason then old else old ++ [reason]) else old.filter fun r => r ≠ reason
  let fit := decide (s.pair.unfitCode = 0)
  let s := { s with pair := { s.pair with unfit := new } }
  (s.onlyIf (fit && !new.isEmpty) fun s => s.raise 0x1D45 0 reason).showFit

/-- The partner's own unfit reason reaches this unit (R327): both units raise 0x1D45. How it travels is the model's choice (log 36). -/
def State.setFarUnfit (s : State) (reason : Nat) : State :=
  let fit := decide (s.pair.unfitCode = 0)
  let s := { s with pair := { s.pair with farUnfit := reason } }
  (s.onlyIf (fit && decide (reason ≠ 0)) fun s => s.raise 0x1D45 0 reason).showFit

/-- A give-up is announced (R331): event, count, cause and release point. -/
def State.announceGiveUp (s : State) (cause release : Nat) : State :=
  if s.pair.holds && s.pair.giveUp.isNone then
    let s := (s.raise 0x1D42 0 (release % 2 ^ 32 * 2 ^ 32 + cause)).bump Pid.giveupCount
    { s with pair := { s.pair with giveUp := some (cause, release % 2 ^ 32) } }
  else s

/-- The number of the last inner period of the present outer period (R153). -/
def State.outerEndSeq (s : State) : Nat := (s.n Pid.periodSeq + (s.ratio - 1 - s.eng.outerIdx)) % 2 ^ 32

/-- The number of the inner period that ends at the second outer boundary from now: where a command or a LIVE write takes effect on both
units of a pair (R324; which boundary is the model's choice, log 36). -/
def State.stepSeq (s : State) : Nat := (s.outerEndSeq + s.ratio) % 2 ^ 32

/-- The holder gives up the biscuit (R331) and neither renews nor marks from here: announced, unless it was already. The frame of this
period still tells it, but for a loss of the reference. -/
def State.dropBiscuit (s : State) (cause release : Nat) : State :=
  if !s.pair.holds then s
  else
    let s := s.announceGiveUp cause release
    ((({ s with pair := { s.pair with holds := false, giveUp := if cause = 2 then none else s.pair.giveUp, unfit := [] } }.setN Pid.pairState 0).setN Pid.sbFit 0).setN
      Pid.leaseLeft 0xFFFFFFFF)

/-- FAULT-HOLD is entered (R85): from REF-LOCK onward, except READY-UNBOUND and READY-REFUSED; every port that is not IDLE goes to
PORT-STOP (R169), the biscuit is given up (R331), the islands are disabled and the safety outputs safe (R84). -/
def State.holdNow (s : State) (cause : Nat) : State :=
  match s.unit.st with
  | .off | .reset | .readyUnbound | .readyRefused | .faultHold => s
  | _ =>
    let s := s.each s.usedPorts fun s p => if (s.port p).st = .idle then s else s.portFault p cause false false
    let s := s.dropBiscuit 3 (s.n Pid.periodSeq)
    ((s.gotoUnit .faultHold cause).setEnables false).safApply

/-- A unit fault (R85), its event already raised. A holder whose period timer runs gives up with cause 0x03 and enters FAULT-HOLD at its
release point, the next update point (R331). -/
def State.enterFaultHold (s : State) (cause : Nat) : State :=
  if s.pair.holds && s.eng.running && s.unit.st.mayHold then
    let seq := s.n Pid.periodSeq
    let s := s.announceGiveUp 3 seq
    { s with pair := { s.pair with giveUp := some (3, seq), holdCause := cause } }
  else s.holdNow cause

/-- R64, R85, R121, R195: STOPPING is left once every port is IDLE or PORT-STOP and the declared reference is
locked; a planned surrender ends in FAULT-HOLD. -/
def State.leaveStopping (s : State) : State :=
  if s.unit.st = .stopping ∧ s.refLocked ∧ s.usedPorts.all fun p => (s.port p).st.atRest then
    let s := s.each s.usedPorts fun s p => s.modPort p fun q => { q with accepted := false }
    if s.unit.planned then s.enterFaultHold 0x5D09
    else s.gotoUnit .ready 0
  else s

/-- The port is in PORT-STOP, or its legs are off and it will read so from its next outer step (R271). -/
def PortSt.stopped (q : PortSt) : Bool := decide (q.st = .portStop) || q.protDown

/-- PORT-STOP for a fault found between outer steps (R110, R173), with its event already raised: `port_state`
follows at the next outer step. -/
def State.faultPend (s : State) (p code : Nat) : State :=
  if (s.port p).stopped || (s.port p).stopPend then s
  else ((s.setN (Pid.stopCause p) code).modPort p fun q => { q with stopPend := true }).autoStart p 3

/-- Protection PORT-STOP (R271-R274): phases recorded, event 0x4702, `stop_cause`, counted, the legs to high
impedance at once (softly where the trip asks it); `port_state` follows at the next outer step. The mask bit of R276
follows the cause. -/
def State.protStop (s : State) (p cause : Nat) (soft : Bool) : State :=
  if (s.port p).stopped then s
  else
    let s := s.recordPhases p
    let dead := legMask (s.port p).legs fun l => s.n (Pid.legTripPhase l) = 3
    let s := (s.raise 0x4702 p (dead * 2 ^ 40 + s.n (Pid.legsFaulted p) * 65536 + cause)).bump (Pid.protStopCount p)
    let s := s.setN (Pid.stopCause p) 0x4702
    let s := s.onlyIf soft fun s => s.each (s.port p).legs fun s l => (s.islSoft (islHigh l)).islSoft (islLow l)
    let s := s.legsOff p
    let s := s.modPort p fun q => { q with runFrom := none, stopPend := true, protDown := true }
    s.autoStart p (if cause = 4 then 1 else if cause = 5 then 2 else 0)

/-- Bits 0 to 2 of `prot_state` follow their sources (R282): trip inputs naming the port, window comparators of its
groups, island faults of its legs. -/
def State.protSources (s : State) (p : Nat) : State :=
  let trip := (List.range 8).any fun n => s.n (Pid.tripLevel n) = 1 && s.bit (Pid.tripPorts n) p
  let win := (s.port p).groups.any fun g => (List.range 12).any fun k => s.bit (Pid.faStatus (12 * g + k)) 5
  let isl := (s.port p).legs.any fun l => [islHigh l, islLow l].any fun i =>
    decide ((s.island i).uv ≠ 0) || (s.island i).lost || (s.island i).latched
  ((s.setBit (Pid.protState p) 0 trip).setBit (Pid.protState p) 1 win).setBit (Pid.protState p) 2 isl

/-- Latch one leg faulted (R270): its phase taken, the named islands turned off softly, both switches latched off,
word and counter, event 0x3701. A leg already latched changes nothing (R269). -/
def State.latchLeg (s : State) (l cause island : Nat) (softs : List Nat) : State :=
  if s.bit (Pid.legProt l) 0 then s
  else
    let ph := s.legPhase l
    let s := s.each (softs.filter fun i => legOfIsl i = l) State.islSoft
    let s := s.legOff l
    let s := (s.chgIsl (islHigh l) fun x => { x with latched := true }).chgIsl (islLow l) fun x => { x with latched := true }
    let s := (s.setN (Pid.legProt l) (cause * 256 + 1 + (s.n (Pid.legProt l) / 2 % 2) * 2)).bump (Pid.legFaultCount l)
    s.raise 0x3701 l (s.stamp.toNat * 2 ^ 32 + island * 65536 + ph * 256 + cause)

/-- f_leg of a port as a fraction (R271): the largest number of faulted legs in any one phase of an AC port, all of
them on a DC port. -/
def State.fLegOf (s : State) (p : Nat) : Nat × Nat :=
  let q := s.port p
  let n := q.topo.perPhase
  let bad := q.legs.filter fun l => s.bit (Pid.legsFaulted p) l
  let nf := if q.topo.isDc then bad.length
    else ((List.range 3).map fun ph => (bad.filter fun l => q.topo.phaseOf (l - q.refLeg) = ph).length).foldl max 0
  (n - nf, n)

/-- R271: the decision at the end of a run, or at the first outer step after the port starts with marked legs. -/
def State.legDecision (s : State) (p : Nat) : State :=
  let q := s.port p
  let (num, den) := s.fLegOf p
  let many := match q.topo with
    | .il2 | .il3 | .il4 => true
    | .dc k => decide (2 ≤ k)
    | _ => false
  let s := s.modPort p fun q => { q with runFrom := none, legDecide := false }
  if s.n (Pid.legFaultCont p) = 1 && many && decide (den ≤ 2 * num) then
    let f := const27 num den
    let s := (s.setZ (Pid.fLeg p) f).setBit (Pid.protState p) 5 true
    let s := s.modPort p fun q => { q with fLegNum := num, fLegDen := den }
    s.raise 0x2703 p ((q.legs.filter fun l => s.bit (Pid.legsFaulted p) l).length * 2 ^ 32 + u32z f)
  else
    let first := (q.legs.find? fun l => s.bit (Pid.legsFaulted p) l).getD q.refLeg
    s.protStop p (if q.firstCause = 0 then s.n (Pid.legProt first) / 256 % 256 else q.firstCause) false

/-- Latch the legs of one fault: both legs of a T-type pair (R265). Answers the port, if a leg newly latched; on legs latched before, a
switch that is still on turns off softly where the fault asks it (R267, R269). -/
def State.latchFault (s : State) (l cause island : Nat) (softs : List Nat) : Option Nat × State :=
  match s.portOfLeg l with
  | none => (none, s)
  | some p =>
    let pair := if s.isTType l then [l, pairLeg l] else [l]
    if pair.all fun m => s.bit (Pid.legProt m) 0 then (none, s.each (softs.filter fun i => pair.contains (legOfIsl i)) State.islSoft)
    else
      let s := s.onlyIf (decide (s.n (Pid.legsFaulted p) = 0)) fun s => s.modPort p fun q => { q with firstCause := cause }
      let s := s.each pair fun s m => (s.latchLeg m cause island softs).setBit (Pid.legsFaulted p) m true
      (some p, s.protSources p)

/-- What a port decides about newly latched legs (R271): a switching port opens a run of 10 µs, and a second fault
within it, or two at once, stops the port; a port that is not switching decides after it starts. -/
def State.faultRun (s : State) (p n : Nat) : State :=
  let q := s.port p
  if q.stopped then s
  else if q.st.switching then
    if q.runFrom.isSome || decide (1 < n) then s.protStop p q.firstCause false
    else s.modPort p fun q => { q with runFrom := some s.now }
  else s.modPort p fun q => { q with legDecide := true }

/-- Leg faults of one instant (leg, cause, island): all latch before R271 decides. -/
def State.legFaults (s : State) (fs : List (Nat × Nat × Nat)) (softs : List Nat) : State :=
  let (ps, s) := fs.foldl (fun (a : List Nat × State) f =>
    let (o, s) := a.2.latchFault f.1 f.2.1 f.2.2 softs
    (a.1 ++ o.toList, s)) ([], s)
  s.each (List.range 4) fun s p => if ps.contains p then s.faultRun p (ps.count p) else s

/-- One leg fault. -/
def State.legFault (s : State) (l cause island : Nat) (softs : List Nat) : State := s.legFaults [(l, cause, island)] softs

end Sys2Proof.Machine
end

