-- ==== Sys2Proof/Machine/Flash.lean ====
section
/-! DEFINITION. The attached flash as bytes by address (R65-R68): a canonical list, an address that is not listed reading
as an erased byte 0xFF (log 5). -/

namespace Sys2Proof.Machine

/-- An erased byte (log 5, PRESUMED: serial NOR). -/
def flashErased : Byte := 0xFF#8

/-- The byte at an address. -/
def memGet : List Host.Cell → Nat → Byte
  | [], _ => flashErased
  | c :: m, a => if c.1 = a then c.2 else memGet m a

/-- Write one byte, keeping the canonical form. -/
def memPut : List Host.Cell → Nat → Byte → List Host.Cell
  | [], a, b => if b = flashErased then [] else [(a, b)]
  | c :: m, a, b =>
    if c.1 < a then c :: memPut m a b
    else if c.1 = a then (if b = flashErased then m else (a, b) :: m)
    else if b = flashErased then c :: m else (a, b) :: c :: m

/-- The canonical form: addresses strictly rising, no listed byte erased. -/
def Memory.wf : List Host.Cell → Bool
  | [] => true
  | [c] => decide (c.2 ≠ flashErased)
  | c :: d :: m => decide (c.2 ≠ flashErased) && decide (c.1 < d.1) && Memory.wf (d :: m)

/-- Write bytes at rising addresses. -/
def memWrite (m : List Host.Cell) (a : Nat) : List Byte → List Host.Cell
  | [] => m
  | b :: bs => memWrite (memPut m a b) (a + 1) bs

/-- Read bytes at rising addresses. -/
def memRead (m : List Host.Cell) (a n : Nat) : List Byte := (List.range n).map fun k => memGet m (a + k)

/-- Erase a range. -/
def memErase (m : List Host.Cell) (a n : Nat) : List Host.Cell := m.filter fun c => c.1 < a || a + n ≤ c.1

/-- Read the flash. -/
def State.flashRead (s : State) (a n : Nat) : List Byte := memRead s.flash a n
/-- Write the flash. -/
def State.flashWrite (s : State) (a : Nat) (bs : List Byte) : State := { s with flash := memWrite s.flash a bs }
/-- Erase a range of the flash. -/
def State.flashErase (s : State) (a n : Nat) : State := { s with flash := memErase s.flash a n }

/-- The size of the flash in bytes (R65). -/
def State.flashBytes (s : State) : Nat := s.n Pid.flashSize * 131072
/-- The slot size S (R67). -/
def State.slotBytes (s : State) : Nat := (s.flashBytes - 1048576) / 2
/-- Where a slot starts (R67). -/
def State.slotAt (s : State) (k : Nat) : Nat := if k = 0 then 0 else s.slotBytes
/-- Where the audit-log region starts: the top 1 MiB (R67). -/
def State.auditAt (s : State) : Nat := s.flashBytes - 1048576

/-- The status word of a slot (R88). -/
def slotPid (k : Nat) : Nat := if k = 0 then Pid.slotAStatus else Pid.slotBStatus

end Sys2Proof.Machine
end

