-- ==== Sys2Proof/Machine/Audit.lean ====
section
/-! DEFINITION. Entries of the audit log and their queue (R44, R409, R410), commands that the two units of a pair carry out together
(R324), and the requests that come as rows of a bare role. -/

namespace Sys2Proof.Machine

/-! ### The audit log (R409-R411) -/

/-- What an entry says besides its number, its time and its hash. -/
structure AuditNote where
  kind : Nat
  role : Nat
  path : Nat
  ip : Nat
  sid : Nat
  seq : Nat
  cmd : Nat
  items : List (Nat × Word × Word) := []
  deriving DecidableEq, Repr

/-- Cut a list into pieces of twelve; one piece at least. -/
def twelves {α : Type} : Nat → List α → List (List α)
  | 0, l => [l]
  | n + 1, l => if l.length ≤ 12 then [l] else l.take 12 :: twelves n (l.drop 12)

/-- The entries a note needs. -/
def AuditNote.count (a : AuditNote) : Nat := (twelves 20 a.items).length

/-- The bytes 0x04 to 0xDF of one entry (R410). -/
def State.auditBytes (s : State) (a : AuditNote) (status kind : Nat) (items : List (Nat × Word × Word)) : List Byte :=
  leBytes 1 kind ++ leBytes 1 a.role ++ leBytes 1 status ++ leBytes 1 items.length ++ leBytes 8 s.intNs ++ leBytes 1 a.path ++ leBytes 3 0
    ++ leBytes 4 a.ip ++ leBytes 4 a.sid ++ leBytes 4 a.seq ++ leBytes 2 a.cmd ++ leBytes 14 0
    ++ (items.flatMap fun i => leBytes 4 i.1 ++ leBytes 4 i.2.1.toNat ++ leBytes 4 i.2.2.toNat)
    ++ leBytes (144 - 12 * items.length) 0 ++ leBytes 32 0

/-- Q-LOG has a credit for every entry of a note (R44). -/
def State.logRoom (s : State) (a : AuditNote) : Bool := decide (s.link.log.length + a.count ≤ 32)

/-- The entries enter Q-LOG. -/
def State.logNote (s : State) (a : AuditNote) (status : Nat) : State :=
  let ps := twelves 20 a.items
  let es := (List.range ps.length).map fun k => s.auditBytes a status (if k = 0 then a.kind else 7) (ps.getD k [])
  (s.modLink fun l => { l with log := l.log ++ es }).highWater 0x11 (s.link.log.length + es.length)

/-- A command has run: its entry is queued, also where it restarted the unit, which ends everything but Q-LOG (R44). -/
def State.logAfter (s : State) (a : AuditNote) (status : Nat) (t : State) : State :=
  if t.unit.st = .reset ∧ s.unit.st ≠ .reset then t.modLink fun l => { l with log := (s.logNote a status).link.log }
  else t.logNote a status

/-- An identifier that this variant does not know: of no row, or of an absent instance (R2, R436). -/
def State.unknownId (s : State) (id : Nat) : Bool := (findParam s.fourP id).isNone

/-- Identifiers whose writes are logged from any role (R409); none that the variant does not know (R2). -/
def State.loggedId (s : State) (id : Nat) : Bool :=
  !s.unknownId id && (decide (pidBlock id = 0x1C) || decide (id = Pid.latForce) || (List.range 4).any fun p => decide (id = Pid.protClear p))

/-! ### Commands in step (R324) -/

/-- What the holder forwards: every LIVE write and command but the two that choose which unit of the pair holds the biscuit (R321, R331)
(DESIGN CHOICE, log 36). -/
def State.forwards (s : State) (id : Nat) : Bool :=
  match findParam s.fourP id with
  | some r => (decide (r.cls = .live) || decide (r.cls = .cmd)) &&
      !([Pid.pairSolo, Pid.pairHandover].contains id)
  | none => false

/-- An item goes to the partner with the boundary at which both units apply it (R324). -/
def State.forward (s : State) (id : Nat) (v : Word) : State :=
  { s with pair := { s.pair with outbox := s.pair.outbox ++ [(id, v, s.stepSeq)] } }

/-- A request and what it comes to. A holder with a partner forwards an accepted one, and both units carry it out at one outer boundary
(R324). A command of the ladder has its boundary by R334: the holder decides at once, and the partner is told. -/
def State.inStep (s : State) (ok : Bool) (id : Nat) (v : Word) (next : State) : State :=
  if ok && decide (s.n Pid.pairState = 1) && s.forwards id then (if id = Pid.ladderCmd then next.forward id v else s.forward id v)
  else next

/-! ### Requests of a bare role -/

/-- The note of a row that names one parameter: the row brings no path, session or sequence, and these read 0 (DESIGN CHOICE, log 46). -/
def rowNote (role : Role) (kind id : Nat) (old v : Word) : AuditNote := ⟨kind, role.code, 0, 0, 0, 0, 2, [(id, old, v)]⟩

/-- A row's request is logged (R409). -/
def State.rowLogged (s : State) (role : Role) (id : Nat) : Bool := role.meets .service || s.loggedId id

/-- A request is done, and leaves its entry where it is logged (R409). -/
def State.noted (s : State) (role : Role) (kind id : Nat) (old v : Word) (status : Nat) (next : State) : State :=
  if s.rowLogged role id then s.logAfter (rowNote role kind id old v) status next else next

/-- A request can be logged: it needs no entry, or Q-LOG has a credit for it (R44). -/
def State.canNote (s : State) (role : Role) (kind id : Nat) (old v : Word) : Bool :=
  !s.rowLogged role id || s.logRoom (rowNote role kind id old v)

/-- A request and what it comes to (R44, R409): where it is logged, it needs a Q-LOG credit and leaves its entry with the status of its
answer; without a credit it is refused with event 0x8205. -/
def State.audited (s : State) (role : Role) (kind id : Nat) (old v : Word) (status : Nat) (next : State) : State :=
  if s.canNote role kind id old v then s.noted role kind id old v status next else s.raise 0x8205 role.code 0

/-- The status of the answer: identifier, role, unit state, the rule of the parameter (R2, R324, R400, R403). -/
def State.rowStatus (s : State) (id : Nat) (role named : Role) (ok : Bool) : Nat :=
  if !ok && s.unknownId id then 2 else if !role.meets named then 3 else if s.unit.st = .standby then 9 else if ok then 0 else 1

/-- A row of a role on one parameter: `ok` tells that its rule accepts it, `next` what it then comes to. -/
def State.roleRow (s : State) (role named : Role) (kind id : Nat) (old v : Word) (ok : Bool) (next : State) : State :=
  s.audited role kind id old v (s.rowStatus id role named ok)
    (if s.roleOk role named then s.inStep ok id v next else s)

/-- A row of a requester on a command parameter: the Lattice word is an action of the unit's own and never logged (R44). -/
def State.reqRow (s : State) (r : Requester) (named : Role) (id : Nat) (v : Word) (ok : Bool) (next : State) : State :=
  match r with
  | .role x => s.roleRow x named 2 id 0 v ok next
  | _ => if s.reqOk r named then s.inStep ok id v next else s

/-- A row of a role on a command parameter that its rule accepts or leaves without effect. -/
def State.cmdRow (s : State) (role named : Role) (id : Nat) (v : Word) (ok : Bool) (done : State) : State :=
  s.roleRow role named 2 id 0 v ok (if ok then done else s)

end Sys2Proof.Machine
end

