-- ==== Sys2Proof/Machine/Can.lean ====
section
/-! DEFINITION. CAN transmission and the error states of a channel (R364-R373): submission to Q-CANTX and to the two
slots, the end of an attempt, removal, bus-off and its recovery, and the frames of a time master. -/

namespace Sys2Proof.Machine

/-- One bit of a bit-timing word in ps (R365). -/
def bitPs (w : Nat) : Nat := w / 2 ^ 24 * (1 + w / 2 ^ 16 % 256 + w / 2 ^ 8 % 256) * 12500

/-- One bit of the nominal phase in ps (R365). -/
def State.canBitPs (s : State) (ch : Nat) : Nat := bitPs (s.n (Pid.canNbt ch))

/-- The bit-rate switch of an FD frame that the unit sends: the data rate exceeds the nominal rate (R374, R394). -/
def State.canBrs (s : State) (ch : Nat) : Bool := decide (bitPs (s.n (Pid.canDbt ch)) < s.canBitPs ch)

/-- How a submission ends (R38, R371). -/
inductive CanStatus where
  | accepted | full | listenOnly | off
  deriving DecidableEq, Repr

/-- The rank of an identifier in arbitration, lowest first: a base identifier ranks before an extended one with the same
11 leading bits (R368). -/
def canRank (f : CanFrame) : Nat :=
  if f.ext then f.id / 2 ^ 18 * 2 ^ 19 + 2 ^ 18 + f.id % 2 ^ 18 else f.id * 2 ^ 19

/-- Is there a pending frame of the time master in the slot or the queue? -/
def CanSt.trefPending (x : CanSt) : Option CanEnt :=
  match x.tref with
  | some e => some e
  | none => x.q.find? fun e => e.src = .timeMaster

/-- Submit a frame (R368, R371): the safety source to its slot, the time master to its slot with `can_tref_slot` 1, any
other to Q-CANTX, which refuses when full (R38). A channel that is off takes nothing; an occupied slot refuses. -/
def State.canSubmit (s : State) (ch : Nat) (f : CanFrame) (src : CanSrc) : CanStatus × State :=
  let x := s.canCh ch
  let e : CanEnt := ⟨f, src, 0, s.now⟩
  match s.canCode ch with
  | 0 => (.off, s)
  | 4 => (.listenOnly, s.bump (Pid.canListenDropCount ch))
  | _ =>
    if src = .safety then
      if x.safety.isSome then (.full, s) else (.accepted, s.modCan ch fun x => { x with safety := some e })
    else if src = .timeMaster ∧ s.n (Pid.canTrefSlot ch) = 1 then
      if x.tref.isSome then (.full, s) else (.accepted, s.modCan ch fun x => { x with tref := some e })
    else if 32 ≤ x.q.length then (.full, s.qLost (0x14 + ch))
    else (.accepted, (s.modCan ch fun x => { x with q := x.q ++ [e] }).highWater (0x14 + ch) (x.q.length + 1))

/-- CAN_SUBMIT (R368): a remote frame is never sent (R364). -/
def execCanSubmit (t : Nat) (ch : Nat) (f : CanFrame) (src : CanSrc) (s : State) : Out :=
  let s := s.advance t
  .next (if ch < 2 ∧ f.rtr = false then (s.canSubmit ch f src).2 else s)

/-! ### Error counters (R370, R372; ISO 11898-1, log 13) -/

/-- New error counters: the state follows, and entry to error-passive raises 0x8443. -/
def State.canCounters (s : State) (ch tec rec : Nat) : State :=
  let was := s.canCode ch
  let s := ((s.setN (Pid.canTec ch) tec).setN (Pid.canRec ch) (min rec 255)).canShow
  s.onlyIf (was = 1 && s.canCode ch = 2) fun s => s.raise 0x8443 ch (min tec 255 * 256 + min rec 255)

/-- Bus-off (R372): the queue and the slots keep their frames; recovery counts at once with `can_busoff_auto` 1. -/
def State.canBusOff (s : State) (ch : Nat) : State :=
  let s := (s.bump (Pid.canBusoffCount ch)).raise 0x8441 ch (s.n (Pid.canRec ch))
  let s := s.setN (Pid.canTec ch) 256
  (s.modCan ch fun x => { x with busOff := some s.now, counting := decide (s.n (Pid.canBusoffAuto ch) = 1), countFrom := s.now }).canShow

/-- The frames offered to arbitration at an instant (R368): head of the queue, safety slot, time slot, with their place. -/
def CanSt.offers (x : CanSt) (upTo : Nat) : List (Nat × CanEnt) :=
  ((x.q.head?.toList.map fun e => (0, e)) ++ (x.safety.toList.map fun e => (1, e)) ++ (x.tref.toList.map fun e => (2, e))).filter
    fun e => decide (e.2.at_ ≤ upTo)

/-- The offered frame with the lowest identifier. -/
def lowestOffer : List (Nat × CanEnt) → Option (Nat × CanEnt)
  | [] => none
  | e :: es =>
    match lowestOffer es with
    | none => some e
    | some b => if canRank b.2.f < canRank e.2.f then some b else some e

/-- Put a frame back in its place, or take it out. -/
def CanSt.put (x : CanSt) (place : Nat) (e : Option CanEnt) : CanSt :=
  match place with
  | 0 => { x with q := e.toList ++ x.q.tail }
  | 1 => { x with safety := e }
  | _ => { x with tref := e }

/-- Internal ns a given number of ps ago. -/
def State.nsBefore (s : State) (ps : Nat) : Nat :=
  (s.fine - ps * ((1000000000 : Int) + s.z Pid.timeRate).toNat) / 1000000000000

/-- A frame was sent (R370, R373): counters, the end of "alone", and the start of frame of a time reference. -/
def State.canSent (s : State) (ch place : Nat) (e : CanEnt) (durPs : Nat) : State :=
  let s := (s.modCan ch fun x => { x.put place none with noAck := 0 }).bump (Pid.canTxCount ch)
  let s := s.onlyIf (decide (s.n (Pid.canAlone ch) = 1)) fun s => (s.setN (Pid.canAlone ch) 0).raise 0x0446 ch 0
  let s := s.onlyIf (e.src = .timeMaster) fun s =>
    (s.modCan ch fun x => { x with prevSof := some (s.nsBefore durPs) }).bump (Pid.canTrefCount ch)
  s.canCounters ch (s.n (Pid.canTec ch) - 1) (s.n (Pid.canRec ch))

/-- A frame is removed at its retry limit (R369), and the node is alone after three removals without acknowledge (R370). -/
def State.canRemoved (s : State) (ch place : Nat) (e : CanEnt) (noAck : Bool) : State :=
  let run := if noAck then (s.canCh ch).noAck + 1 else 0
  let s := (s.modCan ch fun x => { x.put place none with noAck := run }).bump (Pid.canRemovedCount ch)
  let s := s.raise 0x8444 ch ((b01 e.f.ext * 2 ^ 31 + e.f.id) * 2 ^ 32 + (if noAck then 1 else 2))
  s.onlyIf (decide (run = 3) && decide (s.n (Pid.canAlone ch) = 0)) fun s => (s.setN (Pid.canAlone ch) 1).raise 0x8445 ch 0

/-- The controller sends an error frame (R364). -/
def State.canErrFrame (s : State) (ch : Nat) : State := s.modCan ch fun x => { x with errFrame := some s.now }

/-- An attempt ended in an error (R369, R370): TEC rises by 8, except for an acknowledge error of an error-passive node
that sees no dominant bit; the attempt counts, and the frame is removed after `can_retry` + 1 of them. -/
def State.canFailed (s : State) (ch place : Nat) (e : CanEnt) (ack dominant : Bool) : State :=
  let tec := s.n (Pid.canTec ch)
  let up := if ack && !dominant && decide (s.canCode ch = 2) then tec else tec + 8
  let s := (s.bump (Pid.canErrCount ch)).canErrFrame ch
  let s := if 255 < up then s.canBusOff ch else s.canCounters ch up (s.n (Pid.canRec ch))
  if s.n (Pid.canRetry ch) < e.tries + 1 then s.canRemoved ch place e ack
  else s.modCan ch fun x => x.put place (some { e with tries := e.tries + 1 })

/-- CAN_TX_ATTEMPT_END (R369): the attempt began `durPs` ago with the frame arbitration chose then. -/
def execCanTxAttemptEnd (t : Nat) (ch : Nat) (r : CanResult) (durPs : Nat) (s : State) : Out :=
  let s := s.advance t
  .next (if s.canCode ch ≠ 1 ∧ s.canCode ch ≠ 2 ∨ 2 ≤ ch ∨ s.now < (s.canCh ch).joinAt + durPs then s
    else match lowestOffer ((s.canCh ch).offers (s.now - durPs)) with
      | none => s
      | some (place, e) => match r with
        | .ok => s.canSent ch place e durPs
        | .ackError d => s.canFailed ch place e true d
        | .error => s.canFailed ch place e false true
        | .lostArbitration => s)

/-- BUS_OFF_RECOVERY (R372): 128 occurrences of 11 recessive bits while the channel counts them, which take as many bits at least. -/
def execBusOffRecovery (t : Nat) (ch : Nat) (s : State) : Out :=
  let s := s.advance t
  .next (match (s.canCh ch).busOff with
    | some since =>
      if (s.canCh ch).counting && decide (s.canCode ch = 3) && decide ((s.canCh ch).countFrom + 128 * 11 * s.canBitPs ch ≤ s.now) then
        let s := s.modCan ch fun x => { x with busOff := none, counting := false }
        let s := (s.setN (Pid.canTec ch) 0).setN (Pid.canRec ch) 0
        (s.raise 0x0442 ch (min ((s.now - since) / psUs) 0xFFFFFFFF)).canShow
      else s
    | none => s)

/-- `can_busoff_cmd` is accepted only in bus-off, while the channel waits for it (R372). -/
def State.busoffCmdOk (s : State) (ch : Nat) (v : Word) : Bool :=
  decide (ch < 2) && decide (v = 1) && decide (s.canCode ch = 3) && decide (s.n (Pid.canBusoffAuto ch) = 0) && !(s.canCh ch).counting
/-- The channel begins to count. -/
def State.doBusoffCmd (s : State) (ch : Nat) : State := s.modCan ch fun x => { x with counting := true, countFrom := s.now }

/-- CAN_BUSOFF_CMD (R372): Service. -/
def execCanBusoffCmd (t : Nat) (role : Role) (ch : Nat) (v : Word) (s : State) : Out :=
  let s := s.advance t
  .next (s.cmdRow role .service (Pid.canBusoffCmd ch) v (s.busoffCmdOk ch v) (s.doBusoffCmd ch))

/-- An error while receiving (R364, R372): REC rises by 1, and by 8 more when a dominant bit follows the error flag (ISO 11898-1, log 13),
and an error frame is sent; listen-only counts the error alone (R371). -/
def State.canRxError (s : State) (ch : Nat) (dominant : Bool) : State :=
  let c := s.canCode ch
  if c = 4 then s.bump (Pid.canErrCount ch)
  else if c = 1 ∨ c = 2 then
    ((s.bump (Pid.canErrCount ch)).canErrFrame ch).canCounters ch (s.n (Pid.canTec ch)) (s.n (Pid.canRec ch) + 1 + 8 * b01 dominant)
  else s

/-- CAN_ERROR_DETECTED (R372), once the controller takes part in traffic (R61). -/
def execCanErrorDetected (t : Nat) (ch : Nat) (dominant : Bool) (s : State) : Out :=
  let s := s.advance t
  .next (if 2 ≤ ch ∨ s.now < (s.canCh ch).joinAt then s else s.canRxError ch dominant)

/-! ### Time master (R373, R374) -/

/-- The channel is a time master whose unit drives (R373): never in STANDBY, off, or silent. -/
def State.trefActive (s : State) (ch : Nat) : Bool :=
  decide (ch < 2) && decide (s.n (Pid.canTimeRole ch) = 1) && decide (1 ≤ s.canCode ch ∧ s.canCode ch ≤ 3)

/-- The reference frame of R374: sequence, flags, time of the previous reference's start of frame. -/
def State.trefFrame (s : State) (ch seq : Nat) : CanFrame :=
  let prev := (s.canCh ch).prevSof
  let ns := prev.getD 0
  { id := s.n (Pid.canTrefId ch)
    fd := true
    brs := s.canBrs ch
    data := leBytes 1 seq ++ leBytes 1 (s.n Pid.timeState % 16 + 16 * b01 prev.isSome) ++ leBytes 6 (ns / 1000000000)
      ++ leBytes 4 (ns % 1000000000) }

/-- TIME_REFERENCE_SEND (R373): a reference still pending is replaced in its place by the next one, which an attempt under way then
counts for. -/
def execTimeReferenceSend (t : Nat) (ch : Nat) (s : State) : Out :=
  let s := s.advance t
  .next (if !s.trefActive ch then s
    else s.recur (.tref ch) (10 * psMs) fun s =>
      let seq := (s.canCh ch).txSeq
      let f := s.trefFrame ch seq
      match (s.canCh ch).trefPending with
      | some old =>
        let new : CanEnt := ⟨f, .timeMaster, 0, old.at_⟩
        let s := s.modCan ch fun x =>
          { x with txSeq := (seq + 1) % 256, tref := x.tref.map fun _ => new,
                   q := x.q.map fun e => if e.src = .timeMaster then new else e }
        (s.bump (Pid.canTrefSkipCount ch)).raise 0x8448 ch (leAt old.f.data 0 1)
      | none =>
        match s.canSubmit ch f .timeMaster with
        | (.accepted, s) => s.modCan ch fun x => { x with txSeq := (seq + 1) % 256 }
        | (_, s) => s)

end Sys2Proof.Machine
end

