-- ==== Sys2Proof/Machine/Time.lean ====
section
/-! DEFINITION. Internal time and its sources (R381-R383) and the time-triggered outputs (R387, R388). -/

namespace Sys2Proof.Machine

/-- A signed ns value in a word that saturates (R391). -/
def satNs (z : Int) : Int := clampI (-2147483648) 2147483647 z

/-! ### Sources (R381, R382) -/

/-- The source that is in force: 1 PTP, 2 CAN (R381). -/
def State.timeSource (s : State) : Option Nat :=
  if s.time.ptpValid then some 1 else if s.time.canValid then some 2 else none

/-- Internal time takes its source (R381): a source newly in force awaits its first correction, a lost one leaves holdover,
or, with `time_holdover` 0, expiry at once. A stopped TIME has no source. -/
def State.takeSource (s : State) : State :=
  let old := s.n Pid.timeState
  if old = 5 then s
  else match s.timeSource with
    | some k => if old = k then s else (s.modTime fun x => { x with acquire := true, heldFrom := none }).setTimeState k 3
    | none =>
      if old = 1 ∨ old = 2 then
        let s := s.modTime fun x => { x with acquire := false, heldFrom := some s.now }
        if s.n Pid.timeHoldover = 0 then (s.modTime fun x => { x with heldFrom := none }).setTimeState 4 1
        else s.setTimeState 3 3
      else s

/-- The source in force changed its identity (R382): its next correction is an acquisition. -/
def State.sourceChanged (s : State) : State :=
  if s.n Pid.timeState = 1 ∨ s.n Pid.timeState = 2 then (s.modTime fun x => { x with acquire := true }).showValid 3 else s

/-- The rate of an ordinary correction (R382): the spec bounds it by ±200 ppm and leaves its value open (log 6). -/
def State.rateCorrect (s : State) : State :=
  let (w, s) := s.fresh
  s.setZ Pid.timeRate ((w.toNat % 400001 : Nat) - 200000)

/-- A step is due in service (R383): shown, told once, and worked off at the full 200 ppm. -/
def State.pendStep (s : State) (off : Int) : State :=
  let s := s.onlyIf s.time.pendNs.isNone fun s => s.raise 0x1663 0 (off % 2 ^ 64).toNat
  let s := (s.modTime fun x => { x with pendNs := some off }).setZ Pid.timeStepPending (satNs off)
  (s.setZ Pid.timeRate (if 0 ≤ off then 200000 else -200000)).showValid 3

/-- A measured offset to the source in force (R382, R383). -/
def State.timeFeed (s : State) (src : Nat) (off : Int) : State :=
  if s.n Pid.timeState ≠ src then s
  else
    let first := !s.time.acquired
    let acq := s.time.acquire
    let s := s.modTime fun x => { x with acquired := true, acquire := false }
    let s := s.setZ Pid.timeOffset (satNs off)
    let big := decide (1000000 < off.natAbs)
    if s.time.pendNs.isSome then
      if big then s.pendStep off
      else (((s.modTime fun x => { x with pendNs := none }).setZ Pid.timeStepPending 0).rateCorrect).showValid 3
    else if acq && ((first && !s.unit.st.inService) || big) then
      if s.unit.st.inService then s.pendStep off
      else (s.timeStepBy off 1).rateCorrect
    else s.rateCorrect.showValid 3

/-- HOLDOVER_EXPIRY (R381). -/
def execHoldoverExpiry (t : Nat) (s : State) : Out :=
  let s := s.advance t
  .next (match s.time.heldFrom with
    | some from_ =>
      if s.n Pid.timeState = 3 ∧ from_ + s.n Pid.timeHoldover * psMs ≤ s.now then
        (s.modTime fun x => { x with heldFrom := none }).setTimeState 4 1
      else s
    | none => s)

/-- A write to `time_step` needs a pending step (R383). -/
def State.timeStepOk (s : State) (v : Word) : Bool := decide (v = 1) && s.time.pendNs.isSome
/-- The pending step is made at once, with the Service marker. -/
def State.doTimeStep (s : State) : State :=
  match s.time.pendNs with
  | some d => s.timeStepBy d 2
  | none => s

/-- TIME_STEP (R383): Service. -/
def execTimeStep (t : Nat) (role : Role) (v : Word) (s : State) : Out :=
  let s := s.advance t
  .next (s.cmdRow role .service Pid.timeStep v (s.timeStepOk v) s.doTimeStep)

/-! ### Time-triggered outputs (R387) -/

/-- The start instant in internal ns: the PTP second nearest to the present whose low 32 bits are `tout_start_s`. -/
def State.toutStartNs (s : State) (k : Nat) : Nat :=
  nearSec (s.intNs / 1000000000) (s.n (Pid.toutStartS k)) * 1000000000 + s.n (Pid.toutStartNs k)

/-- A write of `tout_mode` is in range, and a one-shot starts at least 10 µs ahead (R387, R391). -/
def State.toutOk (s : State) (k : Nat) (v : Word) : Bool :=
  decide (k < 4) && decide (v.toNat % 16 ≤ 2 ∧ v.toNat / 32 = 0) &&
    (decide (v.toNat % 4 ≠ 1) || decide (s.intNs + 10000 ≤ s.toutStartNs k))

/-- Arm or disarm an output (R387); a pulse in progress runs to its end. -/
def State.doTout (s : State) (k : Nat) (v : Word) : State :=
  let s := s.setW (Pid.toutMode k) v
  let start := s.toutStartNs k
  match v.toNat % 4 with
  | 0 => (s.modTout k fun x => { x with armed := false }).setN (Pid.toutState k) 0
  | 1 =>
    (s.modTout k fun x => { x with armed := true, periodic := false, startNs := start, nextNs := start }).setN
      (Pid.toutState k) 1
  | _ =>
    let next := if start < s.intNs then firstFrom start (s.n (Pid.toutPeriod k)) (s.intNs + 10000) else start
    (s.modTout k fun x => { x with armed := true, periodic := true, startNs := start, nextNs := next }).setN
      (Pid.toutState k) 1

/-- TOUT_ARM (R387): Service. -/
def execToutArm (t : Nat) (role : Role) (k : Nat) (v : Word) (s : State) : Out :=
  let s := s.advance t
  .next (let ok := !s.unit.st.factory && s.toutOk k v
    s.roleRow role .service 1 (Pid.toutMode k) (s.w (Pid.toutMode k)) v ok (if ok then s.doTout k v else s))

/-- TIME_OUT_PULSE (R387): internal time has reached the output's next instant; while TIME is stopped nothing fires
(R388). -/
def execTimeOutPulse (t : Nat) (k : Nat) (s : State) : Out :=
  let s := s.advance t
  let x := s.touts k
  .next (if !x.armed || s.timeStopped || decide (s.intNs < x.nextNs) then s
    else if x.periodic then (s.toutFire k).modTout k fun x => { x with nextNs := x.nextNs + s.n (Pid.toutPeriod k) }
    else ((s.toutFire k).modTout k fun x => { x with armed := false }).setN (Pid.toutState k) 2)

/-- TIME_OUT_PULSE_END (R387). -/
def execTimeOutPulseEnd (t : Nat) (k : Nat) (s : State) : Out :=
  let s := s.advance t
  .next (match (s.touts k).pulseEnd with
    | some e => if e ≤ s.now then s.modTout k fun x => { x with pulseEnd := none } else s
    | none => s)

end Sys2Proof.Machine
end

