-- ==== Sys2Proof/Machine/Eth.lean ====
section
/-! DEFINITION. The Ethernet ports (R376, R377): links, sending, and PTP (R379, R380). The layouts of PTP messages, best
master selection and the clock attributes are those of IEEE 802.1AS-2020, which the spec names (log 14). -/

namespace Sys2Proof.Machine

/-- An Ethernet port. -/
def State.ethPort (s : State) (e : Nat) : EthSt := s.eth.getD e {}
/-- Change an Ethernet port. -/
def State.modEth (s : State) (e : Nat) (f : EthSt → EthSt) : State := { s with eth := s.eth.modify e f }
/-- Change a port's PTP state. -/
def State.modPtp (s : State) (e : Nat) (f : PtpSt → PtpSt) : State := s.modEth e fun x => { x with ptp := f x.ptp }
/-- PTP of a port. -/
def State.ptp (s : State) (e : Nat) : PtpSt := (s.ethPort e).ptp
/-- The link is up (R376). -/
def State.ethUp (s : State) (e : Nat) : Bool := decide (e < 2) && decide (s.n (Pid.ethLink e) = 2)
/-- The port's MAC address as six bytes. -/
def State.macBytes (s : State) (e : Nat) : List Byte := beBytes 2 (s.n (Pid.ethMacHi e) % 65536) ++ beBytes 4 (s.n (Pid.ethMacLo e))

/-- Send a message on a link that is up, tagged unless it is PTP or `eth_vlan` is 0 (R377). -/
def State.ethSend (s : State) (e : Nat) (m : EthMsg) : State :=
  if !s.ethUp e then s
  else
    let vlan := s.n (Pid.ethVlan e)
    let tag := match m with
      | .ptp _ _ _ => none
      | _ => if vlan = 0 then none else some (vlan, s.n (Pid.ethPcp e))
    (s.modEth e fun x => { x with sent := some ⟨m, tag⟩ }).bump (Pid.ethTxCount e)

/-- The limited broadcast address. -/
def ipAll : Nat := 0xFFFFFFFF

/-- The next hop of an IPv4 address on a port (R390): the address itself within the prefix, else the gateway. -/
def State.nextHop (s : State) (e ip : Nat) : Nat :=
  let m := 2 ^ (32 - s.n (Pid.ethPrefix e))
  if ip / m = s.n (Pid.ethIp e) / m then ip else s.n (Pid.ethGw e)

/-- Send a UDP datagram; while the next hop's address is not learnt, an ARP request goes out in its place (log 14). -/
def State.udpSend (s : State) (e ip src dst : Nat) (body : List Byte) : State :=
  let hop := s.nextHop e ip
  if ip = ipAll || (s.ethPort e).arp.any fun a => a.1 = hop then s.ethSend e (.udp ip src dst body)
  else if hop = 0 then s
  else s.ethSend e (.arp 1 hop [])

/-- Learn an address. -/
def State.arpLearn (s : State) (e ip : Nat) (mac : List Byte) : State :=
  s.modEth e fun x => { x with arp := (ip, mac) :: x.arp.filter fun a => a.1 ≠ ip }

/-! ### Selection (R379) -/

/-- The clockIdentity of the unit: the EUI-64 of the MAC address of ETHA. -/
def State.clockId (s : State) : Nat :=
  let m := s.macBytes 0
  beNat (m.take 3 ++ [0xFF#8, 0xFE#8] ++ m.drop 3)

/-- The attributes of a priority vector of IEEE 802.1AS: priority1, class, accuracy, variance, priority2, grandmaster
identity, steps removed, source port identity. -/
def prioVector (p1 cls acc var p2 gm steps src : Nat) : Nat :=
  ((((((p1 * 256 + cls) * 256 + acc) * 65536 + var) * 256 + p2) * 2 ^ 64 + gm) * 65536 + steps) * 2 ^ 80 + src

/-- The unit's own vector, as a grandmaster-capable ordinary clock. -/
def State.ownVector (s : State) : Nat := prioVector (s.n Pid.ptpPriority1) 248 0xFE 0x436A 248 s.clockId 0 (s.clockId * 65536)

/-- The unit may be grandmaster (R379). -/
def State.gmCapable (s : State) : Bool := decide (s.n Pid.ptpPriority1 < 255)

/-- A port can serve synchronisation: link up, as-capable, grandmaster heard. -/
def State.ptpUsable (s : State) (e : Nat) : Bool :=
  s.ethUp e && decide (s.n (Pid.ptpAsCapable e) = 1) && (s.ptp e).gm.isSome

/-- Three intervals of a port's Sync, in ps. -/
def PtpSt.syncPs (x : PtpSt) : Nat := 3 * (if 0 ≤ x.syncLog then psS * 2 ^ x.syncLog.toNat else psS / 2 ^ (-x.syncLog).toNat)

/-- The port used for synchronisation (R379): `back` returns to ETHA. -/
def State.ptpPick (s : State) (back : Bool) : Option Nat :=
  match s.n Pid.ptpPort with
  | 0 => if s.ptpUsable 0 then some 0 else none
  | 1 => if s.ptpUsable 1 then some 1 else none
  | _ =>
    if s.n Pid.ptpActive = 1 && s.ptpUsable 1 && !(back && s.ptpUsable 0) then some 1
    else if s.ptpUsable 0 then some 0
    else if s.ptpUsable 1 then some 1
    else none

/-- Selection anew (R379, R381): port in use and grandmaster shown, a change told and acquired, validity by Sync. No source
runs in READY-UNBOUND or READY-REFUSED (R381). -/
def State.ptpUpdate (s : State) (back : Bool) : State :=
  let use := if s.unit.st.factory then none else s.ptpPick back
  let gm := match use with
    | some e => ((s.ptp e).gm.getD (0, 0)).2
    | none => 0
  let port := use.getD 0xFF
  let changed := decide (gm ≠ s.time.toldGm) || decide (port ≠ s.time.toldPort)
  let s := s.onlyIf changed fun s => (s.raise 0x8554 port gm).modTime fun x => { x with toldGm := gm, toldPort := port }
  let s := ((s.setN Pid.ptpActive port).setN Pid.ptpGmIdLo (gm % 2 ^ 32)).setN Pid.ptpGmIdHi (gm / 2 ^ 32)
  let valid := match use with
    | some e => match (s.ptp e).syncAt with
      | some a => decide (s.now < a + (s.ptp e).syncPs)
      | none => false
    | none => false
  let was := s.time.ptpValid
  let s := (s.modTime fun x => { x with ptpValid := valid }).takeSource
  s.onlyIf (was && valid && changed) State.sourceChanged

/-- A port becomes or ceases to be as-capable (R379). -/
def State.setAsCapable (s : State) (e : Nat) (b : Bool) : State :=
  if s.n (Pid.ptpAsCapable e) = b01 b then s else (s.setN (Pid.ptpAsCapable e) (b01 b)).ptpUpdate false

/-! ### Transmit stamps (R380) -/

/-- The stamp of a sent event message enters Q-TXTS; when it is full the newest stamp is lost. -/
def State.txtsPush (s : State) (e typ seq : Nat) : State :=
  let q := (s.ptp e).txts
  if 8 ≤ q.length then
    (((s.qLost (0x12 + e)).setN (Pid.txtsOvf e) 1).bump (Pid.txtsOvfCount e)).raise 0x8553 e (seq % 65536 * 65536 + typ)
  else (s.modPtp e fun x => { x with txts := x.txts ++ [(typ, seq, s.intNs, s.now)] }).highWater (0x12 + e) (q.length + 1)

/-- Take a stamp from Q-TXTS. -/
def State.txtsTake (s : State) (e typ seq : Nat) : Option Nat × State :=
  let hit := fun (x : Nat × Nat × Nat × Nat) => decide (x.1 = typ ∧ x.2.1 = seq)
  match (s.ptp e).txts.find? hit with
  | some x => (some x.2.2.1, s.modPtp e fun p => { p with txts := p.txts.filter fun y => !hit y })
  | none => (none, s)

/-- TXTS_DISCARD (R380): stamps nobody has taken for 10 ms. -/
def execTxtsDiscard (t : Nat) (e : Nat) (s : State) : Out :=
  let s := s.advance t
  .next (s.modPtp e fun p => { p with txts := p.txts.filter fun x => s.now < x.2.2.2 + 10 * psMs })

/-! ### PTP messages -/

/-- A PTP timestamp: 48-bit seconds and 32-bit nanoseconds, big-endian. -/
def ptpStamp (ns : Nat) : List Byte := beBytes 6 (ns / 1000000000) ++ beBytes 4 (ns % 1000000000)
/-- The instant of a PTP timestamp, in ns. -/
def ptpNs (bs : List Byte) : Nat := beNat (bs.take 6) * 1000000000 + beNat ((bs.drop 6).take 4)
/-- The correction field of a message, in whole ns. -/
def ptpCorr (m : List Byte) : Int := (BitVec.ofNat 64 (beNat ((m.drop 8).take 8))).toInt / 65536
/-- The source port identity of a message. -/
def ptpSrc (m : List Byte) : Nat := beNat ((m.drop 20).take 10)
/-- The sequenceId of a message. -/
def ptpSeq (m : List Byte) : Nat := beNat ((m.drop 30).take 2)
/-- The unit's port identity on a port. -/
def State.portId (s : State) (e : Nat) : Nat := s.clockId * 65536 + (e + 1)

/-- Send an event message and, with its stamp, the follow-up that carries it; a lost stamp leaves none (R380). -/
def State.ptpEvent (s : State) (e typ seq : Nat) (body : List Byte) (fuTyp : Nat) (fuTail : List Byte) : State :=
  let s := (s.ethSend e (.ptp typ seq body)).txtsPush e typ seq
  match s.txtsTake e typ seq with
  | (some ns, s) => s.ethSend e (.ptp fuTyp seq (ptpStamp ns ++ fuTail))
  | (none, s) => s

/-- 2^z seconds in ps, z from −5 to 3: an interval of R379. -/
def logSecPs (z : Int) : Nat := psS * 2 ^ (z + 5).toNat / 32

/-- PDELAY_REQ_SEND (R379), at each `ptp_log_pdelay`: on every enabled port, unless PTP does not run (R416); a port whose last
request went unanswered is not as-capable. -/
def execPdelayReqSend (t : Nat) (s : State) : Out :=
  let s := s.advance t
  .next (if s.unit.st.factory then s else s.recur .pdelay (logSecPs (s.z Pid.ptpLogPdelay)) fun s =>
    s.each ((List.range 2).filter s.ethUp) fun s e =>
      let s := s.onlyIf (s.ptp e).pdWait fun s => s.setAsCapable e false
      let seq := ((s.ptp e).pdSeq + 1) % 65536
      let s := s.modPtp e fun p => { p with pdSeq := seq, pdWait := true, pdResp := none }
      (s.ethSend e (.ptp 2 seq (List.replicate 20 0#8))).txtsPush e 2 seq)

/-- Sync with its Follow_Up on port `e`. -/
def State.ptpSync (s : State) (e : Nat) : State :=
  let seq := (s.ptp e).seq
  (s.ptpEvent e 0 seq (List.replicate 10 0#8) 8 []).modPtp e fun p => { p with seq := (seq + 1) % 65536 }

/-- Announce on port `e`. -/
def State.sendAnnounce (s : State) (e : Nat) : State :=
  let ann := List.replicate 13 0#8 ++ beBytes 1 (s.n Pid.ptpPriority1) ++ [248#8, 0xFE#8] ++ beBytes 2 0x436A ++ [248#8]
    ++ beBytes 8 s.clockId ++ [0#8, 0#8, 0xA0#8]
  (s.ethSend e (.ptp 0xB (s.ptp e).annSeq ann)).modPtp e fun p => { p with annSeq := (p.annSeq + 1) % 65536 }

/-- GRANDMASTER_SYNC_SEND (R379): a capable unit that hears no better clock sends Sync with Follow_Up at `ptp_log_sync` and Announce
each second (PRESUMED, log 46). -/
def execGrandmasterSyncSend (t : Nat) (s : State) : Out :=
  let s := s.advance t
  .next (if !s.gmCapable || s.unit.st.factory || (s.ptp 0).gm.isSome || (s.ptp 1).gm.isSome then s
    else
      let es := (List.range 2).filter fun e => s.ethUp e && decide (s.n (Pid.ptpAsCapable e) = 1)
      let s := s.recur .sync (logSecPs (s.z Pid.ptpLogSync)) fun s => s.each es State.ptpSync
      s.recur .gmAnnounce psS fun s => s.each es State.sendAnnounce)

/-- Announce: the best clock heard on a port, unless the unit's own is better (R379). -/
def State.ptpAnnounce (s : State) (e : Nat) (m : List Byte) : State :=
  let b := fun k n => beNat ((m.drop k).take n)
  let gm := b 53 8
  let vec := prioVector (b 47 1) (b 48 1) (b 49 1) (b 50 2) (b 52 1) gm (b 61 2) (ptpSrc m)
  if ptpSrc m / 65536 = s.clockId ∨ 255 ≤ b 61 2 ∨ s.n (Pid.ptpAsCapable e) ≠ 1 then s
  else
    let cur := (s.ptp e).gm
    let same := match cur with
      | some (_, id) => decide (id = gm)
      | none => false
    let take := same || (match cur with
      | some (v, _) => decide (vec < v)
      | none => true)
    let own := s.gmCapable && decide (s.ownVector < vec)
    let s := if !take then s
      else if own then s.onlyIf same fun s => s.modPtp e fun p => { p with gm := none, syncAt := none }
      else s.modPtp e fun p => { p with gm := some (vec, gm), gmAt := if same then p.gmAt else s.now, syncAt := if same then p.syncAt else none }
    s.ptpUpdate false

/-- The message comes from the port's present master. -/
def PtpSt.fromMaster (p : PtpSt) (m : List Byte) : Bool :=
  match p.gm with
  | some (v, _) => decide (v % 2 ^ 80 = ptpSrc m)
  | none => false

/-- Follow_Up of the Sync awaited (R379, R382): the offset feeds internal time when the port is in use. -/
def State.ptpFollowUp (s : State) (e : Nat) (m : List Byte) : State :=
  match (s.ptp e).sync with
  | some (seq, own, corr) =>
    if seq = ptpSeq m ∧ (s.ptp e).fromMaster m then
      let off := (ptpNs (m.drop 34) : Int) + corr + ptpCorr m + s.n (Pid.ptpPdelay e) - own
      let s := (s.modPtp e fun p => { p with sync := none, syncAt := some s.now }).ptpUpdate false
      s.onlyIf (decide (s.n Pid.ptpActive = e)) fun s => s.timeFeed 1 off
    else s
  | none => s

/-- Pdelay_Resp_Follow_Up (R379): the mean link delay, and whether the port is as-capable. -/
def State.ptpPdelayDone (s : State) (e : Nat) (m : List Byte) : State :=
  match (s.ptp e).pdResp with
  | some (t2, t4) =>
    match s.txtsTake e 2 (s.ptp e).pdSeq with
    | (some t1, s) =>
      let t3 := (ptpNs (m.drop 34) : Int) + ptpCorr m
      let d := (((t4 : Int) - t1) - (t3 - t2)) / 2
      let s := (s.modPtp e fun p => { p with pdWait := false, pdResp := none }).setN (Pid.ptpPdelay e) d.toNat
      s.setAsCapable e (decide (d ≤ s.n Pid.ptpPdelayThresh))
    | (none, s) => s
  | none => s

/-- A PTP message arrives (R377, R379): event messages are stamped on arrival; Signaling and management are ignored. -/
def State.ptpIn (s : State) (e : Nat) (m : List Byte) : State :=
  let typ := leAt m 0 1 % 16
  let mine := decide (leAt m 4 1 = s.n Pid.ptpDomain)
  let toMe := decide (beNat ((m.drop 44).take 10) = s.portId e) && decide (ptpSeq m = (s.ptp e).pdSeq) && (s.ptp e).pdWait
  if leAt m 1 1 % 16 ≠ 2 ∨ m.length < 44 ∨ s.unit.st.factory then s
  else match typ with
    | 0 =>
      if mine && (s.ptp e).fromMaster m then
        s.modPtp e fun p => { p with sync := some (ptpSeq m, s.intNs, ptpCorr m), syncLog := (BitVec.ofNat 8 (leAt m 33 1)).toInt }
      else s
    | 2 =>
      let req := (m.drop 20).take 10
      s.ptpEvent e 3 (ptpSeq m) (ptpStamp s.intNs ++ req) 0xA req
    | 3 =>
      if toMe then s.modPtp e fun p => { p with pdResp := some ((ptpNs (m.drop 34) : Int) - ptpCorr m, s.intNs) } else s
    | 8 => if mine then s.ptpFollowUp e m else s
    | 0xA => if toMe then s.ptpPdelayDone e m else s
    | 0xB => if mine && decide (64 ≤ m.length) then s.ptpAnnounce e m else s
    | _ => s

/-- PTP_SYNC_LOSS (R379): no Sync within three intervals loses the port's grandmaster; a port that is no longer as-capable
fails over. -/
def execPtpSyncLoss (t : Nat) (e : Nat) (s : State) : Out :=
  let s := s.advance t
  .next (match (s.ptp e).syncAt with
    | some a =>
      let late := decide (a + (s.ptp e).syncPs ≤ s.now)
      (s.onlyIf late fun s => s.modPtp e fun p => { p with gm := none, sync := none, syncAt := none }).ptpUpdate false
    | none => s.ptpUpdate false)

/-- PTP_FAILBACK (R379): ETHA has held a grandmaster for 10 s. -/
def execPtpFailback (t : Nat) (s : State) : Out :=
  let s := s.advance t
  .next (if s.n Pid.ptpPort = 2 ∧ s.n Pid.ptpActive = 1 ∧ s.ptpUsable 0 ∧ (s.ptp 0).gmAt + 10 * psS ≤ s.now then s.ptpUpdate true else s)

/-! ### Links (R376) -/

/-- ETH_LINK_UP (R376). -/
def execEthLinkUp (t : Nat) (e : Nat) (s : State) : Out :=
  let s := s.advance t
  .next (if e < 2 ∧ s.n (Pid.ethLink e) = 1 ∧ s.ethMay e then (s.setN (Pid.ethLink e) 2).raise 0x0552 e (s.n (Pid.ethRole e)) else s)

/-- A link goes down (R376): what PTP knew of the port is gone; training begins again where it may. -/
def State.ethDown (s : State) (e : Nat) : State :=
  let up := s.ethUp e
  let s := s.setN (Pid.ethLink e) (b01 (s.ethMay e))
  if !up then s
  else
    let s := (s.bump (Pid.ethLinkDownCount e)).raise 0x8551 e 0
    let s := s.modEth e fun x => { x with arp := [], ptp := { x.ptp with gm := none, sync := none, syncAt := none, pdWait := false, pdResp := none } }
    (s.setN (Pid.ptpAsCapable e) 0).ptpUpdate false

/-- ETH_LINK_DOWN (R376). -/
def execEthLinkDown (t : Nat) (e : Nat) (s : State) : Out :=
  let s := s.advance t
  .next (if s.ethUp e then s.ethDown e else s)

end Sys2Proof.Machine
end

