-- ==== Sys2Proof/Machine/Pwm.lean ====
section
/-! DEFINITION. The modulator: update sets and load points (R240-R245), carriers, edges and dead time (R230-R239,
R249-R252), extra compares (R246, R247) and the realignment after an inner-period change (R248). Instants are in ps;
a tick is 625 ps. A boundary, an edge, a turn-on and a firing have the instant that the counters give them, whenever their
command comes after it; the commands to the islands are on their way for 25 ns (R239, R257). -/

namespace Sys2Proof.Machine

/-! ### Dead time (R249-R252) -/

/-- Fall back to `dt_fix` for every type on one leg (R252): the first cause of a run raises its event and counts. -/
def State.dtFallback (s : State) (p l k : Nat) : State :=
  if s.bit (Pid.dtMode l) k then s
  else
    let first := decide (s.n (Pid.dtMode l) = 0)
    let s := (s.setBit (Pid.dtMode l) k true).dtReset p l
    s.onlyIf first fun s => (s.raise 0x1506 l (s.n (Pid.dtMode l))).bump (Pid.nsLostCount l)

/-- Fall back on every leg of a port. -/
def State.dtFallbackPort (s : State) (p k : Nat) : State := s.each (s.port p).legs fun s l => s.dtFallback p l k

/-- Results that govern a commutation at this instant take their place in `dt_now` (R251). -/
def State.dtApply (s : State) (l : Nat) : State :=
  let due := (s.leg l).waiting.filter fun w => decide (w.2.1 ≤ s.now)
  let s := due.foldl (fun s w => s.setN (Pid.dtNow l w.1) w.2.2) s
  s.modLeg l fun x => { x with waiting := x.waiting.filter fun w => decide (s.now < w.2.1) }

/-- Current class of a leg (R249): 0 positive, 1 negative, 2 near zero. The band is a share of i_base/n; AC currents
are in pu of √2·i_base (R211), so both sides are squared. -/
def State.dtClass (s : State) (p l : Nat) : Nat :=
  let q := s.port p
  let e := if q.topo = .tType then (l - q.refLeg) / 2 * 2 else l - q.refLeg
  match s.elemPu p 1 e with
  | none => 2
  | some x =>
    let n : Int := q.topo.perPhase
    let band := s.z (Pid.dtIBand p)
    let k : Int := if s.isDc p then 1 else 2
    if s.elemBad p 1 e || decide (k * (x * n) * (x * n) < band * band) then 2
    else if 0 ≤ x then 0 else 1

/-- The two thresholds of R250 in µV at NS: near and far of a falling node. The DC link is in pu of `v_base` (mV). -/
def State.nsThresholds (s : State) (p : Nat) (upper : Bool) : Option (Int × Int) :=
  match s.elemPu p 5 0 with
  | none => none
  | some x =>
    let uV (pct : Int) : Int := x * s.n (Pid.vBase p) * pct * 10 / ((s.n (Pid.nsRatio p) : Int) * one27)
    if (s.port p).topo = .tType then (if upper then some (uV 95, uV 55) else some (uV 45, uV 5))
    else some (uV 90, uV 10)

/-- A threshold lies outside 0.05-2.40 V (R250, R252). -/
def nsOutside (t : Option (Int × Int)) : Bool :=
  match t with
  | some (a, b) => [a, b].any fun v => decide (v < 50000) || decide (2400000 < v)
  | none => false

/-- Thresholds at an update point, of the region that each phase is in (R250, R252 bit 3); a link that is not measured leaves them. -/
def State.nsUpdate (s : State) (p : Nat) : State :=
  let s := s.each (s.port p).legs fun s l =>
    let t := s.nsThresholds p (s.leg l).upper
    s.modLeg l fun x => { x with thr := if t.isSome then t else x.thr }
  let out := (s.port p).legs.any fun l => nsOutside (s.nsThresholds p (s.leg l).upper)
  let s := s.modPort p fun q => { q with thrOk := if out then 0 else q.thrOk + 1 }
  if out then s.dtFallbackPort p 3 else s

/-! ### Update sets (R240-R245) -/

/-- The leg has a phase member (R240). -/
def State.hasPhase (s : State) (p l : Nat) : Bool :=
  let q := s.port p
  l ≠ q.refLeg && !(q.topo = .tType && (l - q.refLeg) % 2 = 1)

/-- The leg has an update set of its own: not the odd leg of a T-type pair (R235). -/
def State.hasSet (s : State) (p l : Nat) : Bool :=
  !((s.port p).topo = .tType && (l - (s.port p).refLeg) % 2 = 1)

/-- Duty and phase generations of a leg's shadow registers (R253). -/
def State.dutyGen (s : State) (l : Nat) : Nat := s.n (Pid.shGen l) % 65536
/-- Phase generation. -/
def State.phGen (s : State) (l : Nat) : Nat := s.n (Pid.shGen l) / 65536

/-- Every member of a leg's set carries one generation (R240). -/
def State.setComplete (s : State) (p l : Nat) : Bool :=
  decide (s.dutyGen l = (s.port p).perGen) && (!s.hasPhase p l || decide (s.phGen l = (s.port p).perGen))

/-- Every used leg's shadow set is complete (R243). -/
def State.allComplete (s : State) (p : Nat) : Bool :=
  ((s.port p).legs.filter fun l => s.hasSet p l).all fun l => s.setComplete p l

/-- An adjusted member (R245): counted, with its event, where the engine writes the shadow registers (R241). -/
def State.adjusted (s : State) (p l member : Nat) (v : Int) : State :=
  s.onlyIf (decide (s.n (Pid.modState p) = 2 ∨ s.n (Pid.modState p) = 3)) fun s =>
    (s.raise 0x1505 l (u32z v * 2 ^ 32 + member)).bump (Pid.refClampCount l)

/-- Load the duty (R245): clamped to 0-1. -/
def State.loadDuty (s : State) (p l : Nat) : State :=
  let d := s.z (Pid.shDuty l)
  let d' := clampI 0 one27 d
  let s := s.onlyIf (decide (d ≠ d')) fun s => s.adjusted p l 0 d
  (s.setZ (Pid.dActive l) d').setN (Pid.genActive l) (s.dutyGen l)

/-- A period is a multiple of an inner period in ns, with `smp_sync` (R233). -/
def State.periodFits (s : State) (p tNs P : Nat) : Bool :=
  decide (s.n (Pid.smpSync p) = 0) || decide (P % (tNs * 1000 / tickPs) = 0)

/-- The period in its range (R245): 8,000-4,000,000 ticks, even, and a multiple of the inner period with `smp_sync`. -/
def State.fitPeriod (s : State) (p P : Nat) : Nat :=
  let P := min 4000000 (max 8000 P) / 2 * 2
  if s.n (Pid.smpSync p) = 1 ∧ s.innerTicks ≠ 0 then P / s.innerTicks * s.innerTicks else P

/-- Load the period on the reference leg (R245). -/
def State.loadPeriod (s : State) (p : Nat) : State :=
  let l := (s.port p).refLeg
  let P := s.n (Pid.shPeriod p)
  let P' := s.fitPeriod p P
  let s := s.onlyIf (decide (P ≠ P')) fun s => s.adjusted p l 1 P
  s.setN (Pid.pActive p) P'

/-- A phase in its range (R245): modulo P, on an even tick. -/
def fitPhase (P f : Nat) : Nat := (if P = 0 then f else f % P) / 2 * 2

/-- Load the phase of a leg (R245). -/
def State.loadPhase (s : State) (p l : Nat) : State :=
  let f := s.n (Pid.shPhase l)
  let f' := fitPhase (s.n (Pid.pActive p)) f
  let s := s.onlyIf (decide (f ≠ f')) fun s => s.adjusted p l 2 f
  s.setN (Pid.phActive l) f'

/-- One incomplete load point (R243): event and counts. -/
def State.tornOne (s : State) (p l : Nat) : State :=
  let s := (s.raise 0x1501 l (s.phGen l % 65536 * 2 ^ 32 + s.dutyGen l * 65536 + (s.port p).perGen)).bump (Pid.tornCount p)
  s.modPort p fun q => { q with torn := s.now :: q.torn.filter fun t => decide (s.now < t + psS) }

/-- The incomplete load points of the last 1 s have reached `torn_limit` (R243). -/
def State.tornFull (s : State) (p : Nat) : Bool := decide (s.n (Pid.tornLimit p) ≤ (s.port p).torn.length)

/-- The other legs whose boundary falls at the same instant as that of leg `l` and is still to be taken. -/
def State.sameBoundary (s : State) (p l : Nat) : List Nat :=
  (s.port p).legs.filter fun k => k ≠ l && s.hasSet p k && decide ((s.leg k).nextB = some (s.leg l).boundary)

/-- An incomplete set at a load point (R243): at the limit the port is held, once every load point of that instant has been counted. -/
def State.tornSet (s : State) (p l : Nat) : State :=
  let s := s.tornOne p l
  if s.tornFull p then
    let s := ((s.sameBoundary p l).filter fun k => !s.setComplete p k).foldl (fun s k => s.tornOne p k) s
    (s.setN (Pid.modState p) 4).raise 0x1502 p (min (s.port p).torn.length 255)
  else s

/-- A load point of a leg takes the named members from a complete set. -/
def State.loadPoint (s : State) (p l : Nat) (duty period phase : Bool) : State :=
  if !s.hasSet p l then s
  else if !s.setComplete p l then s.tornSet p l
  else
    let s := s.onlyIf (period && l = (s.port p).refLeg) fun s => s.loadPeriod p
    let s := s.onlyIf (phase && s.hasPhase p l) fun s => s.loadPhase p l
    s.onlyIf duty fun s => s.loadDuty p l

/-- Engine commit into the shadow registers (R241): every member of every used leg with one generation; members the
graph does not produce repeat the values last loaded. -/
def State.commitShadow (s : State) (p : Nat) (e : RefEntry) : State :=
  let s := (s.setN (Pid.shPeriod p) e.period).modPort p fun q => { q with perGen := e.gen }
  s.each (s.port p).legs fun s l =>
    let s := match e.refs.find? fun r => r.leg = l with
      | some r => (s.setZ (Pid.shDuty l) r.duty).setN (Pid.shPhase l) r.phase
      | none => (s.setW (Pid.shDuty l) (s.w (Pid.dActive l))).setW (Pid.shPhase l) (s.w (Pid.phActive l))
    s.setN (Pid.shGen l) (e.gen * 65536 + e.gen)

/-! ### Edges (R235-R239) -/

/-- A leg has its own comparison: not the odd leg of a T-type pair. -/
def State.legY (s : State) (l : Nat) : Bool := s.bit (Pid.legOut l) 0

/-- The duty the comparison uses (R235, R236). -/
def State.effDuty (s : State) (p l : Nat) : Int :=
  let d := s.z (Pid.dActive l)
  if (s.port p).topo = .tType then (if (s.leg l).upper then clampI 0 one27 (2 * d - one27) else clampI 0 one27 (2 * d)) else d

/-- A pending change of region takes effect while the phase is in O (R235), no turn-on of a commutation being still to come; no edge is
issued. -/
def State.regionStep (s : State) (p l : Nat) : State :=
  if (s.port p).topo ≠ .tType ∨ (s.leg l).onAt.isSome then s
  else
    let want := decide (67108864 ≤ s.z (Pid.dActive l))
    let x := s.leg l
    if want = x.upper then s
    else if x.upper && !s.legY l then (s.modLeg l fun x => { x with upper := false }).setBit (Pid.legOut l) 0 true
    else if !x.upper && s.legY l then (s.modLeg l fun x => { x with upper := true }).setBit (Pid.legOut l) 0 false
    else s

/-- Ticks since a leg's last boundary, and the instant of the last tick. -/
def LegSt.ticks (x : LegSt) (now : Nat) : Nat × Nat :=
  let e := (now - x.boundary) / tickPs
  (e, x.boundary + e * tickPs)

/-- The change of y that the counter calls for at this instant (R236, R237): none, or the new value of y. -/
def State.edgeDue (s : State) (p l : Nat) : Option Bool :=
  let x := s.leg l
  let P := s.n (Pid.pActive p)
  let e := (x.ticks s.now).1
  let d := s.effDuty p l
  let y := s.legY l
  if s.now < x.boundary then none
  else if s.n (Pid.carrier p) = 1 then
    let c := compareCount true d P
    if !y && !x.edgeR && !x.edgeF && x.upWant && decide ((e : Int) < c) then some true
    else if y && !x.edgeF && decide (d < one27) && decide (c ≤ e) then some false
    else none
  else
    let c := compareCount false d P
    if decide (2 * e ≤ P) then
      if !y && !x.edgeR && decide (0 < d) && decide (c ≤ e) then some true else none
    else if y && !x.edgeF && decide (d < one27) && decide ((P : Int) - c ≤ e) then some false
    else none

/-- The commutation type of a change of y (R249). -/
def State.ctypeOf (s : State) (p l : Nat) (y : Bool) : Nat := (if y then 3 else 0) + s.dtClass p l

/-- The complementary pair of a leg in its present region (R235): upper island and lower island. -/
def State.activePair (s : State) (p l : Nat) : Nat × Nat :=
  if (s.port p).topo = .tType then
    (if (s.leg l).upper then (islHigh l, islLow (l + 1)) else (islHigh (l + 1), islLow l))
  else (islHigh l, islLow l)

/-- The outgoing island of a change to `y` (R236, R239). -/
def State.outgoing (s : State) (p l : Nat) (y : Bool) : Nat := if y then (s.activePair p l).2 else (s.activePair p l).1

/-- The incoming island of a change to `y` (R236, R239). -/
def State.incoming (s : State) (p l : Nat) (y : Bool) : Nat := if y then (s.activePair p l).1 else (s.activePair p l).2

/-- The way of a command from the modulator to its island (R239, R257), in ps. -/
def islandWay : Nat := 25000

/-- Issue a change of y (R239) at an instant: the outgoing switch's off command leaves, the incoming one's on command follows after
the dead time of the type. With the gates off (free-run) only y changes. `mark` counts it as its slope's edge (R237). -/
def State.issueEdge (s : State) (p l tAt : Nat) (y mark : Bool) : State :=
  let s := s.dtApply l
  let ty := s.ctypeOf p l y
  let dt := s.n (Pid.dtNow l ty)
  let live := (s.leg l).started && s.bit (Pid.legOut l) 4
  let s := s.onlyIf live fun s => s.modIsl (s.outgoing p l y) fun x => { x with offDue := some (tAt + islandWay) }
  let s := s.setBit (Pid.legOut l) 0 y
  let s := s.modLeg l fun x =>
    { x with
      lastEdge := some tAt
      delayed := none
      upWant := if y then false else x.upWant
      edgeR := x.edgeR || (mark && y)
      edgeF := x.edgeF || (mark && !y)
      ctype := if live then ty else x.ctype
      dtUsed := if live then dt else x.dtUsed
      measuring := live
      onAt := if live then some (tAt + dt) else none }
  (s.setBit (Pid.legOut l) 3 live).regionStep p l

/-- The first instant at which the next edge of a leg may be issued (R238). -/
def State.edgeFree (s : State) (p l : Nat) : Nat :=
  let x := s.leg l
  max (match x.lastEdge with
    | some e => tickUp (s.n (Pid.minPulse p) * 1000) + e
    | none => 0) (x.onAt.getD 0)

/-- LEG_EDGE (R236-R239): a due change of y is issued at its tick, or delayed by `min_pulse` and the pending turn-on, counted once
and issued when it may, as the edge of the slope that asked for it. -/
def execLegEdge (t : Nat) (l : Nat) (s : State) : Out :=
  let s := s.advance t
  .next (match s.portOfLeg l with
    | none => s
    | some p =>
      if s.n (Pid.modState p) = 0 || !s.hasSet p l then s
      else
        let x := s.leg l
        let tick := (x.ticks s.now).2
        let free := s.edgeFree p l
        match x.delayed with
        | some (y, b) => if s.now < free then s else s.issueEdge p l free y (decide (b = x.bounds))
        | none =>
          match s.edgeDue p l with
          | none => s
          | some y =>
            if tick < free then
              ((s.modLeg l fun x => { x with delayed := some (y, x.bounds) }).bump (Pid.minPulseCount l)).raise 0x1504 l (free - tick)
            else s.issueEdge p l tick y true)

/-- DEAD_TIME_EXPIRY (R239): the incoming on command leaves for its island. -/
def execDeadTimeExpiry (t : Nat) (l : Nat) (s : State) : Out :=
  let s := s.advance t
  .next (match (s.leg l).onAt, s.portOfLeg l with
    | some u, some p =>
      if u ≤ s.now then
        let s := s.modIsl (s.incoming p l (s.legY l)) fun x => { x with onDue := some (u + islandWay) }
        ((s.modLeg l fun x => { x with onAt := none, turnOn := u }).showLeg l).regionStep p l
      else s
    | _, _ => s)

/-! ### Carriers and load points (R231-R233, R241-R244, R248) -/

/-- The inner switch that is on throughout the present region of a T-type phase (R235): S2 above, S3 below. -/
def State.staticInner (s : State) (l : Nat) : Nat := if (s.leg l).upper then islHigh (l + 1) else islLow (l + 1)

/-- The first gate command of a leg (R242): what the comparison gives at its first boundary; in T-type the inner switch of the
region turns on with it. -/
def State.startLeg (s : State) (p l tAt : Nat) : State :=
  let s := s.modLeg l fun x => { x with started := true }
  let d := s.effDuty p l
  let y := if s.n (Pid.carrier p) = 1 then decide (0 < d) else decide (d = one27)
  let s := s.onlyIf ((s.port p).topo = .tType) fun s => s.modIsl (s.staticInner l) fun x => { x with onDue := some (tAt + islandWay) }
  s.issueEdge p l tAt y y

/-- Ticks for which a counter holds at a boundary so that it lies `smp_offset` after a period tick (R248). -/
def State.realignTicks (s : State) (p b : Nat) : Nat :=
  let T : Int := s.innerTicks
  ((s.n (Pid.smpOffset p) - ((b : Int) - s.eng.tickAt) / tickPs) % T).toNat

/-- The initial phase of a leg (R234): `phase0`, or the automatic one. -/
def State.phaseInit (s : State) (p l : Nat) : Nat :=
  let f := s.n (Pid.phase0 l)
  if f = 0xFFFFFFFF || !s.hasPhase p l then (s.port p).topo.autoPhase (l - (s.port p).refLeg) (s.n (Pid.period0 p)) else f

/-- Place a boundary of a leg; the odd leg of a T-type pair shares it (R235). -/
def State.placeB (s : State) (p l b : Nat) : State :=
  let s := s.modLeg l fun x => { x with nextB := some b }
  s.onlyIf ((s.port p).topo = .tType) fun s => s.modLeg (l + 1) fun x => { x with nextB := some b }

/-- A leg's distance from its reference leg's boundary, 0 ≤ φ < P (R232). -/
def State.phiOf (s : State) (p k : Nat) : Nat := fitPhase (s.n (Pid.pActive p)) (s.n (Pid.phActive k)) * tickPs

/-- Place the boundaries of the other legs after a boundary `b` of the reference leg (R232). Of the legs `moved`, whose phase changed at
this boundary, one that would come less than P/2 after its last boundary comes one period later (R244). -/
def State.placeLegs (s : State) (p b : Nat) (moved : List Nat) : State :=
  let P := s.n (Pid.pActive p) * tickPs
  s.each ((s.port p).legs.filter fun k => s.hasPhase p k) fun s k =>
    let c := b + s.phiOf p k
    s.placeB p k (if moved.contains k && decide (c < (s.leg k).boundary + P / 2) then c + P else c)

/-- The carriers of a port start at a period tick (R233), plus `smp_offset` with `smp_sync`, unless a loss of lock holds them until the
port is energised again (R61). -/
def State.carrierStart (s : State) (p : Nat) : State :=
  if !s.refLocked || decide (s.n (Pid.modState p) ≠ 0) || (s.port p).noCarrier then s
  else
    let b := s.now + (if s.n (Pid.smpSync p) = 1 then s.n (Pid.smpOffset p) * tickPs else 0)
    let s := (s.setN (Pid.modState p) (if (s.port p).st.switching then 2 else 1)).setN (Pid.pActive p) (s.n (Pid.period0 p))
    let s := s.each (s.port p).legs fun s l =>
      (s.setN (Pid.phActive l) (s.phaseInit p l)).modLeg l fun x => { x with bounds := 0, nextB := none, delayed := none }
    (s.placeB p (s.port p).refLeg b).placeLegs p b []

/-- The trim of the period timer moves the carriers of a port with `smp_sync` by as much (R322, R386). -/
def State.carrierTrim (s : State) (p : Nat) (shift : Int) : State :=
  s.onlyIf (decide (s.n (Pid.smpSync p) = 1 ∧ shift ≠ 0)) fun s =>
    s.each (s.port p).legs fun s l => s.modLeg l fun x =>
      { x with boundary := (x.boundary + shift).toNat, nextB := x.nextB.map fun b => (b + shift).toNat }

/-- What a leg loads at its boundary (R241, R244): in service the reference leg's boundary loads a changed period and every changed
phase. -/
def State.boundaryLoad (s : State) (p l : Nat) : State :=
  let q := s.port p
  match s.n (Pid.modState p) with
  | 1 => s.loadPoint p l true true true
  | 2 => s.loadPoint p l true true true
  | 3 => if l = q.refLeg then (q.legs.filter fun k => s.hasSet p k).foldl (fun s k => s.loadPoint p k false (k = l) true) s else s
  | _ => s

/-- The counter of a reference leg that is to be realigned holds at its end value, and its boundary comes that much later (R248). -/
def State.realignAt (s : State) (p l b : Nat) : State :=
  let hold := s.realignTicks p b
  let s := s.modPort p fun q => { q with realign := false }
  ((s.setN (Pid.realignTicks p) hold).raise 0x0509 p hold).placeB p l (b + hold * tickPs)

/-- The counter starts anew (R231): no edge yet on its slopes, and the extra-compare words load (R246). -/
def State.countAnew (s : State) (l b : Nat) : State :=
  s.modLeg l fun x =>
    { x with
      boundary := b
      bounds := x.bounds + 1
      edgeR := false
      edgeF := false
      xcNow := (List.range 6).map fun k => s.w (Pid.xc l k)
      xsNow := (List.range 6).map fun k => s.w (Pid.xs l k) }

/-- The legs of a port whose phase differs between two states. -/
def State.phMoved (s t : State) (p : Nat) : List Nat := (s.port p).legs.filter fun k => decide (s.n (Pid.phActive k) ≠ t.n (Pid.phActive k))

/-- A leg's boundary at an instant `b` (R231, R232, R241-R244): extra-compare writes load, the leg loads what its `mod_state` takes here,
its next boundary and those of the legs that follow it are placed, and a start ends at the reference leg's second boundary. -/
def State.boundaryAt (s : State) (p l b : Nat) : State :=
  let ms := s.n (Pid.modState p)
  let isRef := decide (l = (s.port p).refLeg)
  let old := s.countAnew l b
  let s := (old.boundaryLoad p l).regionStep p l
  let s := s.modLeg l fun x => { x with upWant := decide (0 < s.effDuty p l) }
  let s := s.onlyIf (s.hasSet p l) fun s => s.placeB p l (b + s.n (Pid.pActive p) * tickPs)
  let s := s.onlyIf isRef fun s => s.placeLegs p b (if ms = 3 then old.phMoved s p else [])
  let s := s.onlyIf (decide (ms = 2) && !(s.leg l).started && s.bit (Pid.legOut l) 4 && s.hasSet p l) fun s => s.startLeg p l b
  s.onlyIf (decide (ms = 2) && isRef && decide (2 ≤ (s.leg l).bounds)) fun s => s.setN (Pid.modState p) 3

/-- The boundary of a leg in due time: a realignment pending on the reference leg of a port with `smp_sync` delays it (R248). -/
def State.boundaryDue (s : State) (p l b : Nat) : State :=
  if l ≠ (s.port p).refLeg ∨ !(s.port p).realign then s.boundaryAt p l b
  else if s.n (Pid.smpSync p) = 1 then
    let s := s.realignAt p l b
    if s.n (Pid.realignTicks p) = 0 then s.boundaryAt p l b else s
  else (s.modPort p fun q => { q with realign := false }).boundaryAt p l b

/-- CARRIER_BOUNDARY (R231): a leg has counted to its next boundary. -/
def execCarrierBoundary (t : Nat) (l : Nat) (s : State) : Out :=
  let s := s.advance t
  .next (match s.portOfLeg l, (s.leg l).nextB with
    | some p, some b => if s.n (Pid.modState p) = 0 ∨ s.now < b then s else s.boundaryDue p l b
    | _, _ => s)

/-- MID_PERIOD_LOAD (R244): with `upd_mode` 1 in service, a set that changes the period only loads it at mid-period;
the second half of the period in progress then lasts P_new/2. -/
def execMidPeriodLoad (t : Nat) (l : Nat) (s : State) : Out :=
  let s := s.advance t
  .next (match s.portOfLeg l with
    | none => s
    | some p =>
      let q := s.port p
      let old := (s.leg l).boundary
      let mid := old + s.n (Pid.pActive p) / 2 * tickPs
      let P' := s.fitPeriod p (s.n (Pid.shPeriod p))
      let same := (q.legs.filter fun k => s.hasPhase p k).all fun k => decide (fitPhase P' (s.n (Pid.shPhase k)) = s.n (Pid.phActive k))
      if decide (l = q.refLeg) && decide (s.n (Pid.modState p) = 3) && decide (s.n (Pid.updMode p) = 1) && same
          && decide (P' ≠ s.n (Pid.pActive p))
          && decide (mid ≤ s.now) && (s.leg l).nextB.all (fun b => decide (s.now < b)) then
        let s := s.loadPoint p l false true false
        let P := s.n (Pid.pActive p)
        let b := mid + P / 2 * tickPs
        let s := (s.modLeg l fun x => { x with boundary := b - P * tickPs }).placeB p l b
        s.each (q.legs.filter fun k => s.hasPhase p k && decide (old ≤ (s.leg k).boundary)) fun s k =>
          s.placeB p k (b + s.phiOf p k)
      else s)

/-- The update point of one port (R230, R240-R245): the modulator takes the pending Q-REF entry into its shadow set
while the engine writes it, and in service every leg loads its duty. -/
def State.updatePoint (s : State) (p : Nat) : State :=
  let ms := s.n (Pid.modState p)
  let s := match (s.port p).qRef with
    | some e => (s.onlyIf (decide (ms = 2 ∨ ms = 3)) fun s => s.commitShadow p e).modPort p fun q => { q with qRef := none }
    | none => s
  let s := s.nsUpdate p
  if ms = 3 then
    s.each (s.port p).legs fun s l => (s.loadPoint p l true false false).regionStep p l
  else s

/-- MOD_RELEASE (R243): accepted only in the held state with every set complete. -/
def State.doModRelease (s : State) (p : Nat) : State :=
  (s.setN (Pid.modState p) 1).raise 0x0503 p 1

/-- The condition of `mod_release`. -/
def State.modReleaseOk (s : State) (p : Nat) (v : Word) : Bool :=
  (s.port p).used && decide (v.toNat = 1) && decide (s.n (Pid.modState p) = 4) && s.allComplete p

/-- MOD_RELEASE. -/
def execModRelease (t : Nat) (role : Role) (p : Nat) (v : Word) (s : State) : Out :=
  let s := s.advance t
  .next (s.cmdRow role .service (Pid.modRelease p) v (s.modReleaseOk p v) (s.doModRelease p))

/-! ### Extra compares (R246, R247, R51) -/

/-- Kind, instant, slope and target of a compare word (R246). -/
def xKind (w : Word) : Nat := fld w.toNat 24 3
/-- Target. -/
def xTarget (w : Word) : Nat := fld w.toNat 27 4
/-- Instant count. -/
def xCount (w : Word) : Nat := fld w.toNat 0 22
/-- Slope: 0 rising, 1 falling, 2 both. -/
def xSlope (w : Word) : Nat := fld w.toNat 22 2

/-- The instants, in ps, at which a word fires in the leg's present carrier period, or at the neighbouring period
ticks for a sampling word (R247). -/
def State.xInstants (s : State) (p l : Nat) (w : Word) : List Nat :=
  let b := (s.leg l).boundary
  let P := s.n (Pid.pActive p)
  match xKind w with
  | 0 => []
  | 1 => [s.eng.tickAt, s.eng.tickAt + s.innerTicks * tickPs]
  | _ =>
    (if xSlope w ≠ 1 then [b + xCount w * tickPs] else []) ++ (if xSlope w ≠ 0 then [b + (P - xCount w) * tickPs] else [])

/-- Two instants lie less than 10 ns apart. -/
def within10ns (a b : Nat) : Bool := decide (a < b + 10000) && decide (b < a + 10000)

/-- The latest instant at which a word of compare `k` should have fired and has not (R247). -/
def State.xDue (s : State) (p l k : Nat) (share : Bool) : Option Nat :=
  let x := s.leg l
  let key := 2 * k + b01 share
  let w := (if share then x.xsNow else x.xcNow).getD k 0
  let last := ((x.fires.filter fun f => f.1 = key).map fun f => f.2 + 1).foldl max 0
  ((s.xInstants p l w).filter fun i => decide (i ≤ s.now ∧ last ≤ i)).foldl (fun a i => some (max i (a.getD 0))) none

/-- The instants at which the main word of a compare fires around the present period (R247): in it, in the next one with the word that
loads there, and where it fired last. -/
def State.xMain (s : State) (p l k : Nat) : List Nat :=
  let x := s.leg l
  let next := s.w (Pid.xc l k)
  s.xInstants p l (x.xcNow.getD k 0)
    ++ (if 2 ≤ xKind next then (s.xInstants p l next).map fun i => i + s.n (Pid.pActive p) * tickPs else [])
    ++ (x.fires.filter fun f => f.1 = 2 * k).map fun f => f.2

/-- EXTRA_COMPARE_FIRE (R247, R51): the main or the share word of a compare fires at its instant. The share word ranks lower and
loses where the main word fires within 10 ns; a compare fires at most once in 10 ns. A timed output inverts its
target; a capture trigger pulses its line for 16 ticks; the sampling word fires the groups at the period tick. -/
def execExtraCompareFire (t : Nat) (l k : Nat) (share : Bool) (s : State) : Out :=
  let s := s.advance t
  .next (match s.portOfLeg l with
    | none => s
    | some p =>
      match s.xDue p l k share with
      | none => s
      | some i =>
        let w := if share then (s.leg l).xsNow.getD k 0 else (s.leg l).xcNow.getD k 0
        let key := 2 * k + b01 share
        let busy := (s.leg l).fires.any fun f => decide (f.1 / 2 = k) && within10ns f.2 i
        if s.n (Pid.modState p) = 0 then s
        else
          let s := s.modLeg l fun x => { x with fires := (key, i) :: x.fires.filter fun f => f.1 ≠ key }
          if share && (s.xMain p l k).any (within10ns i) then
            (s.bump (Pid.xcLostCount l)).raise 0x0204 l ((if xKind w = 2 then 1 else 2) * 256 + k)
          else if busy then s
          else
            match xKind w with
            | 2 => { s with lines := s.lines.set (xTarget w) (i + 16 * tickPs) }
            | 3 => { s with dout := s.dout.set (xTarget w) (!(s.dout.getD (xTarget w) false)) }
            | _ => s.modPort p fun q => { q with smpFired := some i })

/-! ### Measured dead time (R251, R252) -/

/-- A new dead time of one commutation type (R251, R252), within the floor and the ceiling of 5 µs, in force from 1 µs after
the turn-on it was measured at. -/
def State.dtPlace (s : State) (l ty floor raw : Nat) : State :=
  let v := tickUp (min 5000000 (max floor raw))
  let s := s.onlyIf (decide (5000000 < raw)) fun s =>
    (s.bump (Pid.dtCeilCount l)).raise 0x2508 l (min raw 0xFFFFFFFF * 2 ^ 32 + ty)
  s.onlyIf (decide (s.n (Pid.dtMode l) = 0)) fun s =>
    s.modLeg l fun x => { x with waiting := x.waiting.filter (·.1 ≠ ty) ++ [(ty, (x.onAt.getD x.turnOn) + psUs, v)] }

/-- NS_CROSSING_REPORT (R251, R252): the low-side island reports the crossings, in ticks after the off
command, or an `NS` fault (R252, event 0x1604). A commutation has one outcome; that it is truncated or hard stands at the incoming
turn-on. -/
def execNsCrossingReport (t : Nat) (l : Nat) (near far : Option Nat) (fault : Bool) (s : State) : Out :=
  let s := s.advance t
  .next (match s.portOfLeg l with
    | none => s
    | some p =>
      if fault then
        let i := islLow l
        ((s.onlyIf (!(s.island i).nsFault) fun s => (s.chgIsl i fun x => { x with nsFault := true }).raise 0x1604 i 0)).dtFallback p l 1
      else if !(s.leg l).measuring || s.bit (Pid.legProt l) 0 then s
      else
        let x := s.leg l
        let ty := x.ctype
        let floor := s.n (Pid.dtFloor p) * 1000
        let margin := s.n (Pid.dtMargin p) * 1000
        let before (c : Option Nat) := c.any fun n => decide (n * tickPs < x.dtUsed)
        let crossed := before near
        let full := crossed && before far
        if !full && x.onAt.isSome then s else
        let s := s.modLeg l fun x => { x with measuring := false }
        let s :=
          if full then
            let f := far.getD 0 * tickPs
            let s := (s.setN (Pid.dtMeas l ty) f).setN (Pid.dtTrans l) (f - near.getD 0 * tickPs)
            s.dtPlace l ty floor (f + margin)
          else if crossed then
            ((s.setN (Pid.dtMeas l ty) 0xFFFFFFFE).bump (Pid.dtTruncCount l)).dtPlace l ty floor (x.dtUsed + 2 * margin)
          else (s.setN (Pid.dtMeas l ty) 0xFFFFFFFF).dtPlace l ty floor floor
        let s := s.modLeg l fun x => { x with missRun := if ty % 3 = 2 then x.missRun else if crossed then 0 else x.missRun + 1 }
        s.onlyIf (decide (s.n (Pid.nsMissN p) ≤ (s.leg l).missRun)) fun s => s.dtFallback p l 2)

/-- DT_ADAPTIVE_RESUME (R252): a leg leaves the causes of bits 0 and 3 after 1,000 consecutive usable periods. -/
def execDtAdaptiveResume (t : Nat) (l : Nat) (s : State) : Out :=
  let s := s.advance t
  .next (match s.portOfLeg l with
    | none => s
    | some p =>
      let s := s.onlyIf (decide (1000 ≤ (s.port p).dcOk)) fun s => s.dtCauseEnd p l 0
      s.onlyIf (decide (1000 ≤ (s.port p).thrOk)) fun s => s.dtCauseEnd p l 3)

end Sys2Proof.Machine
end

