-- ==== Sys2Proof/Machine/Adc.lean ====
section
/-! DEFINITION. Conversion and feedback: fast conversions and their health bits (R206-R213, R217, R218), Q-SMP
(R207, R210), supervision of the elements (R171-R175), window comparators (R214, R215, R227) and the slow converters
(R219-R226). -/

namespace Sys2Proof.Machine

/-! ### Fast conversion -/

/-- A fast channel's state. -/
def State.fch (s : State) (ch : Nat) : FastSt := s.fast.getD ch {}
/-- Change a fast channel's state. -/
def State.modFch (s : State) (ch : Nat) (f : FastSt → FastSt) : State := { s with fast := s.fast.modify ch f }

/-- The converters run: the image is in force, the PLL supplies them and a sample instant has passed (R61, R206, R207). -/
def State.sampling (s : State) : Bool := s.img.loaded && s.ref.lockedTo.isSome && decide (0 < s.eng.count)

/-- The channel failed SELF-TEST (R217). -/
def State.chFailed (s : State) (ch : Nat) : Bool := s.bit (Pid.faStatus ch) 3

/-- The input lies outside the code range (R212): `raw` is the rounded code before the clamp. -/
def codeOver (raw : Int) : Bool := decide (8191 < raw) || decide (raw < -8192)

/-- Over-range of one conversion at `inst` ps (R212): run, sticky bit, counter, event at the start of the run. A
failed channel counts nothing (R217). -/
def State.rangeStep (s : State) (ch : Nat) (raw : Int) (inst : Nat) (stamp : Word) : State :=
  if s.chFailed ch then s
  else if codeOver raw then
    let s := s.onlyIf (!(s.fch ch).run) fun s =>
      s.raise 0x1001 ch (stamp.toNat * 2 ^ 32 + (clampI (-8192) 8191 raw % 16384).toNat)
    ((s.modFch ch fun x => { x with run := true, winEnd := none }).setBit (Pid.faStatus ch) 0 true).bump (Pid.ovrCount ch)
  else if (s.fch ch).run then s.modFch ch fun x => { x with run := false, winEnd := some (inst + 200000) }
  else s

/-- The neighbours of a channel within its group of 12 (R213). -/
def neighbours (ch : Nat) : List Nat :=
  (if ch % 12 = 0 then [] else [ch - 1]) ++ (if ch % 12 = 11 then [] else [ch + 1])

/-- A window of a neighbour covers the instant (R213): from the first out-of-range conversion until 200 ns after the
first one in range, the end excluded. -/
def State.nearOver (s : State) (ch inst : Nat) : Bool :=
  (neighbours ch).any fun c => (s.fch c).run || (match (s.fch c).winEnd with
    | some e => decide (inst < e)
    | none => false)

/-- Variance of 64 codes in whole LSB² (R218). -/
def variance64 (xs : List Int) : Nat :=
  let s1 := xs.foldl (· + ·) 0
  let s2 := xs.foldl (fun a x => a + x * x) 0
  ((64 * s2 - s1 * s1) / 4096).toNat

/-- Stuck-suspect at conversion 0 (R218). `on` tells that the port modulates. -/
def State.stuckStep (s : State) (ch : Nat) (code : Int) (on : Bool) : State :=
  if s.chFailed ch then s
  else if !on then (s.modFch ch fun x => { x with codes := [], stuck := false }).setBit (Pid.faStatus ch) 2 false
  else
    let codes := (code :: (s.fch ch).codes).take 64
    let s := s.modFch ch fun x => { x with codes := codes }
    if codes.length < 64 then s
    else
      let v := variance64 codes
      let floor := s.n (Pid.stuckFloor ch)
      let was := (s.fch ch).stuck
      let stuck := decide (floor ≠ 0) && (if was then decide (v < 2 * floor) else decide (v < floor))
      let s := (s.setN (Pid.faVariance ch) v).modFch ch fun x => { x with stuck := stuck }
      let s := s.setBit (Pid.faStatus ch) 2 stuck
      s.onlyIf (stuck && !was) fun s => (s.bump (Pid.stuckCount ch)).raise 0x1002 ch v

/-- The word of conversion `i` (R209, R217), shown in `fa_status` bit 4 and kept for the capture taps (R208). -/
def State.convWord (s : State) (ch i : Nat) (raw : Int) (inst : Nat) : Word × State :=
  let near := s.nearOver ch inst
  let seq := s.n Pid.periodSeq
  let w := if s.chFailed ch then sampleWord 0 true near true ch seq
    else sampleWord (clampI (-8192) 8191 raw) (codeOver raw) near (s.fch ch).stuck ch seq
  (w, (s.setBit (Pid.faStatus ch) 4 near).modFch ch fun x => { x with convs := x.convs.take i ++ [w] })

/-- The instant of conversion `i` of a group (R208). -/
def State.convInst (s : State) (g i : Nat) : Nat :=
  s.eng.tickAt + i * (s.tInnerNs * 1000 / s.n (Pid.grpOs g) / tickPs * tickPs)

/-- FAST_CONVERSION (R208): conversion i of a group, at i·Δ after the sample instant; it never reaches Q-SMP. -/
def execFastConversion (t : Nat) (g i : Nat) (raws : List Int) (s : State) : Out :=
  let s := s.advance t
  let inst := s.convInst g i
  .next (if !s.sampling || (s.portOfGroup g).isNone || i = 0 || decide (s.n (Pid.grpOs g) ≤ i) || decide (s.now < inst) then s
    else
      let cs := ((List.range 12).map (12 * g + ·)).zip raws
      let s := cs.foldl (fun s c => s.rangeStep c.1 c.2 inst (s.stampAt inst)) s
      cs.foldl (fun s c => (s.convWord c.1 i c.2 inst).2) s)

/-! ### Supervision (R171-R175) -/

/-- The supervision of an element after a period whose first failing test was `tst` (0 for a usable sample). -/
def FbEl.next (e : FbEl) (tst : Nat) : FbEl :=
  if tst = 0 then { e with bad := 0, good := e.good + 1 }
  else { e with bad := e.bad + 1, good := 0, test := if e.bad = 0 then tst else e.test }

/-- The supervised element, fresh where none is listed. -/
def PortSt.fbEl (q : PortSt) (role elem : Nat) : FbEl :=
  (q.fb.find? fun e => e.role = role ∧ e.elem = elem).getD { role := role, elem := elem }

/-- Event context of R183 for an element. -/
def fbCtx (e : FbEl) : Nat := e.test * 65536 + e.role * 256 + e.elem

/-- One period of supervision (R171, R172): the run of each element, event 0x1C06 at the start of a run of
substitution, `fb_subst_count`, `fb_state`, the injection (R179) and the dead-time fallback (R252 bit 0). -/
def State.supervise (s : State) (p : Nat) (tst : Nat → Nat → Nat → Nat) : State :=
  if (s.port p).st.atRest then s
  else
    let els := s.elems p
    let old := (s.port p).fb
    let step := els.map fun e => ((s.port p).fbEl e.1 e.2.1).next (tst e.1 e.2.1 e.2.2)
    let s := s.modPort p fun q => { q with fb := step }
    let s := step.foldl (fun s e =>
      s.onlyIf (decide (e.bad = 1) && !e.lost && !(old.any fun o => o.role = e.role && o.elem = e.elem && decide (o.bad ≠ 0)))
        fun s => s.raise 0x1C06 p (fbCtx e)) s
    let subst := step.any fun e => decide (e.bad ≠ 0) || e.lost
    let s := (s.fbShow p).onlyIf subst fun s => s.bump (Pid.fbSubstCount p)
    let s := s.onlyIf ((step.any fun e => decide (e.bad ≠ 0)) && decide (s.inj.port = p)) fun s => s.injAbort 6
    let dcBad := step.any fun e => e.role = 5 && (decide (e.bad ≠ 0) || e.lost)
    let s := s.modPort p fun q => { q with dcOk := if dcBad then 0 else q.dcOk + 1 }
    s.onlyIf dcBad fun s => s.dtFallbackPort p 0

/-- The words of an entry that are of this period: any other is no entry (R210). -/
def State.freshWords (s : State) (ws : List (Nat × Word)) : List (Nat × Word) :=
  ws.filter fun w => fld w.2.toNat 0 8 = s.n Pid.periodSeq % 256

/-- The measured value of a channel from the words of an entry. -/
def State.entryPu (s : State) (ws : List (Nat × Word)) (ch : Nat) : Option Int :=
  (ws.find? fun w => w.1 = ch).map fun w => s.chanPu ch (sampleCode w.2)

/-- The value in a list of elements. -/
def valOf (vs : List (Nat × Nat × Int)) (role elem : Nat) : Option Int :=
  (vs.find? fun v => v.1 = role && v.2.1 = elem).map fun v => v.2.2

/-- What the lanes read of an element in a period (R171, R172, R173): its measurement, or while it is unusable or lost the observer's
prediction on roles 0x01 to 0x03 of an AC port, the sum `legs` of the leg currents for role 0x07, and else its last value. It returns
to its measurement in the first period whose sample is usable (R175; DESIGN CHOICE, log 32). -/
def State.elemVal (s : State) (p : Nat) (ws : List (Nat × Word)) (legs : Int) (e : Nat × Nat × Nat) : Nat × Nat × Int :=
  let q := s.port p
  let last := (valOf q.vals e.1 e.2.1).getD 0
  let subst := if e.1 ≤ 3 ∧ !s.isDc p then (valOf q.pred e.1 e.2.1).getD last else if e.1 = 7 then legs else last
  let f := q.fbEl e.1 e.2.1
  (e.1, e.2.1, if !q.st.atRest && (decide (f.bad ≠ 0) || f.lost) then subst else (s.entryPu ws e.2.2).getD last)

/-- The values of a period; the sum for role 0x07 is of this period's leg currents (R173). -/
def State.elemVals (s : State) (p : Nat) (ws : List (Nat × Word)) : List (Nat × Nat × Int) :=
  let legs := (((s.elems p).filter fun e => e.1 = 1).map (s.elemVal p ws 0)).foldl (fun a v => a + v.2.2) 0
  (s.elems p).map (s.elemVal p ws legs)

/-- The three line-to-line voltages of the filter capacitor: of three phase channels, or of the two between ab and bc (R92). -/
def lineVolts (vs : List (Nat × Nat × Int)) : Int × Int × Int :=
  let v := fun k => (valOf vs 2 k).getD 0
  if (valOf vs 2 2).isSome then (v 0 - v 1, v 1 - v 2, v 2 - v 0) else (v 0, v 1, -(v 0 + v 1))

/-- Inner periods in half a cycle of `f_nom` (R138), rounded (DESIGN CHOICE, log 30). -/
def State.halfCycle (s : State) (p : Nat) : Nat :=
  (rneDiv 1000000000000000 (2 * max 1 (s.n (Pid.fNom p)) * (s.tInnerNs * 1000))).toNat

/-- Take the values of a period, and on an AC port its line-to-line voltages (R138). -/
def State.takeVals (s : State) (p : Nat) (ws : List (Nat × Word)) : State :=
  let vs := s.elemVals p ws
  s.modPort p fun q => { q with vals := vs, lls := if s.isDc p then [] else (lineVolts vs :: q.lls).take (s.halfCycle p) }

/-- Runs of the sum test (R171): roles 0x01 and 0x03, with three elements or more. A DC port has none: the currents of its legs need
not cancel (DESIGN CHOICE, log 32). -/
def State.sumRuns (s : State) (p : Nat) (ws : List (Nat × Word)) : List (Nat × Nat) :=
  if s.isDc p then []
  else [1, 3].map fun r =>
    let es := (s.elems p).filter fun e => e.1 = r
    let vs := es.filterMap fun e => s.entryPu ws e.2.2
    let old := (((s.port p).sumBad.find? fun x => x.1 = r).getD (r, 0)).2
    let far := decide (vs.length = es.length) && decide (3 ≤ es.length) &&
      decide (s.z (Pid.fbSumTol p) < (vs.foldl (· + ·) 0).natAbs)
    (r, if far then old + 1 else 0)

/-- Runs of the residual test (R171): roles 0x01 to 0x03 of an AC port, against the observer's prediction. -/
def State.residRuns (s : State) (p : Nat) (ws : List (Nat × Word)) : List ((Nat × Nat) × Nat) :=
  if s.isDc p then []
  else ((s.elems p).filter fun e => decide (e.1 ≤ 3)).map fun e =>
    let old := (((s.port p).residBad.find? fun x => x.1 = (e.1, e.2.1)).getD ((0, 0), 0)).2
    let far := match s.entryPu ws e.2.2, valOf (s.port p).pred e.1 e.2.1 with
      | some v, some x => decide (s.z (Pid.fbResidTol p) < (v - x).natAbs)
      | _, _ => false
    ((e.1, e.2.1), if far then old + 1 else 0)

/-- The first failing test of an element against the usable words of an entry (R171): 1 over-range, 2 neighbour, 3 stuck, 4 no
entry, 5 sum, 6 residual. -/
def State.entryTest (s : State) (p : Nat) (ws : List (Nat × Word)) (r el ch : Nat) : Nat :=
  match ws.find? fun w => w.1 = ch with
  | none => 4
  | some w =>
    let n := s.n (Pid.fbPlausN p)
    if w.2.getLsbD 17 then 1
    else if w.2.getLsbD 16 then 2
    else if w.2.getLsbD 15 then 3
    else if (s.port p).sumBad.any fun x => x.1 = r && decide (n ≤ x.2) then 5
    else if (s.port p).residBad.any fun x => x.1 = (r, el) && decide (n ≤ x.2) then 6
    else 0

/-- The sequence check of R210 over the words of an entry, by group. -/
def State.seqCheck (s : State) (p : Nat) (ws : List (Nat × Word)) : State :=
  s.each (s.port p).groups fun s g =>
    let want := s.n Pid.periodSeq % 256
    match ws.filter fun w => w.1 / 12 = g && fld w.2.toNat 0 8 ≠ want with
    | [] => { s with seqRun := s.seqRun.filter (· ≠ g) }
    | w :: bad =>
      let s := s.bumpBy (Pid.grpSeqErr g) (bad.length + 1)
      if s.seqRun.contains g then s
      else { s with seqRun := g :: s.seqRun }.raise 0x1004 g (want * 256 + fld w.2.toNat 0 8)

/-- Push an entry into Q-SMP (R38): depth 2, the oldest overwritten. -/
def State.pushSmp (s : State) (p : Nat) (e : SmpEntry) : State :=
  match (s.port p).qSmp with
  | a :: b :: _ =>
    let s := s.modPort p fun q => { q with qSmp := [{ b with ovw := true }, e], smpOvr := q.smpOvr + 1 }
    (s.qLost p).raise 0x1201 p (min (s.port p).smpOvr 0xFFFFFFFF * 2 ^ 32 + a.stamp.toNat)
  | l => (s.modPort p fun q => { q with qSmp := l ++ [e] }).highWater p (l.length + 1)

/-- The words that conversion 0 of each channel sends into the entry: its own, or with a frozen transfer the one sent before
(R210). -/
def State.sendWords (s : State) (cs : List (Nat × Int × Bool)) : List (Nat × Word) × State :=
  cs.foldl (fun a c =>
    let (w, s) := a.2.convWord c.1 0 c.2.1 s.eng.tickAt
    let w := if c.2.2 then s.w (Pid.faLast c.1) else w
    (a.1 ++ [(c.1, w)], s.setW (Pid.faLast c.1) w)) ([], s)

/-- Judge the first entry of a period (R171, R172). -/
def State.judgeEntry (s : State) (p : Nat) (ws : List (Nat × Word)) : State :=
  let s := s.modPort p fun q => { q with smpSeen := true }
  let ok := s.freshWords ws
  let runs := s.modPort p fun q => { q with sumBad := s.sumRuns p ok, residBad := s.residRuns p ok }
  let s := s.onlyIf (!(s.port p).st.atRest) fun _ => runs.supervise p fun r el ch => runs.entryTest p ok r el ch
  s.takeVals p ok

/-- SAMPLE_ENTRY (R207): conversion 0 of every group of the port, at the end of the conversion window. `samples` gives, channel
by channel in ascending order, the rounded code before the clamp, and `frozen` whether its transfer is frozen. The first entry of a period is
the one that is supervised. -/
def execSampleEntry (t : Nat) (p : Nat) (samples : List Int) (frozen : List Bool) (s : State) : Out :=
  let s := s.advance t
  .next (if !s.sampling || !(s.port p).used || decide (s.now < s.eng.tickAt + s.convWin) then s
    else
      let on := (s.port p).st.switching
      let cs := (s.portChans p).zip (samples.zip frozen)
      let s := cs.foldl (fun s c => s.rangeStep c.1 c.2.1 s.eng.tickAt s.eng.tickStamp) s
      let s := cs.foldl (fun s c => s.stuckStep c.1 (clampI (-8192) 8191 c.2.1) on) s
      let r := s.sendWords cs
      let s := (r.2.pushSmp p ⟨s.eng.tickStamp, r.1.map fun w => w.2, false⟩).seqCheck p r.1
      s.onlyIf (!(s.port p).smpSeen) fun s => s.judgeEntry p r.1)

/-- The roles whose loss stops the port (R173). -/
def State.lossStops (s : State) (p role : Nat) : Bool :=
  decide (role = 1 ∨ role = 3 ∨ role = 6) || (role = 5 && !s.isDc p)

/-- The roles whose loss opens the loop (R173, R174). -/
def State.lossOpens (s : State) (p role : Nat) : Bool := (role = 2 && !s.isDc p) || (role = 5 && s.isDc p)

/-- FEEDBACK_LOST (R172, R173): an element unusable for 16 consecutive periods is lost. PORT-STOP wins over open
loop where both losses fall in one period. A loss of roles 0x04 and 0x07 changes no port state. -/
def execFeedbackLost (t : Nat) (p role elem : Nat) (s : State) : Out :=
  let s := s.advance t
  let q := s.port p
  .next (match q.fb.find? fun e => e.role = role ∧ e.elem = elem ∧ 16 ≤ e.bad ∧ e.lost = false with
    | none => s
    | some e =>
      if !q.used || q.st.atRest then s
      else
        let s := s.modPort p fun q => { q with fb := q.fb.map fun x => if x.role = role ∧ x.elem = elem then { x with lost := true } else x }
        let s := (s.bump (Pid.fbLostCount p)).fbShow p
        let stops := s.lossStops p role
        let other := q.fb.any fun x => s.lossStops p x.role && decide (16 ≤ x.bad)
        if stops then
          ((s.raise 0x4C07 p (fbCtx e)).modPort p fun q => { q with fbBlocked := true }).faultPend p 0x4C07
        else if s.lossOpens p role && q.openLoop.isNone && !q.stopPend && !other then
          (((s.modPort p fun q => { q with openLoop := some s.eng.count })).raise 0x1C08 p (role * 256 + elem)).fbShow p
        else s)

/-- FEEDBACK_RECOVER (R174, R175): the lost quantity has been usable for `fb_recover` consecutive periods. -/
def execFeedbackRecover (t : Nat) (p role : Nat) (s : State) : Out :=
  let s := s.advance t
  let q := s.port p
  let n := s.n (Pid.fbRecover p)
  let es := q.fb.filter fun e => e.role = role
  .next (if !q.used || q.st.atRest then s
    else match q.openLoop with
      | some from_ =>
        if s.lossOpens p role && es.any (fun e => e.lost) && es.all fun e => decide (n ≤ e.good) then
          let s := s.modPort p fun q =>
            { q with openLoop := none, fb := q.fb.map fun e => if e.role = role then { e with lost := false } else e }
          (s.raise 0x0C09 p (min (s.eng.count - from_) 0xFFFFFFFF)).fbShow p
        else if role = 4 || role = 7 then
          (s.modPort p fun q => { q with fb := q.fb.map fun e => if e.role = role ∧ n ≤ e.good then { e with lost := false } else e }).fbShow p
        else s
      | none =>
        if role = 4 || role = 7 then
          (s.modPort p fun q => { q with fb := q.fb.map fun e => if e.role = role ∧ n ≤ e.good then { e with lost := false } else e }).fbShow p
        else s)

/-! ### Window comparators (R214, R215) -/

/-- The legs a firing of the channel acts on (R215). -/
def State.winLegs (s : State) (p ch : Nat) : List Nat :=
  let q := s.port p
  if s.n (Pid.winTarget ch) = 1 then (q.legs.drop (s.n (Pid.faRole ch) / 256 % 256)).take 1 else q.legs

/-- The island named for a leg: the one that is on, else the high-side island. -/
def State.onIsland (s : State) (l : Nat) : Nat := if (s.island (islLow l)).on && !(s.island (islHigh l)).on then islLow l else islHigh l

/-- WINDOW_COMPARATOR_FIRE (R214, R215, R267): soft turn-off of every switch that is on in the target legs, and a leg
fault of cause 0x04 in each. It needs no PLL (R62); the channels of an unowned group are disarmed (R206). -/
def execWindowComparatorFire (t : Nat) (ch : Nat) (upper : Bool) (s : State) : Out :=
  let s := s.advance t
  .next (match s.portOfGroup (ch / 12) with
    | none => s
    | some p =>
      if s.bit (Pid.faStatus ch) 5 then s
      else
        let s := ((s.setBit (Pid.faStatus ch) 1 true).setBit (Pid.faStatus ch) 5 true).bump (Pid.winCount ch)
        let s := s.raise 0x1003 ch (s.n (Pid.winTarget ch) * 256 + (if upper then 1 else 2))
        let ls := s.winLegs p ch
        (s.legFaults (ls.map fun l => (l, 4, s.onIsland l)) (ls.flatMap fun l => [islHigh l, islLow l])).protSources p)

/-- WINDOW_COMPARATOR_RELEASE (R214). -/
def execWindowComparatorRelease (t : Nat) (ch : Nat) (s : State) : Out :=
  let s := s.advance t
  .next (match s.portOfGroup (ch / 12) with
    | none => s
    | some p => (s.setBit (Pid.faStatus ch) 5 false).protSources p)

/-- A channel of the variant (R2). -/
def State.chanExists (s : State) (ch : Nat) : Bool := decide (ch < if s.fourP then 48 else 24)

/-- The condition of `fa_clear` (R227). -/
def State.faClearOk (s : State) (ch : Nat) (v : Word) : Bool :=
  s.chanExists ch && decide (v.toNat = 1) && !s.bit (Pid.faStatus ch) 5

/-- Clear the sticky bits (R227). -/
def State.doFaClear (s : State) (ch : Nat) : State := (s.setBit (Pid.faStatus ch) 0 false).setBit (Pid.faStatus ch) 1 false

/-- FA_CLEAR (R227). -/
def execFaClear (t : Nat) (role : Role) (ch : Nat) (v : Word) (s : State) : Out :=
  let s := s.advance t
  .next (s.cmdRow role .service (Pid.faClear ch) v (s.faClearOk ch v) (s.doFaClear ch))

/-! ### Slow conversion (R219-R226) -/

/-- A modulator. -/
def State.smod (s : State) (m : Nat) : ModSt := s.mods.getD m {}
/-- Change a modulator. -/
def State.modSmod (s : State) (m : Nat) (f : ModSt → ModSt) : State := { s with mods := s.mods.modify m f }
/-- Change a slow channel. -/
def State.modSch (s : State) (ch : Nat) (f : SlowSt → SlowSt) : State := { s with slow := s.slow.modify ch f }

/-- The used channels of a modulator in ascending order (R219, R221). -/
def State.smChans (s : State) (m : Nat) : List Nat :=
  ((List.range 8).map (8 * m + ·)).filter fun ch => s.n (Pid.saRole ch) ≠ 0

/-- Conversion time of a slow channel in ps (R220), N·D at f_mod = 8.192 MHz/`sa_div`. -/
def State.convPs (s : State) (ch : Nat) : Nat :=
  40 * psUs + s.n (Pid.saOrder ch) * s.n (Pid.saDecim ch) * s.n (Pid.saDiv ch) * psS / 8192000

/-- Interpolation over the distinct points of a table (R224): value and outside flag. -/
def tabGo (code : Int) : (Int × Int) → List (Int × Int) → Int × Bool
  | (c0, t0), [] => (t0, decide (c0 * 256 < code))
  | (c0, t0), (c1, t1) :: rest =>
    if code < c0 * 256 then (t0, true)
    else if code ≤ c1 * 256 ∧ c0 < c1 then
      (t0 + rneDiv ((t1 - t0) * (code - c0 * 256)) ((c1 - c0) * 256).toNat, false)
    else tabGo code (c1, t1) rest

/-- The value of a slow code (R224): a temperature by the table for roles 0x02 and 0x03, else µV. -/
def State.slowValue (s : State) (ch : Nat) (code : Int) : Int × Bool :=
  let r := s.n (Pid.saRole ch) % 256
  if r = 2 ∨ r = 3 then
    let pts := (List.range 16).map fun k =>
      let w := s.w (Pid.saTab ch k)
      ((w.extractLsb' 16 16).toInt, (w.extractLsb' 0 16).toInt)
    match pts with
    | [] => (0, true)
    | a :: rest => if code < a.1 * 256 then (a.2, true) else tabGo code a rest
  else (rneDiv (code * 2500000) 8388608, false)

/-- The next channel of the scan, or its end; `sm_scan_time` is rounded to nearest (R221, as its example shows). -/
def State.nextSlow (s : State) (m ch : Nat) : State :=
  match (s.smChans m).find? fun c => decide (ch < c) with
  | some c => s.modSmod m fun x => { x with chan := some c, chanFrom := s.now }
  | none =>
    let s := s.setN (Pid.smScanTime m) (rneDiv (s.now - (s.smod m).scanFrom.getD s.now : Nat) psUs).toNat
    s.modSmod m fun x => { x with chan := none, scanFrom := none }

/-- Write a slow result (R222-R225): word, value, status bits and the limit check of a usable value. -/
def State.slowResult (s : State) (ch : Nat) (code : Int) (ovr : Bool) : State :=
  let failed := s.bit (Pid.saStatus ch) 2
  let code := if failed then 0 else code
  let (v, out) := s.slowValue ch code
  let s := s.setW (Pid.saCode ch) (slowWord code ovr out failed ch)
  let s := s.setZ (Pid.saValue ch) v
  let s := (((s.setBit (Pid.saStatus ch) 0 ovr).setBit (Pid.saStatus ch) 1 false).setBit (Pid.saStatus ch) 3 out)
  let s := s.modSch ch fun x => { x with at_ := some s.now, stampV := s.stamp, staleTold := false }
  if ovr || out || failed then s
  else
    let lo := decide (v < s.z (Pid.saLimLo ch))
    let hi := decide (s.z (Pid.saLimHi ch) < v)
    let was := (s.slow.getD ch {}).outside
    let s := (s.setBit (Pid.saStatus ch) 4 lo).setBit (Pid.saStatus ch) 5 hi
    let s := s.modSch ch fun x => { x with outside := lo || hi }
    s.onlyIf ((lo || hi) && !was) fun s =>
      (s.raise 0x1102 ch (u32z v * 2 ^ 32 + (if lo then 1 else 2))).bump (Pid.saLimitCount ch)

/-- Over-range of a slow conversion (R223): result, counters, event, and the next channel of the scan. -/
def State.slowOver (s : State) (ch : Nat) (high : Bool) : State :=
  let m := ch / 8
  let s := s.slowResult ch (if high then 8388607 else -8388608) true
  let s := (s.bump (Pid.saOvrCount ch)).bump (Pid.smResetCount m)
  (s.raise 0x1101 ch (s.stamp.toNat * 2 ^ 32 + (if high then 1 else 2))).nextSlow m ch

/-- SLOW_SCAN_START (R221): a scan starts every `sm_scan`; a modulator with no used channel never powers up. -/
def execSlowScanStart (t : Nat) (m : Nat) (s : State) : Out :=
  let s := s.advance t
  let x := s.smod m
  let due := match x.lastScan with
    | some l => decide (l + s.n (Pid.smScan m) * psMs ≤ s.now)
    | none => true
  .next (match s.smChans m with
    | [] => s
    | c :: _ =>
      if s.img.loaded && s.ref.lockedTo.isSome && due && x.scanFrom.isNone && decide (m < 4) then
        s.modSmod m fun x => { x with lastScan := some s.now, scanFrom := some s.now, chan := some c, chanFrom := s.now }
      else s)

/-- SLOW_CONVERSION_DONE (R220, R222, R223): the N-th filter output; one beyond full scale is an over-range. -/
def execSlowConversionDone (t : Nat) (ch : Nat) (code : Int) (s : State) : Out :=
  let s := s.advance t
  let x := s.smod (ch / 8)
  .next (if x.chan = some ch && decide (x.chanFrom + s.convPs ch ≤ s.now) then
      if 8388607 < code then s.slowOver ch true
      else if code < -8388608 then s.slowOver ch false
      else (s.slowResult ch code false).nextSlow (ch / 8) ch
    else s)

/-- SLOW_OVER_RANGE (R223): the output bit has kept one value for 32 clocks of the modulator. -/
def execSlowOverRange (t : Nat) (ch : Nat) (high : Bool) (s : State) : Out :=
  let s := s.advance t
  let x := s.smod (ch / 8)
  .next (if x.chan = some ch && decide (x.chanFrom + 40 * psUs + 32 * s.n (Pid.saDiv ch) * psS / 8192000 ≤ s.now) then s.slowOver ch high else s)

/-- SLOW_RESULT_STALE (R225): a result older than 2 · `sm_scan`, told once. -/
def execSlowResultStale (t : Nat) (ch : Nat) (s : State) : Out :=
  let s := s.advance t
  let x := s.slow.getD ch {}
  .next (match x.at_ with
    | some a =>
      if !x.staleTold && decide (s.n (Pid.saRole ch) ≠ 0) && decide (a + 2 * s.n (Pid.smScan (ch / 8)) * psMs < s.now) then
        ((s.setBit (Pid.saStatus ch) 1 true).modSch ch fun x => { x with staleTold := true }).raise 0x1103 ch ((s.now - a) / psMs)
      else s
    | none => s)

end Sys2Proof.Machine
end

