-- ==== Sys2Proof/Machine/Trig.lean ====
section
/-! DEFINITION. The functions of angles and magnitudes that the lanes and the injection need (R155, R161, R177, R180): sine, arc
tangent, logarithm, power and integer roots, in whole-number arithmetic with 90 fraction bits or more, rounded once at the end. -/

namespace Sys2Proof.Machine

/-! ### Sine (R14, R161) -/

/-- One with 90 fraction bits. -/
def one90 : Int := 2 ^ 90

/-- π/2 with 90 fraction bits. -/
def halfPi90 : Int := 1944551666501805353363452692

/-- The terms of a series whose n-th term is the one before times `y` over `den n`. -/
def series (y : Int) (den : Nat → Int) : Nat → Nat → Int → Int
  | 0, _, _ => 0
  | fuel + 1, n, term => term + series y den fuel (n + 1) (term * y / one90 / den n)

/-- Sine of an angle within a quarter turn, in radians with 90 fraction bits. -/
def sinRad (x : Int) : Int := series (-(x * x / one90)) (fun n => (2 * n + 2) * (2 * n + 3)) 20 0 x

/-- Cosine of an angle within a quarter turn. -/
def cosRad (x : Int) : Int := series (-(x * x / one90)) (fun n => (2 * n + 1) * (2 * n + 2)) 20 0 one90

/-- Sine of a phase in 2^-64 turns, 90 fraction bits. -/
def sin90 (a : Nat) : Int :=
  let x := ((a % 2 ^ 62 : Nat) : Int) * halfPi90 / 2 ^ 62
  match a / 2 ^ 62 % 4 with
  | 0 => sinRad x
  | 1 => cosRad x
  | 2 => -(sinRad x)
  | _ => -(cosRad x)

/-- Cosine of a phase in 2^-64 turns. -/
def cos90 (a : Nat) : Int := sin90 (a + 2 ^ 62)

/-- The phase of an angle word (R14). -/
def phaseOfAngle (a : Int) : Nat := (a % 2 ^ 32).toNat * 2 ^ 32

/-- Sine of an angle word in Q4.27. -/
def sin27 (a : Int) : Int := rneDiv (sin90 (phaseOfAngle a)) (2 ^ 63)

/-- Cosine of an angle word in Q4.27. -/
def cos27 (a : Int) : Int := rneDiv (cos90 (phaseOfAngle a)) (2 ^ 63)

/-- The angle of a vector by halving the turn: the largest phase of `fuel` bits whose direction the vector has passed. -/
def angleGo (x y : Int) : Nat → Nat → Nat → Nat
  | 0, _, a => a
  | fuel + 1, step, a =>
    let b := a + step
    angleGo x y fuel (step / 2) (if 0 ≤ y * cos90 b - x * sin90 b then b else a)

/-- The angle of a vector in 2^-32 turns, rounded to nearest; 0 for the zero vector. -/
def angleOf (x y : Int) : Int :=
  if x = 0 ∧ y = 0 then 0
  else
    let a := if 0 ≤ y then angleGo x y 40 (2 ^ 62) 0 else 2 ^ 63 + angleGo (-x) (-y) 40 (2 ^ 62) 0
    (wordOfInt (rneDiv a (2 ^ 32))).toInt

/-! ### Logarithm and power (R177, R180) -/

/-- Fraction bits of a logarithm by repeated squaring: `m` in 1 to 2 with 90 fraction bits. -/
def logGo : Nat → Int → Int → Int
  | 0, _, acc => acc
  | fuel + 1, m, acc =>
    let s := m * m / one90
    if 2 * one90 ≤ s then logGo fuel (s / 2) (2 * acc + 1) else logGo fuel s (2 * acc)

/-- Logarithm to base 2 of n/d, both positive, with 70 fraction bits. -/
def log2Of (n d : Nat) : Int :=
  let k : Int := (Nat.log2 n : Int) - Nat.log2 d
  let m : Int := if 0 ≤ k then ((n * 2 ^ 90 / (d * 2 ^ k.toNat) : Nat) : Int) else ((n * 2 ^ (-k).toNat * 2 ^ 90 / d : Nat) : Int)
  let (k, m) := if m < one90 then (k - 1, 2 * m) else if 2 * one90 ≤ m then (k + 1, m / 2) else (k, m)
  k * 2 ^ 70 + logGo 70 m 0

/-- ln 2 with 90 fraction bits. -/
def ln2q90 : Int := 858074647932929271111585486

/-- 2 to a power with 70 fraction bits, at least 0: 90 fraction bits. -/
def exp2Of (z : Int) : Int :=
  let f := z % 2 ^ 70 * 2 ^ 20
  series (f * ln2q90 / one90) (fun n => n + 1) 30 0 one90 * 2 ^ (z / 2 ^ 70).toNat

/-- Largest r below 2^`fuel` above `r` with r^k at most n. -/
def rootGo (n k : Nat) : Nat → Nat → Nat
  | 0, r => r
  | fuel + 1, r =>
    let c := r + 2 ^ fuel
    rootGo n k fuel (if c ^ k ≤ n then c else r)

/-- The k-th root of a number below 2^(32 k), rounded to nearest. -/
def rootRound (n k : Nat) : Nat := (rootGo (2 ^ k * n) k 33 0 + 1) / 2

end Sys2Proof.Machine
end

