-- ==== Sys2Proof/Machine/Blocks.lean ====
section
/-! DEFINITION. The block library of the law graphs (R155): what each type computes from its inputs, constants and state words.
Values between blocks are signed 32-bit words, accumulators Q8.39 (R161). The order of inputs, constants and state words that the
table leaves to the builder is the model's (DESIGN CHOICE, log 45). -/

namespace Sys2Proof.Machine

/-! ### Numbers (R161, R162) -/

/-- An exact product of two Q4.27 values, rounded once into an accumulator. -/
def prodAcc (a b : Int) : Int := satAcc (rneDiv (a * b) 32768)

/-- The quotient of two Q4.27 values in an accumulator; the divisor is not 0. -/
def quotAcc (a d : Int) : Int := satAcc (rneDiv (a * one39 * sgn d) d.natAbs)

/-- Length of a vector of Q4.27 values, rounded to nearest (R161). -/
def mag27 (a b : Int) : Int := sqrtRound (a * a + b * b).natAbs 1

/-- What a block yields: its results in accumulators, as angles or as flags, and its state words. -/
structure BlockRes where
  accs : List Int := []
  words : List Int := []
  cells : List Int := []
  deriving DecidableEq, Repr

/-- The outputs of a block: accumulators rounded and saturated, after them the words that need no rounding. -/
def BlockRes.outs (r : BlockRes) : List Int := r.accs.map q27OfAcc ++ r.words

/-- How many outputs saturate (R162). -/
def BlockRes.sats (r : BlockRes) : Nat := (r.accs.filter fun z => decide (rneDiv z 4096 ≠ q27OfAcc z)).length

/-- The k-th value of a list, 0 where there is none. -/
def nthI (l : List Int) (k : Nat) : Int := l.getD k 0

/-! ### Vectors (R125, R128) -/

/-- The magnitudes of R128: `a`, `b` of the reference against the limit `L`, by `neg_seq_prio` and `neg_share_max`. -/
def satMags (a b L prio share : Int) : Int × Int :=
  if a + b ≤ L then (a, b)
  else if prio = 0 then (rneDiv (a * L) (a + b).toNat, rneDiv (b * L) (a + b).toNat)
  else if prio = 1 then
    let a' := min a L
    (a', min b (L - a'))
  else
    let a' := min a (L - min b (q27OfAcc (prodAcc share L)))
    (a', min b (L - a'))

/-- A vector brought from one magnitude to another in its own direction. -/
def scaleVec (v : Int × Int) (old new : Int) : Int × Int :=
  if old = new ∨ old ≤ 0 then v else (rneDiv (v.1 * new) old.toNat, rneDiv (v.2 * new) old.toNat)

/-- Rotation by an angle (PARK), in accumulators. -/
def parkAcc (a b θ : Int) : Int × Int :=
  (satAcc (prodAcc a (cos27 θ) + prodAcc b (sin27 θ)), satAcc (prodAcc b (cos27 θ) - prodAcc a (sin27 θ)))

/-- Rotation back (INVPARK). -/
def invParkAcc (d q θ : Int) : Int × Int :=
  (satAcc (prodAcc d (cos27 θ) - prodAcc q (sin27 θ)), satAcc (prodAcc d (sin27 θ) + prodAcc q (cos27 θ)))

/-- 1/√3 in Q4.27. -/
def invSqrt3 : Int := 77490641

/-- abc to αβ0, amplitude-invariant (R125). -/
def clarkeAcc (a b c : Int) : List Int :=
  [rneDiv ((2 * a - b - c) * 4096) 3, prodAcc (b - c) invSqrt3, rneDiv ((a + b + c) * 4096) 3]

/-- p and q of R93 in accumulators. -/
def dqPower (vd vq id iq : Int) : Int × Int :=
  (satAcc (prodAcc vd id + prodAcc vq iq), satAcc (prodAcc vq id - prodAcc vd iq))

/-- The voltage reference of R98 in accumulators, from E, ω, R, X and the output current. -/
def virtZ (e w R X id iq : Int) : Int × Int :=
  let wX := q27OfAcc (prodAcc w X)
  (satAcc (accOf27 e - prodAcc R id + prodAcc wX iq), satAcc (-(prodAcc R iq) - prodAcc wX id))

/-- Linear interpolation in a table of points with rising abscissae. -/
def lookupGo (x : Int) : Int × Int → List (Int × Int) → Int
  | p, [] => p.2
  | p, n :: rest =>
    if x ≤ p.1 then p.2
    else if x < n.1 then p.2 + rneDiv ((n.2 - p.2) * (x - p.1)) (n.1 - p.1).toNat
    else lookupGo x n rest

/-- Pairs of a flat list. -/
def pairsOf : List Int → List (Int × Int)
  | a :: b :: l => (a, b) :: pairsOf l
  | _ => []

/-! ### The types (R155) -/

/-- Types that carry state (R155). -/
def carriesState (typ : Nat) : Bool := decide (0x13 ≤ typ ∧ typ ≤ 0x1D) || [0x24, 0x25].contains typ

/-- Stateless arithmetic, 0x01 to 0x0C and 0x23. -/
def arithBlock (typ : Nat) (cs is : List Int) : BlockRes :=
  let a := nthI is 0
  let b := nthI is 1
  let c := nthI is 2
  let k := nthI cs 0
  match typ with
  | 0x01 => { accs := [accOf27 (a + b)] }
  | 0x02 => { accs := [accOf27 (a - b)] }
  | 0x03 => { accs := [prodAcc a b] }
  | 0x04 => { accs := [satAcc (prodAcc a b + accOf27 c)] }
  | 0x05 => { accs := [prodAcc k a] }
  | 0x06 => { accs := [quotAcc a (if divFloor b k = 0 then 1 else divFloor b k)] }
  | 0x07 => { words := [isqrt (a * one27).toNat] }
  | 0x08 => { accs := [accOf27 a.natAbs] }
  | 0x09 => { words := [min a b] }
  | 0x0A => { words := [max a b] }
  | 0x0B => { words := [clampI b c a] }
  | 0x0C => { words := [if a ≠ 0 then b else c] }
  | _ => { accs := [accOf27 (mag27 a b)] }

/-- Transforms and power, 0x0D to 0x12, 0x1E, 0x1F and 0x22. -/
def vectorBlock (typ : Nat) (cs is : List Int) : BlockRes :=
  let x := nthI is
  match typ with
  | 0x0D => { accs := clarkeAcc (x 0) (x 1) (x 2) }
  | 0x0E => { accs := [accOf27 (x 0), prodAcc (x 0 + 2 * x 1) invSqrt3] }
  | 0x0F => let r := parkAcc (x 0) (x 1) (x 2); { accs := [r.1, r.2] }
  | 0x10 => let r := invParkAcc (x 0) (x 1) (x 2); { accs := [r.1, r.2] }
  | 0x11 =>
    let h := rneDiv (-(x 0) * 4096) 2
    let g := prodAcc (x 1) 116235962
    { accs := [accOf27 (x 0), h + g, h - g] }
  | 0x12 => { words := [sin27 (x 0), cos27 (x 0)] }
  | 0x1E => let r := virtZ (x 0) (x 1) (x 2) (x 3) (x 4) (x 5); { accs := [r.1, r.2] }
  | 0x1F =>
    let a := mag27 (x 0) (x 1)
    let b := mag27 (x 2) (x 3)
    let m := satMags a b (x 4) (nthI cs 0) (nthI cs 1)
    let p := scaleVec (x 0, x 1) a m.1
    let n := scaleVec (x 2, x 3) b m.2
    { words := [p.1, p.2, n.1, n.2] }
  | _ => let r := dqPower (x 0) (x 1) (x 2) (x 3); { accs := [r.1, r.2] }

/-- Blocks across the legs (R103 step 7), 0x20 and 0x21, and the table 0x28. -/
def legBlock (typ : Nat) (cs is : List Int) : BlockRes :=
  match typ with
  | 0x20 =>
    let ls := is.drop 2
    let share := rneDiv (nthI is 1) (max 1 ls.length)
    { accs := ls.map fun i => satAcc (accOf27 (nthI is 0) + prodAcc (nthI cs 0) (share - i)) }
  | 0x21 =>
    let dc := if nthI is 0 = 0 then 1 else nthI is 0
    { accs := (is.drop 1).map fun v => satAcc (one39 / 2 + quotAcc v dc) }
  | _ => { words := match pairsOf cs with
      | [] => [0]
      | p :: ps => [lookupGo (nthI is 0) p ps] }

/-- Integrators, filters and shapers, 0x13 to 0x1C, 0x24 and 0x25; `tPs` is the period of the partition in ps, `adv` the periods by
which an angle advances (R167). -/
def stateBlock (typ tPs adv : Nat) (cs is st : List Int) : BlockRes :=
  let x := nthI is 0
  let s0 := nthI st 0
  let s1 := nthI st 1
  let k := nthI cs
  match typ with
  | 0x13 =>
    let th := (s0 + rneDiv (x * nthI is 1 * 65536 * adv) 134217728) % 2 ^ 48
    { words := [(wordOfInt (th / 65536)).toInt], cells := [th] }
  | 0x15 =>
    let y := if nthI is 3 ≠ 0 then s0 else clampI (accOf27 (nthI is 1)) (accOf27 (nthI is 2)) (satAcc (s0 + prodAcc (k 0) x))
    { accs := [y], cells := [y] }
  | 0x16 =>
    let lo := accOf27 (nthI is 1)
    let hi := accOf27 (nthI is 2)
    let y := if nthI is 3 ≠ 0 then s0 else clampI lo hi (satAcc (s0 + prodAcc (k 1) x))
    { accs := [clampI lo hi (satAcc (prodAcc (k 0) x + y))], cells := [y] }
  | 0x17 =>
    let y := satAcc (s0 + rneDiv ((accOf27 x - s0) * k 0) 134217728)
    { accs := [y], cells := [y] }
  | 0x18 =>
    let y := satAcc (s0 + prodAcc (k 0) x)
    let y27 := q27OfAcc y
    { accs := [y], cells := [satAcc (s1 + prodAcc (k 1) x - prodAcc (k 3) y27), satAcc (prodAcc (k 2) x - prodAcc (k 4) y27)] }
  | 0x1A =>
    let y := satAcc (prodAcc (k 0) x + s0)
    { accs := [y], cells := [satAcc (prodAcc (k 1) x - prodAcc (k 2) (q27OfAcc y))] }
  | 0x1B =>
    let g := ((⟨s0, s1, false, 0⟩ : Glz).shape (accOf27 x) (k 0).toNat (k 1).toNat tPs).1
    { accs := [g.x], words := [b01 g.lim], cells := [g.x, g.r] }
  | 0x1C =>
    let n := min 16 (max 1 (k 0).toNat)
    { words := [nthI st (n - 1)], cells := (x :: st).take n }
  | 0x24 =>
    let f : Int := if nthI is 1 < x then 1 else if x < nthI is 2 then 0 else s0
    { words := [f], cells := [f] }
  | _ =>
    let f : Int := if nthI is 1 ≠ 0 then 0 else if x ≠ 0 then 1 else s0
    { words := [f], cells := [f] }

/-- State words of a type whose function is open: one per output (log 45). -/
def openCells : Nat → Nat
  | 0x14 => 4
  | 0x19 => 2
  | _ => 8

/-- Outputs of a type whose function is open (R155). -/
def openOuts : Nat → Nat
  | 0x14 => 4
  | 0x19 => 1
  | _ => 8

/-- SEQSPLIT, RES and OBS: the spec names what they do and gives no formula. -/
def openBlock (typ : Nat) (cs is st : List Int) : BlockRes :=
  { accs := (List.range (openOuts typ)).map fun k => satAcc (Config.openBlock typ cs is st k)
    cells := (List.range (openCells typ)).map fun k => satAcc (Config.openBlock typ cs is st (openOuts typ + k)) }

/-- A block of any type but SRC and SINK, which the partition serves. -/
def blockFn (typ tPs adv : Nat) (cs is st : List Int) : BlockRes :=
  if typ ≤ 0x0C ∨ typ = 0x23 then arithBlock typ cs is
  else if typ = 0x14 ∨ typ = 0x19 ∨ typ = 0x1D then openBlock typ cs is st
  else if typ = 0x20 ∨ typ = 0x21 ∨ typ = 0x28 then legBlock typ cs is
  else if typ ≤ 0x12 ∨ typ = 0x1E ∨ typ = 0x1F ∨ typ = 0x22 then vectorBlock typ cs is
  else stateBlock typ tPs adv cs is st

end Sys2Proof.Machine
end

