-- ==== Sys2Proof/Machine/Graph.lean ====
section
/-! DEFINITION. The law graphs as the two lanes execute them (R153, R155, R159-R165, R176): sample addresses and points, input
references, the blocks of a partition, the encoding of Lane Y with what a hardware fault does in either lane, and the words that the
comparator sees. The members that SRC and SINK constants name are the model's (DESIGN CHOICE, log 45). -/

namespace Sys2Proof.Machine

/-! ### Graphs in force (R156, R160) -/

/-- The graphs in force (R160). -/
def State.graphs (s : State) : List Graph := if s.n Pid.lawSet = 1 then s.img.altGraphs else s.img.graphs

/-- Replace the graphs in force. -/
def State.setGraphs (s : State) (gs : List Graph) : State :=
  if s.n Pid.lawSet = 1 then { s with img := { s.img with altGraphs := gs } } else { s with img := { s.img with graphs := gs } }

/-- Operation cost of a partition in force (R156, R193). -/
def Graph.cost (g : Graph) : Nat := (g.blocks.filter fun b => !b.dropped).foldl (fun a b => a + b.cost) 0

/-- The blocks of a partition in force, in execution order. -/
def State.blocks (s : State) (p : Nat) (outer : Bool) : List GraphBlock :=
  match s.graphs.find? fun g => g.port = p && g.outer == outer with
  | some g => g.blocks
  | none => []

/-- What a partition kept from its last agreed execution. -/
def PortSt.part (q : PortSt) (outer : Bool) : PartSt := if outer then q.gOut else q.gIn

/-- A port's partition keeps an execution. -/
def State.keepPart (s : State) (p : Nat) (outer : Bool) (x : PartSt) : State :=
  s.modPort p fun q => if outer then { q with gOut := x } else { q with gIn := x }

/-! ### Points and sample addresses (R31, R92, R176) -/

/-- A point of a port's graph exists (R176). -/
def State.pointOk (s : State) (p : Nat) (w : Nat) : Bool :=
  decide (w / 2 ^ 25 = 0) && (match (s.blocks p (decide (w / 2 ^ 24 % 2 = 1)))[w % 65536]? with
    | some b => decide (w / 65536 % 256 = 0 ∧ 1 ≤ b.outs) || decide (1 ≤ w / 65536 % 256 ∧ w / 65536 % 256 ≤ min 8 b.ins)
    | none => false)

/-- The value at a point in the last agreed execution of its partition. -/
def State.pointVal (s : State) (p w : Nat) : Int :=
  let x := (s.port p).part (decide (w / 2 ^ 24 % 2 = 1))
  let pin := w / 65536 % 256
  if pin = 0 then nthI (x.outs.getD (w % 65536) []) 0 else nthI (x.ins.getD (w % 65536) []) (pin - 1)

/-- The declared quantity of a sample address. -/
def State.quantity (s : State) (a : Nat) : Option Quantity :=
  s.img.quants.find? fun q => q.addr = a / 64 && decide (a % 64 < q.len)

/-- The fast channel behind a sampled element. -/
def State.sampledChan (s : State) (a : Nat) : Option Nat := (s.quantity a).bind fun q => q.chans[a % 64]?

/-- The value of a fast channel as the lanes read it: its element's, measured or substituted (R172); its code's where it has no
role. -/
def State.chanVal (s : State) (p ch : Nat) : Int :=
  match (s.elems p).find? fun e => e.2.2 = ch with
  | some e => (valOf (s.port p).vals e.1 e.2.1).getD 0
  | none => s.chanPu ch (sampleCode (s.w (Pid.faLast ch)))

/-- The value of a sample address (R31): a channel's; the third element of a three-wire quantity with two channels, the negative sum
of the other two (R92); a point of the port's graph; or, of a quantity that the spec leaves to the unit or the pair, open. -/
def State.addrValue (s : State) (a : Nat) : Int :=
  let p := a / 4096 % 16
  let e := a % 64
  match s.quantity a with
  | none => 0
  | some q =>
    match q.chans[e]?, q.points[e]? with
    | some ch, _ => s.chanVal p ch
    | none, some w => s.pointVal p w
    | none, none =>
      if q.chans.length = 2 ∧ e = 2 then -(s.chanVal p (q.chans.getD 0 0) + s.chanVal p (q.chans.getD 1 0))
      else (Config.openQuantity a s.eng.count).toInt

/-! ### Parameters as the lanes hold them (R163) -/

/-- The parameter that a reference of kind 2 reads: one given per second or as a time constant is a per-period Q4.27 constant, the
inner law's at T_i, the outer law's at T_o. -/
def State.paramVal (s : State) (p id : Nat) : Int :=
  let v : Int := s.n id
  let ti := s.tInnerNs * 1000
  let f := pidField id
  if pidBlock id = 9 ∧ [0x11, 0x14, 0x18, 0x19, 0x1A, 0x1B, 0x1C].contains f then const27 (v * ti) psS
  else if id = Pid.gfPllBw p then const27 (v * ti) psS
  else if id = Pid.kvInt p then const27 (v * s.outerPs) (100 * psS)
  else if id = Pid.kSlip p then const27 (v * s.outerPs) psS
  else if id = Pid.pFiltTc p ∨ id = Pid.qFiltTc p then const27 s.outerPs (s.outerPs + s.n id * psUs)
  else if id = Pid.viFallTc p then const27 ti (ti + s.n id * psMs)
  else s.z id

/-! ### One lane (R161, R164) -/

/-- A faulty bit in a 32-bit word: of Lane X's value, or of the word Lane Y holds encoded. -/
def hit32 (y : Bool) (c : Word) (m : BitVec 48) (v : Int) : Int :=
  let k := m.setWidth 32
  if y then (laneDec c (laneEnc c (wordOfInt v) ^^^ k)).toInt else (wordOfInt v ^^^ k).toInt

/-- A faulty bit in a 48-bit state word. -/
def hit48 (y : Bool) (c : Word) (m : BitVec 48) (v : Int) : Int :=
  let x := BitVec.ofInt 48 v
  let o := laneOffset48 c
  if y then (~~~ ((~~~ x + o ^^^ m) - o)).toInt else (x ^^^ m).toInt

/-- What one lane executes: the partition and its port, the lane, the offset c_j, the faults that befall it, the injected signal
with its point, and in the inner partition of a port in open loop the voltage reference that passes its loops, with θ (R174). -/
structure LaneIn where
  port : Nat
  outer : Bool
  laneY : Bool
  c : Word
  hits : List LaneHit
  sig : Option (Nat × Int)
  pass : Option (Int × Int × Int) := none
  deriving DecidableEq, Repr

/-- What a lane has executed of a partition: inputs, outputs and state words of its blocks; what its SINKs write, by member; the words
that the comparator takes, with block and word number (R165); and the block outputs that saturated (R162). -/
structure LaneRun where
  part : PartSt := {}
  writes : List (Nat × Int) := []
  words : List (Nat × Nat × Int) := []
  sats : Nat := 0
  deriving DecidableEq, Repr

/-- The faults that befall a word in a lane. -/
def LaneIn.strikes (x : LaneIn) (block word : Nat) : List LaneHit :=
  x.hits.filter fun h => h.laneY == x.laneY && decide (h.block = block) && decide (h.word = word)

/-- A value as the lane holds it. -/
def LaneIn.word32 (x : LaneIn) (block word : Nat) (v : Int) : Int := (x.strikes block word).foldl (fun v h => hit32 x.laneY x.c h.mask v) v

/-- A state word as the lane holds it. -/
def LaneIn.word48 (x : LaneIn) (block word : Nat) (v : Int) : Int := (x.strikes block word).foldl (fun v h => hit48 x.laneY x.c h.mask v) v

/-- The injected signal added at a pin of a block, 0 for its output (R176). -/
def LaneIn.inject (x : LaneIn) (block pin : Nat) (v : Int) : Int :=
  match x.sig with
  | some (w, g) => if w % 65536 = block ∧ w / 65536 % 256 = pin then satQ27 (v + g) else v
  | none => v

/-- Numbered values. -/
def numbered (l : List Int) : List (Nat × Int) := (List.range l.length).zip l

/-- An input of a block (R159). -/
def State.refVal (s : State) (x : LaneIn) (r : LaneRun) (w : Nat) : Int :=
  let lo := w % 2 ^ 28
  let from_ := fun (outs : List (List Int)) => nthI (outs.getD (lo / 65536) []) (lo % 256)
  match w / 2 ^ 28 with
  | 0 => from_ r.part.outs
  | 1 => s.addrValue (lo % 65536)
  | 2 => s.paramVal x.port (lo % 2 ^ 24)
  | _ => from_ ((s.port x.port).part x.outer).outs

/-- A member of the Q-OUT entry in force that a SRC reads. -/
def OutEntry.member (e : OutEntry) (k : Nat) : Int :=
  match k with
  | 0 => e.omega
  | 1 => e.e
  | 2 => e.rv
  | 3 => e.xv
  | 4 => e.lim
  | 5 => e.iD
  | 6 => e.iQ
  | 7 => e.vD
  | _ => e.vQ

/-- What a SRC reads for one of its constants: a sample address, or from 0x10000 on a member of Q-OUT. -/
def State.srcVal (s : State) (p : Nat) (c : Int) : Int :=
  let k := c.toNat
  if k < 65536 then s.addrValue k else (s.port p).outIn.member (k - 65536)

/-- The outputs of a block that are flags (R155). -/
def flagOut (typ k : Nat) : Bool := typ = 0x24 || typ = 0x25 || (typ = 0x1B && decide (k = 1))

/-- An input of a LEGSPLIT is the current of a leg that carries nothing (R271). -/
def State.refDead (s : State) (p w : Nat) : Bool :=
  decide (w / 2 ^ 28 = 1) && (match s.sampledChan (w % 65536) with
    | some ch => (s.elems p).any fun e => decide (e.1 = 1 ∧ e.2.2 = ch) && (s.port p).deadLegs.contains ((s.port p).refLeg + e.2.1)
    | none => false)

/-- The leg whose current an input of a LEGSPLIT is, by its place in the port. -/
def State.refLegOf (s : State) (p w : Nat) : Option Nat :=
  if w / 2 ^ 28 = 1 then (s.sampledChan (w % 65536)).bind fun ch => ((s.elems p).find? fun e => decide (e.1 = 1 ∧ e.2.2 = ch)).map fun e => e.2.1
  else none

/-- The component of a dq reference at angle θ in a phase, 0 to 2; on a DC port the reference itself. -/
def phasePart (dc : Bool) (v : Int × Int × Int) (phase : Nat) : Int :=
  if dc then v.1 else q27OfAcc (invParkAcc v.1 v.2.1 (v.2.2 - phase * 4294967296 / 3)).1

/-- The blocks of the voltage and the current loop, by their type: INT, PI and RES (R174; DESIGN CHOICE, log 45). -/
def loopBlock (typ : Nat) : Bool := typ = 0x15 || typ = 0x16 || typ = 0x19

/-- LEGSPLIT across the healthy legs (R103, R271): a faulted leg's reference is 0. In open loop the voltage reference of its phase
takes the place of the loops' (R174). -/
def State.legSplit (s : State) (x : LaneIn) (b : GraphBlock) (ins : List Int) : BlockRes :=
  let p := x.port
  let dead := (b.refs.drop 2).map (s.refDead p)
  let leg := (b.refs.drop 2).findSome? (s.refLegOf p)
  let ins := match x.pass with
    | some v => phasePart (s.isDc p) v ((s.port p).topo.phaseOf (leg.getD 0)) :: ins.drop 1
    | none => ins
  let live := ((ins.drop 2).zip dead).filter fun x => !x.2
  let r := (blockFn 0x20 1 1 b.consts (ins.take 2 ++ live.map fun x => x.1) []).accs
  { accs := (List.range dead.length).map fun j =>
      if dead.getD j false then 0 else nthI r (((dead.take j).filter fun d => !d).length) }

/-- What a block yields, from its inputs and its state words in the last agreed execution. -/
def State.blockYield (s : State) (x : LaneIn) (k : Nat) (b : GraphBlock) (ins : List Int) : BlockRes :=
  if b.dropped then { words := List.replicate b.outs (if b.bypass then nthI ins 0 else 0) }
  else if b.typ = 0x26 then { words := b.consts.map (s.srcVal x.port) }
  else if b.typ = 0x27 then {}
  else if loopBlock b.typ && x.pass.isSome then { words := List.replicate b.outs 0 }
  else if b.typ = 0x20 then s.legSplit x b ins
  else blockFn b.typ (if x.outer then s.outerPs else s.tInnerNs * 1000) (if x.outer then 1 else (s.port x.port).heldRun + 1) b.consts ins (((s.port x.port).part x.outer).cells.getD k [])

/-- One block (R161, R162, R165). A signal at pin 0 is added to the first output (DESIGN CHOICE, log 45). -/
def State.runBlock (s : State) (x : LaneIn) (r : LaneRun) (k : Nat) (b : GraphBlock) : LaneRun :=
  let ins := (List.range b.refs.length).map fun j => x.inject k (j + 1) (s.refVal x r (b.refs.getD j 0))
  let y := s.blockYield x k b ins
  let outs := (List.range b.outs).map fun j => x.word32 k j (if j = 0 then x.inject k 0 (nthI y.outs 0) else nthI y.outs j)
  let cells := (numbered y.cells).map fun c => x.word48 k (b.outs + c.1) c.2
  let sunk := if b.typ = 0x27 ∧ !b.dropped then (numbered ins).map fun v => (v.1, x.word32 k v.1 v.2) else []
  { part := { ins := r.part.ins ++ [ins], outs := r.part.outs ++ [outs], cells := r.part.cells ++ [cells] }
    writes := r.writes ++ sunk.map fun v => ((nthI b.consts v.1).toNat, v.2)
    words := r.words ++ (sunk.map fun v => (k, v.1, v.2))
      ++ (((numbered outs).filter fun v => flagOut b.typ v.1 && !b.dropped).map fun v => (k, v.1, v.2))
      ++ (numbered cells).map fun v => (k, b.outs + v.1, v.2)
    sats := r.sats + y.sats }

/-- The blocks of a partition in execution order. -/
def State.runBlocks (s : State) (x : LaneIn) : LaneRun → Nat → List GraphBlock → LaneRun
  | r, _, [] => r
  | r, k, b :: bs => s.runBlocks x (s.runBlock x r k b) (k + 1) bs

/-- A lane executes a partition. -/
def State.runLane (s : State) (x : LaneIn) : LaneRun := s.runBlocks x {} 0 (s.blocks x.port x.outer)

/-- The injected signal of a partition in this period (R176); an injection aborted within the period still has it (R179). -/
def State.sigAt (s : State) (p : Nat) (outer : Bool) : Option (Nat × Int) :=
  if s.inj.sig ≠ 0 ∧ s.inj.port = p ∧ s.inj.outer = outer then some (s.inj.point, s.inj.sig) else none

/-- The first word in which two executions differ (R165). -/
def firstUnequal : List (Nat × Nat × Int) → List (Nat × Nat × Int) → Option (Nat × Nat)
  | a :: as, b :: bs => if a = b then firstUnequal as bs else some (a.1, a.2.1)
  | a :: _, [] => some (a.1, a.2.1)
  | [], b :: _ => some (b.1, b.2.1)
  | [], [] => none

/-! ### Change of the law set (R160) -/

/-- The state words of the block of the old set with the same type and state key. -/
def heir (old : List GraphBlock) (st : PartSt) (b : GraphBlock) : List Int :=
  match ((List.range old.length).zip old).find? fun x => x.2.typ = b.typ && x.2.key = b.key && !x.2.dropped with
  | some x => st.cells.getD x.1 []
  | none => []

/-- What the new blocks begin with: the state of their namesakes, or their initial values, 0. -/
def carryPart (old new : List GraphBlock) (st : PartSt) : PartSt :=
  { cells := new.map fun b => if carriesState b.typ && !b.dropped then heir old st b else [] }

/-- The engine changes its law set at an outer boundary: every block of the new set takes its state. -/
def State.carryGraphs (old : State) (s : State) : State :=
  s.each s.usedPorts fun s p => (s.keepPart p false (carryPart (old.blocks p false) (s.blocks p false) (s.port p).gIn)).keepPart p true
    (carryPart (old.blocks p true) (s.blocks p true) (s.port p).gOut)

end Sys2Proof.Machine
end

