-- ==== Sys2Proof/Machine/Capture.lean ====
section
/-! DEFINITION. Crumbs (R421-R435): channels and rows, memory units, triggers, recording, closing and the directory. A row is that of
the period tick that began a period, taken once the period's values stand (R425, log 15). -/

namespace Sys2Proof.Machine

/-! ### Epoch records (R384) -/

/-- What an epoch record's flags are measured against: steps, stops and `time_state`. -/
def State.timeMark (s : State) : Nat × Nat × Nat := (s.time.steps, s.time.stops, s.n Pid.timeState)

/-- The 16 bytes of an epoch record, with its flags against the marks of the record before it. -/
def epochBytes (stamp : Word) (ns : Nat) (prev mark : Nat × Nat × Nat) (valid : Bool) : List Byte :=
  leBytes 4 stamp.toNat ++ leBytes 4 (ns % 1000000000) ++ leBytes 6 (ns / 1000000000) ++ leBytes 1 mark.2.2
    ++ leBytes 1 (b01 (decide (prev.1 ≠ mark.1)) + 2 * b01 valid + 4 * b01 (decide (prev.2.1 ≠ mark.2.1)))

/-- A row of the last period tick. -/
def State.capRow (s : State) (ws : List Word) : CapRow :=
  ⟨ws, s.eng.tickStamp, s.eng.tickNs, s.timeMark, decide (s.n Pid.timeValid = 1)⟩

/-! ### Channels (R31, R424) -/

/-- A channel word is admissible (R424). -/
def State.chanWordOk (s : State) (w : Nat) : Bool :=
  decide (w / 2 ^ 24 = 0) && (match w / 2 ^ 16 with
    | 0 => true
    | 2 => (s.quantity (w % 65536)).isSome
    | 1 => (s.sampledChan (w % 65536)).isSome
    | 3 => (s.sampledChan (w % 65536)).isSome
    | _ => false)

/-- Words per row of a channel (R424). -/
def State.chanWords (s : State) (w : Nat) : Nat :=
  match w / 2 ^ 16 with
  | 3 => s.n (Pid.grpOs ((s.sampledChan (w % 65536)).getD 0 / 12))
  | _ => 1

/-- The used channel words of a function (0 recorder, 1 tuning). -/
def State.capChans (s : State) (i : Nat) : List Nat :=
  ((List.range 64).map fun k => s.n (Pid.crCh i k)).filter fun w => w / 2 ^ 16 % 256 ≠ 0

/-- The channel table (R431). -/
def State.chanTable (s : State) (i : Nat) : List (List Byte) :=
  (s.capChans i).map fun w => leBytes 2 w ++ leBytes 1 (w / 2 ^ 16) ++ leBytes 1 (s.chanWords w) ++ leBytes 4 0

/-- The row width of a function, bytes. -/
def State.capWidth (s : State) (i : Nat) : Nat := 4 * (s.capChans i).foldl (fun a w => a + s.chanWords w) 0

/-- The words of a fast channel's conversions in the period (R208, R424). -/
def State.convWords (s : State) (a m : Nat) : List Word :=
  (List.range m).map fun k => (s.fch ((s.sampledChan a).getD 0)).convs.getD k 0

/-- The words of a channel in a row (R424): sample words, or the value as the graph sees it. -/
def State.chanRow (s : State) (w : Nat) : List Word :=
  if w / 2 ^ 16 = 2 then [wordOfInt (s.addrValue (w % 65536))] else s.convWords (w % 65536) (s.chanWords w)

/-- The words of a function's row, in table order. -/
def State.rowWords (s : State) (i : Nat) : List Word := (s.capChans i).flatMap s.chanRow

/-- The words of an injection crumb's row (R421): the injected signal and both response points. -/
def State.injRow (s : State) : List Word :=
  [wordOfInt s.inj.sig] ++ (if s.n Pid.respPointA = 0xFFFFFFFF then [] else [wordOfInt s.inj.va]) ++ [wordOfInt s.inj.vb]

/-- The row period of a function, ns (R425). -/
def State.capRowNs (s : State) (i : Nat) : Nat := s.tInnerNs * s.n (Pid.crDecim i)

/-- Whole units for a crumb of some rows (R426). -/
def crumbUnits (n width rows rowNs : Nat) : Nat :=
  (96 + 8 * n + width * rows + 512 + 20 * ((rows * rowNs + 999999999) / 1000000000 + 9) + 65535) / 65536

/-- Units of the largest crumb of a function (R426). -/
def State.capNeed (s : State) (i : Nat) : Nat :=
  crumbUnits (s.capChans i).length (s.capWidth i) (s.n (Pid.crPre i) + (1 + s.n (Pid.crRetrig i)) * s.n (Pid.crPost i)) (s.capRowNs i)

/-! ### Memory (R422, R51) -/

/-- A capture function. -/
def State.capFn (s : State) (i : Nat) : CapFn := s.cap.fns.getD i {}
/-- Change the capture engine. -/
def State.modCap (s : State) (f : CapSt → CapSt) : State := { s with cap := f s.cap }
/-- Change a capture function. -/
def State.modFn (s : State) (i : Nat) (f : CapFn → CapFn) : State := s.modCap fun c => { c with fns := c.fns.modify i f }
/-- A crumb by its number. -/
def State.crumb? (s : State) (no : Nat) : Option Crumb := s.cap.crumbs.find? fun c => c.no = no
/-- Change a crumb. -/
def State.modCrumb (s : State) (no : Nat) (f : Crumb → Crumb) : State :=
  s.modCap fun c => { c with crumbs := c.crumbs.map fun x => if x.no = no then f x else x }
/-- A crumb is locked for a session (R433). -/
def State.crumbLocked (s : State) (no : Nat) : Bool := s.link.sess.any fun x => match x.lock with
  | some (k, _) => decide (k = no)
  | none => false

/-- Units in use: held by crumbs or reserved. -/
def State.capHeld (s : State) : List Nat := s.cap.crumbs.flatMap (fun c => c.units) ++ s.cap.fns.flatMap fun f => f.units
/-- `cap_units_free` (R434). -/
def State.capFree (s : State) : Nat := 256 - s.capHeld.length
/-- Units a function claims. -/
def State.capClaims (s : State) (i : Nat) : List Nat := (s.cap.claims.filter fun c => c.1 = i).map fun c => c.2.1
/-- Units a function claims that nobody uses. -/
def State.capAvail (s : State) (i : Nat) : List Nat := (s.capClaims i).filter fun u => !s.capHeld.contains u
/-- A unit is claimed shared by the recorder. -/
def State.capShared (s : State) (u : Nat) : Bool := s.cap.claims.any fun c => c.1 = 0 && c.2.1 = u && c.2.2

/-- A recording tuning capture is pre-empted (R51, R430): its data is discarded; an injection into a crumb alone is aborted
(R179). -/
def State.preempt (s : State) : State :=
  match (s.capFn 1).cur with
  | none => s
  | some no =>
    let s := s.modCap fun c => { c with crumbs := c.crumbs.filter fun x => x.no ≠ no }
    let inj := (s.capFn 1).inj
    let s := (s.modFn 1 fun f => { f with cur := none, units := [], inj := false, kept := [], trig := none, deadFrom := none }).setN (Pid.crState 1) 0
    let s := s.raise 0x0203 0 no
    s.onlyIf (inj && decide (s.inj.dest = 1)) fun s => s.injAbort 5

/-- What the recorder may free, in the order of R422: completed unlocked tuning and injection crumbs on shared units, a tuning
capture that is recording on shared units, and with `cr_full` 0 its own unlocked crumbs. -/
def State.capVictims (s : State) : List Crumb :=
  let shared := fun (c : Crumb) => c.units.any s.capShared
  (s.cap.crumbs.filter fun c => c.kind ≠ 1 && !c.recording && !s.crumbLocked c.no && shared c)
    ++ (s.cap.crumbs.filter fun c => c.kind ≠ 1 && c.recording && shared c)
    ++ (if s.n Pid.crFull = 0 then s.cap.crumbs.filter fun c => c.kind = 1 && !c.recording && !s.crumbLocked c.no else [])

/-- Free crumbs until enough units are available. -/
def State.freeUntil (s : State) (need : Nat) : List Crumb → State
  | [] => s
  | c :: cs =>
    if need ≤ (s.capAvail 0).length then s
    else if c.recording then s.preempt.freeUntil need cs
    else (s.modCap fun x => { x with crumbs := x.crumbs.filter fun y => y.no ≠ c.no }).freeUntil need cs

/-- Older crumbs give way to the recorder when that suffices (R422): nothing is freed when it would not. -/
def State.capMakeRoom (s : State) (i : Nat) : State :=
  let need := s.capNeed i
  let own := s.capClaims 0
  let gain := (s.capVictims.flatMap fun c => c.units.filter own.contains).length
  s.onlyIf (i = 0 && decide (need ≤ (s.capAvail 0).length + gain)) fun s => s.freeUntil need s.capVictims

/-- Reserve the units of the largest crumb if they are free (R422); true when it could. -/
def State.capTake (s : State) (i : Nat) : Bool × State :=
  if s.capNeed i ≤ (s.capAvail i).length then (true, s.modFn i fun f => { f with units := (s.capAvail i).take (s.capNeed i) })
  else (false, s)

/-- Reserve the units of the largest crumb (R422); true when it could. -/
def State.capReserve (s : State) (i : Nat) : Bool × State := (s.capMakeRoom i).capTake i

/-! ### Arming (R422, R425, R429) -/

/-- Rows fall on cycle-locked ticks. -/
def State.cycLocked (s : State) : Bool := decide (s.n Pid.cycLockState = 2)

/-- A function is armed; the dead time ends here (R425, R429). -/
def State.capArmed (s : State) (i : Nat) : State :=
  let s := match (s.capFn i).deadFrom with
    | some d =>
      let us := min ((s.now - d) / psUs) 0xFFFFFFFF
      ((s.modFn i fun f => { f with dead := us, deadFrom := none }).setN (Pid.crDeadLast i) us).setN (Pid.crDeadMax i)
        (max us (s.n (Pid.crDeadMax i)))
    | none => s
  let s := s.modCap fun c => { c with q := c.q.filter fun e => e.1 ≠ i }
  (s.modFn i fun f => { f with kept := [], tick := 0, trig := none, lockedRows := s.cycLocked }).setN (Pid.crState i) 2

/-- No units: a recorder that is to stop when full is full, else the function waits (R422, R435). -/
def State.capShort (s : State) (i : Nat) : State :=
  if i = 0 ∧ s.n Pid.crFull = 1 then (s.setN (Pid.crState 0) 5).raise 0x1CA3 1 (min s.capFree 255)
  else (s.modFn i fun f => { f with tick := 0, lockedRows := s.cycLocked }).setN (Pid.crState i) 1

/-- A function becomes armed, or waits for units (R422). -/
def State.capArm (s : State) (i : Nat) : State :=
  if (s.capReserve i).1 then (s.capReserve i).2.capArmed i else (s.capReserve i).2.capShort i

/-- A write of `cr_arm` is accepted: arming from idle or full, with a channel; disarming while no crumb is recorded (R434,
log 16). -/
def State.crArmOk (s : State) (i : Nat) (v : Word) : Bool :=
  let st := s.n (Pid.crState i)
  decide (i < 2) && (if v = 1 then decide (st = 0 ∨ st = 5) && decide (s.capChans i ≠ [])
    else decide (v = 2) && decide (st ≠ 3))

/-- An accepted write of `cr_arm`. -/
def State.doCrArm (s : State) (i : Nat) (v : Word) : State :=
  if v = 1 then s.capArm i
  else (s.modFn i fun f => { f with units := [], kept := [], trig := none, deadFrom := none }).setN (Pid.crState i) 0

/-- The role of `cr_arm` (R434): Service for the recorder, Commissioner for the tuning capture. -/
def crArmRole (i : Nat) : Role := if i = 0 then .service else .commissioner

/-- CR_ARM (R434): `f` is the instance, 0x01 or 0x02. -/
def execCrArm (t : Nat) (role : Role) (f : Nat) (s : State) : Out :=
  let s := s.advance t
  .next (s.cmdRow role (crArmRole (f - 1)) (Pid.crArm (f - 1)) 1 (decide (1 ≤ f) && s.crArmOk (f - 1) 1) (s.doCrArm (f - 1) 1))

/-- CR_DISARM (R434). -/
def execCrDisarm (t : Nat) (role : Role) (f : Nat) (s : State) : Out :=
  let s := s.advance t
  .next (s.cmdRow role (crArmRole (f - 1)) (Pid.crArm (f - 1)) 2 (decide (1 ≤ f) && s.crArmOk (f - 1) 2) (s.doCrArm (f - 1) 2))

/-! ### Recording (R425-R430) -/

/-- Add a row, or the loss of one, to a crumb (R426, R431): a 65th gap ends it with code 0x05. Epoch records lie at most 1 s apart
(R18), one at the last row before the second ends, and one follows each step. -/
def Crumb.add (c : Crumb) (r : Option CapRow) : Crumb :=
  if c.endCode ≠ 0 then c
  else match r with
    | none => { c with gapNow := c.gapNow + 1, lost := c.lost + 1, status := Nat.lor c.status 2 }
    | some r =>
      if c.gapNow ≠ 0 ∧ c.gaps.length = 64 then { c with endCode := 5 }
      else
        let k := c.rows.length
        let c := { c with gaps := if c.gapNow ≠ 0 then c.gaps ++ [(k, c.gapNow)] else c.gaps, gapNow := 0, rows := c.rows ++ [r.ws] }
        if k = 0 then { c with stamp := r.stamp, epoch := epochBytes r.stamp r.ns r.mark r.mark r.valid, epStamp := r.stamp, epMark := r.mark }
        else if 1000000000 < (r.stamp - c.epStamp).toNat + c.rowNs ∨ r.mark ≠ c.epMark then
          { c with epochs := c.epochs ++ [(k, epochBytes r.stamp r.ns c.epMark r.mark r.valid)], epStamp := r.stamp, epMark := r.mark }
        else c

/-- The directory fields of a crumb follow it (R433, R434): the newest number with its place modulo 128. -/
def State.crumbInfo (s : State) (dd : Nat) : Word × Word :=
  match s.cap.crumbs.reverse.find? fun c => c.no % 128 = dd with
  | some c =>
    (BitVec.ofNat 32 c.no, BitVec.ofNat 32 (c.kind + 256 * c.status + 65536 * (c.units.length % 256) + 2 ^ 24 * b01 (s.crumbLocked c.no)
      + 2 ^ 25 * b01 c.recording))
  | none => (0xFFFFFFFF#32, 0#32)

/-- A crumb begins (R423, R429, R431) with the rows kept. -/
def State.crumbBegin (s : State) (i kind source : Nat) (stamp : Word) (rowNs : Nat) (chans : List (List Byte)) (width : Nat) : State :=
  let f := s.capFn i
  let pre := if kind = 3 then [] else f.kept
  let c : Crumb :=
    { no := s.cap.next, kind := kind, units := f.units, rowNs := rowNs, innerNs := s.tInnerNs, chans := chans, width := width
      trigStamp := stamp, source := source, missed := f.missed, dead := f.dead }
  let c := (pre.dropWhile fun r => r.isNone).foldl Crumb.add c
  let c := { c with pre := c.rows.length
                    status := c.status + 4 * b01 (kind ≠ 3 && decide (c.rows.length < s.n (Pid.crPre i))) + 32 * b01 f.lockedRows }
  let s := s.modCap fun x => { x with crumbs := x.crumbs ++ [c], next := x.next + 1 }
  let s := s.onlyIf (decide (c.lost ≠ 0)) fun s => (s.bump (Pid.crGapCount i)).raise 0x1CA2 (i + 1) (c.no * 2 ^ 32 + c.lost)
  let s := (s.modFn i fun f => { f with units := [], kept := [], trig := none, cur := some c.no, missed := 0, missRun := false,
                                        postLeft := s.n (Pid.crPost i), inj := decide (kind = 3) }).setN (Pid.crState i) 3
  s.setN Pid.crumbNext s.cap.next

/-- The bytes a crumb takes. -/
def Crumb.size (c : Crumb) : Nat := 96 + 8 * c.chans.length + c.width * c.rows.length + 8 * c.gaps.length + 20 * c.epochs.length

/-- A crumb closes: it keeps the whole units it needs; the recorder is in its dead time, which its last row began, the tuning capture is
idle. -/
def State.capClose (s : State) (i : Nat) : State :=
  match (s.capFn i).cur with
  | none => s
  | some no =>
    let s := s.modCrumb no fun c => { c with recording := false, units := c.units.take ((c.size + 65535) / 65536) }
    let s := s.modFn i fun f => { f with cur := none, inj := false, postLeft := 0, deadFrom := f.deadFrom.orElse fun _ => some s.now }
    s.setN (Pid.crState i) (if i = 0 then 4 else 0)

/-- A crumb ends early (R430): status bit 4, end code, event 0x1CA4. -/
def State.capEnd (s : State) (i code : Nat) : State :=
  match (s.capFn i).cur with
  | none => s
  | some no =>
    let s := s.modCrumb no fun c => { c with status := Nat.lor c.status 16, endCode := code }
    (s.raise 0x1CA4 (i + 1) (no * 2 ^ 32 + code)).capClose i

/-- Every crumb being recorded ends early (R430). -/
def State.capEndAll (s : State) (code : Nat) : State := s.each [0, 1] fun s i => s.capEnd i code

/-- Bytes per µs above which Q-CAP can fill (R426). -/
def State.capFast (s : State) : Bool :=
  let rate := (List.range 2).foldl (fun a i =>
    a + (if 2 ≤ s.n (Pid.crState i) ∧ s.n (Pid.crState i) ≤ 3 then s.capWidth i * 1000000 / s.capRowNs i else 0)) 0
  decide (256 * 1000 < rate)

/-- A row falls on this tick (R425). -/
def State.rowDue (s : State) (i : Nat) (boundary : Bool) : Bool :=
  let f := s.capFn i
  let d := s.n (Pid.crDecim i)
  if f.inj then decide (s.n Pid.injState = 1) && (!s.inj.outer || boundary)
  else if f.lockedRows then decide ((s.eng.tickNs - s.n Pid.cycOffset) / s.tInnerNs % d = 0)
  else decide (f.tick % d = 0)

/-- Bytes in Q-CAP. -/
def State.capBytes (s : State) : Nat := s.cap.q.foldl (fun a e => a + match e.2 with
  | some r => 4 * r.ws.length
  | none => 0) 0

/-- A row enters Q-CAP, or is dropped whole where its 4 KiB have no room for it (R38, R426); none is while the functions together need at
most 256 bytes per µs. -/
def State.capEnter (s : State) (i : Nat) (r : CapRow) : State :=
  let n := s.capBytes + 4 * r.ws.length
  if s.capFast && decide (4096 < n) then (s.modCap fun c => { c with q := c.q ++ [(i, none)] }).qLost 0xD
  else (s.modCap fun c => { c with q := c.q ++ [(i, some r)] }).highWater 0xD (min 4096 n)

/-- One row of a recording crumb: the gap told once (R426), the post count, the ends of R430 for gaps and memory. -/
def State.capRecord (s : State) (i no : Nat) (r : Option CapRow) : State :=
  let s := s.onlyIf (r.isNone && !(match s.crumb? no with
      | some c => decide (c.lost ≠ 0)
      | none => true)) fun s => (s.bump (Pid.crGapCount i)).raise 0x1CA2 (i + 1) (no * 2 ^ 32 + 1)
  let s := s.modCrumb no fun c => c.add r
  let s := s.onlyIf r.isSome fun s => s.modFn i fun f => { f with postLeft := f.postLeft - 1, deadFrom := some s.eng.tickAt }
  match s.crumb? no with
  | some c =>
    if c.endCode = 5 then s.capEnd i 5
    else if c.kind = 3 ∧ 65536 * c.units.length < c.size + c.width then s.capEnd i 3
    else s
  | none => s

/-- A row stands at or after a stamp (R427). -/
def CapRow.reaches (r : CapRow) (stamp : Word) : Bool := decide (0 ≤ (r.stamp - stamp).toInt)

/-- An armed function keeps a row among the last `cr_pre` (R429). -/
def State.capKeep (s : State) (i : Nat) (r : Option CapRow) : State :=
  s.modFn i fun f => { f with kept := (f.kept ++ [r]).drop (f.kept.length + 1 - s.n (Pid.crPre i)) }

/-- A function at a period tick (R422, R425): waiting, it tries again at every row; armed or recording, its row enters Q-CAP where one is
due. -/
def State.capTick (s : State) (i : Nat) (boundary : Bool) : State :=
  let s := s.onlyIf (decide (s.n (Pid.crState i) = 1) && s.rowDue i boundary) fun s => s.capArm i
  let due := s.rowDue i boundary
  let s := s.modFn i fun f => { f with tick := f.tick + 1, rowNo := f.rowNo + b01 due }
  if !due || decide (s.n (Pid.crState i) ≠ 2 ∧ s.n (Pid.crState i) ≠ 3) then s
  else s.capEnter i (s.capRow (if (s.capFn i).inj then s.injRow else s.rowWords i))

/-- What a function does with a row that the capture writer takes (R429): armed, it keeps rows, and a trigger's first row at or after its
stamp begins the crumb; recording, it adds rows, of which a complete crumb needs none. -/
def State.capTake1 (s : State) (e : Nat × Option CapRow) : State :=
  let i := e.1
  if s.n (Pid.crState i) ≠ 2 ∧ s.n (Pid.crState i) ≠ 3 then s
  else match (s.capFn i).cur with
    | some no => if (s.capFn i).postLeft = 0 ∧ !(s.capFn i).inj then s else s.capRecord i no e.2
    | none =>
      match (s.capFn i).trig with
      | some (code, stamp) =>
        if !(e.2.any fun r => r.reaches stamp) then s.capKeep i e.2
        else
          let s := s.crumbBegin i (i + 1) code stamp (s.capRowNs i) (s.chanTable i) (s.capWidth i)
          let s := s.modFn i fun f => { f with postLeft := f.postLeft + 1 }
          match (s.capFn i).cur with
          | some no => s.capRecord i no e.2
          | none => s
      | none => s.capKeep i e.2

/-- The capture writer takes what waits in Q-CAP, in order. -/
def State.capDrain (s : State) : State := s.cap.q.foldl State.capTake1 (s.modCap fun c => { c with q := [] })

/-- The capture engine at a period tick; `lags` tells, for each function, that the capture writer does not get to its row in this period,
which it may only above the rate of R426. -/
def State.capPeriod (s : State) (boundary : Bool) (lags : List Bool) : State :=
  let s := s.each [0, 1] fun s i => s.capTick i boundary
  if s.capFast && lags.any id then s else s.capDrain

/-! ### Triggers (R427, R428) -/

/-- The mask bit of a source code. -/
def trigMaskBit (code : Nat) : Option Nat :=
  if code ≤ 0xC then some code else if 0x10 ≤ code ∧ code ≤ 0x17 then some code else if code = 0x20 then some 24 else none

/-- The time trigger's instant in internal ns, of the PTP second nearest to the present. -/
def State.trgTimeNs (s : State) : Nat :=
  nearSec (s.intNs / 1000000000) (s.n Pid.trgTimeS) * 1000000000 + s.n Pid.trgTimeNs

/-- An event that a match word names has just been raised (R427): its record bears the present instant, or it coalesces. -/
def State.evtMatch (s : State) (w : Nat) : Bool :=
  let hit := fun (code inst : Nat) => decide (code = w % 65536) && (decide (w / 65536 % 256 = 0xFF) || decide (inst = w / 65536 % 256))
  (s.ev.q ++ s.ev.ring).any (fun r => hit r.code r.inst && decide (r.timeNs = s.intNs)) || s.ev.coal.any fun c => hit c.code c.inst

/-- A source can fire: `TRIG_IN` on the edge selected (bit 8 of `line`: rising), `SYNC_LINE` not within 2 µs of the unit's own drive, an
internal line while it is pulsed (R247), an event match that is set and met, the time trigger once its instant is reached. -/
def State.trigFires (s : State) (line : Nat) : Bool :=
  let code := line % 256
  if code < 4 then decide (s.bit Pid.trgInEdge code ↔ line / 256 % 2 = 1)
  else if code = 4 then decide (s.cap.syncUntil ≤ s.now ∧ (s.lines.getD 4 0 = 0 ∨ s.lines.getD 4 0 + 2 * psUs ≤ s.now + 16 * tickPs))
  else if code ≤ 0xC then decide (s.now < s.lines.getD code 0)
  else if 0x10 ≤ code ∧ code ≤ 0x17 then decide (s.n (Pid.trgEvt (code - 0x10)) % 65536 ≠ 0) && s.evtMatch (s.n (Pid.trgEvt (code - 0x10)))
  else if code = 0x20 then decide (s.trgTimeNs ≤ s.intNs) && decide (s.cap.timeFired ≠ some s.trgTimeNs)
  else true

/-- A missed trigger (R429); triggers of one row count as one (R427). -/
def State.trigMissed (s : State) (i : Nat) : State :=
  let f := s.capFn i
  if f.missRow = some f.rowNo then s
  else
    let s := (s.bump (Pid.crMissedCount i)).modFn i fun f => { f with missed := f.missed + 1, missRun := true, missRow := some f.rowNo }
    s.onlyIf (!f.missRun) fun s => s.raise 0x1CA1 (i + 1) (s.n (Pid.crMissedCount i))

/-- With `sync_drive` the unit pulls `SYNC_LINE` low for 2 µs at a disturbance trigger from another source (R428). -/
def State.syncDrive (s : State) (i code : Nat) : State :=
  s.onlyIf (i = 0 && decide (s.n Pid.syncDrive = 1) && decide (code ≠ 4)) fun s => s.modCap fun c => { c with syncUntil := s.now + 2 * psUs }

/-- A trigger of a function (R429): armed, it waits for its row with the lowest code of the row; recording, it retriggers or
is missed; in dead time, which the crumb's last row begins, it is missed. `SYNC_LINE` is driven at every one (R428, log 16). -/
def State.trigger (s : State) (i code : Nat) : State :=
  let f := s.capFn i
  match s.n (Pid.crState i) with
  | 2 => (s.syncDrive i code).modFn i fun f => { f with trig := match f.trig with
      | some (c, st) => some (min c code, st)
      | none => some (code, s.stamp) }
  | 3 =>
    let limit := s.n (Pid.crPre i) + 2 * s.n (Pid.crPost i)
    match f.cur.bind s.crumb? with
    | some c =>
      if s.n (Pid.crRetrig i) = 1 ∧ !f.inj ∧ f.postLeft ≠ 0 ∧ c.rows.length < limit then
        let s := (s.syncDrive i code).modCrumb c.no fun c => { c with status := Nat.lor c.status 8 }
        s.modFn i fun f => { f with postLeft := min (s.n (Pid.crPost i)) (limit - c.rows.length) }
      else (s.syncDrive i code).trigMissed i
    | none => s
  | 4 => (s.syncDrive i code).trigMissed i
  | _ => s

/-- CAPTURE_TRIGGER (R427): a source that the mask selects fires; `f` is the instance, `line` the source code, with the edge of a
`TRIG_IN` in bit 8. -/
def execCaptureTrigger (t : Nat) (f line : Nat) (s : State) : Out :=
  let s := s.advance t
  let code := line % 256
  .next (match trigMaskBit code with
    | some b =>
      if 1 ≤ f ∧ f ≤ 2 ∧ s.bit (Pid.crTrigMask (f - 1)) b ∧ s.trigFires line then
        let s := s.onlyIf (decide (code = 0x20)) fun s => s.modCap fun c => { c with timeFired := some s.trgTimeNs }
        s.trigger (f - 1) code
      else s
    | none => s)

/-- `cr_force` is accepted only while armed (R434). -/
def State.crForceOk (s : State) (i : Nat) (v : Word) : Bool := decide (i < 2) && decide (v = 1) && decide (s.n (Pid.crState i) = 2)

/-- CR_FORCE (R427): Service. -/
def execCrForce (t : Nat) (role : Role) (f : Nat) (v : Word) (s : State) : Out :=
  let s := s.advance t
  .next (s.cmdRow role .service (Pid.crForce (f - 1)) v (decide (1 ≤ f) && s.crForceOk (f - 1) v) (s.trigger (f - 1) 0x30))

/-- CRUMB_COMPLETE (R429, R430): the post rows are done, or the injection of an injection crumb has ended. -/
def execCrumbComplete (t : Nat) (f : Nat) (s : State) : Out :=
  let s := s.advance t
  let i := f - 1
  .next (match (s.capFn i).cur with
    | none => s
    | some no =>
      if f = 0 ∨ (s.cap.q.any fun e => e.1 = i) then s
      else if (s.capFn i).inj ∧ s.n Pid.injState = 1 then s
      else if (s.capFn i).inj ∧ s.n Pid.injState = 3 then s.capEnd i 4
      else if !(s.capFn i).inj ∧ (s.capFn i).postLeft ≠ 0 then s
      else
        let s := s.modCrumb no fun c => { c with status := Nat.lor c.status 1 }
        let ctx := match s.crumb? no with
          | some c => no * 2 ^ 32 + c.status * 256 + c.source
          | none => 0
        (s.raise 0x0CA0 f ctx).capClose i)

/-- CAPTURE_REARM (R429): after its dead time the recorder reserves units and is armed; not while TIME is stopped (R430). -/
def execCaptureRearm (t : Nat) (f : Nat) (s : State) : Out :=
  let s := s.advance t
  .next (if f = 1 ∧ s.n (Pid.crState 0) = 4 ∧ !s.timeStopped then s.capArm 0 else s)

/-- CRUMB_LOCK_EXPIRY (R433): 10 s after a session's last read of its crumb. -/
def execCrumbLockExpiry (t : Nat) (s : State) : Out :=
  let s := s.advance t
  .next (s.modLink fun l => { l with sess := l.sess.map fun x => match x.lock with
    | some (_, at_) => if at_ + 10 * psS ≤ s.now then { x with lock := none } else x
    | none => x })

/-- The bytes of a crumb (R431). -/
def State.crumbBytes (s : State) (c : Crumb) : List Byte :=
  let head := leBytes 4 0x424D5243 ++ leBytes 2 1 ++ leBytes 1 c.kind ++ leBytes 1 c.chans.length ++ leBytes 8 s.serial ++ leBytes 4 c.no
    ++ leBytes 4 (s.n Pid.imageId) ++ leBytes 4 c.innerNs ++ leBytes 4 c.rowNs ++ leBytes 4 c.width ++ leBytes 4 c.rows.length
    ++ leBytes 4 c.pre ++ leBytes 4 c.stamp.toNat ++ leBytes 4 c.trigStamp.toNat ++ leBytes 1 c.source ++ leBytes 1 c.status
    ++ leBytes 1 c.endCode ++ leBytes 1 c.gaps.length ++ leBytes 2 c.epochs.length ++ leBytes 2 0 ++ leBytes 4 c.lost
    ++ leBytes 4 c.missed ++ leBytes 4 c.dead ++ (c.epoch ++ List.replicate 16 0#8).take 16 ++ leBytes 4 c.size
  let body := c.chans.flatMap id ++ c.rows.flatMap (fun r => r.flatMap fun w => leBytes 4 w.toNat)
    ++ c.gaps.flatMap (fun g => leBytes 4 g.1 ++ leBytes 4 g.2) ++ c.epochs.flatMap fun e => leBytes 4 e.1 ++ e.2
  head ++ leBytes 4 (crc32c (head ++ body)).toNat ++ body

end Sys2Proof.Machine
end

