-- ==== Sys2Proof/Machine/PortCmd.lean ====
section
/-! DEFINITION. Port requests and port timers: energise, stop, arming, dead-bus, coordinated and synchronising starts
(R110-R121), with the shared procedures the outer step takes too. A row of the table that is the expiry of a timer
acts only when its timer runs and is due; otherwise only time passes (log 9). -/

namespace Sys2Proof.Machine

/-- What the outer law gives the inner partition (R102, R147). -/
def State.outEntry (s : State) (p : Nat) : OutEntry :=
  let l := (s.port p).law
  { stamp := s.stamp, omega := q27OfAcc l.omega, e := q27OfAcc l.e, rv := s.z (Pid.rv p), xv := s.z (Pid.xv p), lim := s.z (Pid.iLimEff p)
    iD := q27OfAcc l.gfD, iQ := q27OfAcc l.gfQ }

/-- The law of a port as an accepted image leaves it (R126): the whole budget, L_s at its start, and a first entry for the inner
partition. -/
def State.lawStart (s : State) (p : Nat) : State :=
  let ls := accOf27 (if s.n (Pid.iHardTime p) = 0 then s.z (Pid.iLimCont p) else s.z (Pid.iLimHard p))
  let s := (s.modPort p fun q => { q with lim := ls, budget := 0 }).setN (Pid.hardBudget p) (s.n (Pid.iHardTime p))
  let s := s.setZ (Pid.iLimEff p) (q27OfAcc (satAcc (rneDiv (ls * s.z (Pid.derate p)) 134217728)))
  s.modPort p fun q => { q with outIn := s.outEntry p }

/-- The ramp begins (R114): ENERGISING with E = 0 (the measured terminal on a DC port), ω at ω_ref*, θ = 0, the
transient impedance running on an AC port that declares one. -/
def State.beginRamp (s : State) (p : Nat) : State :=
  let dc := s.isDc p
  let v0 : Int := accOf27 ((s.elemPu p 5 0).getD 0)
  let tvi := !dc && decide (s.n (Pid.tviR0 p) ≠ 0 ∨ s.n (Pid.tviX0 p) ≠ 0)
  let s := (s.latOut p 1 false).glzHold p
  let s := s.modPort p fun q =>
    { q with
      theta48 := 0
      rampDown := false
      tviStart := if tvi then some s.now else none
      outIn := { q.outIn with omega := q27OfAcc q.law.glzF.x, e := if dc then q27OfAcc v0 else 0 }
      qOut := []
      law := { q.law with omega := q.law.glzF.x, e := if dc then v0 else 0, omegaFrz := none, slipping := false } }
  let s := (s.setPort p .energising).modPort p fun q => { q with outNext := q.outIn }
  (((s.setZ (Pid.omega p) (q27OfAcc (s.port p).law.omega)).setZ (Pid.eMag p) (q27OfAcc (s.port p).law.e)).setN
    (Pid.theta p) 0).setBit (Pid.lawFlags p) 2 tvi

/-- A contactor is declared on an AC port (R114). -/
def State.contactorDeclared (s : State) (p : Nat) : Bool := !s.isDc p && decide (s.n (Pid.hasContactor p) = 1)

/-- A dead-bus start (R114): close the contactor first where one is declared. -/
def State.deadStart (s : State) (p : Nat) : State :=
  if s.contactorDeclared p && !(s.port p).contactor then
    (s.latOut p 1 true).modPort p fun q => { q with arm := .closing s.now }
  else s.beginRamp p

/-- SYNCING begins (R117): ω, θ and E from the bus. -/
def State.beginSync (s : State) (p : Nat) : State :=
  let s := s.setPort p .syncing
  let s := s.modPort p fun q =>
    { q with
      theta48 := q.busTrk.ang.toNat * 65536
      permissiveAt := none
      dwellFrom := none
      outIn := { q.outIn with omega := s.z (Pid.busF p), e := s.z (Pid.busV p) }
      qOut := []
      law := { q.law with omega := accOf27 (s.z (Pid.busF p)), e := accOf27 (s.z (Pid.busV p)), omegaFrz := none } }
  let s := s.modPort p fun q => { q with outNext := q.outIn }
  ((s.setZ (Pid.omega p) (s.z (Pid.busF p))).setZ (Pid.eMag p) (s.z (Pid.busV p))).setBit (Pid.lawFlags p) 3 true

/-- Refusal at the start of mode 0x03 onto a live bus (R112, R116). -/
def State.refuseStart (s : State) (p : Nat) : State :=
  let s := (s.setN (Pid.refuseCode p) 9).raise 0x1802 p ((s.port p).mode * 256 + 9)
  (s.modPort p fun q => { q with latCmdFail := true }).setPortBy p .idle 0x1802

/-- The uncoordinated dead-bus start (R116): draw the delay uniformly from 0 to `backoff_max` ms. The draw is a free
value of Config reduced to the range (log 6). -/
def State.startBackoff (s : State) (p : Nat) : State :=
  let (f, s) := s.fresh
  let ms := f.toNat % (s.n (Pid.backoffMax p) + 1)
  let s := (s.setN (Pid.backoffDrawn p) ms).setBit (Pid.lawFlags p) 7 true
  s.modPort p fun q => { q with arm := .backoff (s.now + ms * psMs) }

/-- What an ARMED port that waits does with what it sees (R112). -/
def State.armedStart (s : State) (p : Nat) : State :=
  let q := s.port p
  if q.st ≠ .armed ∨ q.arm ≠ .waiting ∨ q.stopAt.isSome then s
  else if s.isDc p then s.beginRamp p
  else if s.n (Pid.busSense p) = 0 then (if q.mode = 2 then s else s.deadStart p)
  else match q.bus with
    | .live => if q.mode = 3 then s.refuseStart p else s.beginSync p
    | .dead => if q.mode = 2 then s else s.startBackoff p
    | .neither => s

/-- The port goes on under R112 once its contactor is open, a scheduled one as in mode 0x01 (R114, R115); `arm_timeout` counts
anew (DESIGN CHOICE, log 31). -/
def State.rearm (s : State) (p : Nat) : State :=
  (s.modPort p fun q => { q with arm := .waiting, since := s.now, mode := if q.mode = 4 then 1 else q.mode }).armedStart p

/-- The bus rose above `dead_level` before the ramp (R114, R115): withdraw the close request, ask for the open. A port that
declares no contactor has none to open, and goes on at once (DESIGN CHOICE, log 31). -/
def State.busRose (s : State) (p : Nat) : State :=
  let s := (s.raise 0x1809 p (s.n (Pid.busV p))).latOut p 1 false
  if s.contactorDeclared p then (s.askOpen p).modPort p fun q => { q with arm := .reopening } else s.rearm p

/-- The bus is below `dead_level` (R114); on a DC port the formed terminal (R112). Without a bus sense nothing is seen. -/
def State.belowDead (s : State) (p : Nat) : Bool :=
  if s.isDc p then decide ((s.elemPu p 5 0).getD 0 < s.z (Pid.deadLevel p))
  else decide (s.n (Pid.busSense p) = 0) || decide (s.z (Pid.busV p) < s.z (Pid.deadLevel p))

/-! ### Requests -/

/-- Network time in ns, and its validity (R381). -/
def State.netValid (s : State) : Bool := decide (s.n Pid.timeValid = 1)

/-- The scheduled instant in internal ns: the PTP second nearest to the present whose low 32 bits are
`bs_start_s` (R111, R115). -/
def State.schedNs (s : State) (p : Nat) : Nat :=
  nearSec (s.intNs / 1000000000) (s.n (Pid.bsStartS p)) * 1000000000 + s.n (Pid.bsStartNs p)

/-- A channel of an owned group, with a role or without, failed in SELF-TEST (R82 item 6, R111 code 0x04). -/
def State.portChanFailed (s : State) (p : Nat) : Bool :=
  (s.port p).groups.any fun g => (List.range 12).any fun k =>
    s.bit (Pid.faStatus (12 * g + k)) 3

/-- R111 code 0x07: DC link of at least 1.02·√2·v_base·v_set on an AC port (both sides
squared; a DC role is measured in pu of v_base, R211), low-side voltage of at least 0.2 pu on a DC port. -/
def State.linkEnough (s : State) (p : Nat) : Bool :=
  if s.isDc p then decide (26843546 ≤ (s.elemPu p 6 0).getD 0)
  else
    let v := (s.elemPu p 5 0).getD 0
    decide (0 ≤ v) && decide (2 * (102 * s.z (Pid.vSet p)) * (102 * s.z (Pid.vSet p)) ≤ (100 * v) * (100 * v))

/-- The first refuse code of R111 that applies to a request, 0 for none. -/
def State.energiseCode (s : State) (p v : Nat) : Nat :=
  if v < 1 ∨ 4 < v then 8
  else if s.unit.st = .safeStop ∧ s.bit Pid.safetyState 0 then 3
  else if !(s.unit.st = .ready || s.unit.st = .energise || s.unit.st = .run || s.unit.st = .limited || s.unit.st = .rideThrough)
      || !s.refLocked || !s.mayDrive then 1
  else if (s.port p).st ≠ .idle then 2
  else if s.bit Pid.safetyState 0 then 3
  else if s.portChanFailed p || (s.port p).fbBlocked then 4
  else if (if v = 2 then s.n (Pid.busSense p) ≠ 1
      else (s.n (Pid.portMode p) = 1 ∨ (v = 4 ∧ (!s.netValid ∨ s.n (Pid.busSense p) ≠ 1)))) then 5
  else if v = 4 ∧ ¬ (s.intNs + 1000000000 ≤ s.schedNs p ∧ s.schedNs p ≤ s.intNs + 3600000000000) then 6
  else if !s.linkEnough p then 7
  else 0

/-- A refused energise request (R111, R403): code, event, Lattice status bit 7 for one cycle. -/
def State.refuseEnergise (s : State) (p v code : Nat) : State :=
  ((s.setN (Pid.refuseCode p) code).raise 0x1802 p (v % 256 * 256 + code)).modPort p fun q => { q with latCmdFail := true }

/-- Energise one port (R111): refused with the first code that applies, else ARMED. Mode 0x04 is scheduled (R115). An accepted
request clears `refuse_code` (DESIGN CHOICE, log 31). -/
def State.doEnergise (s : State) (p v : Nat) : State :=
  let code := s.energiseCode p v
  if code ≠ 0 then s.refuseEnergise p v code
  else
    let s := s.bump (Pid.energiseCount p)
    let s := s.setN (Pid.refuseCode p) 0
    let s := s.modPort p fun q => { q with mode := v, accepted := true, arm := .waiting,
                                           legDecide := q.legs.any fun l => s.bit (Pid.legsFaulted p) l }
    let s := s.setPort p .armed
    let s := s.onlyIf (decide (v = 4)) fun s =>
      ((s.latOut p 1 (s.contactorDeclared p)).setBit (Pid.lawFlags p) 6 true).modPort p fun q => { q with arm := .scheduled (s.schedNs p) }
    s.onlyIf (s.unit.st = .ready) fun s => s.gotoUnit .energise 0

/-- ENERGISE (R111): Operator or the Lattice word; an absent port is an unknown target (R2, R26). -/
def execEnergise (t : Nat) (req : Requester) (p : Nat) (v : Word) (s : State) : Out :=
  let s := s.advance t
  .next (s.reqRow req .operator (Pid.energise p) v ((s.port p).used && decide (s.energiseCode p v.toNat = 0))
    (if (s.port p).used then s.doEnergise p v.toNat else s))

/-- Stop one port (R121): ARMED and SYNCING end at the next outer step, ENERGISING ramps down, RUN and LIMITED
shape p and q to 0 first. -/
def State.doStop (s : State) (p : Nat) : State :=
  let q := s.port p
  if q.st.atRest ∨ q.stopAt.isSome then s
  else
    let s := s.modPort p fun q => { q with stopAt := some s.now, rampDown := q.st = .energising }
    s.onlyIf (decide (q.st = .armed ∨ q.st = .syncing)) fun s => s.dropClose p

/-- STOP_PORT: the stop command 0x01 of one port (R121). -/
def execStopPort (t : Nat) (req : Requester) (p : Nat) (s : State) : Out :=
  let s := s.advance t
  .next (s.reqRow req .operator (Pid.stop p) 1 (s.port p).used (if (s.port p).used then s.doStop p else s))

/-- The unit stop (R85, R121): every energised port stops, and the unit enters STOPPING. -/
def State.doStopUnit (s : State) (cause : Nat) : State :=
  let s := s.each s.usedPorts State.doStop
  match s.unit.st with
  | .energise | .run | .limited | .rideThrough | .standby | .ready => s.gotoUnit .stopping cause
  | _ => s

/-- STOP_UNIT: the stop command 0x02 (R121). -/
def execStopUnit (t : Nat) (req : Requester) (s : State) : Out :=
  let s := s.advance t
  .next (s.reqRow req .operator (Pid.stop 0) 2 true (s.doStopUnit 0))

/-! ### Timers and detections of an ARMED or SYNCING port -/

/-- A port timer that ran out at `inst` is taken by this period's outer step, whose other inputs changed nothing, and no fault is
pending (R110). -/
def PortSt.timerDue (q : PortSt) (inst : Nat) : Bool :=
  match q.stepAt with
  | some u => q.used && !q.stopPend && decide (inst ≤ u)
  | none => false

/-- ARM_TIMEOUT (R112): no start condition within `arm_timeout`; mode 0x04 is exempt until its start time. A port whose back-off
runs has met its condition, and one that waits for its contactor is not timed here (DESIGN CHOICE, log 31). -/
def execArmTimeout (t : Nat) (p : Nat) (s : State) : Out :=
  let s := s.advance t
  let q := s.port p
  .next (if q.st = .armed && q.arm = .waiting && q.stopAt.isNone && q.timerDue (q.since + s.n (Pid.armTimeout p) * psS) then
      let cause := if s.n (Pid.busSense p) = 1 ∧ s.z (Pid.deadLevel p) ≤ s.z (Pid.busV p) ∧ s.z (Pid.busV p) < s.z (Pid.liveLevel p) then 1 else 2
      (s.raise 0x1803 p cause).setPortBy p .idle 0x1803
    else s)

/-- A condition has held for some ms. -/
def State.held (s : State) (since : Option Nat) (ms : Nat) : Bool :=
  match since with
  | some f => decide (f + ms * psMs ≤ s.now)
  | none => false

/-- BUS_DEAD_DETECTED (R113): the bus has stayed below `dead_level` for `dead_time`; an ARMED port that waits
starts under R112. -/
def execBusDeadDetected (t : Nat) (p : Nat) (s : State) : Out :=
  let s := s.advance t
  let q := s.port p
  .next (if q.used && decide (s.n (Pid.busSense p) = 1) && s.held q.busLow (s.n (Pid.deadTime p)) then
      let s := s.modPort p fun q => { q with bus := .dead }
      ((s.setN (Pid.busF p) 0).setN (Pid.busAngleDiff p) 0).armedStart p
    else s)

/-- While the bus is live, the tracker's frequency and angle difference are shown (R113). -/
def State.showBus (s : State) (p : Nat) : State :=
  let m := (s.port p).busTrk
  (s.setZ (Pid.busF p) m.f).setW (Pid.busAngleDiff p) (s.w (Pid.theta p) - m.ang)

/-- BUS_LIVE_DETECTED (R113): `bus_v` has stayed at or above `live_level` for 20 ms; frequency and angle become
valid, and an ARMED port that waits starts under R112. -/
def execBusLiveDetected (t : Nat) (p : Nat) (_f _ang : Unit) (s : State) : Out :=
  let s := s.advance t
  let q := s.port p
  .next (if q.used && decide (s.n (Pid.busSense p) = 1) && s.held q.busHigh 20 then
      let s := s.modPort p fun q => { q with bus := .live }
      (s.showBus p).armedStart p
    else s)

/-- BACKOFF_EXPIRY (R116): the bus is checked again at the end of the delay. -/
def execBackoffExpiry (t : Nat) (p : Nat) (s : State) : Out :=
  let s := s.advance t
  let q := s.port p
  .next (match q.arm with
    | .backoff u =>
      if q.used && q.st = .armed && q.stopAt.isNone && decide (u ≤ s.now) then
        let s := (s.modPort p fun q => { q with arm := .waiting }).setBit (Pid.lawFlags p) 7 false
        match q.bus with
        | .dead => s.deadStart p
        | .live => if q.mode = 3 then s.refuseStart p else s.beginSync p
        | .neither => s
      else s
    | _ => s)

/-- COORDINATED_START (R115): the decision at the start instant. The start error is the present internal time less
the scheduled instant. -/
def execCoordinatedStart (t : Nat) (p : Nat) (s : State) : Out :=
  let s := s.advance t
  let q := s.port p
  .next (match q.arm with
    | .scheduled atNs =>
      if q.used && q.st = .armed && q.stopAt.isNone && decide (atNs ≤ s.intNs) then
        let s := (s.latOut p 1 false).setBit (Pid.lawFlags p) 6 false
        if !s.belowDead p then s.busRose p
        else if s.contactorDeclared p && !q.contactor then (s.raise 0x1807 p 3).setPortBy p .idle 0x1807
        else (s.beginRamp p).raise 0x0804 p (u32z ((s.intNs : Int) - atNs))
      else s
    | _ => s)

/-- SCHEDULE_CANCEL (R115): network time became invalid before the start instant; the port goes on as in mode 0x01,
with the back-off of R116 counted from now. -/
def execScheduleCancel (t : Nat) (p : Nat) (s : State) : Out :=
  let s := s.advance t
  let q := s.port p
  .next (match q.arm with
    | .scheduled atNs =>
      if q.used && q.st = .armed && !s.netValid && decide (s.intNs < atNs) then
        let s := s.raise 0x1805 p (min (atNs - s.intNs) 0xFFFFFFFF)
        let s := (s.latOut p 1 false).setBit (Pid.lawFlags p) 6 false
        let s := s.modPort p fun q => { q with mode := 1, arm := .waiting, since := s.now }
        s.armedStart p
      else s
    | _ => s)

/-- The three windows of R118 hold. -/
def State.syncWindows (s : State) (p : Nat) : Bool :=
  let q := s.port p
  decide ((q.dthPred.natAbs : Int) ≤ s.n (Pid.syncAngleWin p)) &&
  decide ((q27OfAcc q.law.omega - s.z (Pid.busF p)).natAbs ≤ s.n (Pid.syncFreqWin p)) &&
  decide ((q27OfAcc q.law.e - s.z (Pid.busV p)).natAbs ≤ s.n (Pid.syncVoltWin p))

/-- SYNC_DWELL_COMPLETE (R118): the windows have held for `sync_dwell`; the permissive and event 0x0808. -/
def execSyncDwellComplete (t : Nat) (p : Nat) (s : State) : Out :=
  let s := s.advance t
  let q := s.port p
  .next (match q.dwellFrom with
    | some f =>
      if q.used && q.st = .syncing && q.permissiveAt.isNone && q.stopAt.isNone && s.syncWindows p && decide (f + s.n (Pid.syncDwell p) * psMs ≤ s.now) then
        let s := (s.latOut p 0 true).modPort p fun q => { q with permissiveAt := some s.now }
        s.raise 0x0808 p (u32z q.dthPred * 2 ^ 32 + u32z (q27OfAcc q.law.omega - s.z (Pid.busF p)))
      else s
    | none => s)

/-- CLOSE_TIMEOUT (R114, R119): no confirmation within `close_timeout` of the close request, or of the permissive. -/
def execCloseTimeout (t : Nat) (p : Nat) (s : State) : Out :=
  let s := s.advance t
  let q := s.port p
  let lim := s.n (Pid.closeTimeout p) * psMs
  .next (match q.st, q.arm, q.permissiveAt with
    | .armed, .closing since, _ =>
      if q.timerDue (since + lim) && q.stopAt.isNone && q.confirmIn ≠ some true then (s.raise 0x1807 p 1).setPortBy p .idle 0x1807 else s
    | .syncing, _, some since =>
      if q.timerDue (since + lim) && q.stopAt.isNone && q.confirmIn ≠ some true then
        ((s.raise 0x1807 p 2).bump (Pid.syncFailCount p)).dropClose p
      else s
    | _, _, _ => s)

/-- SYNC_TIMEOUT (R120): not closed within `sync_timeout` of entering SYNCING. A stop or a confirmation that the next outer step
takes comes before the timer (R110). -/
def execSyncTimeout (t : Nat) (p : Nat) (s : State) : Out :=
  let s := s.advance t
  let q := s.port p
  .next (if q.st = .syncing && q.stopAt.isNone && q.confirmIn ≠ some true && q.timerDue (q.since + s.n (Pid.syncTimeout p) * psS) then
      ((s.raise 0x1806 p (s.n (Pid.busAngleDiff p))).bump (Pid.syncFailCount p)).setPortBy p .idle 0x1806
    else s)

/-- The open request of a stop (R121 step 2), or the end of the stop where no contactor is declared (step 3). -/
def State.stopOpen (s : State) (p : Nat) : State :=
  if s.contactorDeclared p then s.askOpen p else s.setPort p .idle

/-- STOP_TIMEOUT (R121 step 2). -/
def execStopTimeout (t : Nat) (p : Nat) (s : State) : Out :=
  let s := s.advance t
  let q := s.port p
  .next (match q.stopAt with
    | some f =>
      if q.st.running && !q.openAsked && q.timerDue (f + s.n (Pid.stopTimeout p) * psMs) then s.stopOpen p else s
    | none => s)

end Sys2Proof.Machine
end

