-- ==== Sys2Proof/Machine/Island.lean ====
section
/-! DEFINITION. The gate islands: keep-alives and watchdogs (R259-R261), the complement interlock (R262-R265), pulses
(R266), detections and soft turn-off (R267-R270, R280) and the end of a leg-fault run (R271). The modulator's commands arrive 25 ns
after they left it (R239, R257); the control side's own commands act at the instant of their row, within R257's and R267's
times. An on or off command row is the arrival of a command that is on its way. -/

namespace Sys2Proof.Machine

/-- The islands of used legs. -/
def State.usedIsls (s : State) : List Nat := (List.range 48).filter s.islUsed

/-- The port of an island's leg. -/
def State.islPort (s : State) (i : Nat) : Nat := (s.portOfLeg (legOfIsl i)).getD 0

/-- Show an island's leg and the port's island-fault bit after a change. -/
def State.showSw (s : State) (i : Nat) : State := (s.showLeg (legOfIsl i)).protSources (s.islPort i)

/-- The outer and inner switches of a T-type phase: S1, S4 on the even leg; S2, S3 on the odd leg (R235). -/
def isOuterSw (i : Nat) : Bool := decide (i % 4 < 2)

/-- The inner switch that must be on before an outer one turns on, and the outer one that must be off before an inner
one turns off (R265): S1 with S2, S4 with S3. -/
def orderMate (i : Nat) : Nat :=
  match i % 4 with
  | 0 => i + 2
  | 1 => i + 2
  | _ => i - 2

/-- The pre-driver enable of an island is present at this instant (R256); an inner switch of a T-type phase has lost it 1.0 µs after the
removal began (R289). -/
def State.enabled (s : State) (i : Nat) : Bool :=
  (s.island i).enable && !(s.innerSw i && s.unit.innerOff.any fun d => decide (d ≤ s.now))

/-- R262, R265, R280, R318: every condition of a turn-on holds at this instant. -/
def State.mayTurnOn (s : State) (i : Nat) : Bool :=
  let x := s.island i
  let p := s.islPort i
  s.mayDrive && x.pendAt.isSome && !x.on && x.soft.isNone && (s.island (s.partner i)).offConf &&
  (match x.noticeAt with
    | some n => decide (n + s.n (Pid.ilMinTime p) * 1000 ≤ s.now)
    | none => true) &&
  !s.bit (Pid.legProt (legOfIsl i)) 0 && !x.latched && s.enabled i && decide (x.uv = 0) &&
  (!(s.isTType (legOfIsl i) && isOuterSw i) || ((s.island (orderMate i)).onCmd && (s.island (orderMate i)).above))

/-- A turn-on has pended 2.0 µs or longer (R263), give or take `tie`. -/
def State.turnOnLate (s : State) (i tie : Nat) : Bool := (s.island i).pendAt.any fun a => decide (a + 2 * psUs ≤ s.now + tie)

/-- The leg under which the counts of R263 and R264 of an island's complementary pair stand: its own; in T-type the even leg for the pair
S1, S3 and the odd one for S2, S4 (R265). -/
def State.pairKey (s : State) (i : Nat) : Nat :=
  if s.isTType (legOfIsl i) then i / 4 * 2 + b01 (decide (i % 4 = 1 ∨ i % 4 = 2)) else legOfIsl i

/-- A turn-on is dropped (R263): the second of a leg within 1 s is a fault of cause 0x06. -/
def State.dropTurnOn (s : State) (i : Nat) : State :=
  let l := legOfIsl i
  let s := s.chgIsl i fun x => { x with pendAt := none, onCmd := false, pulseLen := 0 }
  let s := (s.bump (Pid.hsTimeoutCount i)).raise 0x1601 i s.stamp.toNat
  let k := s.pairKey i
  let s := s.modLeg k fun x => { x with drops := s.now :: x.drops.filter fun u => decide (s.now < u + psS) }
  (s.onlyIf (decide (2 ≤ (s.leg k).drops.length)) fun s => s.legFault l 6 i []).showSw i

/-- A pending turn-on proceeds when its conditions hold; the timeout wins a tie (R47). -/
def State.tryOn (s : State) (i : Nat) : State :=
  if s.turnOnLate i tiePs then s.dropTurnOn i
  else if s.mayTurnOn i then
    (s.chgIsl i fun x =>
      { x with on := true, pendAt := none, offConf := false, above := false,
               pulseEnd := if x.pulseLen = 0 then none else some (s.now + x.pulseLen) }).showSw i
  else s

/-- One complement conflict of a complementary pair (R264, R265): the third within 1 s is a leg fault of cause 0x07. -/
def State.legConflict (s : State) (i : Nat) : State :=
  let k := s.pairKey i
  let s := s.modLeg k fun x => { x with conflicts := s.now :: x.conflicts.filter fun t => decide (s.now < t + psS) }
  if 3 ≤ (s.leg k).conflicts.length then s.legFault (legOfIsl i) 7 i [] else s

/-- A suppressed command: counted, event 0x1602 with its kind (R264). -/
def State.conflictAt (s : State) (i kind : Nat) : State := (s.bump (Pid.conflictCount i)).raise 0x1602 i kind

/-- Least and latest expiry of an island's watchdog after the last keep-alive (R260), in ps: S2 and S3 of a T-type phase wait longer. -/
def State.wdTimes (s : State) (i : Nat) : Nat × Nat :=
  if s.isTType (legOfIsl i) && !isOuterSw i then (2600000, 3000000) else (1600000, 2000000)

/-- The watchdog of an island expires (R260): normal turn-off. -/
def State.wdExpire (s : State) (i : Nat) : State :=
  (((s.islDown i).chgIsl i fun x => { x with wdExpired := true }).bump (Pid.wdCount i)).showSw i

/-- The watchdog has expired by now at the latest: a keep-alive that comes then is late (R47, R260). -/
def State.wdLate (s : State) (i : Nat) : Bool :=
  let x := s.island i
  s.islUsed i && decide (x.keepAt ≠ 0) && !x.wdExpired && decide (x.keepAt + (s.wdTimes i).2 ≤ s.now + tiePs)

/-- A command or keep-alive reaches an island (R260). -/
def State.keepIsl (s : State) (i : Nat) : State :=
  (s.onlyIf (s.wdLate i) fun s => s.wdExpire i).modIsl i fun x => { x with keepAt := s.now, wdExpired := false }

/-- An on command at an island (R256, R262-R265); `len` is the length of a pulse, 0 for a lasting command. -/
def State.onCommand (s : State) (i len : Nat) : State :=
  let m := s.partner i
  let y := s.island m
  if !s.islUsed i || !s.enabled i then s
  else
    let s := s.keepIsl i
    let x := s.island i
    if y.onCmd then
      if decide (s.now ≤ y.cmdAt + 2000) && !x.on then
        -- the partner was off when its own command came: neither turns on (R264)
        let s := s.chgIsl m fun y =>
          { y with onCmd := false, pendAt := none, pulseLen := 0, pulseEnd := none, on := false, above := false, offConf := y.offConf || y.on }
        let s := s.chgIsl i fun x => { x with onCmd := false, pendAt := none }
        (((s.conflictAt i 2).conflictAt m 2).legConflict i).showSw i
      else ((s.conflictAt i 1).legConflict i).showSw i
    else if s.isTType (legOfIsl i) && isOuterSw i && !(s.island (orderMate i)).onCmd then
      ((s.conflictAt i 3).legConflict i).showSw i
    else if x.on then s.chgIsl i fun x => { x with onCmd := true }
    else
      let s := s.chgIsl i fun x => { x with onCmd := true, pendAt := some s.now, cmdAt := s.now, pulseLen := len }
      (s.tryOn i).showSw i

/-- KEEP_ALIVE_SEND (R259): from the end of SELF-TEST while the PLL outputs run, to every island of a used leg. -/
def execKeepAliveSend (t : Nat) (s : State) : Out :=
  let s := s.advance t
  let started := match s.unit.st with
    | .off | .reset | .refLock | .imageLoad | .selfTest => false
    | _ => true
  .next (if started && s.ref.lockedTo.isSome then
      s.each s.usedIsls fun s i => (s.keepIsl i).showIsl i
    else s)

/-- ISLAND_ON_COMMAND (R239, R262-R265): the on command that the modulator sent arrives. -/
def execIslandOnCommand (t : Nat) (i : Nat) (s : State) : Out :=
  let s := (s.advance t).innerEnables
  .next (if (s.island i).onDue.any fun u => decide (u ≤ s.now) then
      (((s.modIsl i fun x => { x with onDue := none }).onCommand i 0).showSw i)
    else s)

/-- An inner switch that waits for the topology-safe order turns off 1.0 µs after both outer ones confirmed (R272). -/
def State.innerOffAt (s : State) (i : Nat) : State :=
  let l := legOfIsl i
  match (s.leg l).innerFrom with
  | some f =>
    if f + psUs ≤ s.now then
      let s := s.islOff i
      let s := s.onlyIf (!(s.island (islHigh l)).on && !(s.island (islLow l)).on) fun s => s.modLeg l fun x => { x with innerWait := false }
      s.showSw i
    else s
  | none => s

/-- ISLAND_OFF_COMMAND (R239, R257, R265, R272): the off command that the modulator sent arrives, or the one of the topology-safe
order is issued. In T-type an inner switch turns off only while its outer one shows OFF-confirm. -/
def execIslandOffCommand (t : Nat) (i : Nat) (s : State) : Out :=
  let s := s.advance t
  let l := legOfIsl i
  let inner := s.isTType l && !isOuterSw i
  .next (if !s.islUsed i then s
    else
      let s := s.innerEnables
      if inner && (s.leg l).innerWait then (s.keepIsl i).innerOffAt i
      else if !(s.island i).offDue.any fun u => decide (u ≤ s.now) then s
      else
        let s := (s.keepIsl i).modIsl i fun x => { x with offDue := none }
        if inner && !(s.island (orderMate i)).offConf then ((s.conflictAt i 3).legConflict i).showSw i
        else (s.islOff i).showSw i)

/-- The gate has not reached OFF-confirm 2.0 µs after the island's own off command (R263). -/
def State.gateNotOff (s : State) (i : Nat) : State :=
  let x := s.island i
  if s.islUsed i && !x.on && !x.offConf && x.soft.isNone && !bitAt x.flags 10
      && x.offAt.any (fun a => decide (a + 2 * psUs ≤ s.now)) then
    ((s.chgIsl i fun x => { x with flags := x.flags + 1024 }).legFault (legOfIsl i) 0x0B i []).showSw i
  else s

/-- OFF_CONFIRM (R262, R268, R272): the gate falls below VN + 2 V; the relay reaches the waiting partner. -/
def execOffConfirm (t : Nat) (i : Nat) (s : State) : Out :=
  let s := (s.advance t).gateNotOff i
  let x := s.island i
  let l := legOfIsl i
  .next (if x.on || x.offConf then s
    else
      let s := match x.soft with
        | some f => s.setN (Pid.softOffTime i) ((s.now - f) / 1000)
        | none => s
      let s := s.chgIsl i fun x => { x with offConf := true, offAt := none, soft := none, softFull := false, lost := false }
      let s := s.onlyIf (s.isTType l && s.outersConf l) fun s =>
        s.modLeg (l / 2 * 2 + 1) fun y => { y with innerFrom := if y.innerWait && y.innerFrom.isNone then some s.now else y.innerFrom }
      (s.tryOn (s.partner i)).showSw i)

/-- IL_MIN_TIME_ELAPSED (R262): the island's own timer; a pending turn-on proceeds when its conditions hold. -/
def execIlMinTimeElapsed (t : Nat) (i : Nat) (s : State) : Out :=
  let s := s.advance t
  .next (s.tryOn i)

/-- GATE_ABOVE_PLATEAU (R265): the gate of a switch that is on rises above `gs_plateau_v`; in T-type an inner one
permits its outer one. A unit without the biscuit sees its partner's gate on the shared `GS`: no OFF-confirm there (R332). -/
def execGateAbovePlateau (t : Nat) (i : Nat) (s : State) : Out :=
  let s := s.advance t
  .next (if !(s.island i).on then
      s.onlyIf (!s.mayDrive) fun s => (s.chgIsl i fun x => { x with offConf := false }).showSw i
    else
      let s := s.chgIsl i fun x => { x with above := true }
      if s.isTType (legOfIsl i) && !isOuterSw i then s.tryOn (orderMate i) else s)

/-- TURN_ON_TIMEOUT (R263): a turn-on not permitted within 2.0 µs. -/
def execTurnOnTimeout (t : Nat) (i : Nat) (s : State) : Out :=
  let s := s.advance t
  .next (if s.turnOnLate i 0 then s.dropTurnOn i else s)

/-- GATE_NOT_OFF (R263): no OFF-confirm 2.0 µs after the island's own off command. -/
def execGateNotOff (t : Nat) (i : Nat) (s : State) : Out :=
  let s := s.advance t
  .next (s.gateNotOff i)

/-- ISLAND_WATCHDOG_EXPIRY (R260): normal turn-off on the island's own oscillator, 1.6-2.0 µs after the last
keep-alive, 2.6-3.0 µs for S2 and S3. -/
def execIslandWatchdogExpiry (t : Nat) (i : Nat) (s : State) : Out :=
  let s := s.advance t
  let x := s.island i
  .next (if s.islUsed i && decide (x.keepAt ≠ 0) && !x.wdExpired && decide (x.keepAt + (s.wdTimes i).1 ≤ s.now) then s.wdExpire i
    else s)

/-- ISLAND_LOST (R261): nothing on the status path for 2.0 µs; not judged while the PWM outputs are gated. -/
def execIslandLost (t : Nat) (i : Nat) (s : State) : Out :=
  let s := s.advance t
  .next (if s.islUsed i && s.ref.lockedTo.isSome && !(s.island i).lost then
      ((s.chgIsl i fun x => { x with lost := true }).legFault (legOfIsl i) 9 i []).showSw i
    else s)

/-- Set a detection bit of `isl_status` (bits 3 to 5). -/
def State.detect (s : State) (i k : Nat) : State :=
  s.chgIsl i fun x => { x with flags := if bitAt x.flags k then x.flags else x.flags + 2 ^ k }

/-- A detection at an island is counted (R267, R269): until its switch shows OFF-confirm, and on a leg already latched. -/
def State.detects (s : State) (i : Nat) : Bool :=
  let x := s.island i
  s.islUsed i && (x.on || x.soft.isSome || !x.offConf || s.bit (Pid.legProt (legOfIsl i)) 0)

/-- DESATURATION (R267): DS above `ds_thresh` while on, after blanking. -/
def execDesaturation (t : Nat) (i : Nat) (s : State) : Out :=
  let s := s.advance t
  let x := s.island i
  .next (if s.detects i && decide (x.cmdAt + s.n (Pid.dsBlank i) * 1000 ≤ s.now) then
      (((s.bump (Pid.dsCount i)).detect i 3).legFault (legOfIsl i) 1 i [i]).showSw i
    else s)

/-- GATE_PLATEAU_MISSING (R267): the gate rose above `gs_plateau_v` earlier than `gs_plateau_min` after the on command
arrived (action within 30 ns). -/
def execGatePlateauMissing (t : Nat) (i : Nat) (s : State) : Out :=
  let s := s.advance t
  let x := s.island i
  let m := s.n (Pid.gsPlateauMin i)
  .next (if s.detects i && decide (m ≠ 0) && decide (s.now < x.cmdAt + (m + 30) * 1000) then
      (((s.bump (Pid.plateauCount i)).detect i 4).legFault (legOfIsl i) 2 i [i]).showSw i
    else s)

/-- GATE_NOT_ON (R267): at the end of blanking the gate is not above `gs_plateau_v`; normal turn-off. -/
def execGateNotOn (t : Nat) (i : Nat) (s : State) : Out :=
  let s := s.advance t
  let x := s.island i
  .next (if s.islUsed i && x.on && !x.above && decide (x.cmdAt + s.n (Pid.dsBlank i) * 1000 ≤ s.now) then
      (((s.bump (Pid.plateauCount i)).detect i 5).legFault (legOfIsl i) 3 i []).showSw i
    else s)

/-- The islands on one supply (R256, R270): a high-side island alone, a low-side island with its bank of six. -/
def supplyOf (i : Nat) : List Nat := if i % 2 = 0 then [i] else (List.range 6).map fun k => i / 12 * 12 + 2 * k + 1

/-- ISLAND_UNDERVOLTAGE (R280): the islands hold off; a switching leg faults with cause 0x08, any other raises 0x1603
and counts. With both rails low the event names VP (DESIGN CHOICE, log 46). Islands of unused legs are not watched. -/
def execIslandUndervoltage (t : Nat) (i : Nat) (vpLow vnLow : Bool) (s : State) : Out :=
  let s := s.advance t
  let is := (supplyOf i).filter s.islUsed
  let entering := is.filter fun j => decide ((s.island j).uv = 0)
  .next (if !vpLow && !vnLow then s
    else
      let faults := (is.filter fun j => s.bit (Pid.legOut (legOfIsl j)) 4).map fun j => (legOfIsl j, 8, j)
      let quiet := entering.filter fun j => !s.bit (Pid.legOut (legOfIsl j)) 4
      let s := s.each is fun s j => s.modIsl j fun x => { x with uv := b01 (vpLow || bitAt x.uv 0) + 2 * b01 (vnLow || bitAt x.uv 1) }
      let s := s.legFaults faults []
      let s := s.each is fun s j => (s.islDown j).showSw j
      s.each quiet fun s j => (s.raise 0x1603 j (if vpLow then 1 else 2)).bump (Pid.uvloCount j))

/-- ISLAND_SUPPLY_RECOVER (R280): VP above 13.0 V and VN below −4.0 V. -/
def execIslandSupplyRecover (t : Nat) (i : Nat) (s : State) : Out :=
  let s := s.advance t
  .next (s.each ((supplyOf i).filter s.islUsed) fun s j => (s.chgIsl j fun x => { x with uv := 0, lost := false }).showSw j)

/-- What an island's `GO` does (R256, R268, R289, R318). -/
inductive GoDrive where
  | highZ
  | on
  | softSink
  | sink
  deriving DecidableEq, Repr

/-- The drive of an island's `GO`: high impedance in a unit that does not hold the biscuit (R318); else it sources while on, sinks 0.2 A in
soft turn-off and at full strength otherwise. -/
def State.goDrive (s : State) (i : Nat) : GoDrive :=
  let x := s.island i
  if !s.mayDrive then .highZ else if x.on then .on else if x.soft.isSome && !x.softFull then .softSink else .sink

/-- SOFT_OFF_FULL_STRENGTH (R268): 5.0 µs after soft turn-off began, where the unit drives its gates (R318). -/
def execSoftOffFullStrength (t : Nat) (i : Nat) (s : State) : Out :=
  let s := s.advance t
  .next (match (s.island i).soft with
    | some f => if f + 5 * psUs ≤ s.now ∧ s.mayDrive then s.modIsl i fun x => { x with softFull := true } else s
    | none => s)

/-- LEG_FAULT_RUN_END (R271): 10 µs after the first fault of the run. -/
def execLegFaultRunEnd (t : Nat) (p : Nat) (s : State) : Out :=
  let s := s.advance t
  .next (match (s.port p).runFrom with
    | some f => if f + 10 * psUs ≤ s.now then s.legDecision p else s
    | none => s)

/-! ### Pulses (R266) -/

/-- A pulse or self-test runs on an island. -/
def IslSt.busy (x : IslSt) : Bool := decide (x.pulseLen ≠ 0) || x.pulseEnd.isSome || x.testing.isSome

/-- The conditions of `isl_pulse` (R266). -/
def State.pulseOk (s : State) (i : Nat) (v : Word) : Bool :=
  s.islUsed i && decide (10 ≤ v.toNat ∧ v.toNat ≤ 1000) && s.unit.st = .ready && (s.port (s.islPort i)).st = .idle &&
  decide (s.n (Pid.modState (s.islPort i)) = 1) && s.enabled i && !(s.island i).busy && !(s.island (s.partner i)).busy

/-- The pulse's on command, through every condition of R262; the time is in 10 ns. -/
def State.doPulse (s : State) (i : Nat) (v : Word) : State := s.onCommand i (v.toNat * 10000)

/-- ISL_PULSE (R266). -/
def execIslPulse (t : Nat) (role : Role) (i : Nat) (v : Word) (s : State) : Out :=
  let s := s.advance t
  .next (s.cmdRow role .service (Pid.islPulse i) v (s.pulseOk i v) (s.doPulse i v))

/-- ISL_PULSE_END (R266): a normal turn-off; in T-type an inner switch turns off only while its outer one shows OFF-confirm (R265). -/
def execIslPulseEnd (t : Nat) (i : Nat) (s : State) : Out :=
  let s := s.advance t
  .next (match (s.island i).pulseEnd with
    | some e =>
      if s.now < e then s
      else if s.innerSw i && !(s.island (orderMate i)).offConf then ((s.conflictAt i 3).legConflict i).showSw i
      else (s.islOff i).showSw i
    | none => s)

end Sys2Proof.Machine
end

