-- ==== Sys2Proof/Machine/Protect.lean ====
section
/-! DEFINITION. Trip inputs (R273, R274), clearing (R275, R276) and the island self-test (R277-R279). -/

namespace Sys2Proof.Machine

/-- TRIP_INPUT_ASSERT (R273, R274): every named port not already stopped goes to PORT-STOP with cause 0x05; the phases of the legs
of one that is are recorded. -/
def execTripInputAssert (t : Nat) (n : Nat) (s : State) : Out :=
  let s := s.advance t
  .next (if 8 ≤ n || s.n (Pid.tripPorts n) = 0 || s.n (Pid.tripLevel n) = 1 then s
    else
      let s := (s.setN (Pid.tripLevel n) 1).bump (Pid.tripInCount n)
      let s := s.raise 0x1707 n (s.stamp.toNat * 2 ^ 32 + s.n (Pid.tripPorts n))
      s.each (s.usedPorts.filter fun p => s.bit (Pid.tripPorts n) p) fun s p =>
        (if (s.port p).stopped then s.recordPhases p else s.protStop p 5 (decide (s.n (Pid.tripAction n) = 1))).protSources p)

/-- TRIP_INPUT_RELEASE (R273). -/
def execTripInputRelease (t : Nat) (n : Nat) (s : State) : Out :=
  let s := s.advance t
  .next (if 8 ≤ n || s.n (Pid.tripPorts n) = 0 then s
    else
      let s := s.setN (Pid.tripLevel n) 0
      s.each s.usedPorts fun s p => s.protSources p)

/-! ### Clearing (R275, R276) -/

/-- The requester code of event 0x1704. -/
def reqCode (r : Requester) : Nat :=
  match r with
  | .role .operator => 1
  | .lattice => 2
  | .role _ => 3
  | .auto => 4

/-- The requester is Service or higher. -/
def reqService (r : Requester) : Bool :=
  match r with
  | .role x => x.meets .service
  | _ => false

/-- A leg of the port is faulted. -/
def State.anyLegFaulted (s : State) (p : Nat) : Bool := decide (s.n (Pid.legsFaulted p) ≠ 0)

/-- The first refuse code of R275 that applies, in the order of its table; 0 for an accepted clear. -/
def State.clearCode (s : State) (r : Requester) (p : Nat) (v : Word) : Nat :=
  let q := s.port p
  if v.toNat ≠ 1 then 8
  else if s.unit.st = .faultHold ∨ s.unit.st = .safeStop then 6
  else if q.st ≠ .portStop ∧ !s.anyLegFaulted p then 1
  else if s.anyLegFaulted p ∧ q.st.switching then 7
  else if s.bit (Pid.protState p) 3 ∧ !reqService r then 5
  else if (List.range 8).any fun n => s.n (Pid.tripLevel n) = 1 && s.bit (Pid.tripPorts n) p then 2
  else if q.groups.any fun g => (List.range 12).any fun k => s.bit (Pid.faStatus (12 * g + k)) 5 then 3
  else if q.legs.any fun l => [islHigh l, islLow l].any fun i => decide ((s.island i).uv ≠ 0) || (s.island i).lost then 4
  else 0

/-- The latch and the detection flags of an island cleared (R275). -/
def State.unlatch (s : State) (i : Nat) : State := s.chgIsl i fun x => { x with latched := false, flags := 0 }

/-- A leg carries a self-test mark, or the other leg of its T-type pair does (R265, R278). -/
def State.legMarked (s : State) (l : Nat) : Bool := s.bit (Pid.legProt l) 1 || (s.isTType l && s.bit (Pid.legProt (pairLeg l)) 1)

/-- One leg in an accepted clear: unlatched unless it carries a self-test mark (R275, R278, R279). -/
def State.clearLeg (s : State) (p l : Nat) : State :=
  let s := s.modLeg l fun x => { x with drops := [], conflicts := [] }
  if s.legMarked l then s
  else
    (((s.unlatch (islHigh l)).unlatch (islLow l)).setN (Pid.legProt l) 0).setBit (Pid.legsFaulted p) l false

/-- The cause of the lowest-numbered leg that is still faulted (R283). -/
def State.firstFault (s : State) (p : Nat) : Nat :=
  match (s.port p).legs.find? fun l => s.bit (Pid.legsFaulted p) l with
  | some l => s.n (Pid.legProt l) / 256 % 256
  | none => 0

/-- An accepted clear (R275): `kind` is 1 manual, 2 automatic. `clear_refuse` returns to 0 (DESIGN CHOICE, log 46). -/
def State.acceptClear (s : State) (p kind : Nat) : State :=
  let s := s.each (s.port p).legs fun s l => s.clearLeg p l
  let s := (s.setZ (Pid.fLeg p) one27).setN (Pid.clearRefuse p) 0
  let s := ((s.setBit (Pid.protState p) 3 false).setBit (Pid.protState p) 4 false).setBit (Pid.protState p) 5 false
  let s := s.modPort p fun q =>
    { q with
      fLegNum := 1, fLegDen := 1, deadLegs := [], autoAt := none, runFrom := none
      legDecide := q.legDecide && s.anyLegFaulted p
      firstCause := s.firstFault p }
  let s := s.raise 0x0705 p ((s.port p).tries.length % 256 * 256 + kind)
  (s.onlyIf (decide ((s.port p).st = .portStop)) fun s => s.setPort p .idle).protSources p

/-- A refused clear (R275, R403): code, count, event, Lattice status bit 7 for one cycle. -/
def State.refuseClear (s : State) (r : Requester) (p code : Nat) : State :=
  let s := s.modPort p fun q => { q with latCmdFail := true }
  ((s.setN (Pid.clearRefuse p) code).bump (Pid.clearRefuseCount p)).raise 0x1704 p (reqCode r * 256 + code)

/-- A clear request (R275): accepted, or refused with the first code that applies. -/
def State.doClear (s : State) (r : Requester) (p : Nat) (v : Word) : State :=
  let code := s.clearCode r p v
  if code = 0 then s.acceptClear p (if r = .auto then 2 else 1) else s.refuseClear r p code

/-- PROT_CLEAR (R275): the Operator, Service or Lattice. -/
def execProtClear (t : Nat) (req : Requester) (p : Nat) (v : Word) (s : State) : Out :=
  let s := s.advance t
  .next (s.reqRow req .operator (Pid.protClear p) v ((s.port p).used && decide (s.clearCode req p v = 0))
    (if (s.port p).used then s.doClear req p v else s))

/-- AUTO_CLEAR (R276): a try, counted whatever comes of it; after a refusal another try, or the latch. -/
def execAutoClear (t : Nat) (p : Nat) (s : State) : Out :=
  let s := s.advance t
  .next (match (s.port p).autoAt with
    | some a =>
      if a ≤ s.now then
        let s := (s.modPort p fun q => { q with tries := s.now :: q.tries, autoAt := none }).autoPrune p
        let ok := decide (s.clearCode .auto p 1#32 = 0)
        let s := s.doClear .auto p 1#32
        if ok then s else s.autoArm p
      else s
    | none => s)

/-- AUTO_WINDOW_AGE_OUT (R276): tries older than `auto_window` leave `auto_used`. -/
def execAutoWindowAgeOut (t : Nat) (p : Nat) (s : State) : Out :=
  let s := s.advance t
  .next (if (s.port p).used then s.autoPrune p else s)

/-! ### Island self-test (R277-R279) -/

/-- A failed `DS` or `GS` item (R278): the leg is marked and faulted with cause 0x0A; a leg latched by another cause before takes this one,
with its own event and count. -/
def State.istFault (s : State) (i : Nat) : State :=
  let l := legOfIsl i
  let was := s.bit (Pid.legProt l) 0
  let cause := s.n (Pid.legProt l) / 256 % 256
  let s := ((s.chgIsl i fun x => { x with marked := true }).setBit (Pid.legProt l) 1 true).legFault l 0x0A i []
  s.onlyIf (was && decide (cause ≠ 0x0A)) fun s =>
    ((s.setN (Pid.legProt l) (0x0A * 256 + 3)).bump (Pid.legFaultCount l)).raise 0x3701 l
      (s.stamp.toNat * 2 ^ 32 + i * 65536 + s.legPhase l * 256 + 0x0A)

/-- The result of a test of island `i`, bits as `ist_result` [4:0]; a high-side island has no `NS` items. -/
def State.istJudge (s : State) (i bits : Nat) : State :=
  let l := legOfIsl i
  let b := if i % 2 = 0 then bits % 8 else bits % 32
  let s := s.setN (Pid.istResult i) (b + 128)
  if b = 0 then
    let s := s.chgIsl i fun x => { x with marked := false, nsFault := false, lost := false }
    let s := s.onlyIf (!(s.island (islHigh l)).marked && !(s.island (islLow l)).marked) fun s => s.setBit (Pid.legProt l) 1 false
    s.raise 0x0605 i (b + 128)
  else
    let s := (s.chgIsl i fun x => { x with lost := false }).raise 0x1606 i (b + 128)
    let s := s.onlyIf (decide (b % 8 ≠ 0)) fun s => s.istFault i
    match s.portOfLeg l with
    | some p => if b / 8 ≠ 0 then s.dtFallback p l 1 else s
    | none => s

/-- An island of the variant (R2). -/
def State.islExists (s : State) (i : Nat) : Bool := decide (i < if s.fourP then 48 else 24)

/-- The conditions of `ist_cmd` (R277). -/
def State.istOk (s : State) (i : Nat) (v : Word) : Bool :=
  s.islExists i && decide (v.toNat = 1) && !(s.island i).on && (s.island i).soft.isNone && (s.island i).testing.isNone
    && !s.bit (Pid.legOut (legOfIsl i)) 4

/-- Start a self-test. -/
def State.doIst (s : State) (i : Nat) : State := (s.modIsl i fun x => { x with testing := some s.now }).setN (Pid.istResult i) 0

/-- IST_CMD (R277). -/
def execIstCmd (t : Nat) (role : Role) (i : Nat) (v : Word) (s : State) : Out :=
  let s := s.advance t
  .next (s.cmdRow role .service (Pid.istCmd i) v (s.istOk i v) (s.doIst i))

/-- IST_COMPLETE (R277-R279). -/
def execIstComplete (t : Nat) (i bits : Nat) (s : State) : Out :=
  let s := s.advance t
  .next (if (s.island i).testing.isSome then
      ((s.modIsl i fun x => { x with testing := none }).istJudge i bits).showSw i
    else s)

end Sys2Proof.Machine
end

