-- ==== Sys2Proof/Machine/Proofer.lean ====
section
/-! DEFINITION. The Proofer: slack (R184-R187), the core rail (R188, R189), the re-plan ladder (R191-R197), trends and
forecast (R198), power-stage ageing (R199-R202) and the health report (R203). Slack is in ps, the rail in µV. -/

namespace Sys2Proof.Machine

/-! ### Slack (R184-R187) -/

/-- The histogram bin of a slack (R187). -/
def slackBin (S : Int) : Nat := if S ≤ 0 then 0 else min 15 ((S + 19999) / 20000).toNat

/-- Smaller of an optional minimum and a value. -/
def minOpt (o : Option Int) (S : Int) : Option Int :=
  match o with
  | some m => some (min m S)
  | none => some S

/-- Rail code of R203. -/
def State.railCode (s : State) : Nat := (s.n Pid.railNow - 720000) / 2500

/-- Internal seconds. -/
def State.intSec (s : State) : Nat := s.intNs / 1000000000

/-- One rung entry (R203): rung, detail, the second's smallest slack; the last 32 are kept. -/
def State.rungEntry (s : State) (rung detail : Nat) : State :=
  let e := leBytes 8 s.intSec ++ leBytes 1 rung ++ leBytes 1 detail ++ leBytes 2 s.railCode ++ leBytes 4 (s.n Pid.slackMin1s)
  let l := s.fram.rungs ++ [e]
  { s with fram := { s.fram with rungs := l.drop (l.length - 32) } }

/-- Set the rail (R188), with rung 1's record of a new lifetime high at a multiple of 10 mV (R192); a forecast whose condition no longer
holds reads none (R198). A raise that passes a multiple without stopping on it reaches that multiple: it is recorded, and 0x0D01 carries
the multiple passed, not the rail commanded (DESIGN CHOICE, log 33). -/
def State.setRail (s : State) (uV : Nat) : State :=
  let s := { s with prf := { s.prf with secAllMax := s.prf.secAllMax && decide (s.n Pid.railMax ≤ uV) } }.setN Pid.railNow uV
  let s := s.setN (if s.n Pid.railMax ≤ uV then Pid.fcRailHours else Pid.fcFloorHours) 0xFFFFFFFF
  let m := uV / 10000 * 10000
  if s.n Pid.railHighWater < m then ((s.setN Pid.railHighWater m).raise 0x0D01 0 m).rungEntry 1 0 else s

/-- The slack of a judged period (R184, R187, R188, R198): histogram, minima, and an emergency raise below 80 ns, but in SELF-TEST, whose
search moves the rail (R190). -/
def State.slackTake (s : State) (S : Int) : State :=
  if s.n Pid.engineState ≠ 1 ∧ !s.unit.surrender then s
  else
    let p := s.prf
    let s := { s with prf := { p with
      secBins := p.secBins.modify (slackBin S) (· + 1)
      secMin := minOpt p.secMin S
      winMin := minOpt p.winMin S
      winEmergency := p.winEmergency || decide (S < 80000)
      hourMin := match p.hourMin with
        | some (m, r) => if S < m then some (S, s.n Pid.railNow) else some (m, r)
        | none => some (S, s.n Pid.railNow) } }
    let s := s.onlyIf (decide (S < s.z Pid.slackMinLife)) fun s => s.setZ Pid.slackMinLife S
    s.onlyIf (decide (S < 80000) && s.unit.st ≠ .selfTest) fun s =>
      ((s.setRail (min (s.n Pid.railMax) (s.n Pid.railNow + 10000))).bump Pid.emergencyCount).raise 0x1D0D 0 (u32z S)

/-- A window with smallest S `w` is judged (R188): the rail is raised, lowered or held. -/
def State.windowJudge (s : State) (w : Int) (emergency : Bool) : State :=
  let tgt := s.z Pid.slackTarget
  let n := if tgt + 20000 < w then s.prf.goodWins + 1 else 0
  let s := { s with prf := { s.prf with goodWins := n } }
  if emergency then s
  else if w < tgt - 20000 then
    if s.n Pid.railNow < s.n Pid.railMax then (s.setRail (min (s.n Pid.railMax) (s.n Pid.railNow + 2500))).bump Pid.railStepCount else s
  else if 1000 ≤ n then { s with prf := { s.prf with goodWins := 0 } }.setRail (max 720000 (s.n Pid.railNow - 2500))
  else s

/-- RAIL_WINDOW_END (R188): at the end of each 1 ms window, but in SELF-TEST (R190). A window in which no period was measured neither counts
among the 1,000 consecutive windows nor breaks their run; R188 does not say (DESIGN CHOICE, log 33). -/
def execRailWindowEnd (t : Nat) (s : State) : Out :=
  let s := s.advance t
  let p := s.prf
  .next (if s.now < p.winAt + psMs then s
    else
      let s := { s with prf := { p with winAt := p.winAt + (s.now - p.winAt) / psMs * psMs, winMin := none, winEmergency := false } }
      match p.winMin with
      | some w => if s.unit.st = .selfTest then s else s.windowJudge w p.winEmergency
      | none => s)

/-- The rail search of SELF-TEST item 5 (R190): from the rail in force one step for each 100 µs whose smallest S misses the target, up to
`rail_max`. Answers the smallest S at the final rail. The last minimum given stands for every later window (log 38). -/
def State.railSteps (s : State) (S : Int) (rest : List Int) : Nat → Int × State
  | 0 => (S, s)
  | n + 1 =>
    if s.z Pid.slackTarget ≤ S ∨ s.n Pid.railMax ≤ s.n Pid.railNow then (S, s)
    else (s.setRail (min (s.n Pid.railMax) (s.n Pid.railNow + 2500))).railSteps (rest.headD S) rest.tail n

/-- The search on the minima S of the 100 µs windows; none where nothing was measured. -/
def State.railSearch (s : State) (l : List Int) : Option Int × State :=
  match l with
  | [] => (none, s)
  | S :: rest =>
    let r := s.railSteps S rest ((s.n Pid.railMax - s.n Pid.railNow) / 2500 + 2)
    (some r.1, r.2)

/-- RAIL_READBACK_FAULT (R189): the read-back has differed by more than 10 mV for 1 ms. -/
def execRailReadbackFault (t : Nat) (uV : Nat) (s : State) : Out :=
  let s := s.advance t
  .next (if 10000 < ((uV : Int) - s.n Pid.railNow).natAbs then
      (s.raise 0x5D0E 0 (s.n Pid.railNow * 2 ^ 32 + min uV 0xFFFFFFFF)).enterFaultHold 0x5D0E
    else s)

/-! ### Checks of R99 -/

/-- The check of R99 that one port fails at an outer period in ps, 0 for none: 1 swing, 2 voltage, 3 DC. H in ms, D in
0.01 pu, m_p and r_d in 0.01 %, K_v in 0.01 s⁻¹, τ_c in ms. -/
def State.r99Code (s : State) (p toPs : Nat) : Nat :=
  match s.n (Pid.portMode p) with
  | 0 =>
    if 2 * s.n (Pid.hInertia p) * 100 * s.n (Pid.pfDroop p) * psS
        < 4000 * toPs * (s.n (Pid.dDamp p) * s.n (Pid.pfDroop p) + 1000000) then 1
    else if 100 * psS < 4 * toPs * s.n (Pid.kvInt p) then 2
    else 0
  | 2 => if s.n (Pid.tauC p) * s.n (Pid.viDroop p) * psS < 4 * toPs * 10000000 then 3 else 0
  | _ => 0

/-- The checks of R99 hold for one port. -/
def State.r99Ok (s : State) (p toPs : Nat) : Bool := decide (s.r99Code p toPs = 0)

/-- R99 holds for every used port. -/
def State.r99All (s : State) (toPs : Nat) : Bool := s.usedPorts.all fun p => s.r99Ok p toPs

/-! ### The ladder (R191-R197) -/

/-- Show the costs in force (R156). -/
def State.showOps (s : State) : State :=
  s.graphs.foldl (fun s g => s.setN (if g.outer then Pid.opsOuter g.port else Pid.opsInner g.port) g.cost) s

/-- The remaining optional blocks (R193). -/
def State.optionals (s : State) : List GraphBlock := s.graphs.flatMap fun g => g.blocks.filter fun b => b.optional && !b.dropped

/-- The group of the next rung-2 step (R193): its rank and whether it is the RES blocks. -/
def State.dropGroup (s : State) : Option (Nat × Bool) :=
  let os := s.optionals
  let res := os.filter fun b => b.typ = 0x19
  let low := fun (l : List GraphBlock) => l.foldl (fun a b => min a b.rank) 15
  if res ≠ [] then some (low res, true) else if os ≠ [] then some (low os, false) else none

/-- Keep the ladder position in ferroelectric memory (R197). -/
def State.ladderSave (s : State) (set : Nat) : State :=
  { s with fram := { s.fram with
      ladderDigest := s.img.digest
      ladderRung := s.n Pid.ladderRung
      ladderDropped := s.n Pid.ladderDropped
      ladderPrim := if s.n Pid.lawSet = 1 then s.fram.ladderPrim else s.n Pid.ladderDropped
      ladderSet := set } }

/-- The ring restarts: no forecast stands (R198). -/
def State.ringRestart (s : State) : State :=
  ({ s with prf := { s.prf with ring := [] } }.setN Pid.fcRailHours 0xFFFFFFFF).setN Pid.fcFloorHours 0xFFFFFFFF

/-- Bookkeeping of a rung that takes effect: rung shown, entry, ring restarted (R198), time of R191, record. -/
def State.rungTaken (s : State) (rung detail set : Nat) : State :=
  let s := s.setN Pid.ladderRung (max rung (s.n Pid.ladderRung))
  let s := { s with prf := { s.prf with lastRungAt := some s.now } }.ringRestart
  (s.rungEntry rung detail).ladderSave set

/-- Drop one group of blocks (R193), `log` with its event and record. -/
def State.dropBlocks (s : State) (rank : Nat) (res : Bool) : State × Nat :=
  let hit := fun (b : GraphBlock) => b.optional && !b.dropped && decide (b.rank = rank) && (!res || b.typ = 0x19)
  let n := (s.graphs.flatMap fun g => g.blocks.filter hit).length
  let s := s.setGraphs (s.graphs.map fun g => { g with blocks := g.blocks.map fun b => if hit b then { b with dropped := true } else b })
  (((s.setN Pid.ladderDropped (s.n Pid.ladderDropped + 1)).showOps), n)

/-- Sum of the outer costs of the used ports. -/
def State.outerCost (s : State) : Nat := (s.graphs.filter fun g => g.outer).foldl (fun a g => a + g.cost) 0

/-- The effective slice of rung 3 (R194). -/
def State.sliceEff (s : State) : Nat :=
  let d := s.n Pid.outerRatioAlt - 2
  if d = 0 then s.n Pid.outerSliceOps else min (s.n Pid.outerSliceOps) ((s.outerCost + d - 1) / d)

/-- Every port realigns its carriers after a change of the inner period (R248). -/
def State.realignAll (s : State) : State := s.each s.usedPorts fun s p => s.modPort p fun q => { q with realign := true }

/-- Why a rung 3 or 4 is unavailable whatever is allowed (R191): 1 absent, 2 R99; 0 available. -/
def State.rungBlock (s : State) (rung : Nat) : Nat :=
  if !s.img.hasAlt then 1
  else if rung = 3 ∧ s.n Pid.outerRatioAlt = s.n Pid.outerRatio then 1
  else if !s.r99All ((if rung = 3 then s.tInnerNs else s.n Pid.tInnerAlt) * 1000 * s.n Pid.outerRatioAlt) then 2
  else 0

/-- A rung passed over, told once (R194). -/
def State.passOver (s : State) (rung why : Nat) : State :=
  if s.prf.passed.contains rung then s
  else { s with prf := { s.prf with passed := rung :: s.prf.passed } }.raise 0x1D07 0 (rung * 256 + why)

/-- A rung that waits for the Commissioner (R194). -/
def State.askRung (s : State) (rung : Nat) : State :=
  if s.bit Pid.ladderPending (rung - 3) then s else (s.setBit Pid.ladderPending (rung - 3) true).raise 0x1D06 0 rung

/-- A rung 3 or 4 is still to take. -/
def State.rungOpen (s : State) (rung : Nat) : Bool :=
  if rung = 3 then s.n Pid.lawSet = 0 && decide (s.fram.ladderSet = 0) else decide (s.n Pid.lawSet = 0)

/-- Try rungs 3 and 4 in order; answers the pending action, if one is available and allowed. -/
def State.tryAlt (s : State) : List Nat → Option Rung × State
  | [] => (none, s)
  | r :: rs =>
    if !s.rungOpen r then s.tryAlt rs
    else if s.rungBlock r ≠ 0 then (s.passOver r (s.rungBlock r)).tryAlt rs
    else if !s.bit Pid.ladderAllow (r - 3) then (s.askRung r).tryAlt rs
    else (some (if r = 3 then .three false else .four false), s)

/-- Whole hours of the forecast in seconds added to network time (R205), 0 where either is missing. -/
def State.fcSeconds (s : State) : Nat :=
  let h := s.n Pid.fcFloorHours
  if s.netValid && decide (h ≠ 0xFFFFFFFF) then (s.intSec + h * 3600) % 2 ^ 32 else 0

/-- The dated warning (R195). -/
def State.datedWarning (s : State) : State :=
  { s with prf := { s.prf with datedAt := some s.now } }.raise 0x1D08 0 (s.fcSeconds * 2 ^ 32 + s.n Pid.fcFloorHours)

/-- Rung 5 is taken at once (R195). -/
def State.takeFive (s : State) : State :=
  ((s.setN Pid.ladderRung 5).rungEntry 5 0).datedWarning

/-- The same rung, whoever asked for it; each drop of rung 2 is one of its own. -/
def sameRung (a b : Rung) : Bool :=
  match a, b with
  | .three _, .three _ => true
  | .four _, .four _ => true
  | _, _ => false

/-- Make an action pending for the `n`th outer boundary from now; only a surrender discards one (R191). Rung 3 or 4, asked for twice
before its boundary, is taken there once (R194). -/
def State.pendRungIn (s : State) (n : Nat) (r : Rung) : State :=
  if s.prf.pendRungs.any fun e => sameRung e.1 r then s else { s with prf := { s.prf with pendRungs := s.prf.pendRungs ++ [(r, n)] } }

/-- Make an action pending: for the next outer boundary, or for the second one on both units of a pair (R334). -/
def State.pendRung (s : State) (r : Rung) : State := s.pendRungIn (if s.n Pid.pairState = 1 ∨ s.n Pid.pairState = 2 then 2 else 1) r

/-- One evaluation of the ladder (R191, R194): at most one rung step, and none while one waits for its boundary; a standby evaluates none
(R334). -/
def State.ladderEval (s : State) : State :=
  let late := match s.prf.lastRungAt with
    | some t => decide (t + psS ≤ s.now)
    | none => true
  if s.n Pid.pairState = 2 || !s.prf.secAllMax || !late || s.n Pid.injState = 1 || s.prf.pendRungs ≠ [] || decide (120000 ≤ s.z Pid.slackMin1s) then s
  else if s.dropGroup.isSome then s.pendRung .two
  else
    let (r, s) := (s.passOver 2 1).tryAlt [3, 4]
    match r with
    | some r => s.pendRung r
    | none => if s.prf.datedAt.isNone then s.takeFive else s

/-- The planned surrender (R195, R331): the unit stop, then FAULT-HOLD; with a paired standby the biscuit is given up
at the next outer boundary and no unit stop is issued. -/
def State.plannedSurrender (s : State) : State :=
  let s := { s with unit := { s.unit with planned := true } }
  let s := s.raise 0x5D09 0 (s.n Pid.slackMin1s)
  if s.n Pid.pairState = 1 then s.announceGiveUp 4 s.outerEndSeq else s.doStopUnit 0x5D09

/-! ### Health report (R203) -/

/-- A slow result is usable now (R225). -/
def State.slowUsable (s : State) (ch : Nat) : Bool :=
  (match (s.slow.getD ch {}).at_ with
    | some a => decide (s.now ≤ a + 2 * s.n (Pid.smScan (ch / 8)) * psMs)
    | none => false) && decide (s.n (Pid.saCode ch) / 32 % 8 = 0)

/-- The slow channel of a role, and of a leg group for role 0x02 (R226). -/
def State.slowOf (s : State) (role grp : Nat) : Option Nat :=
  (List.range 32).find? fun ch => s.n (Pid.saRole ch) % 256 = role && (grp = 0 || s.n (Pid.saRole ch) / 256 % 256 = grp)

/-- Temperature of the power stage of a switch, none where it cannot be used (R199). -/
def State.swTemp (s : State) (sw : Nat) : Option Int :=
  match s.slowOf 2 (sw / 12 + 1) with
  | some ch => if s.slowUsable ch then some (s.z (Pid.saValue ch)) else none
  | none => none

/-- A switch entry of the report. -/
def State.switchEntry (s : State) (sw : Nat) : List Byte :=
  let x := s.prf.sw.getD sw {}
  let sh := s.z (Pid.vceShare sw)
  let none_ := !s.islUsed sw || (s.swTemp sw).isNone
  let bits := b01 (decide (s.n (Pid.vceBaseline sw) ≠ 0)) + 2 * b01 (decide ((s.n Pid.vceDerateShare : Int) < sh))
    + 4 * b01 (decide ((s.n Pid.vceAlarmShare : Int) < sh)) + 8 * b01 none_
  leBytes 2 (u32z sh) ++ leBytes 2 (s.n (Pid.vceCorr sw)) ++ leBytes 2 (min x.lastN 65535) ++ leBytes 1 bits ++ [0#8]

/-- The health report (R203), 500 + 16 × entries bytes. -/
def State.healthBytes (s : State) (seq : Nat) : List Byte :=
  let temp := match s.slowOf 3 0 with
    | some ch => if s.slowUsable ch then s.n (Pid.saValue ch) % 65536 else 0x8000
    | none => 0x8000
  leBytes 2 1 ++ leBytes 2 (500 + 16 * s.fram.rungs.length) ++ leBytes 4 seq ++ leBytes 6 s.intSec ++ leBytes 2 0
    ++ leBytes 4 (s.intNs % 1000000000) ++ leBytes 4 (s.n Pid.powerOnHours)
    ++ leBytes 1 s.unit.st.code ++ leBytes 1 (s.n Pid.ladderRung) ++ leBytes 1 (s.n Pid.lawSet) ++ leBytes 1 (s.n Pid.ladderDropped)
    ++ leBytes 2 s.railCode ++ leBytes 2 s.fram.rungs.length
    ++ leBytes 4 (s.n Pid.slackMin1s) ++ leBytes 4 (s.n Pid.slackMinLife) ++ leBytes 4 (s.n Pid.fcRailHours) ++ leBytes 4 (s.n Pid.fcFloorHours)
    ++ leBytes 2 ((s.n Pid.railHighWater - 720000) / 2500) ++ leBytes 2 temp
    ++ s.prf.hist.flatMap (leBytes 4 ·) ++ (List.range 48).flatMap s.switchEntry ++ s.fram.rungs.flatten

/-- The histogram of the second is taken and a new one begins (R187). -/
def State.secondClose (s : State) : State :=
  { s with prf := { s.prf with secNo := s.intSec, hist := s.prf.secBins, secBins := List.replicate 16 0, secMin := none } }

/-- The good and the low seconds are counted (R187, R195). -/
def State.secondCount (s : State) (m : Int) : State :=
  { s with prf := { s.prf with
    okSecs := if m < 120000 then 0 else s.prf.okSecs + 1
    lowSecs := if s.prf.datedAt.isSome ∧ m < 80000 then s.prf.lowSecs + 1 else 0 } }

/-- The minimum of the second is judged (R187, R191, R195, R326). -/
def State.secondJudge (s : State) (m : Int) : State :=
  let warn := decide (m < 120000) && decide (60 ≤ s.prf.okSecs)
  let s := (s.setZ Pid.slackMin1s m).secondCount m
  let s := s.onlyIf warn fun s => s.raise 0x1D02 0 (u32z m)
  let s := s.onlyIf (decide (10 ≤ s.prf.lowSecs) && !s.unit.planned) fun s => s.plannedSurrender
  let s := s.onlyIf (decide (s.n Pid.pairState = 2)) fun s =>
    s.setUnfit 3 (decide (m < 120000) && decide (s.n Pid.railMax ≤ s.n Pid.railNow))
  s.ladderEval

/-- The report of the second (R203). -/
def State.secondReport (s : State) : State :=
  { s with prf := { s.prf with
    secAllMax := decide (s.n Pid.railMax ≤ s.n Pid.railNow)
    reportSeq := s.prf.reportSeq + 1
    report := s.healthBytes (s.prf.reportSeq + 1) } }

/-- PROOFER_SECOND (R187, R191, R195, R203): a second of internal time has ended: its histogram and minimum, warning 0x1D02, planned
surrender, one ladder evaluation, the report. A second without a judged period leaves `slack_min_1s`. -/
def execProoferSecond (t : Nat) (s : State) : Out :=
  let s := s.advance t
  .next (if s.intSec = s.prf.secNo then s
    else match s.prf.secMin with
      | none => s.secondClose.secondReport
      | some m => (s.secondClose.secondJudge m).secondReport)

/-- The inner period has changed (R160): carriers realign (R248), crumbs being recorded end early (R430), and M of Lattice
follows (R338). -/
def State.periodChanged (s : State) : State :=
  (s.realignAll.capEndAll 1).onlyIf (decide (s.n Pid.latState = 1)) fun s => s.setN Pid.latCycleM s.latM

/-- Rung 2 is taken (R193): the blocks of the next rank are dropped; the event's count stops at 255 (DESIGN CHOICE, log 38). -/
def State.takeTwo (s : State) : State :=
  match s.dropGroup with
  | none => s
  | some (rank, res) =>
    let d := s.dropBlocks rank res
    (d.1.rungTaken 2 rank d.1.fram.ladderSet).raise 0x1D03 0 (rank * 256 + min d.2 255)

/-- Rung 3 is taken (R194), unless a check of R99 bars it now. -/
def State.takeThree (s : State) (cmd : Bool) : State :=
  if s.rungBlock 3 ≠ 0 then s.passOver 3 (s.rungBlock 3)
  else
    let s := (s.rungTaken 3 (b01 cmd) (max 1 s.fram.ladderSet)).setBit Pid.ladderPending 0 false
    (s.setN Pid.sliceOpsEff s.sliceEff).raise 0x1D04 0 (b01 cmd)

/-- Rung 4 is taken (R160, R194), unless a check of R99 bars it now. The outer slices return to `outer_slice_ops`: the smaller size of
rung 3 is the primary set's, and R194 does not say that it outlives rung 4 (DESIGN CHOICE, log 33). Its outer ratio is rung 3's, so none waits for the Commissioner. -/
def State.takeFour (s : State) (cmd : Bool) : State :=
  if s.rungBlock 4 ≠ 0 then s.passOver 4 (s.rungBlock 4)
  else
    let s := (State.carryGraphs s (s.setN Pid.lawSet 1)).rungTaken 4 (b01 cmd) 2 |>.setN Pid.ladderPending 0
    ((s.setN Pid.sliceOpsEff (s.n Pid.outerSliceOps)).showOps.periodChanged).raise 0x1D05 0 (b01 cmd)

/-- Every block of a law set runs again. -/
def undropAll (gs : List Graph) : List Graph := gs.map fun g => { g with blocks := g.blocks.map fun b => { b with dropped := false } }

/-- No rung is held any more, in the blocks and the FRAM (R196, R197). -/
def State.ladderForget (s : State) : State :=
  { s with
    img := { s.img with graphs := undropAll s.img.graphs, altGraphs := undropAll s.img.altGraphs }
    prf := { s.prf with passed := [], datedAt := none, lowSecs := 0, lastRungAt := none }
    fram := { s.fram with ladderDigest := [], ladderRung := 1, ladderDropped := 0, ladderSet := 0, ladderPrim := 0 } }

/-- The ladder is restored (R196). -/
def State.ladderRestore (s : State) : State :=
  let wasAlt := decide (s.n Pid.lawSet = 1)
  let s := (((State.carryGraphs s (s.ladderForget.setN Pid.lawSet 0)).ringRestart.setN Pid.ladderRung 1).setN Pid.ladderDropped 0).setN Pid.ladderPending 0
  let s := (s.setN Pid.sliceOpsEff (s.n Pid.outerSliceOps)).showOps.onlyIf wasAlt State.periodChanged
  (s.rungEntry 0x10 0).raise 0x0D0C 0 0

/-- One action takes effect (R191-R197). -/
def State.takeRung (s : State) (r : Rung) : State :=
  match r with
  | .two => s.takeTwo
  | .three cmd => s.takeThree cmd
  | .four cmd => s.takeFour cmd
  | .restore => s.ladderRestore

/-- LADDER_CHANGE (R160, R191-R197): the pending actions of this outer boundary take effect. -/
def execLadderChange (t : Nat) (s : State) : Out :=
  let s := s.advance t
  .next (if s.eng.outerIdx ≠ 0 then s
    else
      let due := s.prf.pendRungs.filter fun r => decide (r.2 = 0)
      let s := { s with prf := { s.prf with pendRungs := s.prf.pendRungs.filter fun r => decide (r.2 ≠ 0) } }
      due.foldl (fun s r => s.takeRung r.1) s)

/-- The condition of `ladder_cmd` 0x03 and 0x04 (R194). -/
def State.ladderCmdOk (s : State) (v : Word) : Bool :=
  decide (v.toNat = 3 ∨ v.toNat = 4) && s.bit Pid.ladderPending (v.toNat - 3)

/-- Take a commanded rung at the next outer boundary. -/
def State.doLadderCmd (s : State) (v : Word) : State :=
  s.pendRung (if v.toNat = 3 then .three true else .four true)

/-- LADDER_CMD_RUNG (R194). -/
def execLadderCmdRung (t : Nat) (role : Role) (v : Word) (s : State) : Out :=
  let s := s.advance t
  .next (s.cmdRow role .commissioner Pid.ladderCmd v (s.ladderCmdOk v) (s.doLadderCmd v))

/-- The condition of `ladder_cmd` 0x10 (R196). -/
def State.restoreOk (s : State) : Bool := s.usedPorts.all fun p => (s.port p).st.atRest

/-- Restore at the next outer boundary. -/
def State.doRestore (s : State) : State := s.pendRung .restore

/-- LADDER_RESTORE (R196). -/
def execLadderRestore (t : Nat) (role : Role) (s : State) : Out :=
  let s := s.advance t
  .next (s.cmdRow role .commissioner Pid.ladderCmd 0x10 s.restoreOk s.doRestore)

/-- DATED_WARNING_REPEAT (R195): every 24 h. -/
def execDatedWarningRepeat (t : Nat) (s : State) : Out :=
  let s := s.advance t
  .next (match s.prf.datedAt with
    | some d => if d + 86400 * psS ≤ s.now then s.datedWarning else s
    | none => s)

/-! ### Trends and forecast (R198) -/

/-- Hours from the newest record until the least-squares line through the values (oldest first, one an hour) reaches
a limit; `up` when the line must rise to it. None with fewer than 24 records or a line that does not approach. -/
def fitHours (ys : List Int) (limit : Int) (up : Bool) : Option Nat :=
  let n : Int := ys.length
  if n < 24 then none
  else
    let xs := List.range ys.length
    let sx : Int := xs.foldl (fun a x => a + (x : Int)) 0
    let sxx : Int := xs.foldl (fun a x => a + (x : Int) * x) 0
    let sy := ys.foldl (· + ·) 0
    let sxy := (xs.zip ys).foldl (fun a p => a + (p.1 : Int) * p.2) 0
    let a := n * sxy - sx * sy
    let d := n * sxx - sx * sx
    let sg : Int := if up then 1 else -1
    if sg * a ≤ 0 then none
    else
      let num := sg * ((n * limit - sy) * d - a * (n * (n - 1) - sx))
      some (rneDiv (max 0 num) (n * (sg * a)).toNat).toNat

/-- The two forecasts (R198). -/
def State.forecast (s : State) : State :=
  let atMax := decide (s.n Pid.railMax ≤ s.n Pid.railNow)
  let word := fun (o : Option Nat) => (o.map fun h => min h 0xFFFFFFFE).getD 0xFFFFFFFF
  let rail := if atMax then none else fitHours (s.prf.ring.map fun r => (r.2 : Int)) (s.n Pid.railMax) true
  let floor := if atMax then fitHours (s.prf.ring.map fun r => r.1) 80000 false else none
  (s.setN Pid.fcRailHours (word rail)).setN Pid.fcFloorHours (word floor)

/-! ### Power-stage ageing (R199-R202) -/

/-- A measurement corrected to `vce_tref` and 0.5 pu (R199): `raw` in 0.1 mV, `i` Q4.27 pu of the leg's base, T in
1/128 K (R16), `vce_alpha` in ppm/K. -/
def vCorr (raw : Nat) (i T tref : Int) (alpha : Nat) : Nat :=
  let den := (i.natAbs : Int) * (128000000 + alpha * (T - tref))
  if den ≤ 0 then 0 else (rneDiv ((raw : Int) * 67108864 * 128000000) den.toNat).toNat

/-- Change what is kept of a switch (R199). -/
def State.modVce (s : State) (sw : Nat) (f : VceSt → VceSt) : State := { s with prf := { s.prf with sw := s.prf.sw.modify sw f } }

/-- VCE_MEASUREMENT (R199, R258): an island measures at the middle of an on-interval; `raw` in 0.1 mV, `i` the leg
current in Q4.27 pu of i_base/n. Not more than once per ms, not outside 0.3-0.7, not without a usable temperature,
and not on a faulted leg (R271). -/
def execVceMeasurement (t : Nat) (sw : Nat) (raw : Nat) (i : Int) (s : State) : Out :=
  let s := s.advance t
  let x := s.prf.sw.getD sw {}
  let due := match x.lastAt with
    | some a => decide (a + psMs ≤ s.now)
    | none => true
  .next (match s.swTemp sw with
    | none => s
    | some T =>
      if s.islUsed sw && (s.island sw).on && due && !s.bit (Pid.legProt (legOfIsl sw)) 0
          && decide (40265318 ≤ i.natAbs ∧ i.natAbs ≤ 93952410) then
        let v := vCorr raw i T (s.n Pid.vceTref) (s.n Pid.vceAlpha)
        let s := (s.setN (Pid.vceRaw sw) (min raw 65535)).bump (Pid.vceCount sw)
        s.modVce sw fun x => { x with sum := x.sum + v, n := x.n + 1, lastAt := some s.now }
      else s)

/-- A drift share above `vce_alarm_share` is told once per hour (R200). -/
def State.vceAlarm (s : State) (sw : Nat) : State :=
  s.onlyIf (decide (s.n (Pid.vceBaseline sw) ≠ 0) && decide ((s.n Pid.vceAlarmShare : Int) < s.z (Pid.vceShare sw))) fun s =>
    s.raise 0x1D0B sw (u32z (s.z (Pid.vceShare sw)))

/-- The hour of one switch (R200): mean, baseline, share, alarm. -/
def State.vceHour (s : State) (sw : Nat) : State :=
  let x := s.prf.sw.getD sw {}
  if x.n = 0 then (s.modVce sw fun x => { x with lastN := 0 }).vceAlarm sw
  else
    let mean := (rneDiv x.sum x.n).toNat
    let s := s.setN (Pid.vceCorr sw) mean
    let base := s.n (Pid.vceBaseline sw)
    let s :=
      if base ≠ 0 then
        let share := rneDiv (((mean : Int) - base) * 10000) base
        s.setZ (Pid.vceShare sw) share
      else if 1000 ≤ x.n then
        let h := x.baseHours + 1
        let s := s.modVce sw fun x => { x with baseHours := h, baseSum := x.baseSum + x.sum, baseN := x.baseN + x.n }
        s.onlyIf (decide (s.n Pid.vceBaseHours ≤ h)) fun s =>
          s.setN (Pid.vceBaseline sw) (rneDiv (x.baseSum + x.sum) (x.baseN + x.n)).toNat
      else s
    (s.modVce sw fun x => { x with lastN := x.n, sum := 0, n := 0 }).vceAlarm sw

/-- The hour of one port (R201): the largest share, and the fall of `derate` by at most 0.01. -/
def State.derateHour (s : State) (p : Nat) : State :=
  let shares := ((s.port p).legs.flatMap fun l => [islHigh l, islLow l]).filterMap fun sw =>
    if s.n (Pid.vceBaseline sw) = 0 then none else some (s.z (Pid.vceShare sw))
  match shares with
  | [] => s
  | a :: rest =>
    let w := rest.foldl max a
    let s := s.setZ (Pid.vceWorst p) w
    let thr : Int := s.n Pid.vceDerateShare
    if w ≤ thr then s
    else
      let tgt := max (s.z Pid.derateMin) (const27 (1000000 - s.n Pid.vceDerateGain * (w - thr)) 1000000)
      let cur := s.z (Pid.derate p)
      if cur ≤ tgt then s
      else
        let new := max tgt (cur - 1342177)
        ((s.setZ (Pid.derate p) new).bump (Pid.derateCount p)).raise 0x2D0A p (u32z new * 2 ^ 32 + u32z w)

/-- The minimum of the hour goes into the ring of 1,000 hours (R198). An hour in which no period was measured has no minimum and stores no
record, and the fit counts the records as successive hours (DESIGN CHOICE, log 33). -/
def State.hourRing (s : State) : State :=
  match s.prf.hourMin with
  | some r => { s with prf := { s.prf with hourMin := none, ring := (s.prf.ring ++ [r]).drop (s.prf.ring.length + 1 - 1000) } }
  | none => s

/-- PROOFER_HOUR (R198, R200, R201): once per power-on hour. -/
def execProoferHour (t : Nat) (s : State) : Out :=
  let s := s.advance t
  .next (if s.unit.st = .off ∨ s.now < s.prf.hourAt + 3600 * psS then s
    else
      let s := { s with prf := { s.prf with hourAt := s.prf.hourAt + 3600 * psS } }
      let s := (s.setN Pid.powerOnHours (s.n Pid.powerOnHours + 1)).hourRing.forecast
      (s.each s.usedIsls State.vceHour).each s.usedPorts State.derateHour)

/-- The condition of `vce_rebase` (R202). -/
def State.rebaseOk (s : State) (p : Nat) (v : Word) : Bool :=
  (s.port p).used && decide (v.toNat = 1) && (s.port p).st.atRest

/-- Clear the baselines of a port's switches (R202). -/
def State.doRebase (s : State) (p : Nat) : State :=
  let s := s.each ((s.port p).legs.flatMap fun l => [islHigh l, islLow l]) fun s sw =>
    let s := { s with prf := { s.prf with sw := s.prf.sw.modify sw fun x => { x with baseHours := 0, baseSum := 0, baseN := 0 } } }
    (s.setN (Pid.vceBaseline sw) 0).setN (Pid.vceShare sw) 0
  (s.setN (Pid.vceWorst p) 0).setZ (Pid.derate p) one27

/-- VCE_REBASE (R202). -/
def execVceRebase (t : Nat) (role : Role) (p : Nat) (v : Word) (s : State) : Out :=
  let s := s.advance t
  .next (s.cmdRow role .commissioner (Pid.vceRebase p) v (s.rebaseOk p v) (s.doRebase p))

end Sys2Proof.Machine
end

