-- ==== Sys2Proof/Machine/SafetyFn.lean ====
section
/-! DEFINITION. Safe Gate Off, Safe Brake Control and Safe Contactor Control (R286-R298), safe inputs and outputs
(R299-R303, R449), the sealed path (R304-R308), safety packets (R309-R311) and the safety reset (R312, R460). -/

namespace Sys2Proof.Machine

/-- Change a safe input and show it. -/
def State.modSin (s : State) (n : Nat) (f : SinSt → SinSt) : State :=
  let s := s.modSaf fun x => { x with sin := x.sin.modify n f }
  s.setN (Pid.sinState n) (s.sin n).word

/-- A safety output. -/
def State.sout (s : State) (k : Nat) : SoutSt := s.saf.sout.getD k {}
/-- Change a safety output and show it. -/
def State.modSout (s : State) (k : Nat) (f : SoutSt → SoutSt) : State :=
  let s := s.modSaf fun x => { x with sout := x.sout.modify k f }
  s.setN (Pid.soutState k) (s.sout k).word

/-- SBC and SCC used, and the SCC port (R306). -/
def State.sbcUsed (s : State) : Bool := s.saf.inForce && decide (s.n Pid.profileWord % 8 = 0) && s.bit Pid.profileWord 3
/-- SCC used. -/
def State.sccUsed (s : State) : Bool := s.saf.inForce && s.bit Pid.profileWord 6
/-- SCC port. -/
def State.sccPort (s : State) : Nat := s.n Pid.profileWord / 16 % 4
/-- Profile 0, vehicle. -/
def State.vehicle (s : State) : Bool := s.saf.inForce && decide (s.n Pid.profileWord % 8 = 0)

/-- Both standstill inputs read standstill. -/
def State.standstill (s : State) : Bool := (s.sin 2).perm && (s.sin 3).perm
/-- Both mirrors read open. -/
def State.mirrorsOpen (s : State) : Bool := (s.sin 4).perm && (s.sin 5).perm

/-! ### Holding test (R295) -/

/-- The test ends without a result. -/
def State.holdAbort (s : State) (why : Nat) : State :=
  if s.saf.test.isSome then
    ((s.modSaf fun f => { f with test := none }).setN Pid.holdTestResult 3).raise 0x1C2B 0 why
  else s

/-- A standstill input leaves standstill during the test: fail, and the record of the pass is cleared. -/
def State.holdFail (s : State) (n : Nat) : State :=
  if s.saf.test.isSome then
    let s := s.modSaf fun f => { f with test := none, passAt := none, failed := true }
    (((s.setN Pid.holdTestResult 2).setN Pid.holdTestAge 0xFFFFFFFF).raise 0x6C2A 0 n).safFaults [(0x0C, n)]
  else s

/-- The start conditions of R295. -/
def State.holdStart (s : State) : State :=
  let off := fun k => !(s.sout k).cmd && !(s.sout k).high
  if s.saf.test.isNone && s.sbcUsed && off 2 && off 3 && s.standstill && s.unit.st.safetyLive then
    (s.modSaf fun f => { f with test := some s.now }).bump Pid.holdTestCount
  else s

/-- HOLDING_TEST_END (R295): both standstill inputs held for `sbc_hold_time`. -/
def execHoldingTestEnd (t : Nat) (s : State) : Out :=
  let s := s.advance t
  .next (match s.saf.test with
    | some f =>
      if f + s.n Pid.sbcHoldTime * psMs ≤ s.now && s.standstill then
        let s := s.modSaf fun x => { x with test := none, passAt := some s.now, failed := false }
        (((s.setN Pid.holdTestResult 1).setN Pid.holdTestAge 0).raise 0x0C29 0 ((s.now - f) / psMs)).safApply
      else s
    | none => s)

/-! ### Safe inputs (R299-R301) -/

/-- An input fault (R300, R301): counted, cause 0x07; a standstill input aborts a holding test. -/
def State.inputFault (s : State) (n : Nat) : State :=
  let s := (s.bump (Pid.sinFaultCount n)).onlyIf (decide (s.sinFn n = .still)) fun s => s.holdAbort 2
  s.safFaults [(7, n)]

/-- The safety block's values are confirmed by the committed record (R304, R307). -/
def State.blockConfirmed (s : State) : Bool :=
  s.img.loaded && !s.img.foreign && decide (s.fram.safety = (s.saf.blkProfile, s.saf.blkCrc))

/-- The channels after the filter: discrepancy phases and the reading of R300. -/
def SinSt.read (x : SinSt) (a b : Bool) (now : Nat) : SinSt :=
  let disc := if x.disc = 1 && !a && !b then 2 else if x.disc = 2 && a && b then 3 else x.disc
  let perm := a && b && disc ≠ 1 && disc ≠ 2
  { x with
    seen := true, a := a, b := b, disc := disc, perm := perm
    diffAt := if a == b then none else some (x.diffAt.getD now)
    changed := if perm = x.perm then x.changed else now }

/-- A discrepancy that has lasted `sin_disc_time` is a fault (R300), where the record confirms that time (R304); the timeout wins a tie
with a change of the channels (R47). -/
def State.discrepant (s : State) (n tie : Nat) : State :=
  let x := s.sin n
  if s.sinFn n ≠ .unused && s.blockConfirmed && x.disc ≠ 1 && x.disc ≠ 2
      && x.diffAt.any (fun d => decide (d + s.n Pid.sinDiscTime * psMs ≤ s.now + tie)) then
    let s := s.modSin n fun x => { x with disc := 1, perm := false, changed := if x.perm then s.now else x.changed }
    (s.safDemands false).inputFault n
  else s

/-- SAFE_INPUT_CHANGE (R300, R312): the channels as filtered; demands act as they arrive, a standstill lost during a
holding test fails it, and a reset pulse of 100 ms to 2 s is kept for SAFETY_RESET. Of an input that is not evaluated only the levels are
kept, until a profile gives it a function (R305). -/
def execSafeInputChange (t : Nat) (n : Nat) (a b : Bool) (s : State) : Out :=
  let s := s.advance t
  .next (if 8 ≤ n then s
    else
      let s := s.modSaf fun f => { f with raw := f.raw.set n (some (a, b)) }
      if s.sinFn n = .unused then s else
      let s := s.discrepant n tiePs
      let old := s.sin n
      let s := s.modSin n fun x => x.read a b s.now
      let fell := old.perm && !(s.sin n).perm
      match s.sinFn n with
      | .sgo => s.safDemands false
      | .sccOpen => s.safDemands false
      | .still => (s.onlyIf fell fun s => s.holdFail n).safApply
      | .reset =>
        s.onlyIf (fell && decide (old.changed + 100 * psMs ≤ s.now ∧ s.now ≤ old.changed + 2 * psS)) fun s =>
          s.modSaf fun f => { f with resetIn := true }
      | _ => s.safApply)

/-- INPUT_DISCREPANCY (R300): the channels have differed for `sin_disc_time`. -/
def execInputDiscrepancy (t : Nat) (n : Nat) (s : State) : Out :=
  let s := s.advance t
  .next (s.discrepant n 0)

/-- INPUT_TEST_PULSE (R301): a missed or crossed pulse is confirmed at the next pulse of the same channel. -/
def execInputTestPulse (t : Nat) (n : Nat) (chB passed : Bool) (s : State) : Out :=
  let s := s.advance t
  let x := s.sin n
  .next (if 8 ≤ n || s.sinFn n = .unused || !s.blockConfirmed || !s.bit Pid.sinTpEn n then s
    else s.recur (.testPulse n chB) (20 * psMs) fun s => if passed then
      s.modSin n fun x => if chB then { x with tpMissB := false, tpPassB := x.tpPassB + 1 } else { x with tpMissA := false, tpPassA := x.tpPassA + 1 }
    else
      let miss := if chB then x.tpMissB else x.tpMissA
      let bad := if chB then x.tpBadB else x.tpBadA
      let s := s.modSin n fun x =>
        if chB then { x with tpMissB := true, tpPassB := 0, tpBadB := x.tpBadB || miss }
        else { x with tpMissA := true, tpPassA := 0, tpBadA := x.tpBadA || miss }
      s.onlyIf (miss && !bad) fun s => s.inputFault n)

/-! ### Outputs (R302, R449) -/

/-- An output fault (R302). -/
def State.outFault (s : State) (k : Nat) (f : SoutSt → SoutSt) : State :=
  ((s.modSout k fun x => { f x with fault := true, lowFrom := none }).bump (Pid.soutFaultCount k)).safFaults [(8, k)]

/-- OUTPUT_OFF_PULSE (R302): a failed pulse is repeated in the next cycle; a second is an output fault. -/
def execOutputOffPulse (t : Nat) (k : Nat) (low : Bool) (s : State) : Out :=
  let s := s.advance t
  let x := s.sout k
  .next (if 6 ≤ k || !x.cmd then s
    else s.recur (.offPulse k) (20 * psMs) fun s => if low then s.modSout k fun x => { x with miss := false }
    else if x.miss then s.outFault k fun x => { x with miss := false, stuckOn := true }
    else s.modSout k fun x => { x with miss := true })

/-- OUTPUT_READBACK_FAULT (R302): the read-back has disagreed with the command for 1 ms. -/
def execOutputReadbackFault (t : Nat) (k : Nat) (s : State) : Out :=
  let s := s.advance t
  .next (if 6 ≤ k || s.unit.st = .off then s
    else if (s.sout k).cmd then s.outFault k fun x => { x with stuckOff := true, high := false }
    else s.outFault k fun x => { x with stuckOn := true, high := true })

/-- VSO_UNDERVOLTAGE (R449): VSO below 16.0 V for 1 ms while an output is energised. -/
def execVsoUndervoltage (t : Nat) (s : State) : Out :=
  let s := s.advance t
  .next (match (List.range 6).find? fun k => (s.sout k).cmd with
    | some k => s.outFault k id
    | none => s)

/-- COIL_CHECK (R294): the test current (µA), the voltage across the coil (mV) and VSO (mV) of output `k`. -/
def execCoilCheck (t : Nat) (k i1 i2 i3 : Nat) (s : State) : Out :=
  let s := s.advance t
  .next (if !(s.sbcUsed && (k = 2 || k = 3) && !(s.sout k).cmd) then s
    else s.recur (.coil k) psS fun s =>
      let lo := s.n Pid.sbcIMin
      let hi := s.n Pid.sbcIMax
      let bad := decide (min (2 * i1 * i3) (9000000 * lo) < i2 * 1000 * lo) || decide (2 * i2 * 1000 * hi < i1 * i3)
      let s := s.modSaf fun f => { f with coilOk := f.coilOk.set (k - 2) (!bad) }
      s.onlyIf bad fun s => s.safFaults [(0x0B, k)])

/-! ### SCC (R297, R298) -/

/-- A standby judges its mirrors against its holder's reported SCC state (R325). -/
def State.sccFollows (s : State) : Bool := decide (s.n Pid.pairState = 2)

/-- The command that the mirrors are judged against (R298, R325). -/
def State.sccJudged (s : State) : Bool := if s.sccFollows then s.saf.sccReq else s.saf.sccOn

/-- The command that the mirrors are judged against changes: their judgement begins anew (R298). -/
def State.sccAnew (s : State) : State :=
  s.modSaf fun f => { f with sccAt := s.now, sccClosed := false, mirSeen := [(s.sin 4).perm, (s.sin 5).perm], mirBad := [false, false] }

/-- The contactors are commanded. -/
def State.sccSet (s : State) (on : Bool) : State :=
  let s := s.modSaf fun f => { f with sccOn := on }
  (s.onlyIf (!s.sccFollows) State.sccAnew).safApply

/-- The first refuse code of R297 that applies; while energised the mirrors are not judged here. A standby follows its
holder without the unit-state condition (R325). -/
def State.closeCode (s : State) (held : Bool) : Nat :=
  let live := match s.unit.st with
    | .energise | .run | .limited | .rideThrough | .standby => true
    | _ => false
  if !s.sccUsed then 8
  else if !live then 1
  else if s.saf.dem ≠ [] ∨ s.saf.faults ≠ [] ∨ (s.packetsUsed ∧ !bitAt (s.saf.cmd.getD 0) 4) then 2
  else if s.vehicle ∧ (¬ ((s.sin 1).seen ∧ !(s.sin 1).a ∧ !(s.sin 1).b)) then 3
  else if s.vehicle ∧ ((s.sout 2).cmd ∨ (s.sout 3).cmd ∨ (s.sout 2).high ∨ (s.sout 3).high) then 4
  else if s.vehicle ∧ !s.standstill then 5
  else if s.vehicle ∧ !(match s.saf.passAt with
      | some a => decide (s.now ≤ a + s.n Pid.sbcTestInterval * 3600 * psS)
      | none => false) then 6
  else if !held && !s.mirrorsOpen then 7
  else 0

/-- The mirror that still reads open, or the second one. -/
def State.openMirror (s : State) : Nat := if (s.sin 4).perm then 4 else 5

/-- A close, or the contactors held closed, has failed (R298): event, both outputs off; a standby does not close again before its holder's
report changes (DESIGN CHOICE, log 36). -/
def State.sccFailed (s : State) (reason : Nat) : State :=
  ((s.raise 0x1C2F s.openMirror reason).modSaf fun f => { f with sccFail := true }).sccSet false

/-- While the command is off, a mirror that has read open leaves open (R298): the faults, with their events. -/
def State.mirrorFaults (s : State) : List (Nat × Nat) × State :=
  let s := s.modSaf fun f => { f with mirOpen := if s.mirrorsOpen && !f.sccOn then some (f.mirOpen.getD s.now) else none }
  if !s.sccUsed || s.sccJudged then ([], s)
  else [0, 1].foldl (fun (a : List (Nat × Nat) × State) m =>
    let s := a.2
    if (s.sin (4 + m)).perm then (a.1, s.modSaf fun f => { f with mirSeen := f.mirSeen.set m true, mirBad := f.mirBad.set m false })
    else if s.saf.mirSeen.getD m false && !s.saf.mirBad.getD m false then
      (a.1 ++ [(0x0A, 4 + m)], (s.modSaf fun f => { f with mirBad := f.mirBad.set m true }).raise 0x6C2E (4 + m) 2)
    else a) ([], s)

/-- The mirrors while the command is on (R298): closed once both have left open; open again is a drop-out. -/
def State.mirrorsClosed (s : State) : State :=
  let anyOpen := (s.sin 4).perm || (s.sin 5).perm
  if !s.sccJudged then s
  else if !s.saf.sccClosed then (if anyOpen then s else (s.modSaf fun f => { f with sccClosed := true }).safApply)
  else if anyOpen then s.sccFailed 2
  else s

/-- A refused close request (R297). -/
def State.closeRefused (s : State) (code : Nat) : State :=
  ((s.setN Pid.closeRefuse code).bump Pid.closeRefuseCount).raise 0x1C2D s.sccPort code

/-- The evaluation of SCC each ms (R297, R298, R325): outputs fall when a condition fails, the mirrors are judged, then a request. -/
def State.sccEval (s : State) : State :=
  if !s.sccUsed then s
  else if s.saf.sccOn then
    let s := s.modSaf fun f => { f with sccEdge := false }
    if !s.saf.sccReq || s.closeCode true ≠ 0 then s.sccSet false else s.mirrorsClosed
  else
    let s := s.mirrorsClosed
    if s.saf.sccEdge then
      let s := s.modSaf fun f => { f with sccEdge := false }
      let code := s.closeCode s.sccFollows
      if code ≠ 0 then s.closeRefused code else s.sccSet true
    else s

/-- Lattice's close request for the SCC port (R296, R297): a level, whose rise asks once; refused at once where the profile does not use
SCC. -/
def State.sccRequest (s : State) (p : Nat) (on : Bool) : State :=
  if p ≠ s.sccPort then s
  else
    let rise := on && !s.saf.sccReq
    let s := s.modSaf fun f => { f with sccReq := on, sccEdge := (f.sccEdge || rise) && on && s.sccUsed }
    s.onlyIf (rise && !s.sccUsed) fun s => s.closeRefused 8

/-- MIRROR_TIME_EXPIRY (R298): the mirrors are judged against the command at `scc_mirror_time`. -/
def execMirrorTimeExpiry (t : Nat) (s : State) : Out :=
  let s := s.advance t
  .next (if !s.sccUsed || s.now < s.saf.sccAt + s.n Pid.sccMirrorTime * psMs then s
    else if s.sccJudged then
      if s.saf.sccClosed || s.saf.sccFail || !((s.sin 4).perm || (s.sin 5).perm) then s
      else s.sccFailed 1
    else s.each [0, 1] fun s m =>
      if (s.sin (4 + m)).perm || s.saf.mirSeen.getD m false || s.saf.mirBad.getD m false then s
      else ((s.modSaf fun f => { f with mirBad := f.mirBad.set m true }).raise 0x6C2E (4 + m) 1).safFaults [(0x0A, 4 + m)])

/-! ### SBC (R293) -/

/-- The first refuse code of R293 that applies; `during` a holding test that the request aborted. -/
def State.releaseCode (s : State) (during : Bool) : Nat :=
  let x := s.sin 1
  if !x.perm || x.tpBadA || x.tpBadB || x.disc ≠ 0 then 1
  else if s.saf.sccOn || (s.sout 4).cmd || (s.sout 5).cmd || !s.mirrorsOpen then 2
  else if !s.unit.st.safetyLive then 3
  else if s.saf.test.isSome || during then 4
  else if !bitAt (s.saf.cmd.getD 0) 1 then 5
  else 0

/-- The evaluation of SBC each ms (R293, R294): energised outputs fall when a condition fails; a request is judged. -/
def State.sbcEval (s : State) : State :=
  if !s.sbcUsed then s
  else if s.saf.sbcOn.isSome then
    if s.releaseCode false ≠ 0 then (s.modSaf fun f => { f with sbcOn := none }).safApply else s
  else if s.saf.rel = 0 then s
  else
    let code := s.releaseCode (decide (s.saf.rel = 2))
    let s := s.modSaf fun f => { f with rel := 0 }
    if code ≠ 0 then ((s.setN Pid.releaseRefuse code).bump Pid.releaseRefuseCount).raise 0x1C2C 0 code
    else (s.modSaf fun f => { f with sbcOn := some s.now }).safApply

/-! ### Evaluation (R286) -/

/-- The read-back (level, current in mA) of the six outputs; the off condition of R460 for a fault of R302. -/
def State.readOutputs (s : State) (outs : List (Bool × Nat)) : State :=
  ((List.range 6).zip outs).foldl (fun s o =>
    let (k, hi, mA) := o
    let s := s.modSout k fun x =>
      { x with high := hi, short := x.short || (x.cmd && !hi && decide (800 ≤ mA))
               lowFrom := if x.cmd || hi || decide (mA ≠ 0) then none else some (x.lowFrom.getD s.now) }
    s.setN (Pid.soutCurrent k) mA) s

/-- Coil currents of energised brake outputs from 100 ms after switch-on (R294). -/
def State.coilBad (s : State) (outs : List (Bool × Nat)) : List (Nat × Nat) :=
  match s.saf.sbcOn with
  | some a =>
    if a + 100 * psMs ≤ s.now then
      ([2, 3].filter fun k => match outs[k]? with
        | some (_, mA) => decide (mA < s.n Pid.sbcIMin) || decide (s.n Pid.sbcIMax < mA)
        | none => false).map fun k => (0x0B, k)
    else []
  | none => []

/-- SAFETY_EVALUATION (R286, R287): each ms; the faults and demands of the evaluation first and together, then the permissive conditions. -/
def execSafetyEvaluation (t : Nat) (differ : Bool) (outs : List (Bool × Nat)) (s : State) : Out :=
  let s := s.advance t
  .next (if s.unit.st = .off then s
    else s.recur .safety psMs fun s =>
      let s := (s.innerEnables).readOutputs outs
      let coil := s.coilBad outs
      let s := s.modSaf fun f => { f with coilOk := if coil = [] then f.coilOk else [false, false] }
      let mir := s.mirrorFaults
      let s := mir.2.safRecognise ((if differ then [(0x0F, 0)] else []) ++ coil ++ mir.1) [] false
      let s := s.sccEval.sbcEval
      let s := match s.saf.passAt with
        | some a => s.setN Pid.holdTestAge ((s.now - a) / psS)
        | none => s
      s.safApply)

/-- SGO_DEMAND (R288, R289): a demand that is present is recognised, and the enables are removed. -/
def execSgoDemand (t : Nat) (cause input : Nat) (s : State) : Out :=
  let s := s.advance t
  .next (if (s.demandNow true).contains (cause, input) then
      let s := s.onlyIf (!s.saf.dem.contains (cause, input)) fun s =>
        (s.modSaf fun f => { f with dem := f.dem ++ [(cause, input)] }).safOnset [(cause, input)]
      s.safApply
    else s)

/-! ### Safety packets (R309-R311) -/

/-- A path is enabled (R309, R364, R377). -/
def State.pathOn (s : State) (q : Nat) : Bool :=
  match q with
  | 0 => decide (s.n (Pid.ethEnable 0) ≠ 0) && decide (s.n (Pid.spPeer 0) ≠ 0)
  | 1 => decide (s.n (Pid.ethEnable 1) ≠ 0) && decide (s.n (Pid.spPeer 1) ≠ 0)
  | 2 => s.bit Pid.profileWord 11 && decide (s.n (Pid.canMode 0) ≠ 0)
  | 3 => s.bit Pid.profileWord 11 && decide (s.n (Pid.canMode 1) ≠ 0)
  | _ => false

/-- The enabled paths. -/
def State.paths (s : State) : List Nat := if s.packetsUsed then (List.range 4).filter s.pathOn else []

/-- The initial value of the packet CRC (R309). -/
def connInit (conn : Nat) : BitVec 32 := 0xFFFFFFFF#32 ^^^ BitVec.ofNat 32 (conn * 0x00010001)

/-- The receiver checks of R309. -/
def State.copyValid (s : State) (bs : List Byte) : Bool :=
  let conn := s.n Pid.spConnId
  decide (bs.length = 32) && decide (leAt bs 0 1 = 1) && decide (leAt bs 1 1 = 1) && decide (leAt bs 2 2 = conn) &&
  decide (leAt bs 12 2 + leAt bs 14 2 = 65535) && ((bs.drop 16).take 12).all (· == 0#8) &&
  decide (leAt bs 28 4 = (crc32cFrom (connInit conn) (bs.take 28)).toNat)

/-- The command bits in force change (R293, R295, R309, R312): edges act, then the demands, of one evaluation. `path` brought them: the
path that a demand of theirs names for as long as it lasts (R316). -/
def State.setCmd (s : State) (bits path : Nat) (timeout : Bool) : State :=
  let old := s.saf.cmd.getD 0
  let lasts := s.saf.cmd.any fun c => !bitAt c 0 && !bitAt bits 0
  let rise := fun k => bitAt bits k && !bitAt old k
  let fall := fun k => !bitAt bits k && bitAt old k
  let s := (s.modSaf fun f =>
    { f with cmd := some bits, timedOut := timeout, cmdPath := if lasts then f.cmdPath else path }).setN Pid.spRxIn bits
  let s := s.onlyIf (s.sbcUsed && fall 1) fun s => s.modSaf fun f => { f with sbcOn := none }
  let s := s.onlyIf (s.sbcUsed && rise 1) fun s =>
    let during := s.saf.test.isSome
    (s.holdAbort 3).modSaf fun f => { f with rel := if during then 2 else 1 }
  let s := s.onlyIf (rise 2) State.holdStart
  let s := s.onlyIf (rise 3) fun s => s.modSaf fun f => { f with resetPkt := true }
  let opens := fall 4 && s.saf.sccOn && !timeout
  (s.onlyIf opens fun s => s.sccSet false).safRecognise [] (if opens then [(4, path)] else []) false

/-- The packet timeout of R306 in ps. -/
def State.packetPs (s : State) : Nat :=
  match s.n Pid.profileWord / 256 % 4 with
  | 1 => 10 * psMs
  | 2 => 20 * psMs
  | _ => 50 * psMs

/-- The timeout of R311: every bit 0, cause 0x05, a running holding test aborted. -/
def State.packetTimedOut (s : State) : State :=
  let s := ((s.modSaf fun f => { f with timer := none, await := if f.await.contains 5 then f.await else 5 :: f.await }).bump Pid.spTimeoutCount).raise
    0x6C28 0 (s.saf.lastSeq.getD 0)
  ((s.holdAbort 1).safFaults [(5, 0)]).setCmd 0 0 true

/-- The timeout is due, give or take `tie`. -/
def State.packetDue (s : State) (tie : Nat) : Bool :=
  match s.saf.timer with
  | some a => s.packetsUsed && decide (a + s.packetPs ≤ s.now + tie)
  | none => false

/-- PACKET_TIMEOUT (R311). -/
def execPacketTimeout (t : Nat) (s : State) : Out :=
  let s := s.advance t
  .next (if s.packetDue 0 then s.packetTimedOut else s)

/-- A run of single-path packets begins or ends (R310). -/
def State.setSingle (s : State) (on : Bool) : State := (s.modSaf fun f => { f with singleOn := on }).setN Pid.safetyState s.safetyWord

/-- An accepted packet (R310, R311, R460): `first` is the path of its first copy, `path` that of its only one. -/
def State.acceptPacket (s : State) (seq bits first : Nat) (path : Option Nat) : State :=
  let s := match path with
    | some q =>
      let s := s.onlyIf (decide (s.saf.single = 0)) fun s => s.raise 0x1C27 q seq
      (s.modSaf fun f => { f with single := f.single + 1, singleOn := true }).bump (Pid.spSingleCount q)
    | none => s.modSaf fun f => { f with single := 0, singleOn := false }
  (s.modSaf fun f => { f with lastSeq := some seq, timer := some s.now, await := [] }).setCmd bits first false

/-- The decision at the window's close (R310). -/
def State.windowClose (s : State) : State :=
  match s.saf.win with
  | none => s
  | some (_, copies) =>
    let s := s.modSaf fun f => { f with win := none }
    match copies with
    | [] => s
    | (q0, bs) :: rest =>
      let seq := leAt bs 4 4
      let s := s.modSaf fun f => { f with closedSeq := some seq }
      let got := (List.range 4).filter fun q => copies.any fun c => c.1 = q
      let s := s.each (List.range 4) fun s q => s.setN (Pid.spPathState q) (b01 (s.paths.contains q) + 2 * b01 (got.contains q))
      match rest.find? fun c => c.2 ≠ bs with
      | some odd =>
        let s := ((s.bump Pid.spDifferCount).raise 0x6C26 0 (seq * 2 ^ 32 + q0 * 256 + odd.1)).modSaf fun f =>
          { f with await := if f.await.contains 6 then f.await else 6 :: f.await }
        s.safFaults [(6, q0)]
      | none =>
        let one := decide (got.length = 1)
        if one && (s.bit Pid.profileWord 10 || decide (8 ≤ s.saf.single)) then s.modSaf fun f => { f with single := f.single + 1 }
        else
          let tie := match s.saf.timer with
            | some a => decide (s.now < a + s.packetPs + 1000)
            | none => false
          let due := s.packetDue tiePs
          let s := s.onlyIf due State.packetTimedOut
          if due && tie then s.each got fun s q => s.bump (Pid.spLateCount q)
          else s.acceptPacket seq (leAt bs 12 2) q0 (if one then some q0 else none)

/-- A window has run out, give or take `tie`; before a copy it closes first (R47, R310). -/
def State.windowDue (s : State) (tie : Nat) : Bool :=
  match s.saf.win with
  | some (a, _) => decide (a + s.n Pid.spWindow * psUs ≤ s.now + tie)
  | none => false

/-- A safety packet copy on a path (R310). -/
def State.packetCopy (s : State) (q : Nat) (bs : List Byte) : State :=
  if !s.paths.contains q || s.unit.st = .off then s
  else if !s.copyValid bs then s.bump (Pid.spInvalidCount q)
  else
    let s := s.onlyIf (s.windowDue tiePs) State.windowClose
    let seq := leAt bs 4 4
    let ahead := match s.saf.lastSeq with
      | some l => decide (1 ≤ (seq + 2 ^ 32 - l) % 2 ^ 32 ∧ (seq + 2 ^ 32 - l) % 2 ^ 32 ≤ 8)
      | none => true
    if s.saf.win.isNone && s.saf.closedSeq = some seq then s.bump (Pid.spLateCount q)
    else if !ahead then s.bump (Pid.spInvalidCount q)
    else
      let s := s.bump (Pid.spRxCount q)
      let s := s.modSaf fun f => { f with win := some (match f.win with
        | some (a, l) => (a, l ++ [(q, bs)])
        | none => (s.now, [(q, bs)])) }
      -- bits that move only towards safety act on arrival
      let bits := leAt bs 12 2
      let s := match s.saf.cmd with
        | some c =>
          let down := [0, 1, 4].any fun k => bitAt c k && !bitAt bits k
          let only := (List.range 16).all fun k => bitAt c k = bitAt bits k || ([0, 1, 4].contains k && bitAt c k)
          s.onlyIf (down && only) fun s => s.setCmd bits q false
        | none => s
      let all := match s.saf.win with
        | some (_, l) => s.paths.all fun p => l.any fun c => c.1 = p
        | none => false
      s.onlyIf all State.windowClose

/-- SAFETY_PACKET_COPY (R310). -/
def execSafetyPacketCopy (t : Nat) (path : Nat) (bytes : List Byte) (s : State) : Out :=
  let s := s.advance t
  .next (s.packetCopy path bytes)

/-- SAFETY_WINDOW_CLOSE (R310). -/
def execSafetyWindowClose (t : Nat) (s : State) : Out :=
  let s := s.advance t
  .next (if s.windowDue 0 then s.windowClose else s)

/-- The status bits of R309. -/
def State.statusBits (s : State) : Nat :=
  let f := s.saf
  b01 f.gates + 2 * b01 f.sbcOn.isSome + 4 * b01 f.test.isSome + 8 * b01 f.passAt.isSome + 16 * b01 f.failed
    + 32 * b01 (s.sinFn 1 = .conn && !(s.sin 1).perm) + 64 * b01 (!s.mirrorsOpen) + 128 * b01 (s.unit.st = .safeStop)
    + 256 * b01 f.singleOn + 512 * b01 (f.faults ≠ [])

/-- A packet of R309 without and with its CRC. -/
def packetBytes (typ conn seq last bits : Nat) : List Byte :=
  let body := [1#8] ++ leBytes 1 typ ++ leBytes 2 conn ++ leBytes 4 seq ++ leBytes 4 last ++ leBytes 2 bits ++ leBytes 2 (65535 - bits)
    ++ List.replicate 12 0#8
  body ++ leBytes 4 (crc32cFrom (connInit conn) body).toNat

/-- STATUS_PACKET_SEND (R309): one sequence number on every enabled path: UDP from and to port 40961 to `sp_peer`, and one
FD frame in the safety slot of each CAN path. The packet sent is kept. -/
def execStatusPacketSend (t : Nat) (s : State) : Out :=
  let s := s.advance t
  .next (if s.paths = [] || s.unit.st = .off then s
    else s.recur .status (s.n Pid.spPeriod * psMs) fun s =>
      let seq := (s.saf.txSeq + 1) % 2 ^ 32
      let bits := s.statusBits
      let pkt := packetBytes 2 (s.n Pid.spConnId) seq (s.saf.lastSeq.getD 0) bits
      let s := (s.modSaf fun f => { f with txSeq := seq, status := pkt }).setN Pid.spTxOut bits
      s.each s.paths fun s q =>
        if q < 2 then s.udpSend q (s.n (Pid.spPeer q)) 40961 40961 pkt
        else (s.canSubmit (q - 2) { id := s.n Pid.spCanTxId, fd := true, data := pkt } .safety).2)

/-! ### Sealed path (R304-R308) -/

/-- The check nibble of R306. -/
def nibbleOk (w : Nat) : Bool :=
  decide (w / 4096 % 16 = 15 - Nat.xor (Nat.xor (w % 16) (w / 16 % 16)) (w / 256 % 16))

/-- The values of R306 that do not name a port. -/
def profileSupported (w : Nat) : Bool :=
  if w % 8 = 0 then bitAt w 3 && bitAt w 6 && decide (w / 256 % 4 ≠ 0)
  else if w % 8 = 1 then !bitAt w 3
  else false

/-- Native format. -/
def State.nativeStraps (s : State) : Bool := decide (s.n Pid.safetyFormat = 1)

/-- The straps read a pattern that passes the checks of R308 against the block. -/
def State.strapsOk (s : State) : Bool :=
  match s.saf.strapLast with
  | some p => decide (s.saf.strapBad = 0) && nibbleOk p && profileSupported p && decide (p = s.saf.blkProfile)
  | none => false

/-- A test-pulse fault that has not passed two pulses in a row since (R460, row 0x07). -/
def State.pulsesBad (s : State) : Bool := (List.range 8).any fun n =>
  let x := s.sin n
  (x.tpBadA && decide (x.tpPassA < 2)) || (x.tpBadB && decide (x.tpPassB < 2))

/-- An output has not read back low, de-energised and without current, for 40 ms (R460, row 0x08). -/
def SoutSt.notLow (x : SoutSt) (now : Nat) : Bool := !x.lowFrom.any fun a => decide (a + 40 * psMs ≤ now)

/-- An output fault that is still present (R460). -/
def State.outsBad (s : State) : Bool := s.saf.sout.any fun x => x.fault && x.notLow s.now

/-- A hardware failure of self-test item 9 is still present (R460): straps, the test pulses that run, and outputs, each confirmed anew. -/
def State.hwLeft (s : State) : Bool :=
  s.saf.hwBad && ((s.nativeStraps && decide (s.saf.strapEq < 2)) || s.saf.sout.any (fun x => x.notLow s.now) ||
    (List.range 8).any fun n => s.sinFn n ≠ .unused && s.blockConfirmed && s.bit Pid.sinTpEn n
      && (decide ((s.sin n).tpPassA < 2) || decide ((s.sin n).tpPassB < 2)))

/-- Self-test item 9 has failed in hardware (R82, R460): every test of it has to pass anew. -/
def State.hwFailed (s : State) : State :=
  s.modSaf fun f =>
    { f with hwBad := true, strapEq := 0, sin := f.sin.map fun x => { x with tpPassA := 0, tpPassB := 0 }
             sout := f.sout.map fun x => { x with lowFrom := none } }

/-- The hardware tests of item 9 (R308): readable straps, test pulses, outputs; a fault that has recovered counts no more (R460). -/
def State.safetyHwOk (s : State) : Bool :=
  (!s.nativeStraps || (s.saf.strapLast.isSome && decide (s.saf.strapBad = 0))) && !s.pulsesBad && !s.outsBad && !s.hwLeft

/-- R308: the record, the block and, in native format, the straps agree; a foreign slot is judged by hardware only. -/
def State.configOk (s : State) : Bool :=
  if s.img.foreign then s.safetyHwOk
  else s.img.loaded && (!s.nativeStraps || s.strapsOk) && decide (s.fram.safety = (s.saf.blkProfile, s.saf.blkCrc))

/-- The profile comes into force (R305): in native format the strap pattern that passed R308, in the forerunner format
the block's word. The packet timeout counts from here (R311). -/
def State.adoptProfile (s : State) : State :=
  if s.saf.inForce || s.img.foreign || !s.img.loaded || !s.configOk then s
  else
    let s := (s.modSaf fun f => { f with inForce := true, timer := some s.now, sccAt := s.now }).setN Pid.profileWord s.saf.blkProfile
    let s := s.each ((List.range 8).filter fun n => s.sinFn n ≠ .unused && !(s.sin n).seen) fun s n =>
      match s.saf.raw.getD n none with
      | some (a, b) => s.modSin n fun x => x.read a b s.now
      | none => s
    let s := s.each (List.range 8) fun s n =>
      s.setN (Pid.sinFunction n) (match s.sinFn n with
        | .unused => 0xFF
        | .sgo => 0
        | _ => n)
    (s.each (List.range 4) fun s q => s.setN (Pid.spPathState q) (b01 (s.paths.contains q))).safApply

/-- STRAP_READ (R305, R460): pattern and mask of faulty lands; a change while the unit runs is a fault too. -/
def execStrapRead (t : Nat) (pattern faulty : Nat) (s : State) : Out :=
  let s := s.advance t
  .next (if !s.img.loaded || !s.nativeStraps then s
    else s.recur .strap (100 * psMs) fun s =>
      let pat := pattern % 65536
      let bad := faulty % 65536
      let word := if s.saf.inForce then s.n Pid.profileWord else s.saf.blkProfile
      let changed := match s.saf.strapLast with
        | some l => decide (l ≠ pat)
        | none => false
      let valid := decide (bad = 0)
      let s := (s.setN Pid.strapRead (bad * 65536 + pat)).modSaf fun f =>
        { f with strapLast := some pat, strapBad := bad
                 strapOk := if valid && pat = word then f.strapOk + 1 else 0
                 strapEq := if valid then (if changed then 1 else f.strapEq + 1) else 0 }
      let land := ((List.range 16).find? fun k => bitAt bad k).getD 0
      (s.onlyIf (!valid || changed) fun s => s.safFaults [(9, land)]).adoptProfile)

/-- The first failing code of R307; 0 when the commit is accepted. -/
def State.commitCode (s : State) : Nat :=
  let f := s.saf
  if !(s.unit.st = .safeStop || s.unit.st = .readyUnbound) then 1
  else if s.n Pid.safetyCommitsLeft = 0 then 2
  else if s.fram.safety = (f.blkProfile, f.blkCrc) then 3
  else if s.nativeStraps && !(match f.strapLast with
      | some p => decide (f.strapBad = 0) && nibbleOk p
      | none => false) then 4
  else if s.nativeStraps && f.strapLast ≠ some f.blkProfile then 5
  else if !s.nativeStraps && decide (s.n Pid.safetyCheck ≠ f.blkCrc) then 6
  else if !profileSupported f.blkProfile then 7
  else 0

/-- A commit (R307, R412): the fuse is counted; a failed read-back leaves the record. -/
def State.doCommit (s : State) (readbackOk : Bool) : State :=
  let code := s.commitCode
  if code ≠ 0 then s.raise 0x1C32 0 code
  else
    let s := s.setN Pid.safetyCommitsLeft (s.n Pid.safetyCommitsLeft - 1)
    if !readbackOk then s.raise 0x728B 0 1
    else
      let s := { s with fram := { s.fram with safety := (s.saf.blkProfile, s.saf.blkCrc) } }
      (s.raise 0x0C31 0 (s.saf.blkProfile * 2 ^ 32 + s.saf.blkCrc)).adoptProfile

/-- A write of `safety_commit` (R307, R314): any value but 0x01 is refused with event 0x1C32, whose code the spec does not state
there (a free value, log 46). -/
def State.commitAsked (s : State) (v : Word) (readbackOk : Bool) : State :=
  if v.toNat = 1 then s.doCommit readbackOk else s.fresh.2.raise 0x1C32 0 (s.fresh.1.toNat % 256)

/-- SAFETY_COMMIT (R307): a Commissioner write of 0x01. -/
def execSafetyCommit (t : Nat) (role : Role) (v : Word) (readbackOk : Bool) (s : State) : Out :=
  let s := s.advance t
  .next (s.roleRow role .commissioner 2 Pid.safetyCommit 0 v (decide (v.toNat = 1 ∧ s.commitCode = 0))
    (s.commitAsked v readbackOk))

/-! ### Safety reset (R312, R460) -/

/-- A fault cause is still present (R460). -/
def State.faultPresent (s : State) (c : Nat) : Bool :=
  let f := s.saf
  let clock := match f.clockBad with
    | some a => decide (s.now < a + 256 * psUs)
    | none => false
  match c with
  | 5 => f.await.contains 5
  | 6 => f.await.contains 6
  | 7 => s.pulsesBad || (List.range 8).any fun n => decide ((s.sin n).disc = 1 ∨ (s.sin n).disc = 2)
  | 8 => s.outsBad
  | 9 => decide (f.strapOk < 2)
  | 0x0A => match f.mirOpen with
    | some a => decide (s.now < a + s.n Pid.sccMirrorTime * psMs)
    | none => true
  | 0x0B => !f.coilOk.all id
  | 0x0D => clock
  | 0x0E => clock || s.hwLeft || !s.configOk
  | 0x0F => true
  | _ => false

/-- The first failing code of R312 for a source (1 input, 2 packet). -/
def State.resetCode (s : State) (source : Nat) : Nat :=
  if s.unit.st ≠ .safeStop then 1
  else if source = 2 && !s.bit Pid.profileWord 7 then 6
  else if s.demandNow true ≠ [] then 2
  else if s.saf.faults.any fun c => s.faultPresent c.1 then 3
  else if !s.configOk then 4
  else if !s.refLocked then 5
  else 0

/-- An accepted reset (R300, R312): causes cleared, the unit to READY or READY-UNBOUND. -/
def State.doReset (s : State) (source : Nat) : State :=
  let s := s.modSaf fun f =>
    { f with faults := [], dem := [], mirBad := [false, false], hwBad := false
             sin := f.sin.map fun x => { x with disc := 0, tpBadA := false, tpBadB := false }
             sout := f.sout.map fun x => { x with fault := false, stuckOn := false, stuckOff := false, short := false } }
  let s := s.each (List.range 8) fun s n => s.setN (Pid.sinState n) (s.sin n).word
  let s := (s.setN Pid.safeStopCause 0).setN Pid.resetRefuse 0
  let s := (s.onlyIf s.img.foreign State.factoryNet).gotoUnit (if s.img.foreign then .readyUnbound else .ready) 0x0C21
  (s.raise 0x0C21 0 source).adoptProfile.safApply

/-- SAFETY_RESET (R312): a reset edge that has arrived, from input 6 (1) or a packet (2), is judged. -/
def execSafetyReset (t : Nat) (source : Nat) (s : State) : Out :=
  let s := s.advance t
  let waiting := if source = 1 then s.saf.resetIn else source = 2 && s.saf.resetPkt
  .next (if !waiting then s
    else
      let s := s.modSaf fun f => { f with resetIn := f.resetIn && source ≠ 1, resetPkt := f.resetPkt && source ≠ 2 }
      let code := s.resetCode source
      if code ≠ 0 then (s.setN Pid.resetRefuse code).raise 0x1C22 0 (source * 256 + code)
      else s.doReset source)

end Sys2Proof.Machine
end

