-- ==== Sys2Proof/Machine/Boot.lean ====
section
/-! DEFINITION. Supply, RESET, the reference and the PLL: R55-R64, R84-R86, R438, R440 and R454. -/

namespace Sys2Proof.Machine

/-! ### RESET and OFF (R85, R438, R440, R454) -/

/-- The parameters that keep their words across RESET (R440): those in fuses, the lifetime words, and the ageing words. -/
def keptId (id : Nat) : Bool :=
  decide (id / 0x10000 = 0x01) || [Pid.rollbackFloor, Pid.safetyCommitsLeft, Pid.slackMinLife, Pid.railHighWater,
    Pid.powerOnHours, Pid.ethMacLo 0, Pid.ethMacHi 0, Pid.ethMacLo 1, Pid.ethMacHi 1, Pid.peerTable, Pid.auditAnchor, Pid.auditNext].contains id
    || (decide (0x0D2000 ≤ id ∧ id < 0x0D5000) && decide (id % 0x100 < 3))
    || (decide (0x0D1000 ≤ id ∧ id < 0x0D1400) && decide (id % 0x100 < 2))

/-- Every part of the unit at its state after RESET: what ferroelectric memory, flash and fuses hold stays (R440), every
other parameter takes its default (R438), queues and sessions are empty. -/
def State.resetAll (s : State) : State :=
  let r : State := {
    now := s.now
    regs := s.regs.filter fun e => keptId e.1
    fuses := s.fuses
    fram := s.fram
    flash := s.flash
    prf := { winAt := s.now, hourAt := s.now, ring := s.prf.ring, sw := s.prf.sw.map fun x => { x with sum := 0, n := 0, lastAt := none } }
    link := { peers := s.link.peers.map fun p => { p with present := false } }
    freeCtr := s.freeCtr
    pending := s.pending }
  r.setN Pid.nextSlot (s.fram.nextSlot.getD 0)

/-- To RESET (R85): `last_cause`, sessions ended (R398), forces cleared (R350), the undervoltage of VIN in force or not (R454). -/
def State.toReset (s : State) (cause : Nat) (uv : Bool) : State :=
  let r := s.resetAll.setN Pid.lastCause cause
  let r := { r with unit := { r.unit with vinUv := uv } }
  let r := s.link.sess.foldl (fun r x => r.raise 0x0289 x.role.code (x.sid * 2 ^ 32 + 3)) r
  s.lat.forces.foldl (fun r f => r.raise 0x0063 0 (f.1 * 256 + f.2.1)) r

/-- VIN_RISE (R454): VIN through 8.6 V: OFF is left for RESET, and an undervoltage in force ends. -/
def execVinRise (t : Nat) (s : State) : Out :=
  let s := s.advance t
  .next (if s.unit.st = .off then s.toReset 0 false else { s with unit := { s.unit with vinUv := false } })

/-- VIN_UNDERVOLTAGE (R454): below 8.2 V for more than 10 µs. -/
def execVinUndervoltage (t : Nat) (s : State) : Out :=
  let s := s.advance t
  .next (if s.unit.st = .off ∨ s.unit.vinUv then s else s.toReset 0 true)

/-- CONTROL_SUPPLY_LOST (R454): the unit is OFF. -/
def execControlSupplyLost (t : Nat) (s : State) : Out :=
  let s := s.advance t
  let r := s.resetAll
  .next ({ r with unit := { r.unit with st := .off, vinUv := true } }.setN Pid.unitState UnitState.off.code)

/-- SHELL_WATCHDOG_EXPIRY (R85). -/
def execShellWatchdogExpiry (t : Nat) (s : State) : Out :=
  let s := s.advance t
  .next (if s.unit.st = .off then s else s.toReset 0 s.unit.vinUv)

/-- The condition of `restart` (R86). -/
def State.restartOk (s : State) (v : Word) : Bool := decide (v = 1) && s.usedPorts.all fun p => (s.port p).st.atRest

/-- Restart. -/
def State.doRestart (s : State) : State := s.toReset 0 s.unit.vinUv

/-- RESTART (R86). -/
def execRestart (t : Nat) (role : Role) (v : Word) (s : State) : Out :=
  let s := s.advance t
  .next (s.cmdRow role .service Pid.restart v (s.restartOk v) s.doRestart)

/-- RESET_COMPLETE (R85): rails good, fuses read, no undervoltage of VIN. -/
def execResetComplete (t : Nat) (s : State) : Out :=
  let s := s.advance t
  .next (if s.unit.st = .reset ∧ !s.unit.vinUv then
      ({ s with unit := { s.unit with resetEnd := s.now } }).gotoUnit .refLock 0
    else s)

/-! ### Attempts (R57, R59, R64) -/

/-- Change the reference procedure. -/
def State.modRef (s : State) (f : RefSt → RefSt) : State := { s with ref := f s.ref }

/-- An attempt starts with the band search (R59). -/
def State.attemptOn (s : State) (target : RefSrc) (kind : AttemptKind) : State :=
  (s.modRef fun r => { r with attempt := some ⟨target, kind, s.now⟩ }).setN Pid.pllState 1

/-- The reference that R64 step 3 targets: the declared one, or the boot reference while the image is not read; after a
phase-window loss the first attempt is on the reference lost (R60). -/
def State.refTarget (s : State) : RefSrc := s.ref.first.getD (s.ref.decl.getD s.ref.boot)

/-- Frequency of a reference in kHz (R55-R57, R63): `REF_IN` as declared, or as measured while the image is not read. -/
def State.refKHz (s : State) (r : RefSrc) : Nat :=
  match r with
  | .refIn => if s.ref.decl.isSome then s.n Pid.refInFreq else s.ref.bootKHz
  | _ => 25000

/-- The phase error has stayed in its window for `lock_cycles` reference cycles since the attempt began (R59). -/
def State.lockDue (s : State) (a : Attempt) : Bool :=
  decide (a.start * s.refKHz a.target + s.n Pid.lockCycles * psMs ≤ s.now * s.refKHz a.target)

/-- The attempts are used up (R57, R64 step 5): 0x5304, FAULT-HOLD except from READY-UNBOUND and READY-REFUSED. -/
def State.relockExhausted (s : State) : State :=
  let s := s.modRef fun r => { r with relocking := false }
  (s.raise 0x5304 0 (s.n Pid.relockAttempts)).enterFaultHold 0x5304

/-- The fallback clock takes over from no lock (R63): TIME stays holdover-invalid on it. -/
def State.onFallback (s : State) : State := (s.attemptOn .fallback .fallback).setTimeState 5 0

/-- After a failed numbered attempt: the eighth ends the procedure; the PLL returns to the fallback clock, or in IMAGE-LOAD to the boot
reference (R57). The spec does not say how it returns from a failed scheduled relock: it counts as still locked there, with `pll_state` 3
at once, no band search and no second event 0x0301 (DESIGN CHOICE, log 17). -/
def State.attemptLost (s : State) : State :=
  let s := s.modRef fun r => { r with fails := r.fails + 1 }
  let s := s.onlyIf (decide (8 ≤ s.ref.fails)) State.relockExhausted
  match s.ref.lockedTo with
  | some _ => s.setN Pid.pllState 3
  | none => if s.ref.startupWaits ∧ s.ref.boot ≠ .fallback then s.attemptOn s.ref.boot .fallback else s.onFallback

/-- Count an attempt; what a phase-window loss named is used up (R60). -/
def State.countAttempt (s : State) : State :=
  (s.setN Pid.relockAttempts (min 8 (s.n Pid.relockAttempts + 1))).modRef fun r => { r with first := none }

/-- The attempt in progress fails (R57, R59, R64). A boot attempt is retried as R64 states (log 17). -/
def State.attemptFailed (s : State) (a : Attempt) : State :=
  let s := s.modRef fun r => { r with attempt := none }
  match a.kind with
  | .fallback => s.attemptOn a.target .fallback
  | .attempt => s.attemptLost
  | .boot => ((s.modRef fun r => { r with relocking := true, lastAttempt := s.now }).countAttempt).attemptLost
  | .standby => if s.ref.startupWaits then
      ((s.modRef fun r => { r with relocking := true, lastAttempt := s.now }).countAttempt).attemptLost
    else s.attemptLost
  | .scheduled =>
    if s.n Pid.refSource = 2 ∧ a.target = .refIn then s.attemptOn .crystal .standby
    else ((s.modRef fun r => { r with relocking := true, lastAttempt := s.now }).countAttempt).attemptLost

/-- BOOT_REFERENCE_SELECT (R57): the crystal when it oscillates within 8 ms of leaving RESET; else `REF_IN` at the nearest
permitted frequency within ±5 %; else the fallback clock and FAULT-HOLD. -/
def execBootReferenceSelect (t : Nat) (crystal : Bool) (refInKHz : Nat) (s : State) : Out :=
  let s := s.advance t
  .next (if s.unit.st ≠ .refLock ∨ s.ref.attempt.isSome ∨ s.ref.lockedTo.isSome ∨ s.ref.relocking then s
    else if crystal && decide (s.now ≤ s.unit.resetEnd + 8 * psMs) then
      (s.modRef fun r => { r with boot := .crystal, bootKHz := 25000 }).attemptOn .crystal .boot
    else if s.now < s.unit.resetEnd + 8 * psMs then s
    else
      let dist := fun (f : Nat) => ((f : Int) - refInKHz).natAbs
      let best := [12500, 20000, 25000, 40000, 50000].foldl (fun a f => if dist f < dist a then f else a) 10000
      if 20 * dist best ≤ best then
        (s.modRef fun r => { r with boot := .refIn, bootKHz := best }).attemptOn .refIn .boot
      else (((s.modRef fun r => { r with boot := .fallback }).onFallback).raise 0x5304 0 0).enterFaultHold 0x5304)

/-- TIME runs again (R61): 0x5303 told once more, with the time TIME was down (log 17). -/
def State.timeResume (s : State) : State :=
  let s := match s.ref.down with
    | some (at_, ctx) => s.raise 0x5303 0 (ctx + min ((s.now - at_) / 1000) 0xFFFFFFFF)
    | none => s
  (s.modRef fun r => { r with down := none }).setTimeState 4 0

/-- The domains restart after a relock (R61, R64 step 4): TIME resumes in state 4, the CAN counters restart, CAN rejoins after 11
recessive bits, which an idle bus gives at once, Ethernet trains. -/
def State.domainsRestart (s : State) : State :=
  let s := s.onlyIf s.timeStopped State.timeResume
  let s := s.each [0, 1] fun s ch =>
    (s.modCan ch fun x => { x with busOff := none, counting := false, joinAt := s.now + 11 * s.canBitPs ch }).canCounters ch 0 0
  s.canShow.ethShow

/-- Start-up goes on once the declared reference is locked (R57, R85). -/
def State.lockStep (s : State) : State :=
  match s.unit.st with
  | .refLock => s.gotoUnit .imageLoad 0x0301
  | .imageLoad => if s.ref.startupWaits then (s.modRef fun r => { r with startupWaits := false }).gotoUnit .selfTest 0x0301 else s
  | _ => s.leaveStopping

/-- LOCK_DECLARED (R59, R61, R64). -/
def execLockDeclared (t : Nat) (band : Nat) (s : State) : Out :=
  let s := s.advance t
  .next (match s.ref.attempt with
    | none => s
    | some a =>
      if a.start + 2 * psMs < s.now ∨ !s.lockDue a then s
      else
        let ns := (s.now - a.start) / 1000
        let boot := if a.target = .refIn then s.refKHz .refIn else s.ref.bootKHz
        let s := s.modRef fun r => { r with attempt := none, lockedTo := some a.target, lockedAt := s.now, bootKHz := boot }
        let s := ((s.setN Pid.pllState 3).setN Pid.refInUse (match a.target with
          | .crystal => 0 | .refIn => 1 | .fallback => 2)).setN Pid.vcoBand (band % 16)
        let s := (s.setN Pid.lastLockTime ns).raise 0x0301 0 (band % 16 * 2 ^ 32 + min ns 0xFFFFFFFF)
        match a.kind with
        | .fallback => s
        | .standby => (((s.modRef fun r => { r with relocking := false }).raise 0x1302 0 0).domainsRestart).lockStep
        | _ => ((s.modRef fun r => { r with relocking := false }).domainsRestart).lockStep)

/-- LOCK_ATTEMPT_TIMEOUT (R59). -/
def execLockAttemptTimeout (t : Nat) (s : State) : Out :=
  let s := s.advance t
  .next (match s.ref.attempt with
    | some a => if a.start + 2 * psMs ≤ s.now then s.attemptFailed a else s
    | none => s)

/-- RELOCK_ATTEMPT (R64 step 3): 100 ms after the loss and every 100 ms after that. -/
def execRelockAttempt (t : Nat) (refValid : Bool) (s : State) : Out :=
  let s := s.advance t
  let idle := match s.ref.attempt with
    | none => true
    | some a => decide (a.kind = .fallback)
  .next (if s.ref.relocking && idle && decide (s.ref.lastAttempt + 100 * psMs ≤ s.now) then
      let target := s.refTarget
      let s := (s.modRef fun r => { r with lastAttempt := r.lastAttempt + 100 * psMs }).countAttempt
      if refValid then s.attemptOn target .attempt else s.attemptLost
    else s)

/-- ATTEMPT_COUNT_RESET (R64 step 6): 60 s of continuous lock. -/
def execAttemptCountReset (t : Nat) (s : State) : Out :=
  let s := s.advance t
  .next (if s.refLocked && !s.ref.relocking && decide (s.ref.lockedAt + 60 * psS ≤ s.now) then
      (s.setN Pid.relockAttempts 0).modRef fun r => { r with fails := 0 }
    else s)

/-! ### Loss (R58, R60, R61, R64) -/

/-- PWM at a loss (R61): the ports stop, no further edge is issued and the carriers stop until a port is energised again, but a switch
that is on stays on until its island's watchdog expires. -/
def State.lossPwm (s : State) : State :=
  let before := s.isl
  let s := s.each (s.usedPorts.filter fun p => (s.port p).st ≠ .idle) fun s p => s.portFault p 0x5303 false false
  let s := { s with isl := before }
  let s := s.each (s.usedPorts.flatMap fun p => (s.port p).legs) fun s l => ((s.showIsl (islHigh l)).showIsl (islLow l)).showLeg l
  let s := s.each (List.range 24) fun s l => s.modLeg l fun x => { x with onAt := none, innerWait := false, nextB := none, delayed := none }
  s.each s.usedPorts fun s p => (s.setN (Pid.modState p) 0).modPort p fun q => { q with noCarrier := true }

/-- The converters at a loss (R61): conversions in flight discarded and counted by group, slow conversions dropped. -/
def State.lossAdc (s : State) (discards : List Nat) : State :=
  let s := s.each ((List.range 4).filter fun g => discards.getD g 0 ≠ 0) fun s g =>
    (s.bumpBy (Pid.grpDiscardCount g) (discards.getD g 0)).raise 0x1005 g (min (discards.getD g 0) 0xFFFFFFFF)
  { s with
    fast := s.fast.map fun x => { x with run := false, winEnd := none }
    mods := s.mods.map fun m => { m with chan := none, scanFrom := none } }

/-- TIME, ETH, CAN and the flash at a loss (R61): internal time stops, links drop, CAN is silent, an image write aborts with its
slot empty. -/
def State.lossDomains (s : State) : State :=
  let s := (s.modTime fun x => { x with ptpValid := false, canValid := false, acquire := false, heldFrom := none, stops := x.stops + 1 }).setTimeState 5 2
  let s := s.each [0, 1] fun s e => s.onlyIf (decide (s.n (Pid.ethLink e) ≠ 0)) fun s => s.ethDown e
  let s := s.each [0, 1] fun s ch => s.modCan ch fun x => { x with rxSeq := none, pairs := 0, prevSof := none }
  let s := s.canShow
  match s.link.bulk with
  | some b => if b.target < 2 then
      let (f, s) := s.fresh
      (s.setN (slotPid b.target) 1).bulkAbort (f.toNat % 256)
    else s
  | none => s

/-- The engine stops with its period timer at a loss (R61), unless it has surrendered (R169); captures end (R430). -/
def State.lossEngine (s : State) : State :=
  let s := { s with eng := { s.eng with running := false, doneX := none, doneY := none, late := 0, judged := true, slackDone := true } }
  (s.onlyIf (decide (s.n Pid.engineState = 1)) fun s => s.setN Pid.engineState 0).capEndAll 2

/-- The image is dropped when start-up begins again (R64 step 1): no slot is checked or chosen, and what its header and its
digest showed is gone (R88). -/
def State.imageDrop (s : State) : State :=
  let s := { s with img := {}, ports := List.replicate 4 {} }
  let s := s.each [Pid.slotAStatus, Pid.slotBStatus, Pid.imageId, Pid.imageCounter, Pid.pairDigestLo, Pid.pairDigestHi] fun s id =>
    s.setN id 0
  s.setN Pid.bootSlot 0xFF

/-- Unit state at a loss (R64 step 1). -/
def State.lossUnit (s : State) : State :=
  match s.unit.st with
  | .energise | .run | .limited | .rideThrough | .standby | .ready => s.gotoUnit .stopping 0x5303
  | .imageLoad | .selfTest => s.imageDrop.gotoUnit .refLock 0x5303
  | _ => s

/-- A loss (R58, R60): 0x5303 with its cause and TIME down for 0 ns so far, the domains of R61, the unit state, and the procedure
of R64. After a phase-window loss the first attempt is on the same reference (log 17). -/
def State.lockLoss (s : State) (src : RefSrc) (cause : Nat) (discards : List Nat) : State :=
  let ctx := cause * 2 ^ 56 + s.unit.st.code * 2 ^ 48
  let external := decide (s.n Pid.refSource = 2 ∧ s.ref.decl = some .refIn ∧ src = .refIn)
  let s := (s.raise 0x5303 0 ctx).bump Pid.lockLossCount
  let s := (s.dropBiscuit 2 (s.n Pid.periodSeq)).lossPwm.lossUnit
  let s := ((s.modRef fun r => { r with lockedTo := none, relocking := true, startupWaits := false, lastAttempt := s.now
                                        first := if cause = 1 then some src else none, down := some (s.now, ctx) }).setN
    Pid.pllState 0).setN Pid.relockAttempts 0
  let s := ((s.lossAdc discards).lossEngine).lossDomains
  if external then
    if cause = 1 then s.countAttempt.attemptOn .refIn .attempt else s.countAttempt.attemptOn .crystal .standby
  else s.attemptOn .fallback .fallback

/-- A loss of what the PLL follows: during an attempt it ends the attempt as failed (R64). -/
def State.refLost (s : State) (cause : Nat) (discards : List Nat) : State :=
  match s.ref.attempt with
  | some a => if a.target = .fallback then s else s.attemptFailed a
  | none => match s.ref.lockedTo with
    | some .fallback => s
    | some src => s.lockLoss src cause discards
    | none => s

/-- REFERENCE_LOSS (R58): `discards` are the fast conversions in flight by group. -/
def execReferenceLoss (t : Nat) (discards : List Nat) (s : State) : Out :=
  let s := s.advance t
  .next (s.refLost 2 discards)

/-- PHASE_WINDOW_LOSS (R60). -/
def execPhaseWindowLoss (t : Nat) (discards : List Nat) (s : State) : Out :=
  let s := s.advance t
  .next (s.refLost 1 discards)

/-- SAFE_CROSS_MONITOR (R34, R287): SAFE off by more than ±2 %, cause 0x0D. -/
def execSafeCrossMonitor (t : Nat) (s : State) : Out :=
  let s := s.advance t
  .next ((s.modSaf fun f => { f with clockBad := some s.now }).safFaults [(0x0D, 0)])

end Sys2Proof.Machine
end

