-- ==== Sys2Proof/Machine/Pair.lean ====
section
/-! DEFINITION. The standby pair and the biscuit lease (R317-R337): pair-link frames, forming, marks, the lease, giving
up and taking. Numbers of periods are compared modulo 2^32. -/

namespace Sys2Proof.Machine

/-- Change the pair's state. -/
def State.modPair (s : State) (f : PairSt → PairSt) : State := { s with pair := f s.pair }

/-- `a − b` modulo 2^32. -/
def seqDiff (a b : Nat) : Nat := (a + 2 ^ 32 - b % 2 ^ 32) % 2 ^ 32

/-- `a` lies ahead of `b` by at least `k` periods. -/
def seqAhead (a b k : Nat) : Bool := decide (k ≤ seqDiff a b ∧ seqDiff a b < 2 ^ 31)

/-- The pair works: enabled, and the unit is past start-up and not factory-ruled (R317, R320). -/
def State.pairOn (s : State) : Bool := decide (s.n Pid.pairEnable = 1) && !s.unit.st.startUp && !s.unit.st.factory

/-! ### Frames (R319) -/

/-- The ladder word of R319. -/
def State.ladderWord (s : State) : Nat :=
  min 32 (s.n Pid.ladderDropped) + 64 * b01 (decide (s.fram.ladderSet = 1)) + 128 * (s.n Pid.lawSet % 2)

/-- The ladder word once the pending actions have taken effect (R334). -/
def State.ladderNext (s : State) : Nat :=
  s.prf.pendRungs.foldl (fun w r => match r.1 with
    | .two => w / 64 * 64 + min 32 (w % 64 + 1)
    | .three _ => w % 64 + 64 + w / 128 * 128
    | .four _ => w % 64 + 128
    | .restore => 0) s.ladderWord

/-- The port states of R319. -/
def State.portWord (s : State) : Nat :=
  (List.range 4).foldl (fun a p => a + (s.port p).st.code * 16 ^ p) 0

/-- The 16-byte header of R319. -/
def State.frameHead (s : State) (typ flags : Nat) : List Byte :=
  leBytes 1 typ ++ leBytes 1 flags ++ leBytes 2 s.eng.outerIdx ++ leBytes 4 (s.n Pid.periodSeq)
    ++ leBytes 4 (match s.pair.giveUp with
      | some (_, f) => f
      | none => 0xFFFFFFFF)
    ++ leBytes 2 s.ladderNext ++ leBytes 2 s.portWord

/-- The announce frame (R319): header, slice and CRC-32C. -/
def State.announceFrame (s : State) : List Byte :=
  let slice := leBytes 8 s.serial ++ leBytes 1 (s.n Pid.variant) ++ leBytes 1 (s.n Pid.grade) ++ leBytes 2 (s.n Pid.profileWord)
    ++ (s.img.digest ++ List.replicate 32 0#8).take 32 ++ leBytes 1 (b01 s.pair.holds) ++ List.replicate 115 0#8
  let body := s.frameHead 3 0 ++ slice
  body ++ leBytes 4 (crc32c body).toNat

/-- The holder renews in every period before its release point (R328, R331). -/
def State.renews (s : State) : Bool :=
  s.pair.holds && (match s.pair.giveUp with
    | some (_, f) => seqAhead f (s.n Pid.periodSeq) 1
    | none => true)

/-- The unit sends as a holder (R319): it holds the biscuit, or has just given it up. -/
def State.holderSends (s : State) : Bool := s.pair.holds || s.pair.giveUp.isSome

/-- A unit of a pair sends a frame in every period (R319); one that has no role yet announces itself instead (R320). A unit that left
STANDBY for FAULT-HOLD or SAFE-STOP goes on as a standby whose report tells its state (R327; DESIGN CHOICE, log 36). -/
def State.framesOn (s : State) : Bool :=
  s.pairOn && (s.holderSends || decide (s.n Pid.pairState = 2) || s.unit.st = .faultHold || s.unit.st = .safeStop)

/-- The items that a frame carries beside R319's fields: what the holder forwards (R324), and the unit's own unfit reason (R327). -/
def State.frameItems (s : State) : List (Nat × Word × Nat) :=
  (if s.holderSends then s.pair.outbox else []) ++ [(Pid.sbFit, BitVec.ofNat 32 (s.pair.unfit.headD 0 * 256), 0)]

/-- The slice of a holder frame (R319): the outer image and the forwarded items. -/
def State.holderSlice (s : State) : List Byte :=
  leBytes 160 (Config.imageSlice s.pair.txImage s.pair.outbox s.eng.outerIdx).toNat

/-- The slice of a standby frame (R319): the next 160 bytes of the health report. -/
def State.standbySlice (s : State) : List Byte := (s.pair.txBuf ++ List.replicate 160 0#8).take 160

/-- This period's frame (R319): header, slice and CRC-32C; of the holder with renewal, give-up, ladder and SCC flags, or of the
standby. -/
def State.periodFrame (s : State) : List Byte :=
  let body :=
    if s.holderSends then
      s.frameHead 1 (b01 s.renews + 2 * b01 s.pair.giveUp.isSome + 4 * b01 (decide (s.prf.pendRungs ≠ [])) + 8 * b01 s.saf.sccOn)
        ++ s.holderSlice
    else s.frameHead 2 0 ++ s.standbySlice
  body ++ leBytes 4 (crc32c body).toNat

/-- A health report rebuilt since the last one was begun is sent next, in order (R203, R319). -/
def State.reportStart (s : State) : State :=
  s.onlyIf (decide (s.pair.txSeq ≠ s.prf.reportSeq)) fun s => s.modPair fun q => { q with txSeq := s.prf.reportSeq, txBuf := s.prf.report }

/-- The frame of the period leaves in its commit window, once (R319); a give-up is told in it (R331). -/
def State.sendFrame (s : State) : State :=
  let seq := s.n Pid.periodSeq
  if !s.framesOn || s.pair.sentSeq = some seq then s
  else
    let s := s.reportStart
    s.modPair fun q =>
      { q with
        sent := s.periodFrame, sentItems := s.frameItems, sentSeq := some seq
        sentImage := if s.holderSends then q.txImage else []
        txBuf := if s.holderSends then q.txBuf else q.txBuf.drop 160
        giveUp := if q.holds then q.giveUp else none }

/-- The outer state image that a holder completes at an outer boundary (R324): one entry per used port. -/
def State.imageOf (s : State) (p : Nat) : OuterImage :=
  let q := s.port p
  let g := fun (z : Glz) => (z.x, z.r)
  { port := p, omega := q.law.omega, theta := s.w (Pid.theta p), e := q.law.e, pF := q.law.pF, qF := q.law.qF
    vMeas := s.z (Pid.vMeas p), glz := [g q.law.glzP, g q.law.glzQ, g q.law.glzV, g q.law.glzF], xAdd := s.z (Pid.xAdd p)
    budgetPs := q.budget / max 1 (s.n (Pid.hardCooldown p)), rtOpen := q.rtOpen, rtPs := q.rtPs, cells := q.gOut.cells }

/-- The holder takes the image of the outer period that has ended. -/
def State.imageTake (s : State) : State :=
  s.onlyIf s.pair.holds fun s => s.modPair fun q => { q with txImage := s.usedPorts.map s.imageOf }

/-- The checks of R319. -/
def frameValid (bs : List Byte) : Bool :=
  decide (bs.length = 180) && decide (leAt bs 176 4 = (crc32c (bs.take 176)).toNat) &&
  decide (1 ≤ leAt bs 0 1 ∧ leAt bs 0 1 ≤ 3) && decide (leAt bs 1 1 < 16) &&
  decide (leAt bs 12 2 < 256) && decide (leAt bs 12 2 % 64 ≤ 32)

/-- The unit announces itself (R320): not paired, and in a state in which it can take a role in a pair (DESIGN CHOICE, log 36). -/
def State.announces (s : State) : Bool :=
  s.pairOn && (s.pair.holds || s.unit.st.mayHold) && s.n Pid.pairState ≠ 1 && s.n Pid.pairState ≠ 2

/-- PAIR_ANNOUNCE (R320): every 1 ms until paired; the frame sent is kept. -/
def execPairAnnounce (t : Nat) (s : State) : Out :=
  let s := s.advance t
  .next (if s.announces then
      s.recur .pairAnnounce psMs fun s => s.modPair fun q => { q with sent := s.announceFrame }
    else s)

/-! ### Forming (R320, R321) -/

/-- The first failing check of R320 against an announce slice; 0 when the pair can form. -/
def State.announceCode (s : State) (sl : List Byte) : Nat :=
  if leAt sl 8 1 ≠ s.n Pid.variant then 1
  else if leAt sl 9 1 ≠ s.n Pid.grade then 2
  else if (sl.drop 12).take 32 ≠ (s.img.digest ++ List.replicate 32 0#8).take 32 then 3
  else if leAt sl 10 2 ≠ s.n Pid.profileWord ∨ s.n Pid.profileWord % 8 ≠ 1 then 4
  else if s.pair.holds ∧ leAt sl 44 1 = 1 then 5
  else 0

/-- A pair mismatch (R320): event at once and every 10 s; the unit stays unpaired. -/
def State.pairMismatch (s : State) (code : Nat) : State :=
  if s.n Pid.mismatchReason = code ∧ s.n Pid.pairState = 4 then s
  else
    ((((s.setN Pid.mismatchReason code).setN Pid.pairState 4).modPair fun q => { q with mismatchAt := some s.now }).raise 0x1D41 0 code)

/-- The serial of the last pair partner; 0 where none was known. -/
def State.partnerSerial (s : State) : Nat := s.n Pid.partnerSerialLo + 2 ^ 32 * s.n Pid.partnerSerialHi

/-- The pair forms (R320, R322): the role, event 0x0D40; a standby takes the holder's period number and realigns. A
partner of another serial than the last one raises 0x7283 instance 0x01 (R415; a unit that knew no partner raises none,
DEDUCED, log 36). -/
def State.pairForm (s : State) (holder : Bool) (serial seq : Nat) : State :=
  let s := s.onlyIf (decide (s.partnerSerial ≠ 0) && decide (s.partnerSerial ≠ serial)) fun s => s.raise 0x7283 1 serial
  let s := s.modPair fun q =>
    { q with holds := holder, mismatchAt := none, frameSeq := seq, silenceTold := false, rxReport := [], reportAt := s.now
             unfit := [], farUnfit := 0, trackBad := 0, image := [], portWord := none, forwarded := [], release := none, early := none }
  let s := (((s.setN Pid.partnerSerialLo (serial % 2 ^ 32)).setN Pid.partnerSerialHi (serial / 2 ^ 32)).setN Pid.mismatchReason 0).setN
    Pid.pairState (if holder then 1 else 2)
  let s := if holder then s.setN Pid.leaseRenewed (s.n Pid.periodSeq)
    else (((s.gotoUnit .standby 0x0D40).setN Pid.periodSeq seq).setN Pid.leaseRenewed seq).realignAll
  s.showFit.raise 0x0D40 (if holder then 1 else 2) serial

/-- The pair's mismatch is over (R320): the announcements agree, or none come (DESIGN CHOICE, log 36). -/
def State.mismatchOver (s : State) : State :=
  s.onlyIf (decide (s.n Pid.pairState = 4)) fun s =>
    ((s.modPair fun q => { q with mismatchAt := none }).setN Pid.mismatchReason 0).setN Pid.pairState 0

/-- The partner has left the pair (R327). -/
def State.partnerLeft (s : State) (st : Nat) : State :=
  ((s.modPair fun q => { q with unfit := [], farUnfit := 0 }).setN Pid.pairState 3).setN Pid.sbFit 0 |>.raise 0x1D46 0 st

/-- An announcement is judged (R320). -/
def State.announceIn (s : State) (bs : List Byte) : State :=
  let s := s.modPair fun q => { q with annAt := some s.now }
  let sl := (bs.drop 16).take 160
  let other := leAt sl 0 8
  let code := s.announceCode sl
  if s.n Pid.pairState = 1 then
    -- the partner announces again: it has left the pair (R320, R327)
    s.partnerLeft s.pair.partnerState
  else if s.n Pid.pairState = 2 then s
  else if code ≠ 0 then
    let s := s.pairMismatch code
    if code = 5 ∧ other < s.serial then s.announceGiveUp 3 (s.n Pid.periodSeq) else s
  else
    let s := s.mismatchOver
    let holder := s.pair.holds || (decide (leAt sl 44 1 = 0) && decide (s.serial < other))
    if holder then (if s.pair.holds || s.unit.st.mayHold then s.pairForm true other (leAt bs 4 4) else s)
    else if s.unit.st = .ready then s.pairForm false other (leAt bs 4 4)
    else s

/-- No announcement has come for 1 s. -/
def State.annSilent (s : State) : Bool := !s.pair.annAt.any fun a => decide (s.now < a + psS)

/-- MISMATCH_REPEAT (R320): every 10 s while the mismatch lasts, which it does as long as announcements come. -/
def execMismatchRepeat (t : Nat) (s : State) : Out :=
  let s := s.advance t
  .next (match s.pair.mismatchAt with
    | some a =>
      if s.n Pid.pairState = 4 && decide (a + 10 * psS ≤ s.now) then
        if s.annSilent then s.mismatchOver
        else (s.modPair fun q => { q with mismatchAt := some s.now }).raise 0x1D41 0 (s.n Pid.mismatchReason)
      else s
    | none => s)

/-- The conditions of `pair_solo` (R321). -/
def State.soloOk (s : State) (v : Word) : Bool :=
  decide (v.toNat = 1) && decide (s.n Pid.pairEnable = 1) && s.unit.st = .ready && !s.pair.holds &&
  (match s.pair.heardAt with
    | some a => decide (a + psS ≤ s.now)
    | none => true)

/-- A lone unit becomes holder. -/
def State.doSolo (s : State) : State :=
  ((s.modPair fun q => { q with holds := true, mismatchAt := none }).setN Pid.pairState 3).setN Pid.leaseRenewed (s.n Pid.periodSeq)

/-- PAIR_SOLO (R321). -/
def execPairSolo (t : Nat) (role : Role) (v : Word) (s : State) : Out :=
  let s := s.advance t
  .next (s.cmdRow role .commissioner Pid.pairSolo v (s.soloOk v) s.doSolo)

/-! ### The standby receives a holder frame (R324, R325, R330, R332, R334) -/

/-- A renewal for a period (R330): the newest one counts. -/
def State.renewed (s : State) (seq : Nat) : State :=
  if seqAhead seq (s.n Pid.leaseRenewed) 1 then s.setN Pid.leaseRenewed seq else s

/-- The partner's `ladder_cmd` is among what the holder forwarded: the rung is a commanded one (R194, R324). -/
def State.rungTold (s : State) (v : Nat) : Bool := s.pair.forwarded.any fun e => decide (e.1 = Pid.ladderCmd ∧ e.2.1.toNat = v)

/-- The ladder actions that lead the standby, with those it has pending, to a ladder word of the holder, whose ladder governs both units
(R197, R334); a word that climbing does not reach is reached from a restored ladder. Where no block is left to drop, the law set changes
before the next rung 2. -/
def State.rungsOf (s : State) (w : Nat) : List Rung :=
  let own := s.ladderNext
  let down := decide (w % 64 < own % 64 ∨ w / 128 % 2 < own / 128 % 2 ∨ (w / 64 % 4 = 0 ∧ own / 64 % 4 = 1))
  let own := if down then 0 else own
  let twos := List.replicate (w % 64 - own % 64) Rung.two
  let sets := (if bitAt w 6 && !bitAt own 6 then [Rung.three (s.rungTold 3)] else [])
    ++ (if bitAt w 7 && !bitAt own 7 then [Rung.four (s.rungTold 4)] else [])
  (if down then [.restore] else []) ++ (if s.dropGroup.isNone && !down then sets ++ twos else twos ++ sets)

/-- The outer boundaries that a holder's decision of period `seq` still waits for at the second one (R334); at least the next. -/
def State.boundsLeft (s : State) (seq : Nat) : Nat :=
  let k := seqDiff (s.n Pid.periodSeq) seq
  let passed := if k ≤ s.eng.outerIdx ∨ 2 ^ 31 ≤ k then 0 else 1 + (k - s.eng.outerIdx - 1) / max 1 s.ratio
  max 1 (2 - passed)

/-- The earliest period in which the holder can have decided a change first seen in frame `seq` (R334): its own, or where frames before it
were lost, the one after the last frame heard. -/
def State.decidedAt (s : State) (seq : Nat) : Nat :=
  if seqAhead seq s.pair.prevSeq 1 && decide (s.pair.prevSeq ≠ 0) then seqDiff (s.pair.prevSeq + 1) 0 else seq

/-- The SCC request of the holder reaches the standby (R325): energised again whenever the conditions hold. -/
def State.sccFollow (s : State) (on : Bool) : State :=
  let s := s.onlyIf (s.saf.sccReq != on) fun s => (s.modSaf fun f => { f with sccReq := on, sccFail := false }).sccAnew
  s.modSaf fun f => { f with sccEdge := on && !f.sccOn && !f.sccFail && decide (s.closeCode true = 0) }

/-- An item of the partner's frame (R324, R327): its unfit reason, or what takes effect at an outer boundary still to come. -/
def State.itemIn (s : State) (e : Nat × Word × Nat) : State :=
  if e.1 = Pid.sbFit then s.setFarUnfit (e.2.1.toNat / 256 % 256)
  else s.onlyIf (!seqAhead (s.n Pid.periodSeq) e.2.2 1 && !s.pair.forwarded.contains e) fun s =>
    s.modPair fun q => { q with forwarded := q.forwarded ++ [e] }

/-- A holder frame at the standby. -/
def State.holderIn (s : State) (bs : List Byte) (image : List OuterImage) (forwarded : List (Nat × Word × Nat)) : State :=
  let flags := leAt bs 1 1
  let seq := leAt bs 4 4
  let s := s.onlyIf (bitAt flags 0) fun s => (s.renewed seq).sccFollow (bitAt flags 3)
  let s := s.onlyIf (bitAt flags 1 && s.pair.release.isNone) fun s => s.modPair fun q => { q with release := some (leAt bs 8 4, s.now) }
  let sliceOk := decide (leAt bs 2 2 < s.ratio)
  let s := s.modPair fun q =>
    { q with
      image := if sliceOk && !image.isEmpty then image else q.image
      portWord := some (leAt bs 14 2) }
  let s := s.onlyIf sliceOk fun s => forwarded.foldl State.itemIn s
  let n := if bitAt flags 2 then s.boundsLeft (s.decidedAt seq) else 1
  (s.rungsOf (leAt bs 12 2)).foldl (State.pendRungIn · n) s

/-- A standby frame at the holder (R319, R327): slices of the health report in order. -/
def State.standbyIn (s : State) (bs : List Byte) : State :=
  if s.ratio ≤ leAt bs 2 2 then s
  else
    let sl := (bs.drop 16).take 160
    let start := decide (leAt sl 0 2 = 1) && decide (500 ≤ leAt sl 2 2 ∧ leAt sl 2 2 ≤ 1012)
    let got := if s.pair.rxReport.isEmpty then (if start then sl else []) else s.pair.rxReport ++ sl
    let len := leAt got 2 2
    if got.isEmpty then s
    else if got.length < len then s.modPair fun q => { q with rxReport := got }
    else
      let rep := got.take len
      let st := leAt rep 24 1
      let s := (s.modPair fun q => { q with rxReport := [], report := rep, reportAt := s.now, partnerState := st }).setUnfit 4 false
      if st = UnitState.standby.code then s
      else s.partnerLeft st

/-- A frame or a mark has arrived (R321), in whatever state the unit is. -/
def State.pairHeard (s : State) : State := s.modPair fun q => { q with heardAt := some s.now }

/-- PAIR_FRAME_RECEIVE (R319): `image` is what the slice of a holder frame carries, `forwarded` the items of a frame (log 8, log 36). -/
def execPairFrameReceive (t : Nat) (bytes : List Byte) (image : List OuterImage) (forwarded : List (Nat × Word × Nat)) (s : State) : Out :=
  let s := s.advance t
  .next (if !s.pairOn then s.onlyIf (frameValid bytes) State.pairHeard
    else if !frameValid bytes then s.bump Pid.frameErrCount
    else
      let s := s.pairHeard.modPair fun q => { q with prevSeq := q.frameSeq, frameSeq := leAt bytes 4 4, silenceTold := false }
      match leAt bytes 0 1, s.n Pid.pairState with
      | 1, 2 => s.holderIn bytes image forwarded
      | 2, 1 => forwarded.foldl State.itemIn (s.standbyIn bytes)
      | 3, _ => s.announceIn bytes
      | _, _ => s)

/-- The trim that a mark asks of the period under way (R322): whole ticks against the error, at most 8; a late tick shortens. -/
def markTrim (errPs : Int) : Int := max (-8) (min 8 (-rneDiv errPs tickPs))

/-- The mark of the period that has begun (R322, R328): a renewal for it, the error shown, the timer moved. -/
def State.markOf (s : State) (errPs : Int) : State :=
  let s := (s.renewed (s.n Pid.periodSeq)).setZ Pid.alignErr errPs
  { s with eng := { s.eng with trim := markTrim errPs } }

/-- LEASE_MARK_RECEIVE (R322, R328): `errPs` is by how much the standby's own sample instant is late against the mark. A mark nearer to
the coming tick than to the last one is that of the period about to begin (DEDUCED, log 36). -/
def execLeaseMarkReceive (t : Nat) (errPs : Int) (s : State) : Out :=
  let s := s.advance t
  .next (if s.pair.holds then s
    else
      let s := s.pairHeard
      if s.unit.st ≠ .standby || !s.pairOn then s
      else if s.eng.running && decide (s.periodEnd < s.now + s.innerTicks * tickPs / 2) then
        s.modPair fun q => { q with early := some errPs }
      else s.markOf errPs)

/-! ### The lease (R328-R332) -/

/-- RENEWAL_UNCONFIRMED_LIMIT (R329, R331): the update point that ends period s_c + 15. -/
def execRenewalUnconfirmedLimit (t : Nat) (s : State) : Out :=
  let s := s.advance t
  .next (if s.pair.holds && seqAhead (s.n Pid.periodSeq) (s.n Pid.leaseRenewed) 16 then
      let s := s.dropBiscuit 6 (s.n Pid.leaseRenewed + 15)
      s.holdNow 0x1D42
    else s)

/-- A leg of a port that goes on driving (R332): the gate state its comparison gives, with the fallback dead time. -/
def State.takeLeg (s : State) (p l : Nat) : State :=
  if s.bit (Pid.legProt l) 0 || !s.hasSet p l then s
  else
    let s := (s.dtReset p l).setBit (Pid.legOut l) 4 true
    let ty := s.ctypeOf p l (s.legY l)
    let dt := s.n (Pid.dtNow l ty)
    (s.modLeg l fun x => { x with started := true, lastEdge := some s.now, ctype := ty, dtUsed := dt, onAt := some (s.now + dt) }).setBit
      (Pid.legOut l) 3 true

/-- The standby takes the biscuit (R332). -/
def State.takeBiscuit (s : State) (gapPeriods : Nat) : State :=
  let gap := min (gapPeriods * s.tInnerNs) 0xFFFFFFFF
  let s := s.modPair fun q => { q with holds := true, giveUp := none, release := none, image := [], portWord := none, forwarded := [], unfit := [], farUnfit := 0 }
  let s := (((s.setN Pid.pairState 3).setN Pid.leaseRenewed (s.n Pid.periodSeq)).setN Pid.lastGap gap).setN Pid.sbFit 0
  let s := s.gotoUnit .run 0x0D43
  let s := (s.raise 0x0D43 0 (s.n Pid.periodSeq * 2 ^ 32 + gap)).bump Pid.takeoverCount
  let s := s.each s.usedPorts fun s p =>
    match (s.port p).st with
    | .armed | .energising | .syncing => s.setPort p .idle
    | .run | .limited => s.each (s.port p).legs fun s l => s.takeLeg p l
    | _ => s
  (s.recompute 0).leaveStopping

/-- LEASE_EXPIRY_TAKEOVER (R330): the update point that ends period s_rx + 17. -/
def execLeaseExpiryTakeover (t : Nat) (s : State) : Out :=
  let s := s.advance t
  .next (if s.unit.st = .standby && seqAhead (s.n Pid.periodSeq) (s.n Pid.leaseRenewed) 18 then
      s.takeBiscuit (seqDiff (s.n Pid.periodSeq) (s.n Pid.leaseRenewed))
    else s)

/-- BISCUIT_TAKE (R332): the first update point that ends a period no earlier than f + 1 and whose commit window began
after the frame header arrived. -/
def execBiscuitTake (t : Nat) (s : State) : Out :=
  let s := s.advance t
  .next (match s.pair.release with
    | some (f, arrived) =>
      if s.unit.st = .standby && seqAhead (s.n Pid.periodSeq) f 2 && decide (arrived + 100000 < s.eng.tickAt) then
        s.takeBiscuit (seqDiff (s.n Pid.periodSeq) f - 1)
      else s
    | none => s)

/-- The conditions of `pair_handover` (R336). -/
def State.handoverOk (s : State) (v : Word) : Bool :=
  decide (v.toNat = 1) && s.pair.holds && decide (s.n Pid.pairState = 1) && s.bit Pid.sbFit 0 && s.pair.giveUp.isNone

/-- PAIR_HANDOVER (R331): announced for the next outer boundary, where the unit restarts. -/
def execPairHandover (t : Nat) (role : Role) (v : Word) (s : State) : Out :=
  let s := s.advance t
  .next (s.cmdRow role .commissioner Pid.pairHandover v (s.handoverOk v) (s.announceGiveUp 5 s.outerEndSeq))

/-! ### Standby self-test and silence (R326, R327, R337) -/

/-- STANDBY_ISLAND_TEST (R326): one used island every 100 ms, in turn. -/
def execStandbyIslandTest (t : Nat) (bits : Nat) (s : State) : Out :=
  let s := s.advance t
  let us := s.usedIsls
  .next (if s.unit.st = .standby && !us.isEmpty then s.recur .islandTest (100 * psMs) fun s =>
      let i := us.getD (s.pair.testIdx % us.length) 0
      let s := s.modPair fun q => { q with testIdx := q.testIdx + 1 }
      let s := (s.istJudge i bits).showSw i
      s.onlyIf (decide (s.n (Pid.istResult i) % 32 ≠ 0)) fun s => s.setUnfit 1 true
    else s)

/-- STANDBY_HEALTH_TIMEOUT (R327): no complete report for 3 s. -/
def execStandbyHealthTimeout (t : Nat) (s : State) : Out :=
  let s := s.advance t
  .next (if s.n Pid.pairState = 1 && decide (s.pair.reportAt + 3 * psS ≤ s.now) then s.setUnfit 4 true else s)

/-- PAIR_FRAME_SILENCE (R337): no valid frame for 16 periods while paired. -/
def execPairFrameSilence (t : Nat) (s : State) : Out :=
  let s := s.advance t
  .next (if (s.n Pid.pairState = 1 || s.n Pid.pairState = 2) && !s.pair.silenceTold && seqAhead (s.n Pid.periodSeq) s.pair.frameSeq 16 then
      (s.modPair fun q => { q with silenceTold := true }).raise 0x1D44 0 s.pair.frameSeq
    else s)

/-! ### What every inner period does for the pair (R322-R330) -/

/-- `PAIR_LEASE` is pulled low (R322): for 16 ticks from the sample instant of a period that the holder renews. -/
def State.pairLeaseLow (s : State) : Bool :=
  s.pair.markAt.any fun a => decide (a ≤ s.now ∧ s.now < a + 16 * tickPs)

/-- The holder marks the period that begins and renews, confirmed by the mark read back or by the frame of the period before, which
its transmitter reported sent (R328, R329); the standby watches its islands; `lease_left` on both. -/
def State.pairPeriod (s : State) (markBack frameSent : Bool) : State :=
  let s := s.modPair fun q => { q with markAt := if s.renews then some s.eng.tickAt else none }
  if s.pair.holds then
    let s := if markBack then s.setN Pid.leaseRenewed (s.n Pid.periodSeq)
      else (s.bump Pid.markMissCount).onlyIf frameSent fun s => s.renewed (seqDiff (s.n Pid.periodSeq) 1)
    s.setN Pid.leaseLeft (15 - seqDiff (s.n Pid.periodSeq) (s.n Pid.leaseRenewed))
  else if s.unit.st = .standby then
    let bad := s.usedIsls.any fun i => (s.island i).lost || (s.island i).marked || decide (s.n (Pid.istResult i) % 32 ≠ 0)
    let s := s.setUnfit 1 bad
    let s := match s.pair.early with
      | some e => (s.modPair fun q => { q with early := none }).markOf e
      | none => s
    s.setN Pid.leaseLeft (17 - seqDiff (s.n Pid.periodSeq) (s.n Pid.leaseRenewed))
  else s.setN Pid.leaseLeft 0xFFFFFFFF

/-- Tracking (R326): own p_f, q_f and V_meas against the holder's, before adoption. -/
def State.trackStep (s : State) : State :=
  let tol := s.n Pid.sbTrackTol
  let off := s.pair.image.any fun o =>
    decide (tol < (s.z (Pid.pMeas o.port) - q27OfAcc o.pF).natAbs) || decide (tol < (s.z (Pid.qMeas o.port) - q27OfAcc o.qF).natAbs)
      || decide (tol < (s.z (Pid.vMeas o.port) - o.vMeas).natAbs)
  let s := s.modPair fun q => { q with trackBad := if off then q.trackBad + 1 else 0 }
  s.setUnfit 2 (decide (1000 ≤ s.pair.trackBad))

/-- One port takes the holder's outer state (R324). -/
def State.adoptImage (s : State) (o : OuterImage) : State :=
  let g := fun k => let v := o.glz.getD k (0, 0); ({ x := v.1, r := v.2 } : Glz)
  let s := s.modPort o.port fun q =>
    { q with
      theta48 := o.theta.toNat * 65536
      xAdd := accOf27 o.xAdd
      outIn := { q.outIn with omega := q27OfAcc o.omega, e := q27OfAcc o.e }
      gOut := { q.gOut with cells := o.cells }
      budget := o.budgetPs * s.n (Pid.hardCooldown o.port)
      rtOpen := o.rtOpen
      rtPs := o.rtPs
      law := { q.law with omega := o.omega, e := o.e, pF := o.pF, qF := o.qF, glzP := g 0, glzQ := g 1, glzV := g 2, glzF := g 3 } }
  let s := (((s.setZ (Pid.omega o.port) (q27OfAcc o.omega)).setW (Pid.theta o.port) o.theta).setZ (Pid.eMag o.port) (q27OfAcc o.e)).setZ
    (Pid.xAdd o.port) o.xAdd
  let s := ((s.setZ (Pid.pMeas o.port) (q27OfAcc o.pF)).setZ (Pid.qMeas o.port) (q27OfAcc o.qF)).setZ (Pid.vMeas o.port) o.vMeas
  (((s.setZ (Pid.glzP o.port) (q27OfAcc (g 0).x)).setZ (Pid.glzQ o.port) (q27OfAcc (g 1).x)).setZ (Pid.glzV o.port)
    (q27OfAcc (g 2).x)).setZ (Pid.glzF o.port) (q27OfAcc (g 3).x)

/-- The port state of a code (R110). -/
def portStateOf (c : Nat) : Option PortState :=
  match c with
  | 0 => some .idle | 1 => some .armed | 2 => some .energising | 3 => some .syncing
  | 4 => some .run | 5 => some .limited | 0xF => some .portStop
  | _ => none

/-- The standby takes the holder's port states (R324): a running port's modulator is in service. -/
def State.adoptPort (s : State) (p code : Nat) : State :=
  match portStateOf code with
  | none => s
  | some st =>
    let s := (s.setPort p st).modPort p fun q => { q with accepted := !st.atRest }
    s.onlyIf st.running fun s => s.setN (Pid.modState p) 3

/-- The outer boundary of a standby (R324, R326). -/
def State.pairBoundary (s : State) : State :=
  if s.unit.st ≠ .standby then s
  else
    let s := s.trackStep
    let s := match s.pair.portWord with
      | some w => s.each s.usedPorts fun s p => s.adoptPort p (w / 16 ^ p % 16)
      | none => s
    let s := s.pair.image.foldl State.adoptImage s
    s.modPair fun q => { q with image := [], portWord := none }

end Sys2Proof.Machine
end

