-- ==== Sys2Proof/Machine/Lattice.lean ====
section
/-! DEFINITION. Lattice (R338-R360): the cycle with its snapshot and output write, standard blocks, forcing, remote I/O
stations, the program form and the exchange. What the compiled program computes is an operand (log 12). -/

namespace Sys2Proof.Machine

/-! ### Programs (R343, R356, R357) -/

/-- Bytes of a variable of kinds 0x10-0x1B, in the order of R344. -/
def latVarSize (kind : Nat) : Nat := [1, 1, 2, 4, 1, 2, 4, 1, 2, 4, 4, 4].getD (kind - 0x10) 0

/-- An identity entry is well formed (R357): a block kind, or a variable whose bytes lie in the data. -/
def identOk (dataLen : Nat) (e : List Byte) : Bool :=
  let kind := leAt e 4 1
  decide (leAt e 5 1 = 0) &&
    (decide (1 ≤ kind ∧ kind ≤ 8) || (decide (0x10 ≤ kind ∧ kind ≤ 0x1B) && decide (leAt e 6 2 + latVarSize kind ≤ dataLen)))

/-- The header of R356, and its parts within the program. -/
def latHeaderOk (bs : List Byte) : Bool :=
  let f := leAt bs
  decide (f 0 4 = 0x5454414C ∧ f 4 2 = 1 ∧ f 6 2 = 0x30 ∧ 1 ≤ f 8 4 ∧ f 8 4 ≤ 65536 ∧ f 0xC 4 ≤ 16384 ∧ f 0x10 2 ≤ 4096) &&
  decide (f 0x14 4 % 8 = 0 ∧ f 0x18 4 % 16 = 0 ∧ f 0x1C 4 % 16 = 0 ∧ f 0x20 4 < f 8 4) &&
  (decide (f 0x24 4 = 0xFFFFFFFF) || decide (f 0x24 4 < f 8 4)) &&
  decide (f 0x2C 4 = (crc32c (bs.take 0x2C)).toNat) &&
  decide (f 0x14 4 + 8 * f 0x10 2 ≤ bs.length ∧ f 0x18 4 + f 8 4 ≤ bs.length ∧ f 0x1C 4 + f 0xC 4 ≤ bs.length)

/-- The identity entries of a program (R357). -/
def latIdents (bs : List Byte) : List (List Byte) :=
  (List.range (leAt bs 0x10 2)).map fun k => (bs.drop (leAt bs 0x14 4 + 8 * k)).take 8

/-- The instance limits of R343 and the identity table of R357. -/
def latLimitsOk (bs : List Byte) : Bool :=
  let es := latIdents bs
  let kinds := es.map fun e => leAt e 4 1
  let count := fun lo hi => (kinds.filter fun k => decide (lo ≤ k ∧ k ≤ hi)).length
  latHeaderOk bs && es.all (identOk (leAt bs 0xC 4)) && decide (es.map fun e => leAt e 0 4).Nodup &&
    decide (count 1 3 ≤ 256 ∧ count 4 6 ≤ 128 ∧ count 7 8 ≤ 512)

/-- The program that bytes spell, with what its checks found. -/
def latProgOf (bs : List Byte) (online verified ioOk : Bool) : LatProg :=
  let ok := latLimitsOk bs
  { id := leAt bs 0x28 4
    online := online
    idents := if ok then (latIdents bs).map fun e => (leAt e 0 4, leAt e 4 1, leAt e 6 2) else []
    data := if ok then (bs.drop (leAt bs 0x1C 4)).take (leAt bs 0xC 4) else []
    verified := verified
    limitsOk := ok
    ioOk := ioOk }

/-- A variable's initial value. -/
def LatProg.initial (g : LatProg) (kind off : Nat) : Word := BitVec.ofNat 32 (leAt g.data off (latVarSize kind))

/-- Every variable at its initial value and every block fresh from RESET (R340, R349). -/
def State.latInit (s : State) (g : LatProg) : State :=
  (s.modLat fun x =>
    { x with
      prog := g
      blks := (g.idents.filter fun e => decide (e.2.1 ≤ 8)).map fun e => ⟨e.1, e.2.1, 0, false, false, false, 0, false⟩
      vars := (g.idents.filter fun e => decide (0x10 ≤ e.2.1)).map fun e => (e.1, g.initial e.2.1 e.2.2) }).setN Pid.latProgId g.id

/-! ### Forces (R350) -/

/-- The forced value of an element. -/
def State.forced (s : State) (area idx : Nat) : Option Word :=
  (s.lat.forces.find? fun f => f.1 = area && f.2.1 = idx).map fun f => f.2.2

/-- A group of digital elements with its forces. -/
def State.forceBits (s : State) (area base n v : Nat) : Nat :=
  (List.range n).foldl (fun a k =>
    a + 2 ^ k * (match s.forced area (base + k) with
      | some w => w.toNat % 2
      | none => v / 2 ^ k % 2)) 0

/-- An element of R346: areas 0 and 1 without the reserved addresses, area 2 with 64 words. -/
def forceIdxOk (area idx : Nat) : Bool :=
  match area with
  | 0 => decide (idx < 96 ∨ 128 ≤ idx ∧ idx < 256)
  | 1 => decide (idx < 12 ∨ 16 ≤ idx ∧ idx < 80 ∨ 128 ≤ idx ∧ idx < 256)
  | 2 => decide (idx < 64)
  | _ => false

/-- A word of `lat_force` for an operation: its fields, the rest 0. -/
def forceWordOk (v : Word) (op : Nat) : Bool :=
  let n := v.toNat
  decide (n / 2 ^ 16 = op ∧ n / 2 ^ 10 % 64 = 0) && forceIdxOk (n / 256 % 4) (n % 256)

/-- A write of `lat_force` is accepted (R350): at most 64 forces are active. -/
def State.latForceOk (s : State) (v : Word) : Bool :=
  forceWordOk v 0 || (forceWordOk v 1 &&
    ((s.forced (v.toNat / 256 % 4) (v.toNat % 256)).isSome || decide (s.lat.forces.length < 64)))

/-- One force goes, with its event. -/
def State.unforce (s : State) (area idx : Nat) : State :=
  if (s.forced area idx).isSome then
    let s := s.modLat fun x => { x with forces := x.forces.filter fun f => !(f.1 = area && f.2.1 = idx) }
    (s.setN Pid.latForces s.lat.forces.length).raise 0x0063 0 (area * 256 + idx)
  else s

/-- One element is forced to `lat_force_val`. -/
def State.force (s : State) (area idx : Nat) : State :=
  let w := s.w Pid.latForceVal
  let s := s.modLat fun x => { x with forces := (x.forces.filter fun f => !(f.1 = area && f.2.1 = idx)) ++ [(area, idx, w)] }
  (s.setN Pid.latForces s.lat.forces.length).raise 0x0062 0 (w.toNat * 2 ^ 32 + area * 256 + idx)

/-- An accepted write of `lat_force`. -/
def State.doLatForce (s : State) (v : Word) : State :=
  let n := v.toNat
  if n / 2 ^ 16 = 1 then s.force (n / 256 % 4) (n % 256) else s.unforce (n / 256 % 4) (n % 256)

/-- LATTICE_FORCE (R350): Service, operation 0x1. -/
def execLatticeForce (t : Nat) (role : Role) (v : Word) (s : State) : Out :=
  let s := s.advance t
  .next (s.cmdRow role .service Pid.latForce v (forceWordOk v 1 && s.latForceOk v) (s.doLatForce v))

/-- LATTICE_UNFORCE (R350): Service, operation 0x0. -/
def execLatticeUnforce (t : Nat) (role : Role) (v : Word) (s : State) : Out :=
  let s := s.advance t
  .next (s.cmdRow role .service Pid.latForce v (forceWordOk v 0) (s.doLatForce v))

/-- LAT_FLAGS_CLEAR (R345, R361): a Service write of 0; any other value is refused. -/
def execLatFlagsClear (t : Nat) (role : Role) (v : Word) (s : State) : Out :=
  let s := s.advance t
  .next (s.audited role 1 Pid.latFlags (s.w Pid.latFlags) v (if !role.meets .service then 3 else if v = 0 then 0 else 1)
    (if role.meets .service && decide (v = 0) then s.setN Pid.latFlags 0 else s))

/-! ### The input read (R339, R346, R347, R353) -/

/-- The status word of a port (R347). -/
def State.latPortWord (s : State) (p : Nat) : Nat :=
  if !(s.port p).used then 0 else
  s.n (Pid.latticeOut p) % 32 + 32 * b01 ((s.port p).st = .idle) + 64 * b01 ((s.port p).st = .portStop) + 128 * b01 (s.port p).latCmdFail
    + 256 * b01 (s.sccUsed && p = s.sccPort && s.saf.sccClosed)

/-- `%IX80`–`%IX95` (R346). -/
def State.latUnitBits (s : State) : Nat :=
  let u := s.unit.st
  b01 (u = .ready || u.factory) + 2 * b01 (u = .run || u = .limited || u = .rideThrough) + 4 * b01 (u = .stopping)
    + 8 * b01 (u = .faultHold) + 16 * b01 (u = .safeStop) + 32 * b01 s.netValid + 64 * b01 (s.ref.lockedTo = some .fallback)
    + 128 * b01 (u = .standby)
    + ((List.range 8).foldl (fun a k => a + 2 ^ k * b01 (decide (s.n (Pid.rioState k) = 2))) 0) * 256

/-- The input words of a station, in ascending order (R351). -/
def State.rioIn (s : State) (k : Nat) : List Nat := (List.range 4).filter fun w => s.bit (Pid.rioAwCfg k) w && !s.bit (Pid.rioAwCfg k) (4 + w)
/-- The output words of a station. -/
def State.rioOut (s : State) (k : Nat) : List Nat := (List.range 4).filter fun w => s.bit (Pid.rioAwCfg k) w && s.bit (Pid.rioAwCfg k) (4 + w)
/-- Sign extension of 16 bits. -/
def s16 (n : Nat) : Int := (BitVec.ofNat 16 n).toInt

/-- A station at the input read (R352, R353): newly lost, its substitutes; returned, present, its substitutes until its
TPDOs have come. -/
def State.stationRead (s : State) (k : Nat) : State :=
  let x := s.station k
  if x.lostNew then
    let hold := decide (s.n (Pid.rioSubstMode k) = 1)
    s.modStation k fun x =>
      { x with
        lostNew := false
        subst := true
        gotDi := x.gotDi && x.back
        gotAw := x.gotAw && x.back
        shownDi := if hold then x.di else s.n (Pid.rioSubstDi k) % 65536
        shown := if hold then x.aw else (List.range 4).map fun w => s16 (s.n (Pid.rioSubstAw k w)) }
  else
    let s := s.onlyIf x.back fun s => (s.setN (Pid.rioState k) 2).modStation k fun x => { x with back := false }
    if s.n (Pid.rioState k) = 2 then
      s.modStation k fun x =>
        { x with
          shownDi := if x.subst && !x.gotDi then x.shownDi else x.di
          shown := if x.subst && !x.gotAw then x.shown else x.aw
          subst := x.subst && !(x.gotDi && x.gotAw) }
    else s

/-- An analogue word with its status byte (R346): the value and bits 0 to 5 and 7 of a slow channel, or the remote word with
bits 0, 6 and 7. -/
def State.latWord (s : State) (n : Nat) : Int × Nat :=
  let f := s.forced 2 n
  let (v, st) :=
    if n < 32 then
      (s.z (Pid.saValue n), b01 (s.slowUsable n) + 2 * b01 (s.bit (Pid.saStatus n) 0) + 4 * b01 (s.bit (Pid.saStatus n) 1)
        + 8 * b01 (s.bit (Pid.saStatus n) 2) + 16 * b01 (s.bit (Pid.saStatus n) 3)
        + 32 * b01 (s.bit (Pid.saStatus n) 4 || s.bit (Pid.saStatus n) 5))
    else
      let k := (n - 32) / 4
      let w := (n - 32) % 4
      if (s.rioIn k).contains w then
        let x := s.station k
        let sub := x.subst && (!x.gotAw || decide (s.n (Pid.rioState k) ≠ 2))
        (x.shown.getD w 0, b01 (decide (s.n (Pid.rioState k) = 2) && x.gotAw) + 64 * b01 sub)
      else (0, 0)
  match f with
  | some w => (w.toInt, st + 128)
  | none => (v, st)

/-- The stations lost since the previous input read (R353). -/
def State.lostMask (s : State) : Nat := (List.range 8).foldl (fun a k => a + 2 ^ k * b01 (s.station k).lostNew) 0

/-- The stations begin to wait at the first cycle (R352); on the fallback clock they are lost (R340). -/
def State.stationsBegin (s : State) : State :=
  s.each ((List.range 8).filter fun k => s.n (Pid.rioNode k) ≠ 0) fun s k =>
    let s := (s.setN (Pid.rioState k) 1).modStation k fun x => { x with lastHb := some s.now }
    s.onlyIf (decide (s.canCode (s.n (Pid.rioCan k) - 1) = 5)) fun s => s.stationLost k 3

/-- The input read (R339): forces over inputs; the refusal bits of the ports start anew (R347). -/
def State.inputRead (s : State) (di : Nat) : State :=
  let mask := s.lostMask
  let s := s.each ((List.range 8).filter fun k => s.n (Pid.rioNode k) ≠ 0) State.stationRead
  let s := s.modLat fun x =>
    { x with
      di := s.forceBits 0 0 16 di
      words := (List.range 4).map fun p => s.forceBits 0 (16 + 16 * p) 16 (s.latPortWord p)
      unitBits := s.forceBits 0 80 16 s.latUnitBits
      rdi := (List.range 8).map fun k => s.forceBits 0 (128 + 16 * k) 16 (s.station k).shownDi
      ai := (List.range 64).map s.latWord
      lostMask := mask }
  let s := s.each (List.range 4) fun s p => s.modPort p fun q => { q with latCmdFail := false }
  s.highWater 0x18 1

/-- Whole µs of a time in ps. -/
def usOf (ps : Nat) : Nat := ps / psUs

/-- Running timers advance at a cycle start, by the interval since the one before, measured in PWM ticks (R349). -/
def LatBlk.advance (b : LatBlk) (us : Nat) : LatBlk :=
  let runs := match b.kind with
    | 1 => b.in1
    | 2 => !b.in1 && b.q
    | 3 => b.q
    | _ => false
  if runs then { b with et := b.et + us } else b

/-- A Lattice cycle starts now (R338-R341). -/
def State.latStart (s : State) (di : Nat) : State :=
  let first := s.lat.prevStart.isNone
  let s := s.onlyIf first State.stationsBegin
  let us := match s.lat.prevStart with
    | some a => usOf (s.eng.ticks * tickPs) - usOf (a * tickPs)
    | none => 0
  let s := s.modLat fun x =>
    { x with busy := true, tick := some s.eng.count, startAt := s.now, prevStart := some s.eng.ticks, overTold := false, blks := x.blks.map fun b => b.advance us }
  s.inputRead di

/-- LATTICE_CYCLE_START (R338): at a period tick whose number is a multiple of M, once for each. Without ticks the start is skipped and
counted (R340); while a cycle executes it is an overrun (R341), and the input image of that start is never read (R38; DESIGN CHOICE,
log 46). -/
def execLatticeCycleStart (t : Nat) (di : Nat) (s : State) : Out :=
  let s := s.advance t
  .next (if !s.lat.may || s.n Pid.latState ≠ 1 then s
    else if s.ref.lockedTo.isNone then s.recur .latSkip (s.n Pid.latCycle * psUs) fun s => s.bump Pid.latSkipCount
    else
      let s := s.setN Pid.latCycleM s.latM
      if s.n Pid.periodSeq % s.latM ≠ 0 ∨ s.lat.tick = some s.eng.count then s
      else if s.lat.busy then
        let s := ((s.modLat fun x => { x with tick := some s.eng.count }).bump Pid.latOverrunCount).qLost 0x18
        if s.lat.overTold then s
        else (s.raise 0x1060 0 (min (usOf (s.now - s.lat.startAt)) 0xFFFFFFFF)).modLat fun x => { x with overTold := true }
      else s.latStart di)

/-! ### Standard blocks (R349, IEC 61131-3) -/

/-- CV saturates (R349). -/
def satCv (z : Int) : Int := clampI (-32768) 32767 z

/-- A timer's ET as the program sees it, in whole ms (R349). -/
def LatBlk.etMs (b : LatBlk) : Nat := b.et / 1000

/-- QD of a CTUD (R349): Q of the others, and QU of a CTUD, is `q`. -/
def LatBlk.qd (b : LatBlk) : Bool := decide (b.cv ≤ 0)

/-- One call of a standard block: its new state. PT is in ms; ET is held in µs and never exceeds PT. -/
def LatBlk.call (b : LatBlk) (c : LatCall) : LatBlk :=
  let pt := (clampI 0 2147483647 c.p).toNat * 1000
  let rise := c.a && !b.in1
  match b.kind with
  | 1 =>
    let et := if c.a then (if b.in1 then min b.et pt else 0) else 0
    { b with et := et, q := c.a && decide (pt ≤ et), in1 := c.a }
  | 2 =>
    if c.a then { b with et := 0, q := true, in1 := true }
    else
      let et := if b.in1 then 0 else min b.et pt
      { b with et := et, q := b.q && decide (et < pt), in1 := false }
  | 3 =>
    let q := b.q && decide (b.et < pt)
    let start := !q && rise
    { b with
      et := if start then 0 else if q then b.et else if b.q && c.a then pt else if c.a then min b.et pt else 0
      q := q || (start && decide (0 < pt))
      in1 := c.a }
  | 4 =>
    let cv := if c.r then 0 else if rise then satCv (b.cv + 1) else b.cv
    { b with cv := cv, q := decide (satCv c.p ≤ cv), in1 := c.a }
  | 5 =>
    let cv := if c.ld then satCv c.p else if c.b && !b.in2 then satCv (b.cv - 1) else b.cv
    { b with cv := cv, q := decide (cv ≤ 0), in2 := c.b }
  | 6 =>
    let fall := c.b && !b.in2
    let cv := if c.r then 0 else if c.ld then satCv c.p
      else if rise && !fall then satCv (b.cv + 1) else if fall && !rise then satCv (b.cv - 1) else b.cv
    { b with cv := cv, q := decide (satCv c.p ≤ cv), in1 := c.a, in2 := c.b }
  | 7 => { b with q := c.a && !b.in1 && !b.fresh, in1 := c.a, fresh := false }
  | _ => { b with q := !c.a && b.in1 && !b.fresh, in1 := c.a, fresh := false }

/-- The calls of a cycle, in order. -/
def State.latCalls (s : State) (cs : List LatCall) : State :=
  s.modLat fun x => { x with blks := cs.foldl (fun bs c => bs.map fun b => if b.hash = c.hash then b.call c else b) x.blks }

/-- The range of an integer or TIME type of R344, by its kind (R357). -/
def latRange (kind : Nat) : Int × Int :=
  match kind with
  | 0x10 => (0, 1)
  | 0x11 => (-128, 127)
  | 0x12 => (-32768, 32767)
  | 0x14 => (0, 255)
  | 0x15 => (0, 65535)
  | 0x16 => (0, 4294967295)
  | 0x17 => (0, 255)
  | 0x18 => (0, 65535)
  | 0x19 => (0, 4294967295)
  | _ => (-2147483648, 2147483647)

/-- The result that R345 gives an arithmetic case: saturated at its type's range, 0, the nearest bound, or 0.0. -/
def arithResult (c : LatArith) : Int :=
  match c.flag % 4 with
  | 0 => clampI (latRange c.kind).1 (latRange c.kind).2 c.exact
  | 2 => clampI c.lo c.hi c.exact
  | _ => 0

/-- One arithmetic case (R345), of the four that have a bit: bit, count, event at the first, and its result. -/
def State.latArith (s : State) (c : LatArith) : State :=
  let first := decide (s.n Pid.latFlags = 0)
  let s := (s.setBit Pid.latFlags (c.flag % 4) true).bump Pid.latArithCount
  let s := s.onlyIf first fun s => s.raise 0x1064 0 (s.n Pid.latFlags % 16 * 2 ^ 32 + c.offset % 2 ^ 32)
  s.modLat fun x => { x with vars := x.vars.map fun v => if c.dest = some v.1 then (v.1, BitVec.ofInt 32 (arithResult c)) else v }

/-! ### The output write (R339, R348, R351, R354) -/

/-- General digital output `k` at its land: its level, or none in high impedance, as in STANDBY (R324, R340). -/
def State.doutPin (s : State) (k : Nat) : Option Bool := if s.unit.st = .standby then none else some (s.dout.getD k false)

/-- `TIME_OUT[k]` at its land: high during a pulse, or none in high impedance, as in STANDBY (R324). -/
def State.toutPin (s : State) (k : Nat) : Option Bool :=
  if s.unit.st = .standby then none else some ((s.touts k).pulseEnd.any fun e => decide (s.now < e))

/-- `FORCED_N` is low while any force is active (R350). -/
def State.forcedNLow (s : State) : Bool := decide (s.lat.forces ≠ [])

/-- Bits of a number as a list. -/
def bitsOf (n k : Nat) : List Bool := (List.range k).map (bitAt n)

/-- One port's command word (R347, R348). A standby ignores its own (R324). -/
def State.applyWord (s : State) (p old w : Nat) : State :=
  let edge := fun k => bitAt w k && !bitAt old k
  let s := s.onlyIf (edge 5) fun s => s.inStep (decide (s.clearCode .lattice p 1 = 0)) (Pid.protClear p) 1 (s.doClear .lattice p 1)
  let stop := edge 3 || edge 4
  let s := s.onlyIf (edge 3) fun s => s.inStep true (Pid.stop p) 1 (s.doStop p)
  let s := s.onlyIf (edge 4) fun s => s.inStep true (Pid.stop 0) 2 (s.doStopUnit 0)
  let m := w / 2 % 4 + 1
  let s := if !edge 0 then s
    else if stop then s.bump Pid.latCmdDropCount
    else s.inStep (decide (s.energiseCode p m = 0)) (Pid.energise p) (BitVec.ofNat 32 m) (s.doEnergise p m)
  let has := decide (s.n (Pid.hasContactor p) = 1)
  let s := s.modPort p fun q => { q with confirmIn := if has && (bitAt w 6 != bitAt w 7) then some (bitAt w 6) else none }
  s.sccRequest p (has && bitAt w 8)

/-- One RPDO of a present station; a full Q-CANTX loses it (R351). -/
def State.rpdo (s : State) (k which : Nat) (data : List Byte) : State :=
  match s.canSubmit (s.n (Pid.rioCan k) - 1) { id := 0x100 * (which + 1) + s.n (Pid.rioNode k), data := data } .lattice with
  | (.full, s) => (s.bump (Pid.rioTxDropCount k)).raise 0x1169 k which
  | (_, s) => s

/-- The remote outputs of a present station: RPDO1, and RPDO2 when output words exist. A station lost since the input read
gets none (R354). -/
def State.stationWrite (s : State) (k : Nat) : State :=
  if s.n (Pid.rioNode k) = 0 ∨ s.n (Pid.rioState k) ≠ 2 then s
  else
    let s := s.rpdo k 1 (leBytes (s.n (Pid.rioDoLen k)) (s.lat.rdo.getD k 0))
    s.onlyIf (decide (s.rioOut k ≠ [])) fun s =>
      s.rpdo k 2 ((s.rioOut k).flatMap fun w => leBytes 2 ((s.lat.rao.getD (4 * k + w) 0) % 65536).toNat)

/-- The output write (R339, R348): local outputs, port-command words, remote outputs, with forces over all of them. -/
def State.outputWrite (s : State) (o : LatOut) : State :=
  let prev := s.lat.cmdPrev
  let words := (List.range 4).map fun p => s.forceBits 1 (16 + 16 * p) 16 (o.words.getD p 0)
  let s := { s with dout := bitsOf (s.forceBits 1 0 12 o.douts) 12 }
  let s := s.modLat fun x =>
    { x with
      cmdPrev := words
      rdo := (List.range 8).map fun k => s.forceBits 1 (128 + 16 * k) 16 (o.rdo.getD k 0)
      rao := (List.range 32).map fun n => match s.forced 2 (32 + n) with
        | some w => w.toInt
        | none => o.rao.getD n 0 }
  let s := s.onlyIf (decide (s.unit.st ≠ .standby)) fun s =>
    s.each s.usedPorts fun s p => s.applyWord p (prev.getD p 0) (words.getD p 0)
  s.each (List.range 8) State.stationWrite

/-- Execution time of the running cycle, µs. -/
def State.latExec (s : State) : Nat := min (usOf (s.now - s.lat.startAt)) 0xFFFFFFFF

/-- Every force is cleared, each with its event (R350). -/
def State.unforceAll (s : State) : State := s.lat.forces.foldl (fun s f => s.unforce f.1 f.2.1) s

/-- Lattice stops (R342): outputs at `lat_do_safe`, command words 0, forces cleared, ports to PORT-STOP, FAULT-HOLD. -/
def State.latStop (s : State) : State :=
  let us := s.latExec
  let s := (s.setN Pid.latState 2).modLat fun x => { x with busy := false, cmdPrev := [0, 0, 0, 0], pendingX := false }
  let s := { s with dout := bitsOf (s.n Pid.latDoSafe) 12 }
  let s := s.each s.usedPorts fun s p => (s.modPort p fun q => { q with confirmIn := none }).sccRequest p false
  let s := s.unforceAll
  (s.raise 0x5061 0 us).enterFaultHold 0x5061

/-- LATTICE_EXECUTION_END (R339): block calls, arithmetic cases and variables of the cycle, then the output write. An
execution longer than `lat_wd` has stopped Lattice instead (R342). -/
def execLatticeExecutionEnd (t : Nat) (out : LatOut) (s : State) : Out :=
  let s := s.advance t
  .next (if !s.lat.busy || s.n Pid.latState ≠ 1 then s
    else if s.n Pid.latWd * psMs < s.now - s.lat.startAt then s.latStop
    else
      let us := s.latExec
      let s := (s.setN Pid.latExecLast us).setN Pid.latExecMax (max us (s.n Pid.latExecMax))
      let s := s.latCalls out.calls
      let s := s.modLat fun x =>
        { x with busy := false
                 vars := x.vars.map fun v => (v.1, ((out.vars.reverse.find? fun w => w.1 = v.1).getD v).2) }
      (out.arith.foldl State.latArith s).outputWrite out)

/-- LATTICE_WATCHDOG (R342). -/
def execLatticeWatchdog (t : Nat) (s : State) : Out :=
  let s := s.advance t
  .next (if s.lat.busy && decide (s.n Pid.latState = 1) && decide (s.n Pid.latWd * psMs < s.now - s.lat.startAt) then s.latStop else s)

/-! ### Exchange (R359, R360) -/

/-- The first code of R359 that applies, 0 for none. -/
def State.activateCode (s : State) : Nat :=
  if s.n Pid.latState ≠ 1 then 6
  else if s.n Pid.pairEnable ≠ 0 then 5
  else if s.lat.pendingX then 7
  else match s.lat.bank with
    | none => 1
    | some g => if !g.verified then 2 else if !g.limitsOk then 3 else if !g.ioOk then 4 else 0

/-- A refused or failed activation (R359). -/
def State.activateRefuse (s : State) (code : Nat) : State := (s.setN Pid.latXchgRefuse code).raise 0x1066 0 code

/-- `lat_activate` (R359): requested, or refused and not queued. -/
def State.doActivate (s : State) : State :=
  let code := s.activateCode
  if code = 0 then s.modLat fun x => { x with pendingX := true } else s.activateRefuse code

/-- LAT_ACTIVATE (R359): Commissioner, 0x01. -/
def execLatActivate (t : Nat) (role : Role) (v : Word) (s : State) : Out :=
  let s := s.advance t
  .next (s.roleRow role .commissioner 2 Pid.latActivate 0 v (decide (v = 1 ∧ s.activateCode = 0)) (if v = 1 then s.doActivate else s))

/-- The block of a new identity entry (R360): kept, or fresh; a new edge detector takes its first CLK. -/
def carryBlk (old : List LatBlk) (olds : List (Nat × Nat × Nat)) (e : Nat × Nat × Nat) : LatBlk :=
  match old.find? fun b => b.hash = e.1 && b.kind = e.2.1 with
  | some b => b
  | none => ⟨e.1, e.2.1, 0, false, false, false, 0, decide (7 ≤ e.2.1) && !olds.any fun o => o.1 = e.1⟩

/-- The banks swap and state is carried by identity (R360). -/
def State.exchange (s : State) (g : LatProg) : State :=
  let old := s.lat.prog
  let same := fun (e : Nat × Nat × Nat) => old.idents.any fun o => o.1 = e.1 && o.2.1 = e.2.1
  let known := fun (e : Nat × Nat × Nat) => old.idents.any fun o => o.1 = e.1
  let kept := (g.idents.filter same).length
  let mism := (g.idents.filter fun e => known e && !same e).length
  let new := g.idents.length - kept - mism
  let s := s.modLat fun x =>
    { x with
      pendingX := false
      prog := g
      bank := some old
      blks := (g.idents.filter fun e => decide (e.2.1 ≤ 8)).map (carryBlk x.blks old.idents)
      vars := (g.idents.filter fun e => decide (0x10 ≤ e.2.1)).map fun e =>
        if same e then (x.vars.find? fun v => v.1 = e.1).getD (e.1, g.initial e.2.1 e.2.2) else (e.1, g.initial e.2.1 e.2.2) }
  let s := ((s.setN Pid.latProgId g.id).setN Pid.latSrc (b01 g.online)).setN Pid.latBankStatus 3
  (s.bump Pid.latXchgCount).raise 0x0065 0
    (g.id * 2 ^ 32 + min kept 4095 * 2 ^ 20 + min new 4095 * 256 + min mism 255)

/-- PROGRAM_EXCHANGE (R359, R360): at the boundary between the output write and the next input read, the bank's CRCs checked
again. -/
def execProgramExchange (t : Nat) (crcOk : Bool) (s : State) : Out :=
  let s := s.advance t
  .next (if !s.lat.pendingX || s.lat.busy then s
    else match s.lat.bank with
      | some g => if crcOk then s.exchange g else (s.modLat fun x => { x with pendingX := false }).activateRefuse 2
      | none => s.modLat fun x => { x with pendingX := false })

/-! ### Remote stations (R351, R352) -/

/-- A station is served: configured, and waiting, present or lost since the first cycle. -/
def State.stationOn (s : State) (k : Nat) : Bool := s.n (Pid.rioNode k) ≠ 0 && decide (s.n (Pid.rioState k) ≠ 0)

/-- The heartbeat of a station is overdue (R352), give or take `tie`. -/
def State.hbDue (s : State) (k tie : Nat) : Bool :=
  decide (s.n (Pid.rioState k) = 1 ∨ s.n (Pid.rioState k) = 2) && (match (s.station k).lastHb with
    | some a => decide (a + s.n (Pid.rioHbTime k) * psMs ≤ s.now + tie)
    | none => false)

/-- A heartbeat (R352), after a timeout that it lost; a tie goes to the timeout (R47). -/
def State.heartbeat (s : State) (k state : Nat) : State :=
  if !s.stationOn k then s
  else
    let s := s.onlyIf (s.hbDue k tiePs) fun s => s.stationLost k 1
    let s := s.onlyIf (decide (state = 0x7F) && decide (s.n (Pid.rioNmtStart k) = 1)) fun s =>
      (s.canSubmit (s.n (Pid.rioCan k) - 1) { id := 0, data := [1#8] ++ leBytes 1 (s.n (Pid.rioNode k)) } .lattice).2
    if state = 5 then
      let s := s.modStation k fun x => { x with lastHb := some s.now }
      let c := s.canCode (s.n (Pid.rioCan k) - 1)
      if s.n (Pid.rioState k) = 2 ∨ (s.station k).back ∨ ¬ (c = 1 ∨ c = 2) then s
      else (s.modStation k fun x => { x with back := true, gotDi := false, gotAw := false }).raise 0x0168 k (s.n (Pid.rioNode k) * 256)
    else if s.n (Pid.rioState k) = 2 ∨ (s.station k).back then s.stationLost k 2
    else s

/-- HEARTBEAT_RECEIVE (R352). -/
def execHeartbeatReceive (t : Nat) (st : Nat) (state : Nat) (s : State) : Out :=
  .next ((s.advance t).heartbeat st state)

/-- HEARTBEAT_TIMEOUT (R352). -/
def execHeartbeatTimeout (t : Nat) (st : Nat) (s : State) : Out :=
  let s := s.advance t
  .next (if s.stationOn st && s.hbDue st 0 then s.stationLost st 1 else s)

/-- A station is present, or has returned and will be present at an input read (R352, R353). -/
def State.stationBack (s : State) (k : Nat) : Bool := decide (s.n (Pid.rioState k) = 2) || (s.station k).back

/-- A TPDO (R351): discarded and counted when shorter than configured; it ends a substitution only after the return (R353). -/
def State.tpdo (s : State) (k n : Nat) (bs : List Byte) : State :=
  if !s.stationOn k then s
  else if n = 1 then
    let len := s.n (Pid.rioDiLen k)
    if bs.length < len then s.bump (Pid.rioPdoErrCount k)
    else s.modStation k fun x => { x with di := leAt bs 0 len, gotDi := s.stationBack k }
  else
    let ws := s.rioIn k
    if bs.length < 2 * ws.length then s.bump (Pid.rioPdoErrCount k)
    else
      s.modStation k fun x =>
        { x with gotAw := s.stationBack k
                 aw := (List.range 4).map fun w => match ws.findIdx? (· = w) with
                   | some i => s16 (leAt bs (2 * i) 2)
                   | none => 0 }

/-- TPDO_RECEIVE (R351): TPDO1 or TPDO2 of a station. -/
def execTpdoReceive (t : Nat) (st n : Nat) (bytes : List Byte) (s : State) : Out :=
  let s := s.advance t
  .next (if n = 1 ∨ n = 2 then s.tpdo st n bytes else s)

end Sys2Proof.Machine
end

