-- ==== Sys2Proof/Machine/Inject.lean ====
section
/-! DEFINITION. Test-signal injection (R176-R180): start, signal, response and frequency table. -/

namespace Sys2Proof.Machine

/-- The period of the partition an injection point names, ps. -/
def State.injPs (s : State) : Nat := if s.bit Pid.injPoint 24 then s.outerPs else s.tInnerNs * 1000

/-- A frequency span in mHz meets R177: 1 Hz ≤ f0 < f1 ≤ 50 kHz and f1 ≤ 1/(4 · period). -/
def State.spanOk (s : State) (f0 f1 : Nat) : Bool :=
  decide (1000 ≤ f0 ∧ f0 < f1 ∧ f1 ≤ 50000000 ∧ 4 * f1 * s.injPs ≤ 1000000000000000)

/-- The limits of the selected wave and its destination (R177, R182). -/
def State.waveOk (s : State) : Bool :=
  (match s.n Pid.injWave with
  | 1 => decide (7 ≤ s.n Pid.prbsOrder ∧ s.n Pid.prbsOrder ≤ 23)
  | 2 => s.spanOk (s.n Pid.chirpF0) (s.n Pid.chirpF1)
  | _ => s.spanOk (s.n Pid.ssFStart) (s.n Pid.ssFStop)) && decide (1 ≤ s.n Pid.injDest ∧ s.n Pid.injDest ≤ 3) &&
    (decide (s.n Pid.injDest = 1) || decide (s.n Pid.injWave = 3))

/-- The first reason of 0x1E04 that applies to a start, 0 for none (R179): in the order of R183's codes, which is the model's where
several apply, `inj_allow` last (DESIGN CHOICE, log 15). -/
def State.injCode (s : State) : Nat :=
  let p := s.n Pid.injPort
  if (s.port p).st ≠ .run ∨ !(s.port p).used then 1
  else if !(s.pointOk p (s.n Pid.injPoint) && (s.n Pid.respPointA = 0xFFFFFFFF || s.pointOk p (s.n Pid.respPointA))
      && s.pointOk p (s.n Pid.respPointB)) then 2
  else if !s.waveOk then 3
  else if s.z Pid.injAmpMax < s.z Pid.injAmp then 4
  else if (s.port p).fb.any fun e => decide (e.bad ≠ 0) || e.lost then 5
  else if s.n Pid.injAllow ≠ 1 then 6
  else 0

/-- The start needs a crumb. -/
def State.injCrumb (s : State) : Bool := decide (s.n Pid.injDest % 2 = 1)

/-- The tuning capture is armed or recording, or holds no unit for a crumb (R421). -/
def State.injCapBusy (s : State) : Bool := s.injCrumb && (decide (s.n (Pid.crState 1) ≠ 0) || decide (s.capAvail 1 = []))

/-- A channel-table entry of an injection point (R431). -/
def pointEntry (w : Nat) : List Byte := leBytes 2 0xFFFF ++ [4#8, 1#8] ++ leBytes 4 w

/-- The channels of an injection crumb (R421): the injected signal and both response points. -/
def State.injChans (s : State) : List (List Byte) :=
  [pointEntry (s.n Pid.injPoint)] ++ (if s.n Pid.respPointA = 0xFFFFFFFF then [] else [pointEntry (s.n Pid.respPointA)])
    ++ [pointEntry (s.n Pid.respPointB)]

/-- The injection starts (R179, R180). -/
def State.injBegin (s : State) : State :=
  let p := s.n Pid.injPort
  let s := { s with inj := { prbs := List.replicate (s.n Pid.prbsOrder) true, port := p, outer := s.bit Pid.injPoint 24,
                             point := s.n Pid.injPoint,
                             wave := s.n Pid.injWave, dest := s.n Pid.injDest, startedAt := s.now } }
  let s := (((s.setN Pid.injState 1).setN Pid.injAbort 0).setN Pid.frPoints 0).bump Pid.injCount
  let s := s.raise 0x0E01 p s.inj.wave
  s.onlyIf s.injCrumb fun s =>
    let s := s.modFn 1 fun f => { f with units := s.capAvail 1, lockedRows := false, kept := [] }
    s.crumbBegin 1 3 0x31 s.stamp (s.injPs / 1000) s.injChans (4 * s.injChans.length)

/-- A start request (R179): refused with event 0x1E04. The table names no reason for a busy capture (R421): that one is open
(log 6). A running injection refuses another. -/
def State.doInjStart (s : State) : State :=
  let code := s.injCode
  if s.n Pid.injState = 1 then s
  else if code ≠ 0 then s.raise 0x1E04 (s.n Pid.injPort) code
  else if s.injCapBusy then
    let (w, s) := s.fresh
    s.raise 0x1E04 (s.n Pid.injPort) (w.toNat % 256)
  else s.injBegin

/-- `inj_cmd` is accepted. -/
def State.injCmdOk (s : State) (v : Word) : Bool :=
  if v = 1 then decide (s.n Pid.injState ≠ 1) && decide (s.injCode = 0) && !s.injCapBusy
  else decide (v = 2) && decide (s.n Pid.injState = 1)

/-- `inj_cmd`: 0x01 starts, 0x02 aborts with code 0x01. -/
def State.doInjCmd (s : State) (v : Word) : State := if v = 1 then s.doInjStart else s.injAbort 1

/-- INJ_START (R179): Commissioner. -/
def execInjStart (t : Nat) (role : Role) (s : State) : Out :=
  let s := s.advance t
  .next (s.roleRow role .commissioner 2 Pid.injCmd 0 1 (s.injCmdOk 1) (s.doInjCmd 1))

/-- INJ_STOP (R179): Commissioner. -/
def execInjStop (t : Nat) (role : Role) (s : State) : Out :=
  let s := s.advance t
  .next (s.roleRow role .commissioner 2 Pid.injCmd 0 2 (s.injCmdOk 2) (s.doInjCmd 2))

/-! ### The signal (R177, R178) -/

/-- The k-th of `ss_points` frequencies spaced logarithmically from `ss_f_start` to `ss_f_stop`, rounded to mHz. -/
def State.ssFreq (s : State) (k : Nat) : Nat :=
  let n := s.n Pid.ssPoints - 1
  if n = 0 then s.n Pid.ssFStart else rootRound (s.n Pid.ssFStart ^ (n - k) * s.n Pid.ssFStop ^ k) n

/-- The phase of a frequency in mHz after n periods of T ps, in 2^-64 turns. -/
def phaseAt (f n T : Nat) : Nat := f * n * T * 2 ^ 64 / 1000000000000000 % 2 ^ 64

/-- The phase of the chirp after n periods (R177): f0 · T_c · ((f1/f0)^(t/T_c) − 1) / ln(f1/f0) turns, in 2^-64 turns. -/
def State.chirpPhase (s : State) (n : Nat) : Nat :=
  let l := log2Of (s.n Pid.chirpF1) (s.n Pid.chirpF0)
  let Tc := s.n Pid.chirpTime
  let x := exp2Of (l * (n * s.injPs : Nat) / (Tc * psMs : Nat)) - one90
  -- f0 in mHz and T_c in ms make 10^-6 turns; ln(f1/f0) = l · ln 2 with 160 fraction bits
  (x * (s.n Pid.chirpF0 * Tc : Nat) * 2 ^ 134 / (l * ln2q90 * 1000000) % 2 ^ 64).toNat

/-- A sine of amplitude `inj_amp`. -/
def State.injSine (s : State) (phase : Nat) : Int := rneDiv (s.z Pid.injAmp * sin90 phase) (2 ^ 90)

/-- Periods of the partition that a number of cycles takes at a frequency in mHz, rounded (R180). -/
def State.injSpan (s : State) (cycles f : Nat) : Nat := (rneDiv ((cycles : Int) * 1000000000000000) (f * s.injPs)).toNat

/-- Periods of settling at the frequency under way; rounded as N is (DESIGN CHOICE, log 15). -/
def State.ssSettle (s : State) : Nat := s.injSpan (s.n Pid.ssSettle) (s.ssFreq s.inj.idx)

/-- N of R180 at the frequency under way. -/
def State.ssN (s : State) : Nat := s.injSpan (s.n Pid.ssCycles) (s.ssFreq s.inj.idx)

/-- The frequency under way has been demodulated. -/
def State.ssEnded (s : State) : Bool := decide (s.ssSettle + s.ssN ≤ s.inj.at_)

/-- The sequence is over before the n-th period: its length, the chirp time, or every frequency (R177). -/
def State.injOver (s : State) (n : Nat) : Bool :=
  match s.inj.wave with
  | 1 => decide ((2 ^ s.n Pid.prbsOrder - 1) * s.n Pid.prbsHold ≤ n)
  | 2 => decide (s.n Pid.chirpTime * psMs ≤ n * s.injPs)
  | _ => decide (s.n Pid.ssPoints ≤ s.inj.idx)

/-- The signal of the n-th period of the injection (R177). -/
def State.injSignal (s : State) (n : Nat) : Int :=
  if s.injOver n then 0
  else match s.inj.wave with
    | 1 => if (prbsStep (s.n Pid.prbsOrder) s.inj.prbs).1 then s.z Pid.injAmp else -(s.z Pid.injAmp)
    | 2 => s.injSine (s.chirpPhase n)
    | _ => s.injSine (phaseAt (s.ssFreq s.inj.idx) s.inj.at_ s.injPs)

/-! ### The response (R180) -/

/-- The two response points in the period that ends; the reference may be the signal itself. -/
def State.injRead (s : State) : State :=
  let a := if s.n Pid.respPointA = 0xFFFFFFFF then s.inj.sig else s.pointVal s.inj.port (s.n Pid.respPointA)
  let b := s.pointVal s.inj.port (s.n Pid.respPointB)
  { s with inj := { s.inj with va := a, vb := b } }

/-- One term of the sum of R180, x · e^(−jφ), with 117 fraction bits. -/
def demod (sum : Int × Int) (x : Int) (phase : Nat) : Int × Int := (sum.1 + x * cos90 phase, sum.2 - x * sin90 phase)

/-- A period at a frequency of the stepped sine ends: demodulated once settled, for N periods. -/
def State.ssTake (s : State) : State :=
  let i := s.inj
  let on := decide (s.ssSettle ≤ i.at_) && !s.ssEnded
  let ph := phaseAt (s.ssFreq i.idx) i.at_ s.injPs
  { s with inj := { i with
      at_ := i.at_ + 1
      sumA := if on then demod i.sumA i.va ph else i.sumA
      sumB := if on then demod i.sumB i.vb ph else i.sumB } }

/-- The next frequency begins. -/
def State.ssNext (s : State) : State :=
  { s with inj := { s.inj with idx := s.inj.idx + 1, at_ := 0, sumA := (0, 0), sumB := (0, 0) } }

/-- What an injection does as a period of its partition ends: it reads its points and, on a stepped sine, demodulates; without a table
the next frequency follows by itself. -/
def State.injTake (s : State) (boundary : Bool) : State :=
  if s.n Pid.injState = 1 ∧ (!s.inj.outer ∨ boundary) ∧ 0 < s.inj.periods then
    let s := s.injRead
    if s.inj.wave ≠ 3 ∨ s.injOver 0 then s
    else
      let s := s.ssTake
      s.onlyIf (s.ssEnded && decide (s.inj.dest = 1)) State.ssNext
  else s

/-- A period of the injected partition begins: its signal, with the PRBS register shifted every `prbs_hold` periods (R178); none once
the injection has ended (R179). -/
def State.injPeriod (s : State) (boundary : Bool) : State :=
  if s.n Pid.injState ≠ 1 then s.onlyIf (!s.inj.outer || boundary) fun s => { s with inj := { s.inj with sig := 0 } }
  else if !s.inj.outer ∨ boundary then
    let n := s.inj.periods
    let step := decide (s.inj.wave = 1 ∧ 0 < n ∧ n % s.n Pid.prbsHold = 0)
    let s := { s with inj := { s.inj with prbs := if step then (prbsStep (s.n Pid.prbsOrder) s.inj.prbs).2 else s.inj.prbs } }
    { s with inj := { s.inj with periods := n + 1, sig := s.injSignal n } }
  else s

/-- A stepped sine into the table runs. -/
def State.injTable (s : State) : Bool := decide (s.n Pid.injState = 1) && decide (s.inj.wave = 3) && decide (2 ≤ s.inj.dest)

/-- Square of a vector's length. -/
def normSq (v : Int × Int) : Nat := (v.1 * v.1 + v.2 * v.2).toNat

/-- A demodulation sum with 37 fraction bits. -/
def sum37 (v : Int × Int) : Int × Int := (rneDiv v.1 (2 ^ 80), rneDiv v.2 (2 ^ 80))

/-- |X| in Q4.27 from a sum over N periods (R180). -/
def magOf (v : Int × Int) (N : Nat) : Nat := (rneDiv (2 * isqrt (normSq (sum37 v))) (max 1 N * 1024)).toNat

/-- log10(2) with 70 fraction bits. -/
def log10two70 : Int := 355393490465494856466

/-- Gain |X_b/X_a| in 0.001 dB; both sums are not 0. -/
def gainOf (a b : Int × Int) : Int := rneDiv (log2Of (normSq b) (normSq a) * 10000 * log10two70) (2 ^ 140)

/-- arg(X_b/X_a) as a signed angle (R14). -/
def phaseOf (a b : Int × Int) : Int := angleOf (b.1 * a.1 + b.2 * a.2) (b.2 * a.1 - b.1 * a.2)

/-- Gain and phase of an entry; a response of 0 has neither, and the spec states none (log 15). -/
def State.frPair (s : State) : (Nat × Nat) × State :=
  let a := s.inj.sumA
  let b := s.inj.sumB
  if magOf a s.ssN < 0x346E then ((0x80000000, 0x80000000), s)
  else if normSq b = 0 then
    let g := s.fresh
    let p := g.2.fresh
    ((g.1.toNat, p.1.toNat), p.2)
  else ((u32z (gainOf a b), u32z (phaseOf a b)), s)

/-- FR_POINT_COMPLETE (R180): the demodulation at one frequency is done, and its 16-byte entry is stored; below 1e-4 pu gain and phase
read 0x80000000. The next frequency follows. -/
def execFrPointComplete (t : Nat) (_freq _gain _phase _magA : Unit) (s : State) : Out :=
  let s := s.advance t
  .next (if s.injTable && !s.injOver 0 && s.ssEnded then
      let e := s.frPair
      let x := leBytes 4 (s.ssFreq s.inj.idx) ++ leBytes 4 e.1.1 ++ leBytes 4 e.1.2 ++ leBytes 4 (magOf s.inj.sumA s.ssN)
      ({ e.2 with inj := { e.2.inj with table := e.2.inj.table ++ [x] } }.ssNext).bump Pid.frPoints
    else s)

/-- The injection has run to its end (R177): the last period of the sequence is over, or every frequency is. -/
def State.injDone (s : State) : Bool := if s.inj.wave = 3 then s.injOver 0 else decide (0 < s.inj.periods) && s.injOver (s.inj.periods - 1)

/-- INJECTION_COMPLETE (R180). -/
def execInjectionComplete (t : Nat) (s : State) : Out :=
  let s := s.advance t
  .next (if s.n Pid.injState = 1 ∧ s.injDone then (s.setN Pid.injState 2).raise 0x0E02 s.inj.port (s.n Pid.frPoints) else s)

end Sys2Proof.Machine
end

