-- ==== Sys2Proof/Machine/Live.lean ====
section
/-! DEFINITION. Writes of LIVE parameters: the rule each has beyond its range, and what an accepted write does
(R10, R26, R88, R99, R101, R106, R122, R148, R163, R182, R241, R246, R314, R343, R387, R424, R434, R439). -/

namespace Sys2Proof.Machine

/-- The port whose instance an identifier names (R8): the port blocks, and the port instances of the engine, the Proofer, the
modulator, dead time and protection. -/
def pidPort (id : Nat) : Option Nat :=
  let i := pidInst id
  match pidBlock id with
  | 0x08 => some i
  | 0x09 => some i
  | 0x0A => some i
  | 0x0B => some i
  | 0x0C => if 0x40 ≤ pidField id then some (pidField id / 16 - 4) else none
  | 0x0D => if 0x10 ≤ i ∧ i < 0x14 then some (i - 0x10) else none
  | 0x14 => if 0x20 ≤ i ∧ i < 0x24 then some (i - 0x20) else none
  | 0x15 => if 0x20 ≤ i ∧ i < 0x24 then some (i - 0x20) else none
  | 0x17 => if 0x20 ≤ i ∧ i < 0x24 then some (i - 0x20) else none
  | _ => none

/-- A parameter of a port that is absent from the image: a write is refused (R26). -/
def State.absentPort (s : State) (id : Nat) : Bool :=
  match pidPort id with
  | some p => !(s.port p).used
  | none => false

/-! ### Rules of single parameters -/

/-- Fields of block 0x09 that a DC port does not have (R101). -/
def dcAbsent09 (f : Nat) : Bool := [0, 1, 2, 3, 5, 9, 0x18, 0x19, 0x1A, 0x1B, 0x1C].contains f

/-- Fields of block 0x0B that a DC port does not have (R149). -/
def dcAbsent0B (f : Nat) : Bool := [2, 3, 6, 7].contains f

/-- Inner-law gains (R106). -/
def innerGain (f : Nat) : Bool := [0x10, 0x11, 0x13, 0x14, 0x15, 0x18, 0x19, 0x1A, 0x1B, 0x1C, 0x1D, 0x1E, 0x1F].contains f

/-- Parameters of R99. -/
def r99Field (f : Nat) : Bool := [0, 1, 2, 5, 0x24, 0x25].contains f

/-- A parameter per second rounds to zero as a per-period constant (R163): the inner integral gains at T_i, `kv_int` at T_o. -/
def State.roundsToZero (s : State) (f : Nat) (v : Nat) : Bool :=
  if [0x11, 0x14, 0x18, 0x19, 0x1A, 0x1B, 0x1C].contains f then
    decide (v ≠ 0) && decide (const27 ((v : Int) * (s.tInnerNs * 1000)) psS = 0)
  else if f = 5 then decide (v ≠ 0) && decide (const27 ((v : Int) * s.outerPs) (100 * psS) = 0)
  else false

/-- The stability check of R99 that a write would fail, 0 for none, against the values in force for all the others. -/
def State.liveR99 (s : State) (id : Nat) (v : Word) : Nat :=
  if pidBlock id = 9 ∧ r99Field (pidField id) then (s.setW id v).r99Code (pidInst id) s.outerPs else 0

/-- The rule of block 0x09. -/
def State.lawRule (s : State) (id : Nat) (v : Word) : Bool :=
  let p := pidInst id
  let f := pidField id
  !(s.isDc p && dcAbsent09 f) && (!innerGain f || decide ((s.port p).st = .idle)) && decide (s.liveR99 id v = 0)
    && !s.roundsToZero f v.toNat

/-- A main or share word of a compare (R246): instant and slope within the carrier, the reserved bit clear, kind and target
unchanged. -/
def State.xWordOk (s : State) (p : Nat) (old v : Word) : Bool :=
  let saw := decide (s.n (Pid.carrier p) = 1)
  let P := if s.n (Pid.pActive p) = 0 then s.n (Pid.period0 p) else s.n (Pid.pActive p)
  decide (xKind v = xKind old) && decide (xTarget v = xTarget old) && decide (v.toNat < 2 ^ 31)
    && decide (xCount v ≤ if saw then P - 1 else P / 2) && decide (xSlope v ≤ if saw then 0 else 2)

/-- Service may write the port's shadow registers (R241). -/
def State.shadowOpen (s : State) (p : Nat) : Bool := decide (s.n (Pid.modState p) = 1 ∨ s.n (Pid.modState p) = 4)

/-- The rule of block 0x14 (R233, R241, R246, R253). -/
def State.pwmRule (s : State) (id : Nat) (v : Word) : Bool :=
  let i := pidInst id
  let f := pidField id
  if 0x20 ≤ i then
    s.shadowOpen (i - 0x20) && s.periodFits (i - 0x20) (s.n Pid.tInner) v.toNat
      && (!s.img.hasAlt || s.periodFits (i - 0x20) (s.n Pid.tInnerAlt) v.toNat)
  else match s.portOfLeg i with
    | none => false
    | some p =>
      if f = 0x0A then s.shadowOpen p
      else if f = 0x0B then s.shadowOpen p && decide (v.toNat % 2 = 0) && decide (v.toNat + 2 ≤ s.n (Pid.period0 p))
      else s.xWordOk p (s.w id) v

/-- The rule of block 0x0E (R182). -/
def State.injRule (s : State) (id : Nat) (v : Word) : Bool :=
  decide (s.n Pid.injState ≠ 1) && (decide (id ≠ Pid.injPort) || (s.port v.toNat).used)
    && (decide (id ≠ Pid.injAmp) || decide (v.toInt ≤ s.z Pid.injAmpMax))

/-- The rule of a `TIME_OUT` (R387, R391): start, period and width are fixed while armed, a pulse lasts at most half a period. -/
def State.toutRule (s : State) (id : Nat) (v : Word) : Bool :=
  let k := pidInst id - 0x10
  if pidField id = 0 then s.toutOk k v
  else !(s.touts k).armed && (decide (pidField id ≠ 4) || decide (2 * v.toNat ≤ s.n (Pid.toutPeriod k)))

/-- The rule of the tuning capture (R422, R424, R434). -/
def State.captureRule (s : State) (id : Nat) (v : Word) : Bool :=
  let f := pidField id
  if pidInst id ≠ 2 then true
  else decide (s.n (Pid.crState 1) = 0) && (decide (f < 0x40) || s.chanWordOk v.toNat)
    && (!(decide (2 ≤ f) && decide (f ≤ 4)) || decide ((s.setW id v).capNeed 1 ≤ (s.capClaims 1).length))

/-- `next_slot` names a valid slot (R88). -/
def State.nextSlotOk (s : State) (v : Word) : Bool := decide (v.toNat < 2) && decide (s.n (slotPid v.toNat) = 9)

/-- The rule of a LIVE parameter beyond its range. `bs_start_s` is refused while its port is ARMED (R122), `i_vi_start` lies at
or below `i_lim_hard` (R148). -/
def State.liveRule (s : State) (id : Nat) (v : Word) : Bool :=
  match pidBlock id with
  | 0x04 => s.nextSlotOk v
  | 0x08 => decide (pidField id ≠ 0x13) || decide ((s.port (pidInst id)).st ≠ .armed)
  | 0x0A => decide (pidField id ≠ 4) || decide (v.toInt ≤ s.z (Pid.iLimHard (pidInst id)))
  | 0x09 => s.lawRule id v
  | 0x0B => !(s.isDc (pidInst id) && dcAbsent0B (pidField id))
  | 0x0E => s.injRule id v
  | 0x14 => s.pwmRule id v
  | 0x1C => !s.nativeStraps
  | 0x26 => s.toutRule id v
  | 0x2C => s.captureRule id v
  | _ => true

/-! ### What an accepted write does -/

/-- An accepted write of `next_slot` (R88): its own record in ferroelectric memory (R78). -/
def State.doNextSlot (s : State) (v : Word) : State :=
  let s := s.setW Pid.nextSlot v
  { s with fram := { s.fram with nextSlot := some v.toNat } }

/-- The retained record takes a Commissioner's value (R439). -/
def Fram.keep (m : Fram) (digest : List Byte) (id : Nat) (v : Word) : Fram :=
  { m with liveDigest := digest, live := (m.live.filter fun e => e.1 ≠ id) ++ [(id, v)] }

/-- A write of a shadow register carries the generation of acceptance (R241). -/
def State.doShadow (s : State) (id : Nat) (v : Word) : State :=
  let g := s.n Pid.periodSeq % 65536
  let i := pidInst id
  let s := s.setW id v
  if 0x20 ≤ i then s.modPort (i - 0x20) fun q => { q with perGen := g }
  else if pidField id = 0x0A then s.setN (Pid.shGen i) (s.n (Pid.shGen i) / 65536 * 65536 + g)
  else if pidField id = 0x0B then s.setN (Pid.shGen i) (g * 65536 + s.n (Pid.shGen i) % 65536)
  else s

/-- An accepted LIVE write takes effect whole (R10, R439). -/
def State.doLive (s : State) (r : ParamRow) (id : Nat) (v : Word) : State :=
  let s := s.onlyIf (decide (r.role = .commissioner) && decide (id ≠ Pid.nextSlot)) fun s =>
    { s with fram := s.fram.keep s.img.digest id v }
  if id = Pid.nextSlot then s.doNextSlot v
  else match pidBlock id with
    | 0x14 => s.doShadow id v
    | 0x26 => if pidField id = 0 then s.doTout (pidInst id - 0x10) v else s.setW id v
    | _ => s.setW id v

/-- NEXT_SLOT_WRITE (R88): Commissioner. -/
def execNextSlotWrite (t : Nat) (role : Role) (v : Word) (s : State) : Out :=
  let s := s.advance t
  .next (let ok := !s.unit.st.factory && s.nextSlotOk v
    s.roleRow role .commissioner 1 Pid.nextSlot (s.w Pid.nextSlot) v ok (if ok then s.doNextSlot v else s))

end Sys2Proof.Machine
end

