-- ==== Sys2Proof/Machine/Access.lean ====
section
/-! DEFINITION. Reading and writing parameters: the checks of a write item by item, the commands behind CMD parameters, and the
value a read returns (R9-R11, R26, R324, R402, R403, R438). -/

namespace Sys2Proof.Machine

/-! ### Commands behind CMD parameters -/

/-- A condition as a refusal with detail 0. -/
def allow (c : Bool) : Option Nat := if c then none else some 0

/-- A refuse code as a refusal. -/
def code? (c : Nat) : Option Nat := if c = 0 then none else some c

/-- The refusal of a CMD item by its own rule with its detail (R403); none when it is accepted. -/
def State.cmdCode (s : State) (role : Role) (id : Nat) (v : Word) : Option Nat :=
  let i := pidInst id
  match pidBlock id, pidField id with
  | 0x02, 3 => allow (s.restartOk v)
  | 0x08, 6 => code? (s.energiseCode i v.toNat)
  | 0x08, 7 => allow (decide (v.toNat = 1 ∨ v.toNat = 2))
  | 0x0D, 0x0E => allow (if v.toNat = 0x10 then s.restoreOk else s.ladderCmdOk v)
  | 0x0D, 2 => allow (s.rebaseOk (i - 0x10) v)
  | 0x0E, 0 =>
    if v = 1 ∧ s.n Pid.injState ≠ 1 then
      if s.injCode ≠ 0 then some s.injCode
      else if s.injCapBusy then some ((Config.freeWord s.freeCtr).toNat % 256)
      else none
    else allow (s.injCmdOk v)
  | 0x10, 9 => allow (s.faClearOk i v)
  | 0x14, 0x0B => allow (s.modReleaseOk (i - 0x20) v)
  | 0x16, 7 => allow (s.istOk i v)
  | 0x16, 9 => allow (s.pulseOk i v)
  | 0x17, 4 => code? (s.clearCode (.role role) (i - 0x20) v)
  | 0x1C, 0x12 => if v = 1 then code? s.commitCode else some 0
  | 0x1D, 0x0B => allow (s.soloOk v)
  | 0x1D, 0x0C => allow (s.handoverOk v)
  | 0x20, 0x0F => allow (s.latForceOk v)
  | 0x20, 0x12 => if v = 1 then code? s.activateCode else some 0
  | 0x24, 0x0E => allow (s.busoffCmdOk i v)
  | 0x26, 0x12 => allow (s.timeStepOk v)
  | 0x2C, 8 => allow (s.crArmOk (i - 1) v)
  | 0x2C, 9 => allow (s.crForceOk (i - 1) v)
  | _, _ => some 0

/-- An accepted CMD item. -/
def State.cmdDo (s : State) (role : Role) (rb : Bool) (id : Nat) (v : Word) : State :=
  let i := pidInst id
  match pidBlock id, pidField id with
  | 0x02, 3 => s.doRestart
  | 0x08, 6 => s.doEnergise i v.toNat
  | 0x08, 7 => if v = 1 then s.doStop i else s.doStopUnit 0
  | 0x0D, 0x0E => if v.toNat = 0x10 then s.doRestore else s.doLadderCmd v
  | 0x0D, 2 => s.doRebase (i - 0x10)
  | 0x0E, 0 => s.doInjCmd v
  | 0x10, 9 => s.doFaClear i
  | 0x14, 0x0B => s.doModRelease (i - 0x20)
  | 0x16, 7 => s.doIst i
  | 0x16, 9 => s.doPulse i v
  | 0x17, 4 => s.doClear (.role role) (i - 0x20) v
  | 0x1C, 0x12 => s.doCommit rb
  | 0x1D, 0x0B => s.doSolo
  | 0x1D, 0x0C => s.announceGiveUp 5 s.outerEndSeq
  | 0x20, 0x0F => s.doLatForce v
  | 0x20, 0x12 => s.doActivate
  | 0x24, 0x0E => s.doBusoffCmd i
  | 0x26, 0x12 => s.doTimeStep
  | 0x2C, 8 => s.doCrArm (i - 1) v
  | 0x2C, 9 => s.trigger (i - 1) 0x30
  | _, _ => s

/-- What a refused CMD item sets and raises by its own rule (R111, R179, R275, R307, R359, R403). -/
def State.cmdRefuse (s : State) (role : Role) (id : Nat) (v : Word) (d : Nat) : State :=
  let i := pidInst id
  match pidBlock id, pidField id with
  | 0x08, 6 => s.refuseEnergise i v.toNat d
  | 0x0E, 0 => if v = 1 ∧ s.n Pid.injState ≠ 1 then (if s.injCode = 0 then s.fresh.2 else s).raise 0x1E04 (s.n Pid.injPort) d else s
  | 0x17, 4 => s.refuseClear (.role role) (i - 0x20) d
  | 0x1C, 0x12 => if v = 1 then s.raise 0x1C32 0 d else s.commitAsked v true
  | 0x20, 0x12 => if v = 1 then s.activateRefuse d else s
  | _, _ => s

/-! ### Checking a write (R9, R403) -/

/-- STAT words that a Service write of 0 clears (R345, R361, R380, R390). -/
def clearable (id : Nat) : Bool := decide (id = Pid.latFlags) || [Pid.txtsOvf 0, Pid.txtsOvf 1].contains id

/-- Class and role of an item (R9, R401, R403): 0 passes, else the parameter status. -/
def classCode (r : ParamRow) (role : Role) (id : Nat) (v : Word) : Nat :=
  match r.cls with
  | .cfg => 3
  | .safe => 3
  | .stat => if clearable id then (if !role.meets .service then 3 else if v ≠ 0 then 1 else 0) else 3
  | .cnt => if !role.meets .service then 3 else if v ≠ 0 then 1 else 0
  | .live => if role.meets r.role then 0 else 3
  | .cmd => if role.meets (if pidBlock id = 0x2C ∧ pidField id = 8 then crArmRole (pidInst id - 1) else r.role) then 0 else 3

/-- The class of a known parameter. -/
def State.clsOf (s : State) (id : Nat) : Option Cls := (findParam s.fourP id).map fun r => r.cls

/-- One item, up to the rule of a CMD (R403): ID, class or role, placement, range, unit state, rule. The parameter status and the
detail of its refusal. -/
def State.itemBad (s : State) (role : Role) (seen : List Nat) (last : Bool) (e : Nat × Word) : Option (Nat × Nat) :=
  match findParam s.fourP e.1 with
  | none => some (2, 0)
  | some r =>
    let c := classCode r role e.1 e.2
    if c ≠ 0 then some (c, 0)
    else if seen.contains e.1 || (r.cls = .cmd && !last) then some (4, 0)
    else if r.cls = .live && !r.rng.holds e.2 then some (1, 0)
    else if (r.cls = .live && s.unit.st.factory) || ((r.cls = .live || r.cls = .cmd) && s.unit.st = .standby) then some (5, 0)
    else if s.absentPort e.1 || (r.cls = .live && !s.liveRule e.1 e.2) then some (1, 0)
    else none

/-- The first item that fails: index, parameter status, detail. -/
def State.itemsBad (s : State) (role : Role) : Nat → List Nat → List (Nat × Word) → Option (Nat × Nat × Nat)
  | _, _, [] => none
  | k, seen, e :: es =>
    match s.itemBad role seen es.isEmpty e with
    | some (st, d) => some (k, st, d)
    | none => s.itemsBad role (k + 1) (e.1 :: seen) es

/-- What the failing item raises: a security event for a CFG write, a safety event for a SAFE write (R9; their codes are not
given, log 6), 0x190C for R99. -/
def State.itemEvent (s : State) (st : Nat) (e : Nat × Word) : State :=
  match s.clsOf e.1 with
  | some .cfg => s.fresh.2.raise (0x7000 + s.fresh.1.toNat % 4096) (s.fresh.1.toNat / 4096 % 256) s.fresh.1.toNat
  | some .safe => s.fresh.2.raise (0x6000 + s.fresh.1.toNat % 4096) (s.fresh.1.toNat / 4096 % 256) s.fresh.1.toNat
  | some .live =>
    let c := s.liveR99 e.1 e.2
    if st = 1 ∧ c ≠ 0 ∧ !s.absentPort e.1 then s.raise 0x190C (pidInst e.1) (c * 2 ^ 24 + e.1) else s
  | _ => s

/-- An accepted item that is no command. -/
def State.applyItem (s : State) (e : Nat × Word) : State :=
  match findParam s.fourP e.1 with
  | some r => match r.cls with
    | .live => s.doLive r e.1 e.2
    | .cmd => s
    | _ => s.setN e.1 0
  | none => s

/-- The outcome of a Write (R403): none when done, else index, parameter status and detail; and the state. -/
structure Written where
  bad : Option (Nat × Nat × Nat)
  st : State

/-- The items of an accepted Write take effect, or are forwarded (R324). -/
def State.applyItems (s : State) (items : List (Nat × Word)) : State :=
  items.foldl (fun s e => s.inStep true e.1 e.2 (s.applyItem e)) s

/-- A Write (R403): all or nothing. A command is judged and carried out with the items before it applied. -/
def State.writeAll (s : State) (role : Role) (rb : Bool) (items : List (Nat × Word)) : Written :=
  match s.itemsBad role 0 [] items with
  | some (k, st, d) => ⟨some (k, st, d), s.itemEvent st (items.getD k (0, 0))⟩
  | none =>
    let j := items.foldl State.applyItem s
    match items.getLast? with
    | some (id, v) =>
      if s.clsOf id = some .cmd then
        match j.cmdCode role id v with
        | none =>
          let t := s.applyItems items.dropLast
          ⟨none, t.inStep true id v (t.cmdDo role rb id v)⟩
        | some d => ⟨some (items.length - 1, 1, d), s.cmdRefuse role id v d⟩
      else ⟨none, s.applyItems items⟩
    | none => ⟨none, s⟩

/-- A write or command that the holder forwarded (R324), at its boundary; a command that its rule refuses by then has no effect. -/
def State.forwarded (s : State) (e : Nat × Word) : State :=
  match s.clsOf e.1 with
  | some .live => s.applyItem e
  | some .cmd => if e.1 = Pid.ladderCmd then s else if (s.cmdCode .integrator e.1 e.2).isNone then s.cmdDo .integrator true e.1 e.2 else s
  | _ => s

/-! ### Reading (R9, R402, R404) -/

/-- `pll_state` as it is now (R59, R87): an attempt in progress has left its band search after the 40 µs that the search may take
(log 17). -/
def State.pllNow (s : State) : Nat :=
  match s.ref.attempt with
  | some a => if a.start + 40 * psUs ≤ s.now then 2 else s.n Pid.pllState
  | none => s.n Pid.pllState

/-- The value a read returns: a command reads 0, a bulk target 0 (R404), the clock and the capture memory as they are now. -/
def State.readWord (s : State) (id : Nat) : Word :=
  match s.clsOf id with
  | none => 0
  | some .cmd => 0
  | _ =>
    if id = Pid.timeNowS then BitVec.ofNat 32 (s.intNs / 1000000000)
    else if id = Pid.timeNowNs then BitVec.ofNat 32 (s.intNs % 1000000000)
    else if id = Pid.pllState then BitVec.ofNat 32 s.pllNow
    else if id = Pid.capUnitsFree then BitVec.ofNat 32 s.capFree
    else if pidBlock id = 0x2C ∧ 0x40 ≤ pidInst id ∧ pidField id = 0 then (s.crumbInfo (pidInst id - 0x40)).1
    else if pidBlock id = 0x2C ∧ 0x40 ≤ pidInst id ∧ pidField id = 1 then (s.crumbInfo (pidInst id - 0x40)).2
    else s.w id

/-- The response status of a parameter status (R403). -/
def writeStatus (pstat : Nat) : Nat := match pstat with
  | 2 => 2
  | 3 => 3
  | 5 => 9
  | _ => 1

/-- PARAMETER_WRITE (R9, R403, R409): one item from a requester of some role. -/
def execParameterWrite (t : Nat) (role : Role) (id : Nat) (v : Word) (s : State) : Out :=
  let s := s.advance t
  let w := s.writeAll role true [(id, v)]
  .next (s.audited role (if s.clsOf id = some .cmd then 2 else 1) id (s.readWord id) v
    (match w.bad with
      | some b => writeStatus b.2.1
      | none => 0) w.st)

end Sys2Proof.Machine
end

