-- ==== Sys2Proof/Machine/Law.lean ====
section
/-! DEFINITION. The outer step of a port: measurement filters (R93), Glaze (R141-R147), the outer laws (R94-R102,
R114, R117), freeze and slip (R130-R132), hard-limit budget (R126), phase jumps (R136), ride-through (R138-R140) and
the evaluation of the port state in the order of R110. Arithmetic is exact on rationals and rounded once into the
accumulator; the constants R163 names are Q4.27 per-period constants (log 11). -/

namespace Sys2Proof.Machine

/-- An accumulator value times a Q4.27 constant, rounded once (R161, R163). -/
def mulConst (a k : Int) : Int := satAcc (rneDiv (a * k) 134217728)

/-! ### Measurements (R93) -/

/-- The filter constant T_o / (T_o + τ), τ in µs (R93, R163). -/
def filtConst (toPs tauUs : Nat) : Int := const27 toPs (toPs + tauUs * psUs)

/-- One step of the first-order filter of R93. -/
def filtStep (f mean k : Int) : Int := satAcc (f + mulConst (mean - f) k)

/-- The mean of an outer period in the accumulator; the last filtered value where the period holds no sample. -/
def meanAcc (sum : Int) (n : Nat) (last : Int) : Int := if n = 0 then last else satAcc (rneDiv sum n)

/-- p_f, q_f and V_meas of the completed outer period (R93). -/
def State.lawMeasure (s : State) (p : Nat) : State :=
  let q := s.port p
  let kp := filtConst s.outerPs (s.n (Pid.pFiltTc p))
  let kq := filtConst s.outerPs (s.n (Pid.qFiltTc p))
  let pF := filtStep q.law.pF (meanAcc q.done.p q.done.n q.law.pF) kp
  let qF := filtStep q.law.qF (meanAcc q.done.q q.done.n q.law.qF) kq
  let v := if q.done.n = 0 then s.z (Pid.vMeas p) else satQ27 (rneDiv q.done.v q.done.n)
  let s := s.modPort p fun q => { q with law := { q.law with pF := pF, qF := qF } }
  ((s.setZ (Pid.pMeas p) (q27OfAcc pF)).setZ (Pid.qMeas p) (q27OfAcc qF)).setZ (Pid.vMeas p) v

/-! ### Glaze (R141-R146) -/

/-- Shape one quantity: target, rate and jerk words, whether it is quantity `k` of R145; events 0x0B01, 0x0B02. -/
def State.glzOne (s : State) (p k : Nat) (q : Glz) (g : Int) (rate jerk out : Nat) : Glz × State :=
  let (q', rev) := q.shape (accOf27 g) rate jerk s.outerPs
  let s := s.onlyIf rev fun s =>
    (s.raise 0x0B02 p (u32z g * 2 ^ 32 + (u32z (q27OfAcc q'.x)) / 256 * 256 + k)).bump (Pid.glzReversalCount p)
  let s := s.onlyIf (q'.lim && !q.lim) fun s => s.raise 0x0B01 p (u32z g * 2 ^ 32 + k)
  (q', (s.setZ out (q27OfAcc q'.x)).setBit (Pid.glzLimited p) k q'.lim)

/-- The Glaze of RUN and LIMITED (R142, R143): a stop in progress takes p and q to 0 (R121); a DC port shapes p and v
only (R141). -/
def State.glzStep (s : State) (p : Nat) : State :=
  let q := s.port p
  let tgt := fun (id : Nat) => if q.stopAt.isSome then 0 else s.z id
  let (gp, s) := s.glzOne p 0 q.law.glzP (tgt (Pid.pSet p)) (s.n (Pid.glzPRate p)) (s.n (Pid.glzPJerk p)) (Pid.glzP p)
  let (gv, s) := s.glzOne p 2 q.law.glzV (s.z (Pid.vSet p)) (s.n (Pid.glzVRate p)) (s.n (Pid.glzVJerk p)) (Pid.glzV p)
  let s := s.modPort p fun q => { q with law := { q.law with glzP := gp, glzV := gv } }
  let s :=
    if s.isDc p then s
    else
      let (gq, s) := s.glzOne p 1 q.law.glzQ (tgt (Pid.qSet p)) (s.n (Pid.glzQRate p)) (s.n (Pid.glzQJerk p)) (Pid.glzQ p)
      let (gf, s) := s.glzOne p 3 q.law.glzF (s.z (Pid.fRef p)) (s.n (Pid.glzFRate p)) (s.n (Pid.glzFJerk p)) (Pid.glzF p)
      s.modPort p fun q => { q with law := { q.law with glzQ := gq, glzF := gf } }
  s.setBit (Pid.lawFlags p) 5 (decide (s.n (Pid.glzLimited p) ≠ 0))

/-! ### Clamps (R94, R95, R97, R100) -/

/-- Take ω with its clamp, flag bit 0 and event 0x190A at entry (R94, R95). -/
def State.putOmega (s : State) (p : Nat) (w : Int) : State :=
  let c := (s.port p).law.glzF.x
  let dev := accOf27 (s.z (Pid.fDevMax p))
  let out := decide (w < c - dev) || decide (c + dev < w)
  let s := s.onlyIf (out && !(s.port p).law.clampW) fun s => s.raise 0x190A p (u32z (q27OfAcc w))
  let w' := clampI (c - dev) (c + dev) w
  let s := s.modPort p fun q => { q with law := { q.law with omega := w', clampW := out } }
  (s.setBit (Pid.lawFlags p) 0 out).setZ (Pid.omega p) (q27OfAcc w')

/-- Take E (v on a DC port) with its clamp to 0…e_max, flag bit 1 and event 0x190B at entry (R97, R100). -/
def State.putE (s : State) (p : Nat) (e : Int) : State :=
  let hi := accOf27 (s.z (Pid.eMax p))
  let out := decide (e < 0) || decide (hi < e)
  let s := s.onlyIf (out && !(s.port p).law.clampE) fun s => s.raise 0x190B p (u32z (q27OfAcc e))
  let e' := clampI 0 hi e
  let s := s.modPort p fun q => { q with law := { q.law with e := e', clampE := out } }
  (s.setBit (Pid.lawFlags p) 1 out).setZ (Pid.eMag p) (q27OfAcc e')

/-! ### Laws -/

/-- ω[k+1] before its clamp (R94): D in 0.01 pu, m_p in 0.01 %, H in ms. -/
def swingNext (l : LawSt) (toPs hMs d mp : Nat) : Int :=
  let damp := scaleAcc (l.omega - l.glzF.x) ((d * mp + 1000000 : Nat) : Int) (100 * mp)
  satAcc (l.omega + scaleAcc (l.glzP.x - l.pF - damp) toPs (2 * hMs * psMs))

/-- E[k+1] before its clamp (R97); `ref` is E or V_meas by `qv_mode`; K_v in 0.01 s⁻¹, n_q in 0.01 %. -/
def emfNext (l : LawSt) (toPs kv nq : Nat) (ref : Int) : Int :=
  let k := const27 (toPs * kv) (100 * psS)
  let droop := scaleAcc (l.qF - l.glzQ.x) nq 10000
  satAcc (l.e + mulConst (l.glzV.x - ref - droop) k)

/-- v[k+1] of a DC port before its clamp (R100): τ_c in ms, r_d in 0.01 %. -/
def dcNext (l : LawSt) (toPs tauMs rd : Nat) : Int :=
  let droop := scaleAcc (l.e - l.glzV.x) 10000 rd
  satAcc (l.e + scaleAcc (l.glzP.x - l.pF - droop) toPs (tauMs * psMs))

/-- δ = θ − θ_v, signed, in 2^-32 turns; none while the capacitor voltage lies below 0.1 pu (R131). -/
def State.delta (s : State) (p : Nat) : Option Int :=
  match (s.port p).inner with
  | some r => if mag27 r.vd r.vq < 13421773 then none else some (angDiff (s.w (Pid.theta p)) r.thetaV)
  | none => none

/-- dz of R131 in 2^-32 turns. -/
def deadZone (d sMax : Int) : Int := if sMax < d then d - sMax else if d < -sMax then d + sMax else 0

/-- The frozen step of an AC grid-forming port (R131). -/
def State.slipStep (s : State) (p : Nat) : State :=
  let q := s.port p
  let frz := q.law.omegaFrz.getD q.law.omega
  let dz : Int := match s.delta p with
    | some d => deadZone d (s.n (Pid.slipAngleMax p))
    | none => 0
  let s := s.onlyIf (decide (dz ≠ 0) && !q.law.slipping) fun s => s.raise 0x2A06 p (u32z ((s.delta p).getD 0))
  let s := s.modPort p fun q => { q with law := { q.law with omegaFrz := some frz, slipping := decide (dz ≠ 0) } }
  s.putOmega p (satAcc (frz - scaleAcc (dz * 128) ((s.n (Pid.kSlip p) : Int) * 1000) (s.n (Pid.fNom p))))

/-- E of the magnitude ramp (R114): one step at the rate V_set*/`ramp_time` up to the lower of V_set* and e_max, or
down to 0 after a stop. Answers whether its end is reached. A DC port that measures more than the ramp end takes the ramp end at once
(DESIGN CHOICE, log 31). -/
def State.rampStep (s : State) (p : Nat) : Bool × State :=
  let q := s.port p
  let step := scaleAcc q.law.glzV.x s.outerPs (s.n (Pid.rampTime p) * psMs)
  if q.rampDown then
    let e := max 0 (q.law.e - step)
    (decide (e = 0), s.putE p e)
  else
    let top := min q.law.glzV.x (accOf27 (s.z (Pid.eMax p)))
    let e := if top ≤ q.law.e then top else min top (q.law.e + step)
    (decide (e = top), s.putE p e)

/-- The outer law of one step by port kind and state (R94, R97, R100, R102, R114, R130). -/
def State.lawIntegrate (s : State) (p : Nat) (frozen : Bool) : State :=
  let q := s.port p
  let toPs := s.outerPs
  if s.isDc p then
    if frozen || q.st = .energising then s
    else s.putE p (dcNext q.law toPs (s.n (Pid.tauC p)) (s.n (Pid.viDroop p)))
  else if s.n (Pid.portMode p) = 1 then
    let v := max 13421773 (s.z (Pid.vMeas p))
    let iOf := fun (x : Int) => satAcc (rneDiv (x * 134217728) v.toNat)
    let s := s.modPort p fun q => { q with law := { q.law with omega := accOf27 q.gfTrk.f, gfD := iOf q.law.glzP.x, gfQ := -(iOf q.law.glzQ.x) } }
    s.setZ (Pid.omega p) q.gfTrk.f
  else if frozen then s.slipStep p
  else
    let s := s.modPort p fun q => { q with law := { q.law with omegaFrz := none, slipping := false } }
    let s := s.putOmega p (swingNext q.law toPs (s.n (Pid.hInertia p)) (s.n (Pid.dDamp p)) (s.n (Pid.pfDroop p)))
    if q.st = .energising then s
    else
      let ref := if s.n (Pid.qvMode p) = 0 then q.law.e else accOf27 (s.z (Pid.vMeas p))
      s.putE p (emfNext q.law toPs (s.n (Pid.kvInt p)) (s.n (Pid.qvDroop p)) ref)

/-- The synchronising rule (R117): Δθ_pred, ω towards the bus, E through a lag of 20 ms, and the windows of R118. -/
def State.syncStep (s : State) (p : Nat) : State :=
  let q := s.port p
  let m := q.busTrk
  let toPs := s.outerPs
  -- (ω − ω_bus)·f_nom·close_time in 2^-32 turns: mHz and ms
  let dW := q.law.omega - accOf27 m.f
  let adv := rneDiv (dW * s.n (Pid.fNom p) * s.n (Pid.closeTime p)) (128 * 1000000)
  let dth := (wordOfInt (angDiff (s.w (Pid.theta p)) m.ang + adv)).toInt
  let lim := accOf27 (s.n (Pid.syncFreqWin p)) / 2
  let corr := clampI (-lim) lim (scaleAcc (dth * 128) 2000 (s.n (Pid.fNom p)))
  let w := satAcc (accOf27 m.f - corr)
  let e := filtStep q.law.e (accOf27 m.v) (filtConst toPs 20000)
  let s := s.modPort p fun q => { q with dthPred := dth, law := { q.law with omega := w, e := e } }
  let s := (s.setZ (Pid.omega p) (q27OfAcc w)).setZ (Pid.eMag p) (q27OfAcc e)
  if s.syncWindows p then
    s.modPort p fun q => { q with dwellFrom := some (q.dwellFrom.getD s.now) }
  else (s.latOut p 0 false).modPort p fun q => { q with permissiveAt := none, dwellFrom := none }

/-! ### Effective limit (R126, R271) -/

/-- The end of the budget count (R126), in ps times `hard_cooldown`: every change is then exact. -/
def State.budgetFull (s : State) (p : Nat) : Nat := s.n (Pid.iHardTime p) * psMs * s.n (Pid.hardCooldown p)

/-- The budget count and L_s of one outer step, and `i_lim_eff`. Exhaustion and refilling at the ends of the count
are HARD_BUDGET_EXHAUSTED and HARD_BUDGET_REFILLED. -/
def State.limitStep (s : State) (p : Nat) : State :=
  let q := s.port p
  let cool := s.n (Pid.hardCooldown p)
  let full := s.budgetFull p
  let hi := decide (s.z (Pid.iLimCont p) < s.z (Pid.iPkMeas p))
  let cnt := if hi then min full (q.budget + s.outerPs * cool) else q.budget - s.outerPs
  let cont := accOf27 (s.z (Pid.iLimCont p))
  let goal := if full = 0 || q.exhausted then cont else accOf27 (s.z (Pid.iLimHard p))
  let step := scaleAcc one39 (100 * s.outerPs) psS
  let ls := if q.lim < goal then min goal (q.lim + step) else max goal (q.lim - step)
  let s := s.modPort p fun q => { q with budget := cnt, lim := ls }
  let eff := scaleAcc (mulConst ls (s.z (Pid.derate p))) q.fLegNum q.fLegDen
  (s.setN (Pid.hardBudget p) ((full - cnt) / (psMs * max 1 cool))).setZ (Pid.iLimEff p) (q27OfAcc eff)

/-- HARD_BUDGET_EXHAUSTED (R126): the count has reached `i_hard_time`; L_s falls from the next outer step. Told once until the count
has been back at 0 (DESIGN CHOICE, log 30). -/
def execHardBudgetExhausted (t : Nat) (p : Nat) (s : State) : Out :=
  let s := s.advance t
  let q := s.port p
  .next (if q.used && !q.exhausted && decide (0 < s.n (Pid.iHardTime p)) && decide (s.budgetFull p ≤ q.budget) then
      (s.modPort p fun q => { q with exhausted := true }).raise 0x2A03 p (s.n (Pid.iLimCont p))
    else s)

/-- HARD_BUDGET_REFILLED (R126): the count is back at 0 after exhaustion; L_s rises again. -/
def execHardBudgetRefilled (t : Nat) (p : Nat) (s : State) : Out :=
  let s := s.advance t
  let q := s.port p
  .next (if q.used && q.exhausted && decide (q.budget = 0) then s.modPort p fun q => { q with exhausted := false } else s)

/-! ### Phase jumps (R136) -/

/-- An element of the bus voltage is lost (R173). -/
def State.busLost (s : State) (p : Nat) : Bool := (s.port p).fb.any fun e => e.role = 4 && e.lost

/-- θ_m is taken on the bus: with a bus sense that is not lost, else on the filter capacitor (R136, R173). -/
def State.jumpOnBus (s : State) (p : Nat) : Bool := decide (s.n (Pid.busSense p) = 1) && !s.busLost p

/-- The increments and the jump φ of one step, in signed 2^-32 turns; none where φ is not computed. A change of the voltage it is
taken on discards the history (DESIGN CHOICE, log 30). -/
def State.jumpStep (s : State) (p : Nat) : Option Int × State :=
  let q := s.port p
  let onBus := s.jumpOnBus p
  let d := q.done
  let mag := if d.n = 0 then 0 else rneDiv (if onBus then d.busV else d.v) d.n
  let ang := if onBus then d.busTh0 + wordOfInt (rneDiv d.busDth (max 1 d.n)) else d.th0 + wordOfInt (rneDiv d.dth (max 1 d.n))
  if s.isDc p then (none, s)
  else if mag < 13421773 then (none, s.modPort p fun q => { q with jumpPrev := none, jumpIncs := [] })
  else if q.jumpBus ≠ onBus then (none, s.modPort p fun q => { q with jumpPrev := some ang, jumpIncs := [], jumpBus := onBus })
  else
    let s := s.modPort p fun q => { q with jumpPrev := some ang }
    match q.jumpPrev with
    | none => (none, s)
    | some th =>
      let inc := angDiff ang th
      if q.jumpIncs = [] then (none, s.modPort p fun q => { q with jumpIncs := [inc] })
      else
        let mean := rneDiv (q.jumpIncs.foldl (· + ·) 0) q.jumpIncs.length
        let phi := (wordOfInt (inc - mean)).toInt
        if s.n (Pid.pjDetect p) ≤ phi.natAbs then (some phi, s)
        else (none, s.modPort p fun q => { q with jumpIncs := (inc :: q.jumpIncs).take 10 })

/-! ### Ride-through (R138-R140) -/

/-- The ten words of a curve. -/
def State.curve (s : State) (f : Nat → Nat) : List Word := (List.range 10).map fun k => s.w (f k)

/-- The rms value of line-to-line voltages in pu of `v_base`; a peak of √3 reads 1 (R211). -/
def lineRms (xs : List Int) : Int := sqrtRound (2 * (xs.foldl (fun a x => a + x * x) 0).toNat) (3 * xs.length)

/-- The measured voltage of R138: V_meas, or the lowest of the three line-to-line rms voltages of the last half cycle. -/
def State.rtV (s : State) (p : Nat) : Int :=
  if s.n (Pid.rtMeasure p) = 0 then s.z (Pid.vMeas p)
  else
    let l := (s.port p).lls
    min (lineRms (l.map fun x => x.1)) (min (lineRms (l.map fun x => x.2.1)) (lineRms (l.map fun x => x.2.2)))

/-- Excursion bookkeeping of one outer step (R138): opens, advances t_e, follows the band. Answers the side on which a
curve is crossed (1 UV, 2 OV), 0 for none (R140). -/
def State.rtStep (s : State) (p : Nat) : Nat × State :=
  let q := s.port p
  if !q.st.running || s.n (Pid.rtEnable p) ≠ 1 then (0, s)
  else
    let v := s.rtV p
    let uv := decide (v < s.z (Pid.rtUvStart p))
    let ov := decide (s.z (Pid.rtOvStart p) < v)
    if !q.rtOpen && !uv && !ov then (0, s)
    else
      let te := if q.rtOpen then q.rtPs + s.outerPs else 0
      let s := s.onlyIf (!q.rtOpen) fun s =>
        (s.raise 0x2A0B p (u32z v * 2 ^ 32 + (if uv then 1 else 2))).onlyIf (decide (s.inj.port = p)) fun s => s.injAbort 2
      let s := s.modPort p fun q =>
        { q with rtOpen := true, rtPs := te, rtBandFrom := if uv || ov then none else some (q.rtBandFrom.getD s.now) }
      let s := (s.setN (Pid.rtState p) (b01 uv + 2 * b01 ov + 4)).setN (Pid.rtElapsed p) (te / psMs)
      if v < curveAt (s.curve (Pid.rtUvPt p)) te then (1, s)
      else if curveAt (s.curve (Pid.rtOvPt p)) te < v then (2, s)
      else (0, s)

/-- EXCURSION_CLOSE (R138): at this period's outer step V has been inside the band for `rt_reset` without a break. -/
def execExcursionClose (t : Nat) (p : Nat) (s : State) : Out :=
  let s := s.advance t
  let q := s.port p
  .next (match q.rtBandFrom with
    | some f =>
      if q.rtOpen && q.timerDue (f + s.n (Pid.rtReset p) * psMs) then
        let s := (s.modPort p fun q => { q with rtOpen := false, rtBandFrom := none }).setN (Pid.rtState p) 0
        (s.raise 0x0A0C p (q.rtPs / psMs)).recompute 0x0A0C
      else s
    | none => s)

/-- LIM_RELEASE_EXPIRY (R133): at this period's outer step saturation has been inactive for `lim_release` without a break. It is the
sixth input of the step, so it follows the others and no stop they leave pending (R110, R140). -/
def execLimReleaseExpiry (t : Nat) (p : Nat) (s : State) : Out :=
  let s := s.advance t
  let q := s.port p
  .next (if q.st = .limited && q.timerDue (q.satAt + s.n (Pid.limRelease p) * psMs) then
      (s.raise 0x0A02 p (min ((s.now - q.limAt) / psUs) 0xFFFFFFFF)).setPort p .run
    else s)

/-! ### The outer step (R110) -/

/-- Detection of a phase jump (R136): event and count, whatever follows. -/
def State.jumpTold (s : State) (p : Nat) (phi : Option Int) : State :=
  match phi with
  | some f => (s.raise 0x1A07 p (u32z f)).bump (Pid.pjCount p)
  | none => s

/-- Detection of a pole slip of an AC grid-forming port (R131, R132). `delta_slip` reads 0 while θ_v is undefined (DESIGN CHOICE,
log 30). Answers whether the slip is a second one; one exactly 1 s after the first is not within 1 s of it (DESIGN CHOICE, log 30). -/
def State.slipTold (s : State) (p : Nat) : Bool × State :=
  let q := s.port p
  let gfm := decide (s.n (Pid.portMode p) = 0)
  let dNow := if gfm then s.delta p else none
  let slip := match q.deltaPrev, dNow with
    | some a, some b => q.st.switching && decide (2147483648 < (b - a).natAbs)
    | _, _ => false
  let second := match q.slipAt with
    | some t0 => slip && decide (s.now < t0 + psS)
    | none => false
  let s := (s.modPort p fun q => { q with deltaPrev := dNow }).setZ (Pid.deltaSlip p) (dNow.getD 0)
  (second, s.onlyIf slip fun s =>
    ((s.raise 0x1A0A p (u32z (q27OfAcc q.law.omega))).bump (Pid.slipCount p)).modPort p fun q => { q with slipAt := some s.now })

/-- A ride-through trip (R140): its event and count, and PORT-STOP with the open request; a stop already found keeps its cause. -/
def State.rtTrip (s : State) (p : Nat) (v : Int) (side : Nat) : State :=
  let q := s.port p
  let s := (s.raise 0x4A0D p (u32z v * 2 ^ 32 + (q.rtPs / psMs % 16777216) * 256 + side)).bump (Pid.rtTripCount p)
  if q.stopPend then (s.setPort p .portStop).askOpen p else s.portFault p 0x4A0D true true

/-- From the outer step after the decision the faulted legs of a derated port carry nothing (R271). -/
def State.deadStep (s : State) (p : Nat) : State :=
  s.modPort p fun q => { q with deadLegs := if s.bit (Pid.protState p) 5 then q.legs.filter fun l => s.bit (Pid.legsFaulted p) l else [] }

/-- Input 1: faults leading to PORT-STOP. Detections are told first, whatever stops the port; a ride-through trip comes before a
phase jump (R140), then a second pole slip (R132). -/
def State.outerFaults (s : State) (p : Nat) (trip : Nat) (phi : Option Int) : State :=
  let q := s.port p
  let slip := (s.jumpTold p phi).slipTold p
  let s := slip.2
  let big := match phi with
    | some f => decide (deg60 < f.natAbs)
    | none => false
  if q.st.switching && decide (trip ≠ 0) then s.rtTrip p (s.rtV p) trip
  else if q.stopPend then s.setPort p .portStop
  else if !q.st.switching then s
  else if big && decide (s.n (Pid.pjAction p) = 1) then
    (s.raise 0x4A08 p (u32z (phi.getD 0))).portFault p 0x4A08 true true
  else if slip.1 then
    (s.raise 0x4A09 p ((s.now - q.slipAt.getD 0) / psMs)).portFault p 0x4A09 true true
  else if q.legDecide then s.legDecision p
  else s

/-- Input 2: a stop in progress (R114, R121). `confirm` is the contactor confirmation of this step. -/
def State.outerStop (s : State) (p : Nat) (confirm : Option Bool) (rampEnd : Bool) : State :=
  let q := s.port p
  match q.st with
  | .armed | .syncing =>
    let s := s.onlyIf (confirm = some true) fun s => s.askOpen p
    let s := s.setPort p .idle
    s.onlyIf (confirm = some true) fun s => s.latOut p 2 true
  | .energising => if rampEnd then s.setPort p .idle else s
  | .run | .limited =>
    if q.openAsked then (if confirm = some false then s.setPort p .idle else s)
    else if decide (q.law.pF.natAbs < 10995116278) && decide (q.law.qF.natAbs < 10995116278) then s.stopOpen p
    else s
  | _ => s

/-- Input 3 in SYNCING (R119): a close confirmation. -/
def State.syncConfirm (s : State) (p : Nat) : State :=
  let q := s.port p
  let win : Int := s.n (Pid.syncAngleWin p)
  if 2 * win < q.dthPred.natAbs then
    (s.raise 0x4810 p (u32z q.dthPred)).portFault p 0x4810 true true
  else
    let s := s.onlyIf q.permissiveAt.isNone fun s => s.raise 0x1811 p (u32z q.dthPred)
    let s := (s.dropClose p).setBit (Pid.lawFlags p) 3 false
    s.setPort p .run

/-- Input 3: contactor confirmations (R114, R115, R119). -/
def State.outerConfirm (s : State) (p : Nat) (closed : Bool) : State :=
  let q := s.port p
  let s := s.onlyIf (!closed) fun s => (s.latOut p 2 false).modPort p fun q => { q with openAsked := false }
  match q.st, q.arm, closed with
  | .armed, .closing _, true => if s.belowDead p then s.beginRamp p else s.busRose p
  | .armed, .reopening, false => s.rearm p
  | .syncing, _, true => s.syncConfirm p
  | _, _, _ => s

/-- Input 4: bus-state detection (R112, R114, R120). -/
def State.outerBus (s : State) (p : Nat) : State :=
  let q := s.port p
  match q.st with
  | .armed =>
    match q.arm with
    | .closing _ => if s.belowDead p then s else s.busRose p
    | .waiting => s.armedStart p
    | _ => s
  | .syncing =>
    if q.bus = .live then s
    else
      let s := (s.dropClose p).setBit (Pid.lawFlags p) 3 false
      (s.setPort p .armed).modPort p fun q => { q with arm := .waiting }
  | _ => s

/-- Input 6 (R133): a port in RUN enters LIMITED at the first frozen step. -/
def State.outerLimit (s : State) (p : Nat) (sat : Bool) : State :=
  if sat && (s.port p).st = .run then
    let s := (s.raise 0x2A01 p (s.n (Pid.iPkMeas p) * 2 ^ 32 + s.n (Pid.iLimEff p))).bump (Pid.limCount p)
    (s.modPort p fun q => { q with limAt := s.now }).setPort p .limited
  else s

/-- The bus words of an outer step (R113): magnitude always, frequency and angle while live; a live or dead bus that
leaves its level is neither. A lost role-0x04 element means not live (R173). -/
def State.busTrack (s : State) (p : Nat) : State :=
  if s.n (Pid.busSense p) ≠ 1 then s
  else
    let m := (s.port p).busTrk
    let low := decide (m.v < s.z (Pid.deadLevel p))
    let high := decide (s.z (Pid.liveLevel p) ≤ m.v) && !s.busLost p
    let s := (s.setZ (Pid.busV p) m.v).modPort p fun q =>
      { q with
        busLow := if low then some (q.busLow.getD s.now) else none
        busHigh := if high then some (q.busHigh.getD s.now) else none
        bus := if q.bus = .live ∧ !high then .neither else if q.bus = .dead ∧ !low then .neither else q.bus }
    if (s.port p).bus = .live then
      s.showBus p
    else (s.setN (Pid.busF p) 0).setN (Pid.busAngleDiff p) 0

/-- The state inputs of R110 in their order; the first that changes the state ends the evaluation. -/
def State.outerInputs (s : State) (p : Nat) (m : OuterIn) (trip : Nat) (phi : Option Int) (rampEnd : Bool) : State :=
  let confirm := match m.confirm with
    | some c => some c
    | none => (s.port p).confirmIn
  let s := s.modPort p fun q => { q with confirmIn := none, contactor := confirm.getD q.contactor }
  let st0 := (s.port p).st
  let same := fun (s : State) => decide ((s.port p).st = st0)
  let s := s.outerFaults p trip phi
  if !same s then s
  else
    let s := s.onlyIf (s.port p).stopAt.isSome fun s => s.outerStop p confirm rampEnd
    if !same s then s
    else
      let s := match confirm with
        | some c => s.outerConfirm p c
        | none => s
      if !same s then s
      else
        let s := s.outerBus p
        if !same s then s
        else
          let s := s.onlyIf (rampEnd && st0 = .energising) fun s => s.setPort p .run
          s.outerLimit p (s.port p).done.sat

/-- One event 0x2A05 for each leg clipped during the outer period (R129). -/
def State.clipEvents (s : State) (p : Nat) : State :=
  (s.port p).done.clips.foldl (fun s c => s.raise 0x2A05 c.1 (u32z c.2)) s

/-- The transient virtual impedance ends (R114). -/
def State.tviStep (s : State) (p : Nat) : State :=
  match (s.port p).tviStart with
  | some t0 =>
    if t0 + (s.n (Pid.rampTime p) + s.n (Pid.tviDecay p)) * psMs ≤ s.now then
      (s.modPort p fun q => { q with tviStart := none }).setBit (Pid.lawFlags p) 2 false
    else s
  | none => s

/-- The law part of an outer step in the states in which it runs (R110, R130, R142). The integrators restart at the first step that is
not frozen, in LIMITED too, as R130 has it; R133 and R146 speak of the return to RUN (DEDUCED, log 30). -/
def State.outerLaw (s : State) (p : Nat) : Bool × State :=
  let q := s.port p
  let frozen := q.done.sat && decide (s.n (Pid.portMode p) ≠ 1)
  let s := s.onlyIf q.done.sat fun s => s.modPort p fun q => { q with satAt := s.now }
  let s := s.onlyIf q.st.running fun s => s.glzStep p
  let s := if q.st = .syncing then s.syncStep p else s.lawIntegrate p frozen
  let s := (s.setBit (Pid.lawFlags p) 4 frozen).tviStep p
  if q.st = .energising && !frozen then s.rampStep p else (false, s)

/-- The law runs while the port switches. -/
def State.lawOrRest (s : State) (p : Nat) : Bool × State :=
  if (s.port p).st.switching then s.outerLaw p else (false, s)

/-- The words that an outer step shows. -/
def outerWords (p : Nat) : List Nat :=
  [Pid.omega p, Pid.eMag p, Pid.pMeas p, Pid.qMeas p, Pid.vMeas p, Pid.iLimEff p, Pid.hardBudget p, Pid.deltaSlip p, Pid.glzP p,
   Pid.glzQ p, Pid.glzV p, Pid.glzF p, Pid.glzLimited p, Pid.lawFlags p, Pid.rtState p, Pid.rtElapsed p]

/-- What the step would lose if it is not kept (R166, R168). -/
def State.outerSave (s : State) (p : Nat) : OuterSave :=
  let q := s.port p
  { st := q.st, law := q.law, budget := q.budget, lim := q.lim, jumpPrev := q.jumpPrev, jumpIncs := q.jumpIncs
    deltaPrev := q.deltaPrev, slipAt := q.slipAt, dwellFrom := q.dwellFrom, rt := (q.rtOpen, q.rtPs, q.rtBandFrom)
    words := (outerWords p).map fun i => (i, s.w i) }

/-- The operations of a port's outer step in force (R153, R156). -/
def State.outerOps (s : State) (p : Nat) : Nat := s.n (Pid.opsOuter p)

/-- Set-points written outside RUN and LIMITED are the shaped values from the next outer step (R106, R142). -/
def State.glzRest (s : State) (p : Nat) : State := s.onlyIf (!(s.port p).st.running) fun s => s.glzHold p

/-- What an outer step begins with: the bus, what the step would lose, the measurements and the limit. -/
def State.outerBegin (s : State) (p : Nat) : State :=
  let s := (s.busTrack p).deadStep p
  let s := s.modPort p fun q => { q with saved := some (s.outerSave p), outerRan := true, outerLeft := s.outerOps p }
  (((s.glzRest p).lawMeasure p).limitStep p).clipEvents p

/-- What an outer step ends with: its entry for Q-OUT, and whether a timer may act in it, which only one that left the port in the state
`st` allows (R110). -/
def State.outerClose (s : State) (p : Nat) (st : PortState) : State :=
  s.modPort p fun q => { q with outNext := s.outEntry p, stepAt := if q.st = st then some s.now else none }

/-- One outer step of a used port (R110, R153). -/
def State.outerStep (s : State) (p : Nat) (m : OuterIn) : State :=
  let s := s.outerBegin p
  let jump := s.jumpStep p
  let ride := jump.2.rtStep p
  let law := ride.2.lawOrRest p
  let st := (s.port p).st
  ((((law.2.outerInputs p m ride.1 jump.1 law.1).outerClose p st).recompute 0x2A0B).leaveEnergise).leaveStopping

/-- OUTER_STEP: one outer step of a port, once in each outer period but the first, which has no period before it (R110, R153). What
the law computed is kept aside until the comparison (R166, R168). A port at rest only tracks its bus and its measurements. -/
def execOuterStep (t : Nat) (p : Nat) (m : OuterIn) (s : State) : Out :=
  let s := s.advance t
  .next (if (s.port p).used && !(s.port p).outerRan && decide (2 ≤ s.eng.bounds) then s.outerStep p m else s)

end Sys2Proof.Machine
end

