-- ==== Sys2Proof/Machine/Engine.lean ====
section
/-! DEFINITION. The engine's inner period: period tick and update point (R152, R153, R230), slack (R184), late lanes, slices,
comparison, hold and surrender (R153, R154, R164-R169), what an agreed inner partition commits (R93, R96, R98, R100, R125-R130,
R241), and the cycle lock (R386). A row of the inner period acts no earlier than its window ends (log 9). -/

namespace Sys2Proof.Machine

/-! ### Observer and trackers (R102, R103, R113) -/

/-- The element values of a role. -/
def PortSt.role (q : PortSt) (r : Nat) : List (Nat × Nat × Int) := q.vals.filter fun v => v.1 = r

/-- What the observer of a port works on. -/
def State.observe (s : State) (p k : Nat) : Int :=
  let q := s.port p
  Config.observer [s.z (Pid.lfPu p), s.z (Pid.cfPu p), s.z (Pid.lgPu p), s.z (Pid.obsGain p)] (s.n (Pid.theta p)) q.vRef q.vals q.obs k

/-- The estimates of a period (R103 steps 1 and 4). A DC port has no observer (R101). -/
def State.estimate (s : State) (p : Nat) : InnerRes :=
  if s.isDc p then ⟨0, 0, 0, 0, 0, (0, 0), (0, 0), (0, 0), (0, 0), 0, 0, []⟩
  else
    let o := fun (k : Nat) => satQ27 (s.observe p k)
    let a := fun (k : Nat) => BitVec.ofInt 32 (s.observe p k)
    { vd := o 0, vq := o 1, id := o 2, iq := o 3, thetaV := a 4, iPos := (o 5, o 6), iNeg := (o 7, o 8), vNeg := (o 9, o 10)
      iNegOut := (o 11, o 12), busAng := a 13, busMag := o 14
      pred := ((s.elems p).filter fun e => e.1 ≤ 3).map fun e => (e.1, e.2.1, o (1024 * e.1 + e.2.1)) }

/-- The observer's state words after the period. -/
def State.obsNext (s : State) (p : Nat) : List Int :=
  if s.isDc p then [] else (List.range 16).map fun k => satAcc (s.observe p (65536 + k))

/-- A tracker after a period. -/
def TrkSt.run (t : TrkSt) (bandwidth ps : Nat) (vals : List (Nat × Nat × Int)) : TrkSt :=
  let o := Config.tracker bandwidth ps vals t.cells
  { v := satQ27 (o 0), f := satQ27 (o 1), ang := BitVec.ofInt 32 (o 2), cells := (List.range 4).map fun k => satAcc (o (3 + k)) }

/-- The tracker of a grid-following port after `k` inner periods (R102): on the capacitor voltage, of bandwidth `gf_pll_bw`. -/
def State.gfTrack (s : State) (p k : Nat) : TrkSt :=
  let q := s.port p
  if s.n (Pid.portMode p) = 1 then q.gfTrk.run (s.n (Pid.gfPllBw p)) (s.tInnerNs * 1000 * k) (q.role 2) else q.gfTrk

/-- The bus tracker after `k` inner periods (R113): on the role 0x04 channels, of 10 Hz bandwidth. -/
def State.busTracker (s : State) (p k : Nat) : TrkSt :=
  let q := s.port p
  if s.n (Pid.busSense p) = 1 then q.busTrk.run 10 (s.tInnerNs * 1000 * k) (q.role 4) else q.busTrk

/-! ### The inner law's results (R96, R98, R100, R127-R129) -/

/-- What is left of the transient virtual impedance (R114), as a numerator over `ramp_time` + `tvi_decay` in ps. -/
def State.tviLeft (s : State) (p : Nat) : Nat × Nat :=
  let full := (s.n (Pid.rampTime p) + s.n (Pid.tviDecay p)) * psMs
  match (s.port p).tviStart with
  | some a => (full - (s.now - a), full)
  | none => (0, full)

/-- A transient part: it falls linearly to zero (R114). -/
def State.tviPart (s : State) (p : Nat) (start : Int) : Int :=
  let (left, full) := s.tviLeft p
  if full = 0 then 0 else satQ27 (rneDiv (start * left) full)

/-- The sum of the leg currents the lanes read. -/
def PortSt.legSum (q : PortSt) : Int := (q.vals.filter fun v => v.1 = 1).foldl (fun a v => a + v.2.2) 0

/-- The formed-terminal current of a DC port (R100): role 0x07, or the leg currents scaled to the formed side by the ratio of the two
voltages (DESIGN CHOICE, log 45). -/
def State.dcCurrent (s : State) (p : Nat) : Int :=
  let q := s.port p
  match valOf q.vals 7 0 with
  | some i => i
  | none =>
    let form := (valOf q.vals 5 0).getD 0
    if form ≤ 0 then satQ27 q.legSum else satQ27 (rneDiv (q.legSum * (valOf q.vals 6 0).getD 0) form.toNat)

/-- Positive-sequence voltage and output current of a period: in the dq frame on an AC port, those of the formed terminal on a DC port
(R93, R100). -/
def State.dqOf (s : State) (p : Nat) (r : InnerRes) : Int × Int × Int × Int :=
  if s.isDc p then ((valOf (s.port p).vals 5 0).getD 0, 0, s.dcCurrent p, 0) else (r.vd, r.vq, r.id, r.iq)

/-- i_pk of the converter-side current (R125). -/
def State.iPk (s : State) (p : Nat) (r : InnerRes) : Int :=
  if s.isDc p then satQ27 (s.dcCurrent p).natAbs else satQ27 (mag27 r.iPos.1 r.iPos.2 + mag27 r.iNeg.1 r.iNeg.2)

/-- The voltage reference of R98, or of R100 on a DC port, with the transient and the growing virtual impedance. A grid-following port
forms one only while it synchronises, the bus magnitude (R102, R117). -/
def State.vRefOf (s : State) (p : Nat) (r : InnerRes) : Int × Int :=
  let q := s.port p
  let o := q.outIn
  let d := s.dqOf p r
  if s.isDc p then (clampI 0 (s.z (Pid.eMax p)) (q27OfAcc (satAcc (accOf27 o.e - prodAcc (satQ27 (o.rv + q27OfAcc q.xAdd)) d.2.2.1))), 0)
  else if s.n (Pid.portMode p) = 1 then (if q.st = .syncing then o.e else 0, 0)
  else
    let R := satQ27 (o.rv + s.tviPart p (s.z (Pid.tviR0 p)) + rneDiv q.xAdd (4096 * max 1 (s.n (Pid.viXr p))))
    let X := satQ27 (o.xv + s.tviPart p (s.z (Pid.tviX0 p)) + q27OfAcc q.xAdd)
    let v := virtZ o.e o.omega R X d.2.2.1 d.2.2.2
    (q27OfAcc v.1, q27OfAcc v.2)

/-- x_add of one inner period in the accumulator (R127, R161): up at once, down through the lag of `vi_fall_tc`. -/
def State.growStep (s : State) (p : Nat) (iPk : Int) : Int :=
  let x := (s.port p).xAdd
  if s.n (Pid.portMode p) = 1 then 0
  else
    let tgt := min (accOf27 (s.z (Pid.xAddMax p))) (prodAcc (s.z (Pid.kViX p)) (max 0 (iPk - s.z (Pid.iViStart p))))
    if x ≤ tgt then tgt else satAcc (x + mulConst (tgt - x) (const27 s.tInnerNs (s.tInnerNs + s.n (Pid.viFallTc p) * 1000000)))

/-- The advance of θ over `k` inner periods in 2^-48 turns (R96, R167): ω · f_nom · T_i · k. -/
def State.thetaStep (s : State) (p k : Nat) : Int :=
  rneDiv ((s.port p).outIn.omega * 2 ^ 21 * s.n (Pid.fNom p) * s.tInnerNs * k) 1000000000000

/-- θ of a port after `k` inner periods; a grid-following port's tracker takes its place but in SYNCING, which steers it (R102,
R117); a DC port has none (R101). -/
def State.advanceTheta (s : State) (p k : Nat) : State :=
  if s.isDc p then s
  else
    let th := if s.n (Pid.portMode p) = 1 ∧ (s.port p).st ≠ .syncing then (s.gfTrack p k).ang.toNat * 65536
      else (((s.port p).theta48 + s.thetaStep p k) % 2 ^ 48).toNat
    (s.modPort p fun q => { q with theta48 := th }).setN (Pid.theta p) (th / 65536)

/-- The legs that share a leg's phase, without those of a derated port that carry nothing (R129, R271); on a DC port all legs. -/
def PortSt.sharers (q : PortSt) (l : Nat) : Nat :=
  if q.deadLegs = [] then q.topo.perPhase
  else (q.legs.filter fun k => (q.topo.isDc || decide (q.topo.phaseOf (k - q.refLeg) = q.topo.phaseOf (l - q.refLeg)))
    && !q.deadLegs.contains k).length

/-- The bound of a leg reference (R129, R271): ±(`leg_lim_margin`/100) · L/n, 0 for a faulted leg of a derated port. -/
def State.legBound (s : State) (p l : Nat) : Int :=
  let q := s.port p
  if q.deadLegs.contains l then 0
  else rneDiv ((s.n (Pid.legLimMargin p) : Int) * q.outIn.lim) (100 * max 1 (q.sharers l))

/-- Note a clipped leg with its largest reference. -/
def addClip (cs : List (Nat × Int)) (c : Nat × Int) : List (Nat × Int) :=
  match cs.find? fun x => x.1 = c.1 with
  | some x => if x.2.natAbs < c.2.natAbs then c :: cs.filter fun y => y.1 ≠ c.1 else cs
  | none => cs ++ [c]

/-- The legs clipped in one period: beyond their bound, or every leg while saturation acts (R129). -/
def State.clipped (s : State) (p : Nat) (refs : List (Nat × Int)) (sat : Bool) : List (Nat × Int) :=
  refs.filter fun l => !(s.port p).deadLegs.contains l.1 && (sat || decide ((s.legBound p l.1) < l.2.natAbs))

/-- One step of a loop with a proportional gain and an integral gain per period: its integrator and its output in accumulators. -/
def piStep (kp ki i e : Int) : Int × Int :=
  let i := satAcc (i + prodAcc ki e)
  (i, satAcc (prodAcc kp e + i))

/-- One component of the voltage loop: its integrator, and its output with what feeds forward, in Q4.27. -/
def loopPart (kp ki i e ff : Int) : Int × Int :=
  let r := piStep kp ki i e
  (r.1, q27OfAcc (satAcc (r.2 + accOf27 ff)))

/-- The voltage loop (R101, R103 step 4) on the reference `v`: its integrators, and the two parts of the current reference. An AC port
feeds its output current forward. The integrator moves before it is used, and saturation does not stop it (DESIGN CHOICE, log 11). -/
def State.loopRef (s : State) (p : Nat) (r : InnerRes) (v : Int × Int) : LoopSt × (Int × Int) × Int × Int :=
  let l := (s.port p).loop
  let d := s.dqOf p r
  let kp := s.z (Pid.kpV p)
  let ki := s.paramVal p (Pid.kiV p)
  if s.isDc p then
    let a := loopPart kp ki l.pos.1 (satQ27 (v.1 - d.1)) 0
    ({ pos := (a.1, 0) }, (a.2, 0), 0, 0)
  else
    let a := loopPart kp ki l.pos.1 (satQ27 (v.1 - d.1)) d.2.2.1
    let b := loopPart kp ki l.pos.2 (satQ27 (v.2 - d.2.1)) d.2.2.2
    if s.n (Pid.negSeqEn p) = 1 then
      let kn := s.z (Pid.kpVNeg p)
      let in_ := s.paramVal p (Pid.kiVNeg p)
      let c := loopPart kn in_ l.neg.1 (satQ27 (-r.vNeg.1)) r.iNegOut.1
      let e := loopPart kn in_ l.neg.2 (satQ27 (-r.vNeg.2)) r.iNegOut.2
      ({ pos := (a.1, b.1), neg := (c.1, e.1) }, (a.2, b.2), c.2, e.2)
    else ({ pos := (a.1, b.1) }, (a.2, b.2), 0, 0)

/-- The two parts of the current reference before R128, with the loop's integrators: on a grid-following port that does not synchronise
i_d and i_q of R102, with no voltage loop. -/
def State.curRef (s : State) (p : Nat) (r : InnerRes) (v : Int × Int) : LoopSt × (Int × Int) × Int × Int :=
  let o := (s.port p).outIn
  if s.n (Pid.portMode p) = 1 ∧ (s.port p).st ≠ .syncing then ({}, (o.iD, o.iQ), 0, 0) else s.loopRef p r v

/-- The current reference of a leg (R101, R103 step 7): the share of its phase, or of a DC port's whole, with the balancing term that
R129's note counts in (DEDUCED, log 11). A faulted leg of a derated port has none (R271). -/
def State.legRef (s : State) (p : Nat) (c : (Int × Int) × Int × Int) (l : Nat) : Int :=
  let q := s.port p
  let dc := s.isDc p
  let ph := q.topo.phaseOf (l - q.refLeg)
  let θ : Int := s.n (Pid.theta p)
  let ref := if dc then c.1.1 else satQ27 (phasePart false (c.1.1, c.1.2, θ) ph + phasePart false (c.2.1, c.2.2, -θ) ph)
  let mates := q.legs.filter fun k => dc || decide (q.topo.phaseOf (k - q.refLeg) = ph)
  let i := fun k => (valOf q.vals 1 (k - q.refLeg)).getD 0
  let n := max 1 (q.sharers l)
  let mean := rneDiv (mates.foldl (fun a k => a + i k) 0) n
  if q.deadLegs.contains l then 0 else satQ27 (rneDiv ref n + q27OfAcc (prodAcc (s.z (Pid.kpBal p)) (satQ27 (mean - i l))))

/-- The leg references of a port that switches. -/
def State.legRefs (s : State) (p : Nat) (c : (Int × Int) × Int × Int) : List (Nat × Int) :=
  (s.port p).legs.map fun l => (l, s.legRef p c l)

/-- Vector saturation of one period (R128): whether it acts, and the reference after it. -/
def State.saturate (s : State) (p : Nat) (c : (Int × Int) × Int × Int) : Bool × (Int × Int) × Int × Int :=
  let a := mag27 c.1.1 c.1.2
  let b := mag27 c.2.1 c.2.2
  let L := (s.port p).outIn.lim
  let m := satMags a b L (s.n (Pid.negSeqPrio p)) (s.z (Pid.negShareMax p))
  (decide (L < a + b), scaleVec c.1 a m.1, scaleVec c.2 b m.2)

/-- The orders of the resonant terms (R103). -/
def resOrders : List Nat := [1, 5, 7, 11, 13]

/-- The resonators that run in phase `ph` on an error (R103 step 6): the term of each enabled order, whose form the spec does not give, at
h·ω. -/
def State.resonate (s : State) (p ph : Nat) (err : Int) : List BlockRes :=
  (List.range 5).map fun k =>
    if s.bit (Pid.resEnable p) k then
      openBlock 0x19 [s.paramVal p (Pid.krH p k)] [err, satQ27 ((s.port p).outIn.omega * resOrders.getD k 1)]
        ((s.port p).res.getD (5 * ph + k) [])
    else {}

/-- The sum of the predicted currents of some legs, each as measured where the observer has none. -/
def PortSt.legCurrents (q : PortSt) (r : InnerRes) (ls : List Nat) : Int :=
  ls.foldl (fun a l => a + ((valOf r.pred 1 (l - q.refLeg)).getD ((valOf q.vals 1 (l - q.refLeg)).getD 0))) 0

/-- The legs of a phase; on a DC port all legs. -/
def PortSt.mates (q : PortSt) (ph : Nat) : List Nat := q.legs.filter fun l => q.topo.isDc || decide (q.topo.phaseOf (l - q.refLeg) = ph)

/-- The current loop of a phase (R101, R103 step 6): its voltage reference and its resonators. The spec gives a DC port's loop no
feed-forward. -/
def State.phaseLoop (s : State) (p : Nat) (r : InnerRes) (ph : Nat) : Int × List BlockRes :=
  let q := s.port p
  let θ : Int := s.n (Pid.theta p)
  let part := fun (v n : Int × Int) => satQ27 (phasePart false (v.1, v.2, θ) ph + phasePart false (n.1, n.2, -θ) ph)
  let ls := q.mates ph
  let i := satQ27 (q.legCurrents r ls)
  let ref := satQ27 (ls.foldl (fun a l => a + ((q.legClip.find? fun c => c.1 = l).map fun c => c.2).getD 0) 0)
  let err := satQ27 (ref - i)
  if s.isDc p then (q27OfAcc (prodAcc (s.z (Pid.kpI p)) err), [])
  else
    let rs := s.resonate p ph err
    let damp := prodAcc (s.z (Pid.kAd p)) (satQ27 (i - part (r.id, r.iq) r.iNegOut))
    let sum := rs.foldl (fun a b => a + nthI b.accs 0) (accOf27 (part (r.vd, r.vq) r.vNeg) + prodAcc (s.z (Pid.kpI p)) err - damp)
    (q27OfAcc (satAcc sum), rs)

/-- The duty of a leg (R101, R103 step 7): the phase voltage with the balancing term, normalised to the measured DC link as NORM does
(log 45), within 0 and 1. -/
def State.dutyOf (s : State) (p : Nat) (r : InnerRes) (v : Int) (l : Nat) : Int :=
  let q := s.port p
  let ls := q.mates (q.topo.phaseOf (l - q.refLeg))
  let mean := rneDiv (q.legCurrents r ls) (max 1 (q.sharers l))
  let bal := prodAcc (s.z (Pid.kpBal p)) (satQ27 (mean - q.legCurrents r [l]))
  let dc := (valOf q.vals 5 0).getD 0
  clampI 0 one27 (q27OfAcc (satAcc (one39 / 2 + quotAcc (q27OfAcc (satAcc (accOf27 v + bal))) (if dc = 0 then 1 else dc))))

/-- Steps 6 and 7 of R103 on a port that switches, R101 on a DC port: the duties that the law forms. In open loop the voltage reference
passes the loops (R174), and the resonators are cleared. -/
def State.lawDuties (s : State) (p : Nat) (r : InnerRes) : State :=
  let q := s.port p
  if !q.st.switching then s.modPort p fun q => { q with legDuty := [], res := [] }
  else
    let open_ := q.openLoop.isSome
    let n := if s.isDc p then 1 else 3
    let loops := if open_ then [] else (List.range n).map (s.phaseLoop p r)
    let θ : Int := s.n (Pid.theta p)
    let volt := fun (ph : Nat) => if open_ then phasePart (s.isDc p) (q.vRef.1, q.vRef.2, θ) ph else (loops.getD ph (0, [])).1
    let duties := q.legs.map fun l => (l, s.dutyOf p r (volt (if s.isDc p then 0 else q.topo.phaseOf (l - q.refLeg))) l)
    s.modPort p fun q => { q with legDuty := duties, res := loops.flatMap fun x => x.2.map fun b => b.cells }

/-- One agreed inner period of a port with its estimates: trackers, angle, growing impedance, references, sums of the outer period (R93,
R96, R98, R101-R103, R113, R125-R130, R136). Without a current reference neither saturation nor a clip acts, and the loop's integrators are cleared (R130,
R174). -/
def State.innerTake (s : State) (p : Nat) (r : InnerRes) : State :=
  let k := (s.port p).heldRun + 1
  let trk := (s.gfTrack p k, s.busTracker p k)
  let cells := s.obsNext p
  let s := s.advanceTheta p k
  let i := s.iPk p r
  let s := s.setZ (Pid.iPkMeas p) i
  let x := s.growStep p i
  let s := (s.modPort p fun q => { q with xAdd := x, heldRun := 0, inner := some r, pred := r.pred, obs := cells, gfTrk := trk.1, busTrk := trk.2 }).setZ (Pid.xAdd p) (q27OfAcc x)
  let on := (s.port p).st.switching && (s.port p).openLoop.isNone
  let d := s.dqOf p r
  let pw := dqPower d.1 d.2.1 d.2.2.1 d.2.2.2
  let v := s.vRefOf p r
  let c := if on then s.curRef p r v else ({}, (0, 0), 0, 0)
  let m := if on then s.saturate p c.2 else (false, c.2)
  let refs := if on then s.legRefs p m.2 else []
  let clips := s.clipped p refs m.1
  let s := s.modPort p fun q =>
    { q with
      vRef := v
      loop := c.1
      iSat := m.2
      legClip := refs.map fun l => (l.1, clampI (-(s.legBound p l.1)) (s.legBound p l.1) l.2)
      acc := { p := q.acc.p + pw.1
               q := q.acc.q + (if s.isDc p then 0 else pw.2)
               v := q.acc.v + mag27 d.1 d.2.1
               n := q.acc.n + 1
               th0 := if q.acc.n = 0 then r.thetaV else q.acc.th0
               dth := if q.acc.n = 0 then 0 else q.acc.dth + angDiff r.thetaV q.acc.th0
               busTh0 := if q.acc.n = 0 then r.busAng else q.acc.busTh0
               busDth := if q.acc.n = 0 then 0 else q.acc.busDth + angDiff r.busAng q.acc.busTh0
               busV := q.acc.busV + r.busMag
               sat := q.acc.sat || m.1
               clips := clips.foldl addClip q.acc.clips } }
  let s := s.lawDuties p r
  s.onlyIf (decide (s.inj.port = p) && decide (s.z Pid.injGuardI < i)) fun s => s.injAbort 3

/-! ### Queues of the engine (R38) -/

/-- Commit into Q-REF (R241); a pending entry is overwritten, which the entry in its place says (R40). -/
def State.pushRef (s : State) (p : Nat) (e : RefEntry) : State :=
  let e := { e with ovw := (s.port p).qRef.isSome }
  let s := match (s.port p).qRef with
    | some old =>
      let s := s.modPort p fun q => { q with refOvr := q.refOvr + 1 }
      (s.qLost (8 + p)).raise 0x1201 (8 + p) (min (s.port p).refOvr 0xFFFFFFFF * 2 ^ 32 + old.stamp.toNat)
    | none => s
  (s.modPort p fun q => { q with qRef := some e }).highWater (8 + p) 1

/-- An entry goes into Q-OUT (R39): depth 2, the oldest overwritten, with the flag in the one that survives (R38). -/
def State.enterOut (s : State) (p : Nat) (e : OutEntry) : State :=
  match (s.port p).qOut with
  | a :: b :: _ =>
    let s := s.modPort p fun q => { q with qOut := [{ b with ovw := true }, e], outOvr := q.outOvr + 1 }
    (s.qLost (4 + p)).raise 0x1201 (4 + p) (min (s.port p).outOvr 0xFFFFFFFF * 2 ^ 32 + a.stamp.toNat)
  | l => (s.modPort p fun q => { q with qOut := l ++ [e] }).highWater (4 + p) (l.length + 1)

/-- The value a SINK writes for a member, by its constant (log 45). -/
def sinkVal (ws : List (Nat × Int)) (k : Nat) : Option Int := (ws.find? fun w => w.1 = k).map fun w => w.2

/-- An entry with the members that a SINK of the outer partition writes (R155, R165), under the numbers a SRC reads them by. -/
def OutEntry.sunk (e : OutEntry) (ws : List (Nat × Int)) : OutEntry :=
  let f := fun (k : Nat) (v : Int) => (sinkVal ws (65536 + k)).getD v
  { e with omega := f 0 e.omega, e := f 1 e.e, rv := f 2 e.rv, xv := f 3 e.xv, lim := f 4 e.lim, iD := f 5 e.iD, iQ := f 6 e.iQ, vD := f 7 e.vD,
           vQ := f 8 e.vQ }

/-- The voltage reference that an entry gives with the last estimates (R98, R100). -/
def State.vRefFor (s : State) (p : Nat) (e : OutEntry) : Int × Int :=
  match (s.port p).inner with
  | some r => (s.modPort p fun q => { q with outIn := e }).vRefOf p r
  | none => (e.e, 0)

/-- An agreed outer step enters Q-OUT with what it formed (R147): the outer law's outputs with the voltage reference at this step, or
what Lane X's graph wrote in their place. -/
def State.pushOut (s : State) (p : Nat) (ws : List (Nat × Int)) : State :=
  let e := (s.port p).outNext
  let v := s.vRefFor p e
  s.enterOut p { { e with vD := v.1, vQ := v.2 }.sunk ws with stamp := s.stamp, ovw := false }

/-- The inner partition takes an entry each period; without one it keeps the last (R39, R96). -/
def State.takeOut (s : State) (p : Nat) : State :=
  s.modPort p fun q => match q.qOut with
    | e :: es => { q with outIn := e, qOut := es }
    | [] => q

/-- A Q-SMP entry is released once both lanes have read it, or at the end of its period (R39). -/
def State.takeSmp (s : State) (p : Nat) : State :=
  s.modPort p fun q => match q.qSmp with
    | e :: es => { q with smpTaken := some e, qSmp := es }
    | [] => q

/-- Both lanes have completed the period. -/
def EngSt.read (e : EngSt) : Bool := e.doneX.isSome && e.doneY.isSome

/-! ### Hold and surrender (R166-R169) -/

/-- A port is held for the period (R166). -/
def State.holdPort (s : State) (p : Nat) : State := (s.bump (Pid.holdCount p)).modPort p fun q => { q with heldRun := q.heldRun + 1 }

/-- The law of a port whose outer step is not kept: as it was before. Where the step has changed the port state, the change stands (log
30): a start keeps the values it begins with, and a port at rest its resting set-points. -/
def OuterSave.lawFor (l : OuterSave) (q : PortSt) : LawSt :=
  if q.st.switching = l.st.switching then l.law
  else if q.st.switching then { q.law with pF := l.law.pF, qF := l.law.qF }
  else { q.law with omega := l.law.omega, e := l.law.e, pF := l.law.pF, qF := l.law.qF, gfD := l.law.gfD, gfQ := l.law.gfQ }

/-- The excursion stays open only in RUN and LIMITED (R138). -/
def OuterSave.rtFor (l : OuterSave) (q : PortSt) : Bool × Nat × Option Nat :=
  if q.st.running then l.rt else (q.rtOpen, q.rtPs, q.rtBandFrom)

/-- The state before an outer step, put back (R166, R168). -/
def OuterSave.restore (l : OuterSave) (q : PortSt) : PortSt :=
  let rt := l.rtFor q
  { q with budget := l.budget, lim := l.lim, jumpPrev := l.jumpPrev, jumpIncs := l.jumpIncs, deltaPrev := l.deltaPrev, slipAt := l.slipAt
           law := l.lawFor q, dwellFrom := if q.st = l.st then l.dwellFrom else q.dwellFrom, rtOpen := rt.1, rtPs := rt.2.1
           rtBandFrom := rt.2.2, saved := none, outerLeft := 0 }

/-- The words that go back with it: all, or where the step has changed the port state those that the change does not set. -/
def OuterSave.wordsFor (l : OuterSave) (p : Nat) (q : PortSt) : List (Nat × BitVec 32) :=
  if q.st = l.st then l.words
  else
    let own := [Pid.lawFlags p] ++ (if q.st.running then [] else [Pid.rtState p, Pid.rtElapsed p])
      ++ (if q.st.switching = l.st.switching then [] else [Pid.glzP p, Pid.glzQ p, Pid.glzV p, Pid.glzF p, Pid.glzLimited p])
      ++ (if q.st.switching && !l.st.switching then [Pid.omega p, Pid.eMag p] else [])
    l.words.filter fun w => !own.contains w.1

/-- The outer step of a port keeps none of its state (R166, R168), nor of the words it showed. -/
def State.dropOuter (s : State) (p : Nat) : State :=
  match (s.port p).saved with
  | none => s
  | some l =>
    let ws := l.wordsFor p (s.port p)
    let s := s.modPort p l.restore
    (ws.foldl (fun s w => s.setW w.1 w.2) s).recompute 0x0A0C

/-- The engine surrenders (R169): at the update point that ends the period the unit follows. -/
def State.surrender (s : State) (reason : Nat) : State :=
  let paired := decide (s.n Pid.pairState = 1)
  let s := (s.raise 0x5C03 0 (s.n Pid.periodSeq * 2 ^ 32 + b01 paired * 256 + reason)).setN Pid.engineState 2
  let s := { s with unit := { s.unit with surrender := true }, prf := { s.prf with pendRungs := [] } }
  s.announceGiveUp 1 (s.n Pid.periodSeq)

/-- A period is judged (R169): runs and window, and the surrender in a failed one. -/
def State.judgePeriod (s : State) (failed : Bool) : State :=
  let n := s.eng.count
  let old := s.eng.fails.filter fun k => decide (n < k + 1000)
  let fails := if failed then old ++ [n] else old
  let run := if failed then s.n Pid.failRun + 1 else 0
  let s := { s with eng := { s.eng with judged := true, fails := fails } }
  let s := (s.setN Pid.failRun (min run 3)).setN Pid.failWindow (min fails.length 5)
  if !failed then s
  else
    let s := s.injAbort 4
    if 3 ≤ run then s.surrender 1 else if 5 ≤ fails.length then s.surrender 2 else s

/-- The engine measures and judges this period: it runs, or has surrendered in it (R185). -/
def State.engineOn (s : State) : Bool := decide (s.n Pid.engineState = 1) || s.unit.surrender

/-- The slack of a completion now (R184), in whole ticks, a completion between two ticks at the later one; within 1 ns of the deadline
it is a tie, which the deadline wins (R47). -/
def State.slackNow (s : State) : Int :=
  if s.now < s.deadlineAt ∧ s.deadlineAt ≤ s.now + tiePs then 0 else ((s.deadlineAt : Int) - s.now) / 625 * 625

/-- LANE_COMPLETION (R154, R184): the slack, up to the update point. -/
def execLaneCompletion (t : Nat) (laneY : Bool) (_hs : Unit) (s : State) : Out :=
  let s := s.advance t
  let e := s.eng
  .next (if !s.engineOn ∨ e.count = 0 ∨ (if laneY then e.doneY else e.doneX).isSome ∨ s.periodEnd ≤ s.now then s
    else
      let S := s.slackNow
      let s := { s with eng := if laneY then { e with doneY := some S } else { e with doneX := some S } }
      let s := s.setZ (if laneY then Pid.slackYLast else Pid.slackXLast) S
      s.onlyIf s.eng.read fun s => s.each s.usedPorts State.takeSmp)

/-- A lane is late: it has not completed before the deadline, which wins a tie (R47, R154). -/
def lateLane (o : Option Int) : Bool :=
  match o with
  | some S => decide (S ≤ 0)
  | none => true

/-- COMPUTE_DEADLINE (R154, R168): a late lane holds every port and nothing is compared. -/
def execComputeDeadline (t : Nat) (s : State) : Out :=
  let s := s.advance t
  let mask := b01 (lateLane s.eng.doneX) + 2 * b01 (lateLane s.eng.doneY)
  .next (if s.n Pid.engineState ≠ 1 ∨ s.eng.judged ∨ s.eng.count = 0 ∨ s.now < s.deadlineAt ∨ mask = 0 then s
    else
      let s := (s.raise 0x1C02 0 (s.n Pid.periodSeq * 2 ^ 32 + mask)).bump Pid.lateCount
      let s := { s with eng := { s.eng with late := mask } }
      (s.each s.usedPorts State.holdPort).judgePeriod true)

/-! ### Outer slices (R153) -/

/-- Serve the pending outer steps in port order with the operations of one slice; answers the ports whose step completes. -/
def sliceGo : Nat → List (Nat × Nat) → List (Nat × Nat)
  | _, [] => []
  | ops, (p, left) :: rest => (p, left - min ops left) :: sliceGo (ops - min ops left) rest

/-- The pending outer steps with the operations they have left. -/
def State.outerPending (s : State) : List (Nat × Nat) :=
  (s.usedPorts.filter fun p => (s.port p).saved.isSome).map fun p => (p, (s.port p).outerLeft)

/-- What this period's slice leaves of each. -/
def State.sliced (s : State) : List (Nat × Nat) := sliceGo (s.n Pid.sliceOpsEff) s.outerPending

/-- The slice of a period whose lanes completed (R153, R168). -/
def State.takeSlice (s : State) : State := s.sliced.foldl (fun s x => s.modPort x.1 fun q => { q with outerLeft := x.2 }) s

/-- Ports whose outer step runs its last operation in this period. -/
def State.outerEnds (s : State) : List Nat := (s.sliced.filter fun x => x.2 = 0).map fun x => x.1

/-! ### Comparison (R164, R165) -/

/-- The voltage reference of the period under way and its angle, where they pass the loops of a port in open loop (R174). -/
def State.openRef (s : State) (x : PartIn) : Option (Int × Int × Int) :=
  if x.outer || (s.port x.port).openLoop.isNone then none
  else
    let p := x.port
    let k := (s.port p).heldRun + 1
    let r := s.estimate p
    let s := s.advanceTheta p k
    let g := s.growStep p (s.iPk p r)
    let v := (s.modPort p fun q => { q with xAdd := g }).vRefOf p r
    some (v.1, v.2, (s.w (Pid.theta p)).toNat)

/-- What a lane is given of a partition. -/
def State.laneIn (s : State) (x : PartIn) (laneY : Bool) : LaneIn :=
  { port := x.port, outer := x.outer, laneY := laneY, c := laneOffset (s.w Pid.laneSeed) (s.n Pid.periodSeq), hits := x.hits
    sig := s.sigAt x.port x.outer, pass := s.openRef x }

/-- Lane X's execution, whose words are committed (R165). -/
def State.laneX (s : State) (x : PartIn) : LaneRun := s.runLane (s.laneIn x false)

/-- Where the words of a partition differ (R165), with Lane Y decoded: block and word. -/
def State.unequal (s : State) (x : PartIn) : Option (Nat × Nat) := firstUnequal (s.laneX x).words (s.runLane (s.laneIn x true)).words

/-- `last_mismatch` of a word (R181). -/
def mismatchWord (p : Nat) (outer : Bool) (w : Nat × Nat) : Nat :=
  p % 4 * 2 ^ 30 + b01 outer * 2 ^ 29 + w.1 % 8192 * 65536 + w.2 % 65536

/-- A mismatching partition (R165, R166): its event, and the port held or the outer step dropped. -/
def State.mismatch (s : State) (p : Nat) (outer : Bool) (w : Nat × Nat) (first : Bool) : State :=
  let lm := mismatchWord p outer w
  let s := (s.onlyIf first fun s => s.setN Pid.lastMismatch lm).bump Pid.mismatchCount
  let s := s.raise 0x1C01 p (lm * 2 ^ 32 + s.n Pid.periodSeq)
  if outer then s.dropOuter p else s.holdPort p

/-- The Q-REF entry of Lane X's words (R241): kind 0 a duty, 1 a phase, 2 the period. A duty that the graph does not write is the one that
the law forms (R103; DEDUCED, log 45); any other member that it does not write repeats the value last loaded. -/
def State.refEntry (s : State) (p : Nat) (ws : List (Nat × Int)) : RefEntry :=
  let q := s.port p
  { stamp := s.stamp
    gen := s.n Pid.periodSeq % 65536
    refs := q.legs.map fun l =>
      ⟨l, (sinkVal ws (l - q.refLeg)).getD (((q.legDuty.find? fun d => d.1 = l).map fun d => d.2).getD (s.z (Pid.dActive l))), ((sinkVal ws (256 + l - q.refLeg)).map u32z).getD (s.n (Pid.phActive l))⟩
    period := ((sinkVal ws 512).map u32z).getD (s.n (Pid.pActive p)) }

/-- An agreed partition commits Lane X's words (R165): into Q-REF, or the outer step into Q-OUT. -/
def State.agree (s : State) (x : PartIn) : State :=
  let p := x.port
  let r := s.laneX x
  let s := (s.keepPart p x.outer r.part).bumpBy (Pid.satCount p) r.sats
  if x.outer then (s.pushOut p r.writes).modPort p fun q => { q with saved := none }
  else
    let s := s.innerTake p (s.estimate p)
    s.pushRef p (s.refEntry p r.writes)

/-- What befalls a partition: as the command gives it, else nothing. -/
def partOf (xs : List PartIn) (p : Nat) (outer : Bool) : PartIn :=
  (xs.find? fun x => decide (x.port = p) && x.outer == outer).getD ⟨p, outer, []⟩

/-- The partitions in the order of R165: ports ascending, the inner one first, then the outer step that completes. -/
def State.partOrder (s : State) (xs : List PartIn) : List PartIn :=
  s.usedPorts.flatMap fun p => partOf xs p false :: (if s.outerEnds.contains p then [partOf xs p true] else [])

/-- One partition through the comparator; `first` where none has failed before it. -/
def State.comparePart (s : State) (first : Bool) (x : PartIn) : State :=
  match s.unequal x with
  | some w => s.mismatch x.port x.outer w first
  | none => s.agree x

/-- The partitions through the comparator, in order; answers whether one failed. -/
def State.compareParts (s : State) (failed : Bool) : List PartIn → Bool × State
  | [] => (failed, s)
  | x :: xs => (s.comparePart (!failed) x).compareParts (failed || (s.unequal x).isSome) xs

/-- The slack of a lane that never completes by the update point (R184): the compare and commit windows together. -/
def State.slackNever (s : State) : Int := -((s.compareWin : Int) + 100000)

/-- The slack of a period (R184): the smaller of the lanes'. -/
def State.periodSlack (s : State) : Int :=
  let f := fun (o : Option Int) => max s.slackNever (o.getD s.slackNever)
  min (f s.eng.doneX) (f s.eng.doneY)

/-- Account for the period's slack once (R185); a lane that never completed shows its own. -/
def State.slackEnd (s : State) : State :=
  if s.eng.slackDone then s
  else
    let s := (s.onlyIf s.eng.doneX.isNone fun s => s.setZ Pid.slackXLast s.slackNever).onlyIf s.eng.doneY.isNone fun s =>
      s.setZ Pid.slackYLast s.slackNever
    { s.slackTake s.periodSlack with eng := { s.eng with slackDone := true } }

/-- A port without a Q-SMP entry in the period that ends (R171): every element unusable, its runs broken, its values substituted. -/
def State.noEntry (s : State) (p : Nat) : State :=
  let s := s.supervise p fun _ _ _ => 4
  (s.modPort p fun q => { q with smpSeen := true, sumBad := [], residBad := [] }).takeVals p []

/-- Every port that the period has brought no Q-SMP entry. -/
def State.noEntries (s : State) : State := s.each (s.usedPorts.filter fun p => !(s.port p).smpSeen) State.noEntry

/-- The comparison of a period whose lanes completed in time; a port without an entry has read its substitutes (R172). -/
def State.comparePeriod (s : State) (parts : List PartIn) : State :=
  let s := s.noEntries
  let xs := s.partOrder parts
  let r := s.slackEnd.takeSlice.compareParts false xs
  r.2.judgePeriod r.1

/-- Nothing is left to compare: the engine does not run, the period is judged, or a lane is late (R165, R168). -/
def State.noCompare (s : State) : Bool :=
  decide (s.n Pid.engineState ≠ 1) || s.eng.judged || lateLane s.eng.doneX || lateLane s.eng.doneY

/-- COMPARE_WINDOW_END (R165-R169, R319): where both lanes have completed in time and the period is not judged yet, the comparison; then
the commit window begins and the frame of the period leaves. -/
def execCompareWindowEnd (t : Nat) (parts : List PartIn) (s : State) : Out :=
  let s := s.advance t
  .next (if s.eng.count = 0 ∨ s.now < s.compareAt then s
    else if s.noCompare then s.sendFrame
    else (s.comparePeriod parts).sendFrame)

/-! ### Period tick (R152, R153, R230) -/

/-- What ends with a period: its slack, and the ports without a Q-SMP entry. -/
def State.periodFinish (s : State) : State :=
  if s.eng.count = 0 then s
  else (s.onlyIf s.engineOn State.slackEnd).noEntries

/-- Surrender and give-up at the update point that ends their period (R169, R331). True where the unit restarts. -/
def State.periodGiveUp (s : State) : State × Bool :=
  if s.unit.surrender then ({ s with unit := { s.unit with surrender := false } }.holdNow 0x5C03, false)
  else match (if s.pair.holds then s.pair.giveUp else none) with
    | some (cause, f) =>
      if !seqAhead (s.n Pid.periodSeq) f 0 then (s, false)
      else match cause with
        | 4 => (s.holdNow 0x5D09, false)
        | 5 => (s.toReset 0 s.unit.vinUv, true)
        | _ => (s.holdNow (if s.pair.holdCause = 0 then 0x1D42 else s.pair.holdCause), false)
    | none => (s, false)

/-- An outer step that has not completed by the end of its outer period (R168). -/
def State.abandonOuter (s : State) (p : Nat) : State :=
  let s := if s.n Pid.engineState ≠ 1 ∨ ((s.port p).outerRan ∧ (s.port p).saved = none) then s.dropOuter p
    else ((s.dropOuter p).raise 0x1C04 p (s.n Pid.periodSeq)).bump Pid.outerAbandonCount
  s.modPort p fun q => { q with outerRan := false, stepAt := none }

/-- A common outer boundary (R153): the sums become those of the completed period, a pending ladder action comes nearer, and a
standby takes the holder's state; what the holder forwarded takes effect on both (R324). -/
def State.outerBoundary (s : State) : State :=
  let s := s.each s.usedPorts fun s p => s.modPort p fun q => { q with done := q.acc, acc := {} }
  let s := { s with prf := { s.prf with pendRungs := s.prf.pendRungs.map fun (r : Rung × Nat) => (r.1, r.2 - 1) } }
  let s := (s.pairBoundary).imageTake
  let now := fun (e : Nat × Word × Nat) => seqAhead (s.n Pid.periodSeq) e.2.2 1
  let ws := (s.pair.outbox ++ s.pair.forwarded).filter now
  ws.foldl (fun s e => s.forwarded (e.1, e.2.1)) (s.modPair fun q =>
    { q with forwarded := q.forwarded.filter (fun e => !now e), outbox := q.outbox.filter fun e => !now e })

/-- The phase of a period tick against the cycle grid in ps, signed (R386). -/
def State.cycErr (s : State) : Int :=
  let T := s.tInnerNs * 1000
  let d := (((s.fineAt s.eng.tickAt / 1000000000 : Nat) : Int) - s.n Pid.cycOffset * 1000) % T
  if (T : Int) < 2 * d then d - T else d

/-- Cycle lock not held: its state, and a run of good phases starts anew (R386). -/
def State.cycOff (s : State) (st : Nat) : State := (s.setN Pid.cycLockState st).modTime fun x => { x with cycRun := 0 }

/-- The trim of the period that begins by the cycle lock (R386): a tick shorter after a late tick, a tick longer after an early one; none
within half a tick. -/
def State.cycTrim (s : State) : State :=
  let e := s.cycErr
  { s with eng := { s.eng with trim := if 2 * e.natAbs ≤ tickPs then 0 else if 0 < e then -1 else 1 } }

/-- Cycle lock (R386), while network time is valid. A standby follows the holder's marks. -/
def State.cycStep (s : State) : State :=
  if s.n Pid.cycLock = 0 ∨ s.unit.st = .standby then s.cycOff 0
  else if !s.netValid then s.cycOff 1
  else
    let s := s.cycTrim
    if 625000000 < (s.z Pid.timeRate).natAbs * s.tInnerNs then
      let s := s.onlyIf (decide (s.n Pid.cycLockState ≠ 3)) fun s => s.raise 0x1666 0 (u32z (s.z Pid.timeRate))
      s.cycOff 3
    else
      let e := s.cycErr
      let s := s.setZ Pid.cycPhaseErr e
      if 625 < e.natAbs then s.cycOff 1
      else
        let s := s.modTime fun x => { x with cycRun := x.cycRun + 1 }
        if s.n Pid.cycLockState = 2 then s
        else if 100 ≤ s.time.cycRun then (s.setN Pid.cycLockState 2).raise 0x0667 0 (u32z e)
        else s.setN Pid.cycLockState 1

/-- A new inner period begins: counters, queues, update points, and what else runs on the period tick. Its tick is the expiry of the
period timer's count (R230); a timer that starts anew takes its first tick where the row stands (log 36). The first outer boundary has
no step before it to abandon. -/
def State.periodBegin (s : State) (markBack frameSent : Bool) (lost : List Bool) : State :=
  let s := s.onlyIf (!s.eng.read) fun s => s.each s.usedPorts State.takeSmp
  let trim := s.eng.trim * tickPs
  let first := decide (s.eng.count = 0)
  let at_ := if s.eng.running then s.periodEnd else s.now
  let idx := if s.eng.count = 0 ∨ s.ratio ≤ s.eng.outerIdx + 1 then 0 else s.eng.outerIdx + 1
  let boundary := decide (idx = 0)
  let s := s.onlyIf (boundary && decide (2 ≤ s.eng.bounds)) fun s => s.each s.usedPorts State.abandonOuter
  let s := (s.onlyIf (!first) fun s => (s.injTake boundary).capPeriod boundary lost).onlyIf (decide (s.n Pid.engineState = 0)) fun s => s.setN Pid.engineState 1
  let s := s.setN Pid.periodSeq ((s.n Pid.periodSeq + 1) % 2 ^ 32)
  let s := { s with eng := { s.eng with
    count := s.eng.count + 1, doneX := none, doneY := none, late := 0, judged := false, slackDone := false,
    running := true, trim := 0, ticks := s.eng.ticks + (if s.eng.running then (s.innerTicks + s.eng.trim).toNat else 0), tickAt := at_, tickStamp := s.stampAt at_, tickNs := s.fineAt at_ / 1000000000000, outerIdx := idx
    bounds := s.eng.bounds + b01 boundary } }
  let s := s.pairPeriod markBack frameSent
  let s := s.onlyIf boundary State.outerBoundary
  let s := s.each s.usedPorts fun s p =>
    ((((s.modPort p fun q => { q with smpSeen := false }).takeOut p).carrierTrim p trim).carrierStart p).updatePoint p
  (s.injPeriod boundary).cycStep

/-- The period timer has counted the inner period (R230). -/
def State.tickDue (s : State) : Bool := !s.eng.running || decide (s.periodEnd ≤ s.now)

/-- PERIOD_TICK (R230): update point of the period that ends and sample instant of the one that begins. The period timer runs
from a locked PLL, on the fallback clock too (R63), once an image is loaded. -/
def execPeriodTick (t : Nat) (markBack frameSent : Bool) (lost : List Bool) (s : State) : Out :=
  let s := s.advance t
  .next (if !s.img.loaded ∨ s.ref.lockedTo.isNone ∨ !s.tickDue then s
    else
      let (s, gone) := s.periodFinish.sendFrame.periodGiveUp
      if gone then s else s.periodBegin markBack frameSent lost)

end Sys2Proof.Machine
end

