-- ==== Sys2Proof/Machine/Crypto.lean ====
section
/-! DEFINITION. The published cryptographic standards that the spec names: AES-128 with its CMAC (RFC 4493, R395,
R398) and its key unwrap (RFC 3394, R396, R397), SHA-512 and Ed25519 verification (RFC 8032, R75, R413). PRESUMED from
the published standards, log 7. Bytes are numbers below 256 inside these functions. -/

namespace Sys2Proof.Machine

/-! ### AES-128 -/

/-- The substitution table, sixteen entries a row, the first in the highest byte. -/
def aesSbox : List Nat := [
  0x637c777bf26b6fc53001672bfed7ab76, 0xca82c97dfa5947f0add4a2af9ca472c0,
  0xb7fd9326363ff7cc34a5e5f171d83115, 0x04c723c31896059a071280e2eb27b275,
  0x09832c1a1b6e5aa0523bd6b329e32f84, 0x53d100ed20fcb15b6acbbe394a4c58cf,
  0xd0efaafb434d338545f9027f503c9fa8, 0x51a3408f929d38f5bcb6da2110fff3d2,
  0xcd0c13ec5f974417c4a77e3d645d1973, 0x60814fdc222a908846eeb814de5e0bdb,
  0xe0323a0a4906245cc2d3ac629195e479, 0xe7c8376d8dd54ea96c56f4ea657aae08,
  0xba78252e1ca6b4c6e8dd741f4bbd8b8a, 0x703eb5664803f60e613557b986c11d9e,
  0xe1f8981169d98e949b1e87e9ce5528df, 0x8ca1890dbfe6426841992d0fb054bb16]

/-- The inverse substitution table. -/
def aesInvSbox : List Nat := [
  0x52096ad53036a538bf40a39e81f3d7fb, 0x7ce339829b2fff87348e4344c4dee9cb,
  0x547b9432a6c2233dee4c950b42fac34e, 0x082ea16628d924b2765ba2496d8bd125,
  0x72f8f66486689816d4a45ccc5d65b692, 0x6c704850fdedb9da5e154657a78d9d84,
  0x90d8ab008cbcd30af7e45805b8b34506, 0xd02c1e8fca3f0f02c1afbd0301138a6b,
  0x3a9111414f67dcea97f2cfcef0b4e673, 0x96ac7422e7ad3585e2f937e81c75df6e,
  0x47f11a711d29c5896fb7620eaa18be1b, 0xfc563e4bc6d279209adbc0fe78cd5af4,
  0x1fdda8338807c731b11210592780ec5f, 0x60517fa919b54a0d2de57a9f93c99cef,
  0xa0e03b4dae2af5b0c8ebbb3c83539961, 0x172b047eba77d626e169146355210c7d]

/-- Entry `x` of a substitution table. -/
def aesSub (t : List Nat) (x : Nat) : Nat := t.getD (x / 16) 0 / 256 ^ (15 - x % 16) % 256

/-- Twice a field element. -/
def aesDouble (x : Nat) : Nat := if 128 ≤ x then (2 * x % 256) ^^^ 0x1b else 2 * x

/-- Product of two field elements, the second below 2^`fuel`. -/
def aesMul : Nat → Nat → Nat → Nat
  | 0, _, _ => 0
  | fuel + 1, x, y => (if y % 2 = 1 then x else 0) ^^^ aesMul fuel (aesDouble x) (y / 2)

/-- Bytes added. -/
def xorBytes (a b : List Nat) : List Nat := List.zipWith (fun x y => x ^^^ y) a b

/-- One column times a circulant row. -/
def aesColumn (row col : List Nat) : List Nat :=
  (List.range 4).map fun i => (List.range 4).foldl (fun acc j => acc ^^^ aesMul 4 (col.getD j 0) (row.getD ((j + 4 - i) % 4) 0)) 0

/-- All four columns of a block, whose bytes stand column by column. -/
def aesColumns (row blk : List Nat) : List Nat :=
  (List.range 4).flatMap fun c => aesColumn row ((blk.drop (4 * c)).take 4)

/-- Row `r` moves `k * r` columns to the left. -/
def aesShift (k : Nat) (blk : List Nat) : List Nat :=
  (List.range 16).map fun i => blk.getD ((i + 4 * k * (i % 4)) % 16) 0

/-- The next round key. -/
def aesNextKey (rcon : Nat) (k : List Nat) : List Nat :=
  let t := ((k.drop 12).map fun x => aesSub aesSbox x)
  let w0 := xorBytes (k.take 4) [t.getD 1 0 ^^^ rcon, t.getD 2 0, t.getD 3 0, t.getD 0 0]
  let w1 := xorBytes ((k.drop 4).take 4) w0
  let w2 := xorBytes ((k.drop 8).take 4) w1
  w0 ++ w1 ++ w2 ++ xorBytes (k.drop 12) w2

/-- The round keys that follow one, oldest first. -/
def aesKeys : List Nat → List Nat → List (List Nat)
  | [], _ => []
  | r :: rs, k => let n := aesNextKey r k; n :: aesKeys rs n

/-- The round constants. -/
def aesRcon : List Nat := [1, 2, 4, 8, 16, 32, 64, 128, 0x1b, 0x36]

/-- The key's bytes. -/
def keyBytes (key : BitVec 128) : List Nat := (beBytes 16 key.toNat).map fun b => b.toNat

/-- Encryption of one block. -/
def aesEncrypt (key : BitVec 128) (blk : List Nat) : List Nat :=
  let k0 := keyBytes key
  let ks := aesKeys aesRcon k0
  let mid := (ks.take 9).foldl (fun b k => xorBytes (aesColumns [2, 3, 1, 1] (aesShift 1 (b.map (aesSub aesSbox)))) k) (xorBytes blk k0)
  xorBytes (aesShift 1 (mid.map (aesSub aesSbox))) (ks.getD 9 [])

/-- Decryption of one block. -/
def aesDecrypt (key : BitVec 128) (blk : List Nat) : List Nat :=
  let k0 := keyBytes key
  let ks := aesKeys aesRcon k0
  let mid := (ks.take 9).reverse.foldl
    (fun b k => aesColumns [14, 11, 13, 9] (xorBytes ((aesShift 3 b).map (aesSub aesInvSbox)) k)) (xorBytes blk (ks.getD 9 []))
  xorBytes ((aesShift 3 mid).map (aesSub aesInvSbox)) k0

/-- A number's sixteen bytes, most significant first. -/
def blockOf (x : Nat) : List Nat := (beBytes 16 x).map fun b => b.toNat

/-- The number that bytes spell, most significant first. -/
def natOfBlock (bs : List Nat) : Nat := bs.foldl (fun a b => a * 256 + b) 0

/-- Doubling of a CMAC subkey. -/
def cmacDouble (x : Nat) : Nat := (2 * x % 2 ^ 128) ^^^ (if 2 ^ 127 ≤ x then 0x87 else 0)

/-- The chain over whole blocks. -/
def cmacChain (key : BitVec 128) : Nat → List Nat → List Nat → List Nat
  | 0, x, _ => x
  | n + 1, x, m => cmacChain key n (aesEncrypt key (xorBytes x (m.take 16))) (m.drop 16)

/-- AES-128-CMAC (RFC 4493): key, message. -/
@[irreducible] def aesCmac (key : BitVec 128) (msg : List Byte) : BitVec 128 :=
  let m := msg.map fun b => b.toNat
  let zero := List.replicate 16 0
  let k1 := cmacDouble (natOfBlock (aesEncrypt key zero))
  let whole := decide (m ≠ []) && decide (m.length % 16 = 0)
  let n := if whole then m.length / 16 - 1 else m.length / 16
  let last := m.drop (16 * n)
  let fin := if whole then xorBytes last (blockOf k1)
    else xorBytes (last ++ [0x80] ++ List.replicate (15 - last.length) 0) (blockOf (cmacDouble k1))
  BitVec.ofNat 128 (natOfBlock (aesEncrypt key (xorBytes (cmacChain key n zero m) fin)))

/-- One step of the key unwrap: the step's number and the block it takes. -/
def unwrapStep (key : BitVec 128) (t : Nat) (a r : List Nat) : List Nat :=
  aesDecrypt key (xorBytes a ((blockOf t).drop 8) ++ r)

/-- Three rounds over two blocks (RFC 3394 with a 128-bit key), steps 6 down to 1. -/
def unwrapRounds (key : BitVec 128) : Nat → List Nat → List Nat → List Nat → List Nat × List Nat × List Nat
  | 0, a, r1, r2 => (a, r1, r2)
  | n + 1, a, r1, r2 =>
    let b := unwrapStep key (2 * n + 2) a r2
    let c := unwrapStep key (2 * n + 1) (b.take 8) r1
    unwrapRounds key n (c.take 8) (c.drop 8) (b.drop 8)

/-- AES key unwrap (RFC 3394): key, 24 wrapped bytes; none when the integrity check fails. -/
@[irreducible] def keyUnwrap (key : BitVec 128) (wrapped : List Byte) : Option (BitVec 128) :=
  let m := wrapped.map fun b => b.toNat
  let (a, r1, r2) := unwrapRounds key 6 (m.take 8) ((m.drop 8).take 8) (m.drop 16)
  if m.length = 24 ∧ a = List.replicate 8 0xA6 then some (BitVec.ofNat 128 (natOfBlock (r1 ++ r2))) else none

/-! ### SHA-512 -/

/-- SHA-512 of a byte string, as 64 bytes. -/
def sha512 (m : List Byte) : List Byte :=
  sha2 (w := 64) sha2Large
    (0x6a09e667f3bcc908bb67ae8584caa73b3c6ef372fe94f82ba54ff53a5f1d36f1 * 2 ^ 256 +
      0x510e527fade682d19b05688c2b3e6c1f1f83d9abfb41bd6b5be0cd19137e2179) m

/-! ### Ed25519 -/

/-- The field prime. -/
def edP : Nat := 2 ^ 255 - 19

/-- The order of the base point. -/
def edL : Nat := 2 ^ 252 + 27742317777372353535851937790883648493

/-- The curve constant. -/
def edD : Nat := 37095705934669439343138083508754565189542113879843219016388785533085940283555

/-- A power modulo the prime, by the exponent's low `fuel` bits. -/
def edPow : Nat → Nat → Nat → Nat
  | 0, _, _ => 1
  | fuel + 1, b, e =>
    let r := edPow fuel (b * b % edP) (e / 2)
    if e % 2 = 1 then r * b % edP else r

/-- A point in extended coordinates: the affine coordinates are X/Z and Y/Z, and T is XY/Z. -/
structure EdPoint where
  X : Nat
  Y : Nat
  Z : Nat
  T : Nat
  deriving DecidableEq, Repr

/-- The neutral point. -/
def edZero : EdPoint := ⟨0, 1, 1, 0⟩

/-- The base point. -/
def edBase : EdPoint :=
  let x := 15112221349535400772501151409588531511454012693041857206046113283949847762202
  let y := 46316835694926478169428394003475163141307993866256225615783033603165251855960
  ⟨x, y, 1, x * y % edP⟩

/-- Addition of points. -/
def edAdd (p q : EdPoint) : EdPoint :=
  let a := (p.Y + edP - p.X) * (q.Y + edP - q.X) % edP
  let b := (p.Y + p.X) * (q.Y + q.X) % edP
  let c := p.T * 2 * edD * q.T % edP
  let d := p.Z * 2 * q.Z % edP
  let e := (b + edP - a) % edP
  let f := (d + edP - c) % edP
  let g := (d + c) % edP
  let h := (b + a) % edP
  ⟨e * f % edP, g * h % edP, f * g % edP, e * h % edP⟩

/-- A multiple of a point, by the factor's low `fuel` bits. -/
def edMul : Nat → Nat → EdPoint → EdPoint
  | 0, _, _ => edZero
  | fuel + 1, k, p =>
    let r := edMul fuel (k / 2) (edAdd p p)
    if k % 2 = 1 then edAdd r p else r

/-- Two points are the same. -/
def edSame (p q : EdPoint) : Bool :=
  decide (p.X * q.Z % edP = q.X * p.Z % edP) && decide (p.Y * q.Z % edP = q.Y * p.Z % edP)

/-- The point that 32 bytes encode; none where they encode none. -/
def edDecode (bs : List Byte) : Option EdPoint :=
  let z := leNat bs
  let y := z % 2 ^ 255
  let sign := z / 2 ^ 255
  if edP ≤ y then none
  else
    let u := (y * y + edP - 1) % edP
    let v := (edD * y * y + 1) % edP
    let v3 := v * v % edP * v % edP
    let x := u * v3 % edP * edPow 255 (u * v3 % edP * v3 % edP * v % edP) ((edP - 5) / 8) % edP
    let r := v * x % edP * x % edP
    let root := if r = u then some x else if r = (edP - u) % edP then some (x * edPow 255 2 ((edP - 1) / 4) % edP) else none
    root.bind fun x =>
      if x = 0 ∧ sign = 1 then none
      else
        let x := if x % 2 = sign then x else edP - x
        some ⟨x, y, 1, x * y % edP⟩

/-- Ed25519 verification (RFC 8032 section 5.1.7, pure Ed25519, the group equation with the cofactor): public key,
message, signature. -/
@[irreducible] def ed25519Verify (key msg sig : List Byte) : Bool :=
  let r := sig.take 32
  let s := leNat (sig.drop 32)
  match edDecode key, edDecode r with
  | some a, some p =>
    let k := leNat (sha512 (r ++ key ++ msg)) % edL
    decide (key.length = 32) && decide (sig.length = 64) && decide (s < edL) &&
      edSame (edMul 4 8 (edMul 256 s edBase)) (edMul 4 8 (edAdd p (edMul 256 k a)))
  | _, _ => false

end Sys2Proof.Machine
end

