-- ==== Sys2Proof/Machine/Slots.lean ====
section
/-! DEFINITION. The flash at IMAGE-LOAD: SFDP, the audit chain, the image's header and section table, the check of a slot and the
choice of the one to boot (R65-R78, R410, R411). -/

namespace Sys2Proof.Machine

/-- A little-endian field of the flash. -/
def State.flashNat (s : State) (a n : Nat) : Nat := leNat (s.flashRead a n)

/-! ### Header and section table (R70, R71) -/

/-- A section-table entry. -/
structure Sect where
  typ : Nat
  start : Nat
  len : Nat
  crc : Nat
  deriving DecidableEq, Repr

/-- The length of the image at an address. -/
def State.imgLen (s : State) (base : Nat) : Nat := s.flashNat (base + 8) 4

/-- The number of sections. -/
def State.imgCount (s : State) (base : Nat) : Nat := s.flashNat (base + 0xC) 2

/-- The section table of the image at an address. -/
def State.sections (s : State) (base : Nat) : List Sect :=
  (List.range (min 64 (s.imgCount base))).map fun k =>
    let f := fun (o n : Nat) => s.flashNat (base + 64 + 16 * k + o) n
    ⟨f 0 2, f 4 4, f 8 4, f 0xC 4⟩

/-- The content of a section. -/
def State.sectBytes (s : State) (base : Nat) (x : Sect) : List Byte := s.flashRead (base + x.start) x.len

/-- Sections lie after the table, in ascending order without overlap, before the signature block (R71). -/
def sectsOk (imgLen : Nat) : Nat → List Sect → Bool
  | _, [] => true
  | lo, x :: xs =>
    decide (lo ≤ x.start ∧ x.start % 16 = 0 ∧ 1 ≤ x.len ∧ x.start + x.len + 96 ≤ imgLen) && sectsOk imgLen (x.start + x.len) xs

/-- The header and the section table are valid (R70, R71). -/
def State.headerOk (s : State) (base : Nat) : Bool :=
  let f := fun (o n : Nat) => s.flashNat (base + o) n
  let n := s.imgCount base
  let len := s.imgLen base
  decide (f 4 2 = 3 ∧ f 6 2 = 0x40) &&
  decide (len % 16 = 0 ∧ len ≤ s.slotBytes ∧ 1 ≤ n ∧ n ≤ 64 ∧ 64 + 16 * n + 96 ≤ len) &&
  decide (f 0x10 8 ≠ 0 ∧ (f 0x19 1 = 1 ∨ f 0x19 1 = 2) ∧ f 0x1A 2 = 0) &&
  (s.flashRead (base + 0x20) 28).all (fun b => b = 0) &&
  decide (f 0x3C 4 = (crc32c (s.flashRead base 0x3C)).toNat) &&
  (List.range n).all (fun k => s.flashNat (base + 64 + 16 * k + 2) 2 = 0) &&
  sectsOk len (64 + 16 * n) (s.sections base)

/-- The image runs on this variant and grade (R70). -/
def State.variantOk (s : State) (base : Nat) : Bool :=
  let v := s.flashNat (base + 0xE) 1
  let g := s.flashNat (base + 0xF) 1
  (decide (v = 2) || (decide (v = 4) && s.fourP)) && (decide (g = 0) || (decide (g = 1) && decide (s.n Pid.grade = 1)))

/-- The fingerprint of the integrator key in fuses. -/
def State.fingerprint (s : State) : List Byte := (List.range 8).flatMap fun k => leBytes 4 (s.n (Pid.intFpr k))

/-- The serial the unit is bound to. -/
def State.bound (s : State) : Nat := s.n Pid.boundSerialHi * 2 ^ 32 + s.n Pid.boundSerialLo

/-- The first failing status of R77 in its order; 0x09 valid, 0x08 foreign. -/
def State.checkSlot (s : State) (k : Nat) : Nat :=
  let base := s.slotAt k
  let len := s.imgLen base
  if s.flashNat base 4 ≠ 0x4D495A56 then 1
  else if !s.headerOk base then 2
  else if !s.variantOk base then 7
  else
    let key := s.flashRead (base + len - 96) 32
    let fp := s.fingerprint
    if fp.all (fun b => b = 0) || sha256 key ≠ fp then 4
    else if !(s.sections base).all fun x => x.crc = (crc32c (s.sectBytes base x)).toNat then 3
    else if !ed25519Verify key (sha256 (s.flashRead base (len - 96))) (s.flashRead (base + len - 64) 64) then 5
    else if s.flashNat (base + 0x18) 1 < s.n Pid.rollbackFloor then 6
    else if s.flashNat (base + 0x10) 8 ≠ s.serial ∧ s.flashNat (base + 0x10) 8 ≠ s.bound then 8
    else 9

/-- Show the status of a slot; 0x04, 0x05 and 0x06 raise 0x7402 (R78). -/
def State.showSlot (s : State) (k st : Nat) : State :=
  (s.setN (slotPid k) st).onlyIf (decide (4 ≤ st ∧ st ≤ 6)) fun s => s.raise 0x7402 k st

/-! ### The audit log at IMAGE-LOAD (R410, R411) -/

/-- Where an audit entry lies. -/
def State.entryAt (s : State) (n : Nat) : Nat := s.auditAt + n % 4096 * 256

/-- The entry numbers held: those that stand where their number places them. -/
def State.heldEntries (s : State) : List Nat :=
  (List.range 4096).filterMap fun j =>
    let n := s.flashNat (s.entryAt j) 4
    if n % 4096 = j ∧ n ≠ 0xFFFFFFFF then some n else none

/-- The bytes of an entry. -/
def State.entry (s : State) (n : Nat) : List Byte := s.flashRead (s.entryAt n) 256

/-- Entry `n` is good: it stands in its place, its hash field covers the entry before it when that is held, and its anchor
agrees. -/
def State.entryGood (s : State) (first n : Nat) : Bool :=
  let e := s.entry n
  decide (leAt e 0 4 = n) &&
  (if n = 0 then (e.drop 0xE0).all fun b => b = 0 else decide (n = first) || decide (e.drop 0xE0 = sha256 (s.entry (n - 1)))) &&
  s.fram.anchors.all fun a => decide (a.1 ≠ n) || decide (a.2 = sha256 e)

/-- The chain check of R411, and where the log goes on. -/
def State.auditCheck (s : State) : State :=
  let held := s.heldEntries
  let newest := held.foldl max 0
  let first := (held.filter fun n => newest ≤ n + 4095).foldl min newest
  let bad := if held = [] then none else ((List.range (newest + 1 - first)).map (· + first)).find? fun n => !s.entryGood first n
  let s := s.onlyIf bad.isSome fun s => s.raise 0x728A 0 (bad.getD 0)
  let s := s.setN Pid.auditState ((if bad.isSome then 2 else if s.fram.anchors = [] then 0 else 1) + 4 * b01 (s.fram.anchors = []))
  let s := s.modLink fun x => { x with lastHash := if held = [] then [] else sha256 (s.entry newest) }
  s.setN Pid.auditNext (if held = [] then 0 else newest + 1)

/-! ### The commands -/

/-- READY-REFUSED (R78, R79, R438): every CFG and LIVE parameter at its default. -/
def State.cfgReset (s : State) : State :=
  { s with regs := s.regs.filter fun e =>
      match findParam s.fourP e.1 with
      | some r => !(decide (r.cls = .cfg) || (decide (r.cls = .live) && decide (e.1 ≠ Pid.nextSlot)))
      | none => true }

/-- The image is refused (R78, R79); its event is already raised. -/
def State.refuseImage (s : State) (cause : Nat) : State :=
  (({ s with img := {}, ports := List.replicate 4 {} }).cfgReset).gotoUnit .readyRefused cause

/-- SFDP_READ (R65, R66): none is an absent or invalid table; a table with another density is taken as absent (DESIGN CHOICE,
log 38). -/
def execSfdpRead (t : Nat) (info : Option Sfdp) (s : State) : Out :=
  let s := s.advance t
  .next (if s.unit.st ≠ .imageLoad ∨ s.n Pid.flashSize ≠ 0 ∨ s.n Pid.slotAStatus ≠ 0 ∨ s.n Pid.slotBStatus ≠ 0 then s
    else match info.filter fun x => [64, 128, 256, 512].contains x.mbit with
      | some x => ({ s with sfdpQuad := x.quad }.setN Pid.flashSize x.mbit).auditCheck
      | none =>
        let s := (s.setN Pid.slotAStatus 1).setN Pid.slotBStatus 1
        (s.raise 0x5404 0 0x0101).refuseImage 0x5404)

/-- A slot passes the first three steps of R77. -/
def State.slotPlausible (s : State) (k : Nat) : Bool :=
  decide (s.flashNat (s.slotAt k) 4 = 0x4D495A56) && s.headerOk (s.slotAt k) && s.variantOk (s.slotAt k)

/-- The preferred slot (R78 step 1). -/
def State.preferred (s : State) : Nat :=
  match s.fram.nextSlot with
  | some k => k
  | none =>
    let ctr := fun (k : Nat) => s.flashNat (s.slotAt k + 0x18) 1
    if s.slotPlausible 1 && (!s.slotPlausible 0 || decide (ctr 0 < ctr 1)) then 1 else 0

/-- The slot is chosen (R78, R79, R88). -/
def State.chooseSlot (s : State) (k : Nat) (foreign : Bool) : State :=
  let base := s.slotAt k
  let s := { s with img := { s.img with foreign := foreign, boundSerial := s.flashNat (base + 0x10) 8 } }
  ((s.setN Pid.bootSlot k).setN Pid.imageId (s.flashNat (base + 0x1C) 4)).setN Pid.imageCounter (s.flashNat (base + 0x18) 1)

/-- What follows the check of a slot (R78): the preferred slot if valid, else the other with 0x1401, else a foreign one with
0x7405, else READY-REFUSED with 0x5404. -/
def State.slotChoice (s : State) (k : Nat) : State :=
  let pref := s.preferred
  let st := fun (k : Nat) => s.n (slotPid k)
  if st k = 9 then
    (s.chooseSlot k false).onlyIf (decide (k ≠ pref)) fun s => s.raise 0x1401 pref (s.n (slotPid pref))
  else if k = pref then s
  else
    match [pref, k].find? fun j => st j = 8 with
    | some j => (s.chooseSlot j true).raise 0x7405 j (s.flashNat (s.slotAt j + 0x10) 8)
    | none => (s.raise 0x5404 0 (st 0 * 256 + st 1)).refuseImage 0x5404

/-- SLOT_CHECK (R77, R78): the preferred slot first, then the other. -/
def execSlotCheck (t : Nat) (slot : Nat) (s : State) : Out :=
  let s := s.advance t
  let pref := s.preferred
  let due := if s.n (slotPid pref) = 0 then pref else 1 - pref
  .next (if s.unit.st ≠ .imageLoad ∨ s.n Pid.flashSize = 0 ∨ s.n Pid.bootSlot ≠ 0xFF ∨ slot ≠ due ∨ s.n (slotPid due) ≠ 0 then s
    else (s.showSlot slot (s.checkSlot slot)).slotChoice slot)

end Sys2Proof.Machine
end

