-- ==== Sys2Proof/Machine/Content.lean ====
section
/-! DEFINITION. The content check of IMAGE-LOAD, its rules step by step (R23, R25, R48-R50, R72-R74, R79, R155-R160 and the
relations between parameters). A failure is given as section type, reason, and the upper context of 0x5403 (R89). -/

namespace Sys2Proof.Machine

/-- A content failure. -/
structure Bad where
  typ : Nat
  reason : Nat
  hi : Nat := 0
  deriving DecidableEq, Repr

/-- The first failure of a list of checks. -/
def firstBad : List (Option Bad) → Option Bad
  | [] => none
  | some b :: _ => some b
  | none :: l => firstBad l

/-- A failure unless a condition holds. -/
def need (c : Bool) (typ : Nat) : Option Bad := if c then none else some ⟨typ, 3, 0⟩

/-- The context of 0x5403 (R89). -/
def Bad.ctx (b : Bad) : Nat := b.hi + b.reason * 65536 + b.typ

/-! ### Step 1: section types (R72) -/

/-- A section type is known. -/
def knownType (t : Nat) : Bool := decide (1 ≤ t ∧ t ≤ 9) || decide (0x8000 ≤ t)

/-- The first unknown or repeated type. -/
def badType : List Nat → List Nat → Option Bad
  | _, [] => none
  | seen, t :: ts => if !knownType t || seen.contains t then some ⟨t, 1, 0⟩ else badType (t :: seen) ts

/-- Step 1. -/
def typesBad (ts : List Nat) : Option Bad :=
  firstBad [badType [] ts, ([1, 2, 3, 4, 7, 9].find? fun t => !ts.contains t).map fun t => ⟨t, 2, 0⟩]

/-! ### Step 2: ports and topology (R23, R25) -/

/-- A topology failure: condition, port, group (from 1), other port. -/
def topoBad (cond port grp other : Nat) : Bad := ⟨1, 4, cond * 2 ^ 56 + port * 2 ^ 48 + grp * 2 ^ 40 + other * 2 ^ 32⟩

/-- The lowest group of a declaration. -/
def declLow (d : PortDecl) : Nat := d.groups.foldl min (d.groups.headD 0)

/-- Condition 1 of R23 for one declaration, on a variant with `ng` groups (R20): one group, or two adjacent ones in either
order. -/
def groupsOk (ng : Nat) (d : PortDecl) : Bool :=
  decide (d.groups.length = d.topo.groups) && d.groups.all (fun g => decide (g < ng)) && (match d.groups with
    | [a, b] => decide (b = a + 1 ∨ a = b + 1)
    | _ => true)

/-- The group named for a declaration that fails condition 1 (R89): the first one absent on the variant; where none is absent (a
wrong number of groups, or two that are not adjacent) the first declared, the model's choice (DESIGN CHOICE, log 38). -/
def failedGroup (ng : Nat) (d : PortDecl) : Nat := (d.groups.find? fun g => decide (ng ≤ g)).getD (d.groups.headD 0)

/-- Insertion by port number. -/
def insDecl (d : PortDecl) : List PortDecl → List PortDecl
  | [] => [d]
  | e :: es => if d.port < e.port then d :: e :: es else e :: insDecl d es

/-- The declarations by port number. -/
def byPort (ds : List PortDecl) : List PortDecl := ds.foldl (fun l d => insDecl d l) []

/-- The first group that two declarations share (condition 2). -/
def sharedGroup : List PortDecl → Option Bad
  | [] => none
  | d :: ds =>
    match ds.find? fun e => d.groups.any fun g => e.groups.contains g with
    | some e => some (topoBad 2 d.port (((d.groups.find? fun g => e.groups.contains g).getD 0) + 1) e.port)
    | none => sharedGroup ds

/-- Condition 3 of R23: ports numbered from P1 without a gap, in ascending order of their lowest group; `k` is the number
the next one must have, `lo` the lowest group it may have. -/
def orderBad : Nat → Nat → List PortDecl → Option Bad
  | _, _, [] => none
  | k, lo, d :: ds =>
    let g := declLow d
    if d.port ≠ k ∨ g < lo then some (topoBad 3 d.port (g + 1) 0xFF) else orderBad (k + 1) (g + 1) ds

/-- Step 2, whatever the order in which the section lists the ports. The spec does not say which group 0x5403 names where a port declares
none, or under condition 5 where it declares several: G1, or the first listed (DESIGN CHOICE, log 38). -/
def portsBad (ng : Nat) (ds : List PortDecl) : Option Bad :=
  let ds := byPort ds
  firstBad [
    (ds.find? fun d => d.topo.ok && !groupsOk ng d).map fun d => topoBad 1 d.port (failedGroup ng d + 1) 0xFF,
    sharedGroup ds,
    orderBad 0 0 ds,
    (ds.find? fun d => !d.topo.ok).map fun d => topoBad 5 d.port (d.groups.headD 0 + 1) 0xFF]

/-! ### Step 3: parameter values (R23 item 4, R73) -/

/-- The entries of a section in the format of R73. -/
def paramEntries (bs : List Byte) : List (Nat × Word) :=
  (List.range (bs.length / 8)).map fun k => (leAt bs (8 * k) 4, BitVec.ofNat 32 (leAt bs (8 * k + 4) 4))

/-- A parameter of the network and time section (R378). -/
def netBlock (id : Nat) : Bool := decide (0x24 ≤ pidBlock id ∧ pidBlock id ≤ 0x26)

/-- One entry is admissible: a known CFG parameter of the section, with a value in its range. -/
def entryOk (fourP net : Bool) (e : Nat × Word) : Bool :=
  match findParam fourP e.1 with
  | some r => decide (r.cls = .cfg) && r.rng.holds e.2 && (netBlock e.1 == net)
  | none => false

/-- The entries of a section are admissible and none repeats. -/
def entriesOk (fourP net : Bool) : List Nat → List (Nat × Word) → Bool
  | _, [] => true
  | seen, e :: es => entryOk fourP net e && !seen.contains e.1 && entriesOk fourP net (e.1 :: seen) es

/-- The minimum of the inner period (R23 item 4). -/
def minInner (ports : Nat) : Nat := if ports ≤ 2 then 800 else 1000

/-! ### The state as the image would set it -/

/-- A port as the image declares it. -/
def declPort (ds : List PortDecl) (p : Nat) : PortSt :=
  match ds.find? fun d => d.port = p with
  | some d => { used := true, topo := d.topo, firstGroup := declLow d }
  | none => {}

/-- DC ports default to no contactor, no ride-through and no frequency (R122, R150). -/
def State.dcDefaults (s : State) : State :=
  s.each (s.usedPorts.filter fun p => (s.port p).topo.isDc) fun s p =>
    ((s.setN (Pid.hasContactor p) 0).setN (Pid.rtEnable p) 0).setN (Pid.fNom p) 0

/-- LIVE defaults that follow from CFG values (R234, R241, R253). -/
def State.liveDefaults (s : State) : State :=
  s.each s.usedPorts fun s p =>
    let P := s.n (Pid.period0 p)
    let s := s.setN (Pid.shPeriod p) P
    s.each (s.port p).legs fun s l => s.setN (Pid.shPhase l) (s.phaseInit p l)

/-- The candidate: defaults, then the image's values; entries of absent ports are not taken (R26). -/
def State.candidate (s : State) (c : ContentIn) (es : List (Nat × Word)) : State :=
  let s := { s.cfgReset with ports := (List.range 4).map (declPort c.ports) }
  let s := s.dcDefaults
  let s := (es.filter fun e => !s.absentPort e.1).foldl (fun s e => s.setW e.1 e.2) s
  let s := { s with img := { s.img with quants := c.quants.map fun (q : Nat × Nat × List Nat × List Nat) => (⟨q.1, q.2.1, q.2.2.1, q.2.2.2⟩ : Quantity) } }
  c.compares.foldl (fun s e => s.setW e.1 e.2) s.liveDefaults

/-! ### Relations between parameters (step 3) -/

/-- Exactly the elements 0 to n − 1. -/
def exactEls (n : Nat) (els : List Nat) : Bool := decide (els.length = n) && (List.range n).all els.contains

/-- The channel roles of a port meet R92. -/
def State.rolesOk (s : State) (p : Nat) : Bool :=
  let els := fun (r : Nat) => ((s.elems p).filter fun e => e.1 = r).map fun e => e.2.1
  let some23 := fun (r : Nat) => exactEls 2 (els r) || exactEls 3 (els r)
  (s.elems p).all (fun e => decide (e.1 ≤ 7)) && exactEls (s.port p).legs.length (els 1) && exactEls 1 (els 5) &&
  (if (s.port p).topo.isDc then
    (els 2).isEmpty && (els 3).isEmpty && (els 4).isEmpty && exactEls 1 (els 6) && ((els 7).isEmpty || exactEls 1 (els 7))
  else
    some23 2 && some23 3 && (some23 4 || ((els 4).isEmpty && decide (s.n (Pid.busSense p) = 0))) && (els 6).isEmpty && (els 7).isEmpty)

/-- Mode, frequency and voltage levels of a port (R122). -/
def State.modeOk (s : State) (p : Nat) : Bool :=
  let dc := (s.port p).topo.isDc
  let f := s.n (Pid.fNom p)
  decide ((s.n (Pid.portMode p) = 2) ↔ dc) && (if dc then decide (f = 0 ∧ s.n (Pid.hasContactor p) = 0 ∧ s.n (Pid.rtEnable p) = 0)
    else decide (16700 ≤ f ∧ f ≤ 500000)) &&
  decide (s.z (Pid.deadLevel p) < s.z (Pid.liveLevel p)) && decide (s.z (Pid.iLimCont p) ≤ s.z (Pid.iLimHard p))

/-- No constant per second rounds to zero (R163): per second at T_i, `kv_int` in 0.01 s⁻¹ and `k_slip` at T_o. -/
def State.ratesOk (s : State) (p : Nat) : Bool :=
  let field := fun (f : Nat) => s.n (0x090000 + 0x100 * p + f)
  ([0x11, 0x14, 0x18, 0x19, 0x1A, 0x1B, 0x1C, 0x05].all fun f => !s.roundsToZero f (field f)) &&
  decide (const27 ((s.n (Pid.gfPllBw p) : Int) * (s.tInnerNs * 1000)) psS ≠ 0) &&
  decide (const27 ((s.n (Pid.kSlip p) : Int) * s.outerPs) psS ≠ 0)

/-- The harmonics of the resonators (R103). -/
def harmonics : List Nat := [1, 5, 7, 11, 13]

/-- The resonators meet R104: h · f_nom (mHz) at most a tenth of the effective switching frequency. -/
def State.resOk (s : State) (p : Nat) : Bool :=
  (List.range 5).all (fun k => !s.bit (Pid.resEnable p) k ||
    decide (harmonics.getD k 1 * s.n (Pid.fNom p) * s.n (Pid.period0 p) * 10 ≤ 1600000000000 * (s.port p).topo.perPhase)) &&
  (List.range 32).all fun k => !s.bit (Pid.resOptional p) k || s.bit (Pid.resEnable p) k

/-- The ride-through curves meet R139. -/
def State.curvesOk (s : State) (p : Nat) : Bool :=
  curveOk true (s.curve (Pid.rtUvPt p)) (s.z (Pid.rtUvStart p)) && curveOk false (s.curve (Pid.rtOvPt p)) (s.z (Pid.rtOvStart p))

/-- The conversions of a port at an inner period in ns (R208): Δ at least 100 ns, one m for all its groups. -/
def State.convOk (s : State) (p tNs : Nat) : Bool :=
  let ms := (s.port p).groups.map fun g => s.n (Pid.grpOs g)
  ms.all fun m => decide (m = ms.headD 1) && decide (100000 ≤ tNs * 1000 / m / tickPs * tickPs)

/-- The carrier of a port against an inner period in ns (R233). -/
def State.carrierOk (s : State) (p tNs : Nat) : Bool := s.periodFits p tNs (s.n (Pid.period0 p))

/-- Carrier period, phases and dead times of a port (R233, R234, R249, R253-R255). -/
def State.pwmOk (s : State) (p : Nat) : Bool :=
  let P := s.n (Pid.period0 p)
  decide (P % 2 = 0 ∧ 8000 ≤ P ∧ P ≤ 4000000) && decide (s.n (Pid.smpOffset p) < s.innerTicks) && s.carrierOk p s.tInnerNs &&
  (s.port p).legs.all (fun l => decide (s.n (Pid.phase0 l) = 0xFFFFFFFF) ||
    (decide (s.n (Pid.phase0 l) % 2 = 0) && decide (s.n (Pid.phase0 l) + 2 ≤ P))) &&
  (List.range 6).all fun k => decide (s.n (Pid.dtFloor p) ≤ s.n (Pid.dtFix p k))

/-- Everything of one used port. -/
def State.portCfgOk (s : State) (p : Nat) : Bool :=
  s.modeOk p && s.rolesOk p && s.r99Ok p s.outerPs && s.ratesOk p && s.convOk p s.tInnerNs && s.pwmOk p && s.curvesOk p &&
  (s.isDc p || s.resOk p)

/-- The window comparators of fast channels (R214, R215, R227). -/
def State.windowsOk (s : State) (ch : Nat) : Bool :=
  decide (s.z (Pid.winLo ch) + 2 * s.z (Pid.winHyst ch) < s.z (Pid.winHi ch)) &&
  (decide (s.n (Pid.winTarget ch) = 0) || decide (s.n (Pid.faRole ch) % 256 = 1))

/-- The codes of a table rise strictly, and then its last point repeats (R224). -/
def tabOk : List Word → Bool
  | a :: b :: l =>
    if a = b then l.all (fun x => x = a)
    else decide ((a.extractLsb' 16 16).toInt < (b.extractLsb' 16 16).toInt) && tabOk (b :: l)
  | _ => true

/-- A slow channel meets R224, R226 and R228. -/
def State.slowOk (s : State) (ch : Nat) : Bool :=
  let w := s.n (Pid.saRole ch)
  let r := w % 256
  let g := w / 256
  let ng := if s.fourP then 4 else 2
  decide (r ≤ 6) && (if r = 2 ∨ r = 6 then decide (1 ≤ g ∧ g ≤ ng) else decide (g = 0)) &&
  decide (s.z (Pid.saLimLo ch) ≤ s.z (Pid.saLimHi ch)) &&
  tabOk ((List.range 16).map fun k => s.w (Pid.saTab ch k)) &&
  (decide (r ≠ 2) || (List.range 32).all fun c => decide (c = ch) || decide (s.n (Pid.saRole c) ≠ w))

/-- The scan of a modulator fits (R221). -/
def State.scanOk (s : State) (m : Nat) : Bool :=
  decide (((s.smChans m).foldl (fun a ch => a + s.convPs ch) 0) ≤ s.n (Pid.smScan m) * psMs)

/-- The identifiers that remote I/O uses (R351). -/
def State.rioIds (s : State) : List Nat :=
  0 :: ((List.range 8).filter fun k => s.n (Pid.rioNode k) ≠ 0).flatMap fun k =>
    [0x180, 0x280, 0x200, 0x300, 0x700].map (· + s.n (Pid.rioNode k))

/-- Link identifiers on CAN (R417): neither a safety, a time nor a remote I/O identifier, and different from each other. -/
def State.linkIdsOk (s : State) : Bool :=
  let taken := [s.n Pid.spCanRxId, s.n Pid.spCanTxId, s.n (Pid.canTrefId 0), s.n (Pid.canTrefId 1)] ++ s.rioIds
  !taken.contains (s.n Pid.blCanRxId) && !taken.contains (s.n Pid.blCanTxId) && decide (s.n Pid.blCanRxId ≠ s.n Pid.blCanTxId)

/-- Node identifiers are unique per channel (R361). -/
def State.nodesOk (s : State) : Bool :=
  (((List.range 8).filter fun k => s.n (Pid.rioNode k) ≠ 0).map fun k => (s.n (Pid.rioCan k), s.n (Pid.rioNode k))).Nodup

/-- Everything of the unit. -/
def State.unitCfgOk (s : State) (outerImageBytes : Nat) : Bool :=
  let used := s.usedPorts
  decide (12 ≤ popCount (s.n Pid.laneSeed) ∧ popCount (s.n Pid.laneSeed) ≤ 20) &&
  decide (2 * s.n Pid.latCycle ≤ 1000 * s.n Pid.latWd) && decide (s.n Pid.vceDerateShare ≤ s.n Pid.vceAlarmShare) &&
  (List.range 8).all (fun n => (List.range 4).all fun p => !s.bit (Pid.tripPorts n) p || used.contains p) &&
  (decide (s.n Pid.pairEnable = 0) || used.all fun p => decide (s.n (Pid.smpSync p) = 1)) &&
  decide (outerImageBytes ≤ 160 * (s.n Pid.outerRatio - 2)) && s.nodesOk &&
  (List.range (if s.fourP then 48 else 24)).all (fun i => s.windowsOk i && decide (s.n (Pid.faRole i) % 256 ≤ 7) &&
    (!s.islUsed i || decide (s.n (Pid.gsPlateauMin i) < s.n (Pid.dsBlank i)))) &&
  (List.range 32).all s.slowOk && (List.range 4).all s.scanOk

/-- Channel words of the disturbance recorder (R424). -/
def State.recorderOk (s : State) : Bool := (List.range 64).all fun k => s.chanWordOk (s.n (Pid.crCh 0 k))

/-- The quantities that the image declares have addresses in the ranges of R31: the scope of a port that the variant has, the unit's or
the pair's, an index below 64, at most 64 elements, and fast channels that the variant has (R2, R20). -/
def State.quantsOk (s : State) : Bool :=
  s.img.quants.all fun q => decide (q.addr < 1024 ∧ q.len ≤ 64) && ((List.range (if s.fourP then 4 else 2)) ++ [14, 15]).contains (q.addr / 64)
    && q.chans.all s.chanExists

/-- Step 3 on the candidate; a quantity out of range is laid to section 0x0001 (DESIGN CHOICE, log 38). -/
def State.relationsBad (s : State) (outerImageBytes : Nat) : Option Bad :=
  if !s.quantsOk then some ⟨1, 3, 0⟩ else need (s.usedPorts.all s.portCfgOk && s.unitCfgOk outerImageBytes && s.recorderOk) 2

/-- Step 3. A failure of condition 4 of R23 is laid to section 0x0001, whose number of ports it judges (DESIGN CHOICE, log 38). -/
def State.paramsBad (s : State) (c : ContentIn) (sec : List Byte) : Option Bad :=
  let es := paramEntries sec
  let ps := c.ports.length
  let ti := (((es.find? fun e => e.1 = Pid.tInner).map fun e => e.2.toNat).getD 1000)
  firstBad [
    need (decide (sec.length % 8 = 0) && entriesOk s.fourP false [] es) 2,
    if ti < minInner ps then some ⟨1, 4, 4 * 2 ^ 56 + (ps - 1) * 2 ^ 48 + ti * 2 ^ 32⟩ else none]

/-! ### Step 4: resource claims (R48-R50, R74) -/

/-- A claim. -/
structure Claim where
  typ : Nat
  shared : Bool
  idx : Nat
  blk : Nat
  inst : Nat
  deriving DecidableEq, Repr

/-- The claims of a section. -/
def claimsOf (bs : List Byte) : List Claim :=
  (List.range (bs.length / 8)).map fun k =>
    let f := fun (o n : Nat) => leAt bs (8 * k + o) n
    ⟨f 0 1, decide (f 1 1 = 1), f 2 2, f 4 1, f 5 1⟩

/-- The entry format of R74. -/
def claimsFormOk (bs : List Byte) : Bool :=
  decide (bs.length % 8 = 0) && (List.range (bs.length / 8)).all fun k =>
    let f := fun (o n : Nat) => leAt bs (8 * k + o) n
    decide (1 ≤ f 0 1 ∧ f 0 1 ≤ 6 ∧ f 1 1 ≤ 1 ∧ f 6 2 = 0) && (decide (f 0 1 ≠ 4) || [0x08, 0x2C, 0x14].contains (f 4 1))

/-- The kind of an extra-compare claimant (R48): 1 sampling, 2 capture trigger, 3 timed output. -/
def compareKind (blk : Nat) : Nat := if blk = 0x08 then 1 else if blk = 0x2C then 2 else 3

/-- The range of an index (R48): 0x04 outside, 0x03 absent on the variant, 0 present. -/
def Claim.rangeCode (x : Claim) (fourP : Bool) : Nat :=
  let inside := match x.typ with
    | 1 => decide (x.idx < 24)
    | 2 => decide (1 ≤ x.idx ∧ x.idx ≤ 336)
    | 3 => decide (x.idx < 16)
    | 4 => decide (x.idx < 144)
    | 5 => decide (x.idx < 256)
    | _ => decide (x.idx < 13)
  if !inside then 4
  else if !fourP && ((x.typ = 1 && decide (12 ≤ x.idx)) || (x.typ = 4 && decide (72 ≤ x.idx))) then 3
  else 0

/-- Two claims on one resource conflict (R48, R49). -/
def conflict (a b : Claim) : Bool :=
  decide (a.typ = b.typ ∧ a.idx = b.idx) && !(a.shared && b.shared &&
    ((a.typ = 4 && decide (compareKind a.blk ≠ compareKind b.blk)) ||
     (a.typ = 5 && decide (a.blk = 0x2C ∧ b.blk = 0x2C) && ((a.inst = 1 && b.inst = 2) || (a.inst = 2 && b.inst = 1)))))

/-- A finding of step 4: resource type, index, and the whole context of 0x5201 (R50). -/
def finding (a : Claim) (b : Option Claim) (reason : Nat) : Nat × Nat × Nat :=
  let who := fun (x : Claim) => x.blk * 256 + x.inst
  (a.typ, a.idx, a.typ * 2 ^ 56 + a.idx * 2 ^ 40 + who a * 2 ^ 24 + ((b.map who).getD 0) * 256 + reason)

/-- Every finding in the order of the section: indices out of range, then conflicts among claims in range. Of a conflicting pair the
earlier entry of the section is claimant A (DESIGN CHOICE, log 38). -/
def findings (fourP : Bool) : List Claim → List (Nat × Nat × Nat)
  | [] => []
  | x :: xs =>
    (if x.rangeCode fourP ≠ 0 then [finding x none (x.rangeCode fourP)]
     else (xs.filter fun y => decide (y.rangeCode fourP = 0) && conflict x y).map fun y => finding x (some y) 1) ++ findings fourP xs

/-- Insertion in the order of type and index. -/
def insFinding (f : Nat × Nat × Nat) : List (Nat × Nat × Nat) → List (Nat × Nat × Nat)
  | [] => [f]
  | g :: gs => if f.1 < g.1 ∨ (f.1 = g.1 ∧ f.2.1 < g.2.1) then f :: g :: gs else g :: insFinding f gs

/-- The contexts to raise, at most 16, the last marked when a conflict ends the list and more remain (R49, R50). -/
def claimContexts (fourP : Bool) (cs : List Claim) : List Nat :=
  let all := ((findings fourP cs).foldl (fun l f => insFinding f l) []).map fun f => f.2.2
  (List.range (min 16 all.length)).map fun k =>
    let c := all.getD k 0
    if k = 15 ∧ 16 < all.length ∧ c % 256 = 1 then c + 1 else c

/-- The kinds that the claims of a compare give its two words, main and share (R246, R51): of two claimants the main word has the one that
ranks higher; 0 where there is none. -/
def claimKinds (here : List Claim) : Nat × Nat :=
  match here.map fun x => compareKind x.blk with
  | [] => (0, 0)
  | [a] => (a, 0)
  | a :: b :: _ => (min a b, max a b)

/-- A compare word fits its claims (R246): `sh` for a share word. Its range is held against its port's carrier; on a leg of no port it has
none but that of the slope. -/
def State.compareOk (s : State) (cs : List Claim) (l k : Nat) (sh : Bool) : Bool :=
  let w := s.w (if sh then Pid.xs l k else Pid.xc l k)
  let here := cs.filter fun x => decide (x.typ = 4 ∧ x.idx = 6 * l + k)
  let who := here.any fun x => decide (compareKind x.blk = xKind w) && (match xKind w with
    | 1 => decide (s.portOfLeg l = some x.inst)
    | 2 => decide (x.inst = 0)
    | _ => decide (x.inst = l))
  let claimed := fun (typ idx : Nat) => cs.any fun x => x.typ = typ && x.idx = idx
  decide (here.length ≤ 2) && decide (xKind w = if sh then (claimKinds here).2 else (claimKinds here).1) &&
  (match s.portOfLeg l with
    | some p => s.xWordOk p w w
    | none => decide (w.toNat < 2 ^ 31 ∧ xSlope w ≤ 2)) &&
  (match xKind w with
    | 0 => decide (xTarget w = 0) && (!sh || decide (w = 0))
    | 1 => who && decide (xTarget w = 0)
    | 2 => who && decide (4 ≤ xTarget w ∧ xTarget w ≤ 12) && claimed 6 (xTarget w)
    | 3 => who && decide (xTarget w ≤ 11) && claimed 2 (194 + xTarget w)
    | _ => false)

/-- Every compare word fits, and every used port has one word of kind sampling on its legs (R246). -/
def State.comparesOk (s : State) (cs : List Claim) : Bool :=
  (List.range (if s.fourP then 24 else 12)).all (fun l => (List.range 6).all fun k => s.compareOk cs l k false && s.compareOk cs l k true) &&
  s.usedPorts.all fun p => decide ((((s.port p).legs.flatMap fun l => (List.range 6).flatMap fun k => [s.w (Pid.xc l k), s.w (Pid.xs l k)]).filter
    fun w => xKind w = 1).length = 1)

/-- The capture memory claimed, by function (R421, R422). -/
def capClaimsOf (cs : List Claim) : List (Nat × Nat × Bool) :=
  (cs.filter fun x => decide (x.typ = 5 ∧ x.blk = 0x2C ∧ 1 ≤ x.inst ∧ x.inst ≤ 2)).map fun x => (x.inst - 1, x.idx, x.shared)

/-- A function that has channels or claims has units for its largest crumb (R422), and `sync_drive` its line (R428). -/
def State.captureOk (s : State) (cs : List Claim) : Bool :=
  let claims := capClaimsOf cs
  let n := fun (i : Nat) => (claims.filter fun c => c.1 = i).length
  (List.range 2).all (fun i => decide (n i = 0 ∧ s.capChans i = []) || decide (s.capNeed i ≤ n i)) &&
  (decide (s.n Pid.syncDrive = 0) || cs.any fun x => decide (x.typ = 6 ∧ x.idx = 4 ∧ x.blk = 0x2C) && !x.shared)

/-! ### Step 5: law graphs (R155-R160) -/

/-- Inputs, outputs and operations of a block type with fixed pins (R155): (inputs, outputs, operations). -/
def blockTable : List (Nat × Nat × Nat) := [
  (2, 1, 1), (2, 1, 1), (2, 1, 1), (3, 1, 1), (1, 1, 1), (2, 1, 4), (1, 1, 4), (1, 1, 1), (2, 1, 1), (2, 1, 1),
  (3, 1, 1), (3, 1, 1), (3, 3, 3), (2, 2, 2), (3, 2, 4), (3, 2, 4), (2, 3, 3), (1, 2, 4), (2, 1, 1), (2, 4, 8)] ++ [
  (4, 1, 2), (4, 1, 3), (1, 1, 2), (1, 1, 5), (2, 1, 6), (1, 1, 3), (1, 2, 2), (1, 1, 1), (8, 8, 12), (6, 2, 6),
  (5, 4, 10), (0, 0, 0), (0, 0, 0), (4, 2, 4), (2, 1, 3), (3, 1, 1), (2, 1, 1), (0, 0, 0), (0, 0, 0), (1, 1, 3)]

/-- The pins of a block are those of its type (R155). -/
def pinsOk (typ ins outs : Nat) : Bool :=
  match typ with
  | 0x20 => decide (1 ≤ outs ∧ ins = outs + 2)
  | 0x21 => decide (1 ≤ outs ∧ ins = outs + 1)
  | 0x26 => decide (ins = 0 ∧ 1 ≤ outs ∧ outs ≤ 16)
  | 0x27 => decide (outs = 0 ∧ 1 ≤ ins ∧ ins ≤ 16)
  | _ => decide (1 ≤ typ ∧ typ ≤ 0x28) && (match blockTable.getD (typ - 1) (0, 0, 0) with
    | (i, o, _) => decide (ins = i ∧ outs = o))

/-- Operations of a block (R155). -/
def blockCost (typ ins outs : Nat) : Nat :=
  match typ with
  | 0x20 => 2 * outs
  | 0x21 => 2 * outs
  | 0x26 => outs
  | 0x27 => ins
  | _ => (blockTable.getD (typ - 1) (0, 0, 0)).2.2

/-- A block entry as the unit keeps it (R158), with its input references (R159) and its constants. -/
def graphBlock (sec e : List Byte) : GraphBlock :=
  let f := leAt e
  { typ := f 0 1, optional := bitAt (f 1 1) 0, bypass := bitAt (f 1 1) 1, rank := f 2 1, cost := blockCost (f 0 1) (f 3 1) (f 9 1)
    ins := f 3 1, outs := f 9 1, key := f 12 4
    refs := (List.range (f 3 1)).map fun j => leAt sec (leAt sec 0xC 4 + 4 * (f 4 2 + j)) 4
    consts := (List.range (f 8 1)).map fun j => (BitVec.ofNat 32 (leAt sec (leAt sec 4 4 + 4 * (f 6 2 + j)) 4)).toInt }

/-- An input reference is admissible (R159): word, block's place, the blocks of the partition, port. -/
def State.refOk (s : State) (bs : List GraphBlock) (p k w : Nat) : Bool :=
  let lo := w % 2 ^ 28
  let pin := fun (j : Nat) => match bs[j]? with
    | some b => decide (lo % 256 < b.outs)
    | none => false
  match w / 2 ^ 28 with
  | 0 => decide (lo / 65536 < k) && pin (lo / 65536)
  | 1 => (s.quantity (lo % 65536)).isSome
  | 2 => decide (lo < 2 ^ 24 ∧ 0x08 ≤ pidBlock lo ∧ pidBlock lo ≤ 0x0B ∧ pidInst lo = p) && (findParam s.fourP lo).isSome
  | 3 => pin (lo / 65536)
  | _ => false

/-- The constant count is what the type requires (R158): the constants that its meaning reads, as the spec lists no counts (DEDUCED, log 8);
one address per element of SRC and SINK; any count for the types whose structure is open. -/
def constsOk (typ ins outs n : Nat) : Bool :=
  if typ = 0x14 ∨ typ = 0x19 ∨ typ = 0x1D then true
  else if typ = 0x26 then decide (n = outs)
  else if typ = 0x27 then decide (n = ins)
  else if [0x05, 0x06, 0x15, 0x17, 0x1C, 0x20].contains typ then decide (n = 1)
  else if [0x16, 0x1B, 0x1F].contains typ then decide (n = 2)
  else decide (n = if typ = 0x1A then 3 else if typ = 0x18 then 5 else if typ = 0x28 then 32 else 0)

/-- A block entry meets R158, with its references in the list (R159). -/
def State.blockOk (s : State) (sec : List Byte) (bs : List GraphBlock) (p k : Nat) (e : List Byte) : Bool :=
  let f := leAt e
  let list := leAt sec 0xC 4
  pinsOk (f 0 1) (f 3 1) (f 9 1) && decide (f 1 1 < 4 ∧ f 2 1 ≤ 15 ∧ (f 1 1 % 2 = 1 ∨ f 2 1 = 0) ∧ f 10 2 = 0) &&
  decide (list + 4 * (f 4 2 + f 3 1) ≤ sec.length) && decide (f 6 2 + f 8 1 ≤ leAt sec 8 4) && constsOk (f 0 1) (f 3 1) (f 9 1) (f 8 1) &&
  (List.range (f 3 1)).all fun j => s.refOk bs p k (leAt sec (list + 4 * (f 4 2 + j)) 4)

/-- The block entries of partition record `i`. -/
def partEntries (sec : List Byte) (i : Nat) : List (List Byte) :=
  let r := 0x10 + 16 * i
  (List.range (min 512 (leAt sec (r + 2) 2))).map fun k => (sec.drop (leAt sec (r + 8) 4 + 16 * k)).take 16

/-- A partition record and its blocks meet R157 and R158. -/
def State.partOk (s : State) (sec : List Byte) (p i : Nat) : Bool :=
  let r := 0x10 + 16 * i
  let f := fun (o n : Nat) => leAt sec (r + o) n
  let es := partEntries sec i
  let bs := es.map (graphBlock sec)
  decide (f 0 1 = p ∧ f 1 1 = i % 2 + 1 ∧ 1 ≤ f 2 2 ∧ f 2 2 ≤ 512 ∧ f 6 2 = 0 ∧ f 12 4 = 0 ∧ f 8 4 + 16 * f 2 2 ≤ sec.length) &&
  decide (f 4 2 = bs.foldl (fun a b => a + b.cost) 0) &&
  ((bs.filter fun b => carriesState b.typ).map fun b => b.key).Nodup &&
  (List.range es.length).all fun k => s.blockOk sec bs p k (es.getD k [])

/-- The graphs of a section in the format of R157. -/
def graphsOf (used : List Nat) (sec : List Byte) : List Graph :=
  (List.range (2 * used.length)).map fun i => ⟨used.getD (i / 2) 0, i % 2 = 1, (partEntries sec i).map (graphBlock sec)⟩

/-- A law-graph section meets R156 to R159 with an outer ratio. -/
def State.graphSectOk (s : State) (sec : List Byte) (ratio : Nat) : Bool :=
  let f := leAt sec
  let used := s.usedPorts
  let gs := graphsOf used sec
  let inner := if s.n Pid.injAllow = 1 then 382 else 384
  decide (f 0 2 = 1 ∧ f 2 1 = used.foldl (fun a p => a + 2 ^ p) 0 ∧ f 3 1 = 0 ∧ f 4 4 % 4 = 0 ∧ f 8 4 ≤ 16384 ∧ f 0xC 4 % 4 = 0) &&
  decide (f 4 4 + 4 * f 8 4 ≤ sec.length ∧ 0x10 + 32 * used.length ≤ sec.length) &&
  (List.range (2 * used.length)).all (fun i => s.partOk sec (used.getD (i / 2) 0) i) &&
  gs.all (fun g => decide (g.cost ≤ if g.outer then 1024 else inner)) &&
  decide ((gs.filter fun g => g.outer).foldl (fun a g => a + g.cost) 0 ≤ s.n Pid.outerSliceOps * (ratio - 2))

/-- Some graph of a port drives its period (R240). -/
def drivesPeriod (gs : List Graph) (p : Nat) : Bool :=
  gs.any fun g => decide (g.port = p) && g.blocks.any fun b => decide (b.typ = 0x27) && b.consts.any fun c => decide (c = 512)

/-- An alternate-set section meets R160, and the alternate set R156, R208 and R233. A graph that drives a period can reach every multiple
of an inner period (R245). -/
def State.altSectOk (s : State) (main sec : List Byte) : Bool :=
  let t := leAt sec 0 4
  let r := leAt sec 4 1
  decide (t % 5 = 0 ∧ s.n Pid.tInner ≤ t ∧ 10 ≤ r ∧ r ≤ 100 ∧ s.n Pid.outerRatio ≤ r) &&
  ((sec.drop 5).take 11).all (fun b => b = 0) && s.graphSectOk (sec.drop 16) r &&
  s.usedPorts.all fun p => s.convOk p t && s.carrierOk p t &&
    (decide (s.n (Pid.smpSync p) = 0) || !drivesPeriod (graphsOf s.usedPorts main ++ graphsOf s.usedPorts (sec.drop 16)) p ||
      decide (s.n Pid.tInner = t))

/-! ### Step 5: safety block, network, keys (R304, R306, R365, R366, R373, R378, R397) -/

/-- The safety block meets R304 and R306. -/
def State.safetyBlockOk (s : State) (b : List Byte) : Bool :=
  let f := leAt b
  let w := f 2 2
  let p := w / 16 % 4
  decide (b.length = 32 ∧ f 0 2 = 1 ∧ 1 ≤ f 4 2 ∧ f 4 2 ≤ 0xFFFE ∧ 1 ≤ f 6 2 ∧ f 6 2 ≤ 20) &&
  decide (200 ≤ f 8 2 ∧ f 8 2 + 100 ≤ 1000 * f 6 2 ∧ 10 ≤ f 0xA 2 ∧ f 0xA 2 ≤ 150 ∧ 10 ≤ f 0xC 2 ∧ f 0xC 2 ≤ 1000 ∧ f 0xF 1 = 0) &&
  decide (20 ≤ f 0x10 2 ∧ f 0x10 2 ≤ 500 ∧ 1000 ≤ f 0x12 2 ∧ f 0x12 2 ≤ 10000 ∧ 1 ≤ f 0x14 2 ∧ f 0x14 2 ≤ 168) &&
  decide (20 ≤ f 0x16 2 ∧ f 0x16 2 ≤ 400 ∧ f 0x16 2 + 50 ≤ f 0x18 2 ∧ f 0x18 2 ≤ 500) &&
  decide (f 0x1A 2 ≤ 0x7FF ∧ f 0x1C 2 ≤ 0x7FF ∧ f 0x1C 2 ≠ f 0x1A 2 ∧ f 0x1E 2 = 0) && nibbleOk w && profileSupported w &&
  ((s.port p).used && !s.isDc p && decide (s.n (Pid.hasContactor p) = 1))

/-- The SAFE parameters that the block gives (R304). -/
def State.setSafety (s : State) (b : List Byte) : State :=
  let f := leAt b
  [(Pid.spConnId, f 4 2), (Pid.spPeriod, f 6 2), (Pid.spWindow, f 8 2), (Pid.sinFilter, f 0xA 2), (Pid.sinDiscTime, f 0xC 2),
   (Pid.sinTpEn, f 0xE 1), (Pid.sccMirrorTime, f 0x10 2), (Pid.sbcHoldTime, f 0x12 2), (Pid.sbcTestInterval, f 0x14 2),
   (Pid.sbcIMin, f 0x16 2), (Pid.sbcIMax, f 0x18 2), (Pid.spCanRxId, f 0x1A 2), (Pid.spCanTxId, f 0x1C 2)].foldl
    (fun s e => s.setN e.1 e.2) s

/-- Nominal and data bit timing of a channel (R365, R366). -/
def State.canTimingOk (s : State) (ch : Nat) : Bool :=
  let nb := s.n (Pid.canNbt ch)
  let db := s.n (Pid.canDbt ch)
  let f := fun (w k : Nat) => fld w (8 * k) 8
  let len := fun (w : Nat) => f w 3 * (1 + f w 2 + f w 1)
  decide (1 ≤ f nb 3 ∧ f nb 3 ≤ 32 ∧ 2 ≤ f nb 2 ∧ f nb 2 ≤ 128 ∧ 1 ≤ f nb 1 ∧ f nb 1 ≤ 64 ∧ 1 ≤ f nb 0 ∧ f nb 0 ≤ f nb 1) &&
  decide (80 ≤ len nb ∧ len nb ≤ 640) &&
  decide (1 ≤ f db 3 ∧ f db 3 ≤ 8 ∧ 1 ≤ f db 2 ∧ f db 2 ≤ 32 ∧ 1 ≤ f db 1 ∧ f db 1 ≤ 16 ∧ 1 ≤ f db 0 ∧ f db 0 ≤ f db 1) &&
  decide (16 ≤ len db ∧ len db ≤ 160 ∧ len db ≤ len nb) &&
  (decide (s.n (Pid.canTriple ch) = 0) || decide (320 ≤ len nb))

/-- Addresses of a port (R390): unicast, the gateway within the prefix. -/
def State.ipOk (s : State) (e : Nat) : Bool :=
  let ip := s.n (Pid.ethIp e)
  let gw := s.n (Pid.ethGw e)
  let net := 2 ^ (32 - s.n (Pid.ethPrefix e))
  decide (ip ≠ 0 ∧ ip / 2 ^ 24 < 224) && (decide (gw = 0) || decide (gw / net = ip / net))

/-- The network and time parameters together (R365, R366, R373, R386, R389-R391). -/
def State.netOk (s : State) : Bool :=
  (List.range 2).all (fun k => s.canTimingOk k && s.ipOk k &&
    decide (s.n (Pid.canTrefId k) ≠ s.n Pid.spCanRxId ∧ s.n (Pid.canTrefId k) ≠ s.n Pid.spCanTxId)) &&
  !(decide (s.n (Pid.canTimeRole 0) = 2) && decide (s.n (Pid.canTimeRole 1) = 2)) &&
  decide (s.n Pid.cycOffset % 5 = 0 ∧ s.n Pid.cycOffset + 5 ≤ s.n Pid.tInner)

/-- K_b (R396): the key of the active re-binding record, else the unit key. -/
def State.bindingKey (s : State) : BitVec 128 := s.fuses.rebindKey.getD s.fuses.unitKey

/-- The entries of the roles-and-keys section (R397); no key is unwrapped for a foreign slot. -/
def State.keyEntries (s : State) (sec : List Byte) : List KeyEntry :=
  (List.range (sec.length / 32)).map fun k =>
    let e := (sec.drop (32 * k)).take 32
    ⟨leAt e 0 1, bitAt (leAt e 1 1) 0, if s.img.foreign then none else keyUnwrap s.bindingKey (e.drop 8)⟩

/-- The roles-and-keys section meets R397. -/
def State.keysOk (s : State) (sec : List Byte) : Bool :=
  let ks := s.keyEntries sec
  let codes := ks.map fun k => k.code
  decide (sec.length % 32 = 0) && codes.all (fun c => decide (1 ≤ c ∧ c ≤ 5 ∨ c = 0x10)) && decide codes.Nodup &&
  codes.contains 1 && codes.contains 4 &&
  (List.range (sec.length / 32)).all (fun k => ((sec.drop (32 * k + 2)).take 6).all fun b => b = 0) &&
  (s.img.foreign || ks.all fun k => k.key.isSome)

end Sys2Proof.Machine
end

