-- ==== Sys2Proof/Machine/LinkOps.lean ====
section
/-! DEFINITION. Bergil link below its commands: packets, transport, responses, sessions and keys
(R43, R393-R400). -/

namespace Sys2Proof.Machine

/-! ### Packets (R395) -/

/-- The sixteen bytes of a key or a tag. -/
def bytes16 (k : BitVec 128) : List Byte := beBytes 16 k.toNat

/-- Sixteen bytes as a key or a tag. -/
def bits128 (bs : List Byte) : BitVec 128 := BitVec.ofNat 128 (beNat bs)

/-- A packet with its tag. -/
def pktBytes (kind cmd seq sid flags status : Nat) (payload : List Byte) (key : BitVec 128) : List Byte :=
  let body := leBytes 1 1 ++ leBytes 1 kind ++ leBytes 2 cmd ++ leBytes 4 seq ++ leBytes 4 sid ++ leBytes 2 payload.length
    ++ leBytes 1 flags ++ leBytes 1 status ++ payload
  body ++ bytes16 (aesCmac key body)

/-- The payload of a packet. -/
def pktPayload (bs : List Byte) : List Byte := (bs.drop 16).take (leAt bs 0xC 2)

/-- The tag of a packet. -/
def pktTag (bs : List Byte) : BitVec 128 := bits128 (bs.drop (16 + leAt bs 0xC 2))

/-- The tag verifies under a key. -/
def tagOk (key : BitVec 128) (bs : List Byte) : Bool := decide (aesCmac key (bs.take (16 + leAt bs 0xC 2)) = pktTag bs)

/-- Step 1 of R400: version, kind, session field, length, and zero flags and status. -/
def pktOk (bs : List Byte) : Bool :=
  let f := leAt bs
  decide (f 0 1 = 1 ∧ f 0xC 2 ≤ 1400 ∧ bs.length = 32 + f 0xC 2 ∧ f 0xE 1 = 0 ∧ f 0xF 1 = 0) &&
  (match f 1 1 with
    | 1 => decide (f 8 4 ≠ 0)
    | 4 => decide (f 8 4 = 0)
    | 5 => decide (f 8 4 = 0)
    | _ => false)

/-- A packet or a segment is discarded (R393-R395). -/
def State.blDrop (s : State) : State := s.bump Pid.blDropCount

/-! ### Q-CMD (R38) -/

/-- A packet enters Q-CMD, or is dropped at the boundary. -/
def State.cmdIn (s : State) (p : CmdPkt) : State :=
  if 16 ≤ s.link.cmds.length then s.blDrop.qLost 0x0F
  else (s.modLink fun x => { x with cmds := x.cmds ++ [p] }).highWater 0x0F (s.link.cmds.length + 1)

/-- A datagram to port 40960 (R393). -/
def State.datagramIn (s : State) (e ip port : Nat) (bs : List Byte) : State :=
  if bs.length < 32 ∨ bs.length ≠ 32 + leAt bs 0xC 2 then s.blDrop else s.cmdIn ⟨e, ip, port, bs⟩

/-- The reassembly of a channel. -/
def State.setReasm (s : State) (ch : Nat) (r : Option ReasmSt) : State := s.modLink fun x => { x with reasm := x.reasm.set ch r }

/-- A packet is complete (R394): its padding is dropped. -/
def State.packetDone (s : State) (ch : Nat) (bs : List Byte) (segs : Nat) : State :=
  let len := 32 + leAt bs 0xC 2
  if (len + 61) / 62 ≠ segs then s.blDrop else s.cmdIn ⟨2 + ch, 0, 0, bs.take len⟩

/-- A segment (R394): the partial packet is discarded on a segment out of order, a changed transfer number, or more than 50 ms; a
first segment starts anew. -/
def State.segmentIn (s : State) (ch : Nat) (bs : List Byte) : State :=
  if bs.length ≠ 64 then s.blDrop
  else
    let b0 := leAt bs 0 1
    let idx := b0 % 64
    let last := bitAt b0 6
    let data := bs.drop 2
    let old := s.link.reasm.getD ch none
    let late := match old with
      | some r => decide (r.since + 50 * psMs < s.now)
      | none => false
    let s := s.onlyIf late fun s => s.blDrop.setReasm ch none
    let old := if late then none else old
    if bitAt b0 7 then
      let s := s.onlyIf old.isSome State.blDrop
      if idx ≠ 0 then s.blDrop.setReasm ch none
      else if last then (s.setReasm ch none).packetDone ch data 1
      else s.setReasm ch (some ⟨s.now, leAt bs 1 1, 1, data⟩)
    else match old with
      | none => s.blDrop
      | some r =>
        if r.xfer ≠ leAt bs 1 1 ∨ r.next ≠ idx ∨ 24 ≤ idx then s.blDrop.setReasm ch none
        else if last then (s.setReasm ch none).packetDone ch (r.bytes ++ data) (idx + 1)
        else s.setReasm ch (some { r with next := idx + 1, bytes := r.bytes ++ data })

/-! ### Sending (R393, R394, R43) -/

/-- The segments of a packet (R394). -/
def segments (brs : Bool) (id xfer : Nat) (bs : List Byte) : List CanFrame :=
  let n := (bs.length + 61) / 62
  (List.range n).map fun k =>
    let d := (bs.drop (62 * k)).take 62
    let b0 := (if k = 0 then 128 else 0) + (if k + 1 = n then 64 else 0) + k
    { id := id, fd := true, brs := brs, data := leBytes 1 b0 ++ leBytes 1 xfer ++ d ++ List.replicate (62 - d.length) 0#8 }

/-- Q-CANTX has credits for all segments, and the channel takes frames. -/
def State.canRoom (s : State) (ch n : Nat) : Bool :=
  decide ((s.canCh ch).q.length + n ≤ 32) && !([0, 4].contains (s.canCode ch))

/-- Submit segments. -/
def State.canSegments (s : State) (ch : Nat) (fs : List CanFrame) : State := fs.foldl (fun s f => (s.canSubmit ch f .link).2) s

/-- A Q-RSP credit is free (R36, R43). -/
def State.rspCredit (s : State) : Bool := decide (s.link.waiting.length < 16)

/-- Send a packet on a path: by UDP, discarded and counted while the link is down (R43); on CAN in segments, which wait for
credits (R394). -/
def State.sendPkt (s : State) (path ip port : Nat) (bs : List Byte) : State :=
  let s := (s.modLink fun x => { x with sent := some (path, bs) }).highWater 0x10 (s.link.waiting.length + 1)
  if path < 2 then
    if s.ethUp path then s.udpSend path ip 40960 port bs else s.bump Pid.rspDiscardCount
  else
    let ch := path - 2
    let x := (s.link.xfer.getD ch 0 + 1) % 256
    let fs := segments (s.canBrs ch) (s.n Pid.blCanTxId) x bs
    let s := s.modLink fun l => { l with xfer := l.xfer.set ch x }
    if s.canRoom ch fs.length && !s.link.waiting.any fun w => w.1 = ch then s.canSegments ch fs
    else s.modLink fun l => { l with waiting := l.waiting ++ [(ch, fs, s.now)] }

/-! ### Sessions (R398, R399) -/

/-- A session. -/
def State.sess? (s : State) (sid : Nat) : Option SessSt := s.link.sess.find? fun x => x.sid = sid

/-- Change a session. -/
def State.modSess (s : State) (sid : Nat) (f : SessSt → SessSt) : State :=
  s.modLink fun l => { l with sess := l.sess.map fun x => if x.sid = sid then f x else x }

/-- The role a code names. -/
def roleOf (c : Nat) : Option Role :=
  match c with
  | 1 => some .observer
  | 2 => some .operator
  | 3 => some .service
  | 4 => some .commissioner
  | 5 => some .integrator
  | 6 => some .factory
  | _ => none

/-- The key of a role (R396, R416), none when the unit holds none. -/
def State.roleKey (s : State) (r : Role) : Option (BitVec 128) :=
  if r = .factory then some s.fuses.factoryKey
  else if s.unit.st.factory then (if r = .observer ∨ r = .commissioner then some s.fuses.unitKey else none)
  else (s.img.keys.find? fun k => k.code = r.code).bind fun k => k.key

/-- The role is enabled (R397, R416). -/
def State.roleEnabled (s : State) (r : Role) : Bool :=
  if r = .factory then decide (s.unit.st = .readyRefused)
  else s.unit.st.factory || s.img.keys.any fun k => k.code = r.code && k.enabled

/-- The domain key (R396, R415). -/
def State.domainKey (s : State) : Option (BitVec 128) :=
  if s.unit.st.factory then none
  else (s.img.keys.find? fun k => k.code = 0x10 && k.enabled).bind fun k => k.key

/-- A tag failure (R398, R400): counted; 0x7281 at most once per 10 s per source, the IPv4 address or the CAN channel. -/
def State.authFail (s : State) (path ip : Nat) : State :=
  let src := if path < 2 then ip else 2 ^ 32 + path
  let s := s.bump Pid.authFailCount
  if s.link.told.any fun t => t.1 = src && decide (s.now < t.2 + 10 * psS) then s
  else (s.modLink fun l => { l with told := (src, s.now) :: l.told.filter fun t => t.1 ≠ src }).raise 0x7281 path ip

/-- A request's sequence is new (R399). -/
def SessSt.isNew (x : SessSt) (seq : Nat) : Bool :=
  match x.high with
  | none => true
  | some h => decide (1 ≤ (seq + 2 ^ 32 - h) % 2 ^ 32 ∧ (seq + 2 ^ 32 - h) % 2 ^ 32 ≤ 256)

/-- The response of a session with flags bit 0 set. -/
def resent (x : SessSt) (bs : List Byte) : List Byte :=
  let body := (bs.take 0xE) ++ [1#8] ++ ((bs.drop 0xF).take (1 + leAt bs 0xC 2))
  body ++ bytes16 (aesCmac x.krs body)

/-- Send the response to a request and keep it for a retransmission. `path`, `ip` and `port` are the request's. -/
def State.answer (s : State) (x : SessSt) (path ip port cmd seq status : Nat) (payload : List Byte) (tag : Option (BitVec 128)) : State :=
  let bs := pktBytes 2 cmd seq x.sid 0 status payload x.krs
  let s := s.modSess x.sid fun y => match tag with
    | some t => { y with recent := ((t, some bs) :: y.recent).take 16 }
    | none => y
  s.sendPkt path ip port bs

/-! ### Transport rows -/

/-- BL_DATAGRAM_RECEIVE (R393). -/
def execBlDatagramReceive (t : Nat) (e ip port : Nat) (bytes : List Byte) (s : State) : Out :=
  let s := s.advance t
  .next (if s.ethUp e then s.datagramIn e ip port bytes else s)

/-- The link runs on a CAN channel (R393, R416). -/
def State.blOnCan (s : State) (ch : Nat) : Bool :=
  decide (ch < 2) && s.bit Pid.blCanEn ch && [1, 2, 4].contains (s.canCode ch) && !s.unit.st.factory

/-- BL_SEGMENT_RECEIVE (R394). -/
def execBlSegmentReceive (t : Nat) (ch : Nat) (bytes : List Byte) (s : State) : Out :=
  let s := s.advance t
  .next (if s.blOnCan ch then s.segmentIn ch bytes else s)

/-- BL_REASSEMBLY_TIMEOUT (R394): more than 50 ms since the first segment. -/
def execBlReassemblyTimeout (t : Nat) (ch : Nat) (s : State) : Out :=
  let s := s.advance t
  .next (match s.link.reasm.getD ch none with
    | some r => if r.since + 50 * psMs < s.now then s.blDrop.setReasm ch none else s
    | none => s)

/-- One waiting response (R394): sent when credits exist, discarded and counted after 100 ms. `keep` collects what still
waits. -/
def State.retryOne (s : State) (keep : List (Nat × List CanFrame × Nat)) (w : Nat × List CanFrame × Nat) :
    State × List (Nat × List CanFrame × Nat) :=
  if w.2.2 + 100 * psMs ≤ s.now then (s.bump Pid.rspDiscardCount, keep)
  else if s.canRoom w.1 w.2.1.length && !keep.any fun k => k.1 = w.1 then (s.canSegments w.1 w.2.1, keep)
  else (s, keep ++ [w])

/-- Every waiting response, in order; those that stay are answered too. -/
def State.retryAll (s : State) : State × List (Nat × List CanFrame × Nat) :=
  s.link.waiting.foldl (fun a w => a.1.retryOne a.2 w) (s, [])

/-- RESPONSE_SEGMENT_RETRY (R394), every 1 ms: every waiting response, in order. -/
def execResponseSegmentRetry (t : Nat) (s : State) : Out :=
  .next ((s.advance t).recur .segRetry psMs fun s => s.retryAll.1.modLink fun l => { l with waiting := s.retryAll.2 })

end Sys2Proof.Machine
end

