-- ==== Sys2Proof/Machine/LinkCmd.lean ====
section
/-! DEFINITION. The commands of Bergil link: what each does and answers (R401-R406, R412-R414, R433). -/

namespace Sys2Proof.Machine

/-- The answer to a command. -/
structure Reply where
  status : Nat
  payload : List Byte
  st : State

/-- A failure payload of R403. -/
def failPayload (idx pstat detail : Nat) : List Byte := leBytes 2 idx ++ leBytes 1 pstat ++ leBytes 1 0 ++ leBytes 4 detail

/-- A refusal with a detail (R413, R414). -/
def State.refuse (s : State) (status detail : Nat) : Reply := ⟨status, failPayload 0 1 detail, s⟩

/-- A bare answer. -/
def State.reply (s : State) (status : Nat) : Reply := ⟨status, [], s⟩

/-! ### Read and Write (R402, R403) -/

/-- Read. -/
def State.linkRead (s : State) (ids : List Nat) : Reply :=
  match (List.range ids.length).find? fun k => (findParam s.fourP (ids.getD k 0)).isNone with
  | some k => ⟨2, failPayload k 2 0, s⟩
  | none => ⟨0, ids.flatMap fun id => leBytes 4 (s.readWord id).toNat, s⟩

/-- Write. -/
def State.linkWrite (s : State) (role : Role) (rb : Bool) (items : List (Nat × Word)) : Reply :=
  let w := s.writeAll role rb items
  match w.bad with
  | none => ⟨0, [], w.st⟩
  | some (k, p, d) => ⟨writeStatus p, failPayload k p d, w.st⟩

/-! ### Bulk read (R404, R433) -/

/-- The bytes of the peer table (R418). -/
def State.peerBytes (s : State) : List Byte :=
  (List.range 32).flatMap fun k =>
    match s.link.peers[k]? with
    | some p => leBytes 4 p.ip ++ leBytes 8 p.serial ++ leBytes 2 (min ((s.now - p.heardAt) / psS) 0xFFFF)
        ++ leBytes 1 (if p.present then 1 else 2) ++ leBytes 1 0
    | none => leBytes 16 0

/-- A bulk-read target other than a crumb (R404). -/
def State.bulkTarget (s : State) (id : Nat) : Option (List Byte) :=
  if id = Pid.frTable then some s.inj.table.flatten
  else if id = Pid.slackHist then some (s.prf.hist.flatMap (leBytes 4 ·))
  else if id = Pid.healthReport then some s.prf.report
  else if id = Pid.sbHealthReport then some s.pair.report
  else if id = Pid.peerTable then some s.peerBytes
  else if id = Pid.auditLog then some (if s.n Pid.flashSize = 0 then [] else s.flashRead s.auditAt 1048576)
  else none

/-- The directory instance of a `crumb_data` identifier. -/
def crumbOf (id : Nat) : Option Nat :=
  if pidBlock id = 0x2C ∧ 0x40 ≤ pidInst id ∧ pidInst id ≤ 0xBF ∧ pidField id = 2 then some (pidInst id - 0x40) else none

/-- A slice with its total length and its offset; an offset beyond the length is refused. -/
def slice (bs : List Byte) (off len : Nat) : Option (List Byte) :=
  if bs.length < off then none else some (leBytes 4 bs.length ++ leBytes 4 off ++ (bs.drop off).take len)

/-- Answer a slice. -/
def State.bulkSlice (s : State) (bs : List Byte) (off len : Nat) : Reply :=
  match slice bs off len with
  | some p => ⟨0, p, s⟩
  | none => s.refuse 1 0

/-- Read a crumb in place and lock it (R433). -/
def State.crumbRead (s : State) (sid dd off len : Nat) : Reply :=
  match s.cap.crumbs.reverse.find? fun c => c.no % 128 = dd with
  | some c =>
    if c.recording then s.refuse 1 0
    else
      let held := match s.sess? sid with
        | some x => (match x.lock with
          | some (no, _) => decide (no = c.no)
          | none => false)
        | none => false
      (s.onlyIf (decide (off = 0) || held) fun s => s.modSess sid fun x => { x with lock := some (c.no, s.now) }).bulkSlice
        (s.crumbBytes c) off len
  | none => s.refuse 1 0

/-- Bulk read. -/
def State.linkBulkRead (s : State) (sid : Nat) (role : Role) (id off len : Nat) : Reply :=
  if (findParam s.fourP id).isNone then ⟨2, failPayload 0 2 0, s⟩
  else match crumbOf id with
  | some dd => s.crumbRead sid dd off len
  | none =>
    if id = Pid.auditLog ∧ !role.meets .service ∧ role ≠ .factory then ⟨3, failPayload 0 3 0, s⟩
    else match s.bulkTarget id with
    | none => s.refuse 1 0
    | some bs =>
      if off = 0 then (s.modSess sid fun x => { x with copy := some (id, bs, s.now) }).bulkSlice bs 0 len
      else match (s.sess? sid).bind fun x => x.copy with
        | some (i, c, a) => if i = id ∧ s.now < a + 10 * psS then s.bulkSlice c off len else s.refuse 1 0
        | none => s.refuse 1 0

/-! ### Bulk write (R405, R358) -/

/-- Show `bulk_state`. -/
def State.showBulk (s : State) (st target : Nat) : State := s.setN Pid.bulkState (target * 256 + st)

/-- The largest content of a target (R405). -/
def State.bulkMax (s : State) (target : Nat) : Nat :=
  if target = 0x10 then 65536 + 16384 + 48 + 32768 + 96 else if s.n Pid.flashSize = 0 then 0 else s.slotBytes

/-- Bulk write begin. -/
def State.linkBegin (s : State) (sid target total : Nat) (digest : List Byte) : Reply :=
  if target ≠ 0 ∧ target ≠ 1 ∧ target ≠ 0x10 then s.refuse 1 0
  else if s.img.loaded ∧ s.n Pid.bootSlot = target then s.reply 9
  else if s.lat.pendingX then s.reply 9
  else if s.bulkMax target < total then s.refuse 1 0
  else if s.link.bulk.isSome then s.reply 5
  else
    let slot := decide (target < 2)
    let s := s.modLink fun l => { l with bulk := some { sid := sid, target := target, total := total, digest := digest, erasing := slot, lastAt := s.now } }
    if slot then ((s.setN (slotPid target) 1).showBulk 1 target).flashErase (s.slotAt target) s.slotBytes |>.reply 0
    else (((s.modLat fun x => { x with bank := none }).setN Pid.latBankStatus 1).showBulk 2 target).reply 0

/-- Bulk write data. -/
def State.linkData (s : State) (sid off : Nat) (bytes : List Byte) : Reply :=
  match s.link.bulk with
  | none => ⟨8, leBytes 4 0, s⟩
  | some b =>
    if b.sid ≠ sid ∨ b.erasing then s.reply 5
    else if off ≠ b.got then ⟨8, leBytes 4 b.got, s⟩
    else if b.total < off + bytes.length then s.refuse 1 0
    else
      let got := off + bytes.length
      let s := if b.target = 0x10 then s else s.flashWrite (s.slotAt b.target + off) bytes
      let s := s.modLink fun l => { l with bulk := some { b with
        got := got, lastAt := s.now, bytes := if b.target = 0x10 then b.bytes ++ bytes else b.bytes } }
      ⟨0, leBytes 4 got, s⟩

/-- The bank's program as its load completes (R358): signature against the fingerprint and header CRC, limits, references. -/
def State.bankCheck (s : State) (bs : List Byte) (ioOk : Bool) : LatProg :=
  let n := bs.length - 96
  let prog := bs.take n
  let key := (bs.drop n).take 32
  let signed := decide (96 ≤ bs.length) && decide (sha256 key = s.fingerprint) &&
    ed25519Verify key (sha256 prog) ((bs.drop (n + 32)).take 64)
  latProgOf prog true (signed && decide (leAt prog 0x2C 4 = (crc32c (prog.take 0x2C)).toNat)) ioOk

/-- Bulk write end. -/
def State.linkEnd (s : State) (sid : Nat) (ioOk : Bool) : Reply :=
  match s.link.bulk with
  | none => s.reply 8
  | some b =>
    if b.sid ≠ sid ∨ b.erasing then s.reply 5
    else if b.got < b.total then (s.bulkAbort 8).reply 8
    else
      let bs := if b.target = 0x10 then b.bytes else s.flashRead (s.slotAt b.target) b.total
      if sha256 bs ≠ b.digest then (s.bulkAbort 0xA).reply 0xA
      else
        let s := (s.modLink fun l => { l with bulk := none }).setN Pid.bulkState 0
        if b.target = 0x10 then
          let g := s.bankCheck bs ioOk
          let st := if g.verified then 3 else 2
          let s := ((s.modLat fun x => { x with bank := some g }).setN Pid.latBankStatus st).raise 0x0287 b.target st
          ⟨0, leBytes 1 st, s⟩
        else
          let st := s.checkSlot b.target
          ⟨0, leBytes 1 st, (s.showSlot b.target st).raise 0x0287 b.target st⟩

/-! ### Subscribe and Read events (R402, R406) -/

/-- Subscribe: a period of 0 ends the subscription. A parameter of a port that the image does not declare has no telemetry (R26): refused
as out of range (DESIGN CHOICE, log 46). -/
def State.linkSubscribe (s : State) (sid path period flags : Nat) (ids : List Nat) : Reply :=
  if 2 ≤ path then s.reply 9
  else if period = 0 then (s.modSess sid fun x => { x with sub := none }).reply 0
  else if 1000 < period ∨ 4 ≤ flags ∨ 64 < ids.length then s.reply 6
  else match (List.range ids.length).find? fun k => (findParam s.fourP (ids.getD k 0)).isNone with
    | some k => ⟨2, failPayload k 2 0, s⟩
    | none => match (List.range ids.length).find? fun k => s.absentPort (ids.getD k 0) with
      | some k => ⟨1, failPayload k 1 0, s⟩
      | none => if 4 ≤ (s.link.sess.filter fun x => x.sid ≠ sid && x.sub.isSome).length then s.reply 7
      else (s.modSess sid fun x => { x with sub := some { period := period, flags := flags, ids := ids, lastAt := s.now } }).reply 0

/-- Read events (R402). -/
def State.linkEvents (s : State) (first count : Nat) : Reply :=
  let oldest := s.ev.first
  let next := oldest + s.ev.ring.length
  let start := min (max first oldest) next
  let rs := (s.ev.ring.drop (start - oldest)).take count
  ⟨0, leBytes 4 (start + rs.length) ++ leBytes 4 (oldest - first) ++ rs.flatMap EvRec.bytes, s⟩

/-! ### Fuse-counted settings (R412-R414) -/

/-- Show a fingerprint's words. -/
def State.setFingerprint (s : State) (fp : List Byte) : State :=
  s.each (List.range 8) fun s k => s.setN (Pid.intFpr k) (leAt fp (4 * k) 4)

/-- The old unit key is kept (R414). -/
def State.setRebind (s : State) (key : BitVec 128) : State := { s with fuses := { s.fuses with rebindKey := some key } }

/-- Re-bind (R414): the old serial and the old unit key wrapped under K_u. -/
def State.linkReBind (s : State) (old : Nat) (wrapped : List Byte) (rb : Bool) : Reply :=
  if s.unit.st ≠ .readyUnbound ∨ s.img.boundSerial ≠ old then s.refuse 1 1
  else match keyUnwrap s.fuses.unitKey wrapped with
    | none => s.refuse 1 2
    | some key =>
      let base := s.slotAt (s.n Pid.bootSlot)
      let sec := match (s.sections base).find? fun x => x.typ = 9 with
        | some x => s.sectBytes base x
        | none => []
      if !(List.range (sec.length / 32)).all fun k => (keyUnwrap key ((sec.drop (32 * k + 8)).take 24)).isSome then s.refuse 1 3
      else if s.n Pid.rebindLeft = 0 then s.refuse 1 4
      else
        let s := s.setN Pid.rebindLeft (s.n Pid.rebindLeft - 1)
        if !rb then (s.raise 0x728B 0 2).refuse 0xA 0
        else
          let s := ((s.setRebind key).setN Pid.boundSerialLo (old % 2 ^ 32)).setN Pid.boundSerialHi (old / 2 ^ 32)
          (s.raise 0x0282 0 old).reply 0

/-- The public key in an image's signature block. -/
def State.slotKey (s : State) (k : Nat) : List Byte := s.flashRead (s.slotAt k + s.imgLen (s.slotAt k) - 96) 32

/-- The present integrator key: the one of an image whose digest is the fingerprint. -/
def State.presentKey (s : State) : Option (List Byte) :=
  ([0, 1].find? fun k => decide (s.flashNat (s.slotAt k) 4 = 0x4D495A56) && s.headerOk (s.slotAt k)
    && decide (sha256 (s.slotKey k) = s.fingerprint)).map s.slotKey

/-- An image in a slot that does not run is signed by a key (R413). -/
def State.signedBy (s : State) (key : List Byte) : Bool :=
  [0, 1].any fun k =>
    let base := s.slotAt k
    let len := s.imgLen base
    decide (¬(s.img.loaded ∧ s.n Pid.bootSlot = k)) && decide (s.flashNat base 4 = 0x4D495A56) && s.headerOk base &&
      decide (s.slotKey k = key) && ed25519Verify key (sha256 (s.flashRead base (len - 96))) (s.flashRead (base + len - 64) 64)

/-- Fuse a fingerprint: a failed read-back leaves it. -/
def State.fuseKey (s : State) (key : List Byte) (rb : Bool) : Reply :=
  let fp := sha256 key
  if !rb then (s.raise 0x728B 0 3).refuse 0xA 0 else ((s.setFingerprint fp).raise 0x0285 0 (leAt fp 0 8)).reply 0

/-- Replace integrator key (R413). -/
def State.linkReplaceKey (s : State) (role : Role) (key sig : List Byte) (rb : Bool) : Reply :=
  if s.fingerprint.all fun b => b = 0 then
    if role ≠ .commissioner ∨ s.unit.st ≠ .readyRefused ∨ !(sig.all fun b => b = 0) then s.refuse 1 1 else s.fuseKey key rb
  else
    let ok := match s.presentKey with
      | some k => ed25519Verify k (sha256 (key ++ leBytes 8 s.serial)) sig
      | none => false
    if !ok then s.refuse 1 1
    else if !s.signedBy key then s.refuse 1 2
    else if s.n Pid.keyrepLeft = 0 then s.refuse 1 3
    else (s.setN Pid.keyrepLeft (s.n Pid.keyrepLeft - 1)).fuseKey key rb

/-- Raise floor (R413). -/
def State.linkRaiseFloor (s : State) (floor : Nat) (rb : Bool) : Reply :=
  let old := s.n Pid.rollbackFloor
  if floor ≤ old then s.refuse 1 1
  else if s.n Pid.imageCounter < floor then s.refuse 1 2
  else if s.n Pid.floorStepsLeft = 0 then s.refuse 1 3
  else
    let s := s.setN Pid.floorStepsLeft (s.n Pid.floorStepsLeft - 1)
    if !rb then (s.raise 0x728B 0 4).refuse 0xA 0
    else ((s.setN Pid.rollbackFloor floor).raise 0x0286 0 (old * 256 + floor)).reply 0

/-! ### One command (R400 steps 5 to 7) -/

/-- A command with its fields. -/
inductive LinkCmd where
  | read (ids : List Nat)
  | write (items : List (Nat × Word))
  | bulkRead (id off len : Nat)
  | bulkBegin (target total : Nat) (digest : List Byte)
  | bulkData (off : Nat) (bytes : List Byte)
  | bulkEnd
  | subscribe (period flags : Nat) (ids : List Nat)
  | events (first count : Nat)
  | reBind (old : Nat) (wrapped : List Byte)
  | replaceKey (key sig : List Byte)
  | raiseFloor (floor : Nat)
  | close
  | malformed (code : Nat)

/-- The code of a command (R402). -/
def LinkCmd.code : LinkCmd → Nat
  | .read _ => 1 | .write _ => 2 | .bulkRead _ _ _ => 3 | .bulkBegin _ _ _ => 4 | .bulkData _ _ => 5 | .bulkEnd => 6
  | .subscribe _ _ _ => 7 | .events _ _ => 8 | .reBind _ _ => 9 | .replaceKey _ _ => 0xA | .raiseFloor _ => 0xB | .close => 0xC
  | .malformed c => c

/-- The 32-bit words of a payload. -/
def wordsOf (bs : List Byte) : List Nat := (List.range (bs.length / 4)).map fun k => leAt bs (4 * k) 4

/-- The command a request spells (R402). -/
def parseCmd (code : Nat) (p : List Byte) : LinkCmd :=
  let n := p.length
  let f := leAt p
  match code with
  | 1 => if n % 4 = 0 ∧ 1 ≤ n / 4 ∧ n / 4 ≤ 350 then .read (wordsOf p) else .malformed 1
  | 2 => if n % 8 = 0 ∧ 1 ≤ n / 8 ∧ n / 8 ≤ 175 then .write (paramEntries p) else .malformed 2
  | 3 => if n = 12 ∧ 1 ≤ f 8 4 ∧ f 8 4 ≤ 1392 then .bulkRead (f 0 4) (f 4 4) (f 8 4) else .malformed 3
  | 4 => if n = 40 ∧ f 1 3 = 0 then .bulkBegin (f 0 1) (f 4 4) (p.drop 8) else .malformed 4
  | 5 => if 5 ≤ n then .bulkData (f 0 4) (p.drop 4) else .malformed 5
  | 6 => if n = 0 then .bulkEnd else .malformed 6
  | 7 => if 4 ≤ n ∧ n = 4 + 4 * f 3 1 then .subscribe (f 0 2) (f 2 1) (wordsOf (p.drop 4)) else .malformed 7
  | 8 => if n = 8 ∧ 1 ≤ f 4 4 ∧ f 4 4 ≤ 58 then .events (f 0 4) (f 4 4) else .malformed 8
  | 9 => if n = 32 then .reBind (f 0 8) (p.drop 8) else .malformed 9
  | 0xA => if n = 96 then .replaceKey (p.take 32) (p.drop 32) else .malformed 0xA
  | 0xB => if n = 4 ∧ f 1 3 = 0 then .raiseFloor (f 0 1) else .malformed 0xB
  | 0xC => if n = 0 then .close else .malformed 0xC
  | c => .malformed c

/-- The role may use a command (R401, R402). The first fusing judges its role itself (R413). -/
def State.cmdRole (s : State) (role : Role) (code : Nat) : Bool :=
  if [4, 5, 6, 9].contains code then role.meets .commissioner
  else if code = 0xA then role.meets .integrator || s.fingerprint.all fun b => b = 0
  else if code = 0xB then role.meets .integrator
  else true

/-- The note of a command that R409 logs. -/
def State.noteOf (s : State) (role : Role) (path ip sid seq : Nat) (c : LinkCmd) : Option AuditNote :=
  let base := fun (kind : Nat) => (⟨kind, role.code, path, ip, sid, seq, c.code, []⟩ : AuditNote)
  match c with
  | .write items =>
    if role.meets .service || items.any fun e => s.loggedId e.1 then
      some { base (if items.any fun e => s.clsOf e.1 = some .cmd then 2 else 1) with
        items := items.map fun e => (e.1, s.readWord e.1, e.2) }
    else none
  | .malformed 2 => if role.meets .service then some (base 1) else none
  | c => if [4, 6].contains c.code then some (base 3) else if [9, 0xA, 0xB].contains c.code then some (base 6) else none

/-- A command's effect and answer (step 7). -/
def State.runCmd (s : State) (x : SessSt) (path : Nat) (ioOk rb : Bool) (c : LinkCmd) : Reply :=
  match c with
  | .read ids => s.linkRead ids
  | .write items => s.linkWrite x.role rb items
  | .bulkRead id off len => s.linkBulkRead x.sid x.role id off len
  | .bulkBegin target total digest => s.linkBegin x.sid target total digest
  | .bulkData off bytes => s.linkData x.sid off bytes
  | .bulkEnd => s.linkEnd x.sid ioOk
  | .subscribe period flags ids => s.linkSubscribe x.sid path period flags ids
  | .events first count => s.linkEvents first count
  | .reBind old wrapped => s.linkReBind old wrapped rb
  | .replaceKey key sig => s.linkReplaceKey x.role key sig rb
  | .raiseFloor floor => s.linkRaiseFloor floor rb
  | .close => s.reply 0
  | .malformed _ => s.reply 6

/-- Steps 5 to 7 of R400: role, Q-LOG credits, execution, log entry. A command that restarts the unit or ends the session leaves
nothing to answer. -/
def State.judge (s : State) (x : SessSt) (path ip seq : Nat) (ioOk rb : Bool) (c : LinkCmd) : Reply :=
  if !s.cmdRole x.role c.code then s.reply 3
  else match s.noteOf x.role path ip x.sid seq c with
    | some a =>
      if !s.logRoom a then (s.raise 0x8205 x.role.code seq).reply 4
      else
        let r := s.runCmd x path ioOk rb c
        { r with st := s.logAfter a r.status r.st }
    | none => s.runCmd x path ioOk rb c

/-- A valid request of a session is heard: its instant and sequence (R398, R399). -/
def State.heard (s : State) (x : SessSt) (seq : Nat) : State := s.modSess x.sid fun y => { y with lastAt := s.now, high := some seq }

/-- The next sequence of a session. -/
def SessSt.nextSeq (x : SessSt) : Nat :=
  match x.high with
  | some h => (h + 1) % 2 ^ 32
  | none => 0

/-- A request of a session: judged, answered, and the session closed after the answer of Close. -/
def State.request (s : State) (x : SessSt) (path ip port seq : Nat) (tag : Option (BitVec 128)) (ioOk rb : Bool) (c : LinkCmd) : State :=
  let s := s.heard x seq
  let r := s.judge x path ip seq ioOk rb c
  let s := if (r.st.sess? x.sid).isSome then r.st.answer x path ip port c.code seq r.status r.payload tag else r.st
  match c with
  | .close => s.endSession x.sid 1
  | _ => s

/-- The counts and lengths a packet can carry (R402); what breaks them is malformed. -/
def LinkCmd.formed (c : LinkCmd) : LinkCmd :=
  let ok := match c with
    | .read ids => decide (1 ≤ ids.length ∧ ids.length ≤ 350)
    | .write items => decide (1 ≤ items.length ∧ items.length ≤ 175)
    | .bulkRead _ _ len => decide (1 ≤ len ∧ len ≤ 1392)
    | .bulkBegin _ _ digest => decide (digest.length = 32)
    | .bulkData _ bytes => decide (1 ≤ bytes.length ∧ bytes.length ≤ 1396)
    | .subscribe _ _ ids => decide (ids.length ≤ 255)
    | .events _ count => decide (1 ≤ count ∧ count ≤ 58)
    | .raiseFloor floor => decide (floor < 256)
    | _ => true
  if ok then c else .malformed c.code

/-- A request that comes as a row of its own: the next sequence of its session, from the session's own source. Without a Q-RSP credit it
is not taken (R43). -/
def State.direct (s : State) (sid : Nat) (ioOk rb : Bool) (c : LinkCmd) : State :=
  match s.sess? sid with
  | some x => if !s.rspCredit then s else s.request x x.path x.ip x.port x.nextSeq none ioOk rb c.formed
  | none => s

end Sys2Proof.Machine
end

