-- ==== Sys2Proof/Machine/Link.lean ====
section
/-! DEFINITION. Bergil link: packets from Q-CMD, sessions, the rows of its commands, telemetry, announcements and the event writer
(R41-R43, R398-R407, R415). -/

namespace Sys2Proof.Machine

/-! ### Event writer (R41, R42) -/

/-- A record for a subscription (R407): kept in the backlog of 256, else lost. -/
def SubSt.event (u : SubSt) (r : EvRec) : SubSt :=
  if !bitAt u.flags 0 then u
  else if 256 ≤ u.backlog.length then { u with lost := true }
  else { u with backlog := u.backlog ++ [r] }

/-- A record enters the store ring and the backlogs of subscribers. -/
def State.evStore (s : State) (r : EvRec) : State :=
  let full := decide (2048 ≤ s.ev.ring.length)
  let s := { s with ev := { s.ev with
    ring := (if full then s.ev.ring.drop 1 else s.ev.ring) ++ [r], first := s.ev.first + b01 full } }
  s.modLink fun l => { l with sess := l.sess.map fun x => { x with sub := x.sub.map (SubSt.event · r) } }

/-- The summary of one counter (R41, R53). -/
def State.coalSummary (s : State) (c : Coal) : EvRec :=
  s.evRec 0x1202 c.inst (c.code * 2 ^ 48 + min c.count 0xFFFF * 2 ^ 32 + c.stamp.toNat)

/-- Summaries once occupancy has fallen to 128: one per counter in order of first arrival, then the overflow counter's. -/
def State.evSummaries (s : State) : State :=
  let e := s.ev
  if 128 < e.q.length ∨ (e.coal = [] ∧ e.ovf = 0) then s
  else
    let cs := e.coal ++ (if e.ovf = 0 then [] else [⟨0, 0xFF, e.ovf, e.ovfStamp⟩])
    let q := e.q ++ cs.map s.coalSummary
    { s with ev := { e with q := q, coal := [], ovf := 0, ovfStamp := 0, ovfCommon := false, ovfKept := false } }.highWater 12 q.length

/-- The event writer takes one record (R42). -/
def State.evTake (s : State) : State :=
  match s.ev.q with
  | [] => s.evSummaries
  | r :: q => (({ s with ev := { s.ev with q := q } }).evStore r).evSummaries

/-- Q-EVT is served first (R40): the event writer takes records until it is empty. A full queue and its 33 summaries bound the work. -/
def State.serveEvents (s : State) : State := (List.range 300).foldl (fun s _ => if s.ev.q = [] then s else s.evTake) s

/-! ### The order of the queues (R40) -/

/-- Q-CMD has work for the shell: a packet whose response has a credit (R43). -/
def State.cmdReady (s : State) : Bool := s.link.cmds ≠ [] && s.rspCredit

/-- Work that the shell serves before Q-LOG (R40). -/
def State.aboveLog (s : State) : Bool := s.cmdReady || s.link.tel ≠ []

/-- A packet of Q-TEL is transmitted on its links that are up; where none is, it is discarded and counted as a skip (R38, R40). -/
def State.telSend (s : State) (p : TelPkt) : State :=
  let es := p.es.filter s.ethUp
  if es = [] then (s.qLost 0xE).modSess p.sid fun y => { y with sub := y.sub.map fun u => { u with skipped := min (u.skipped + 1) 0xFFFF } }
  else s.each es fun s e => (s.modLink fun l => { l with sent := some (e, p.bytes) }).udpSend e p.ip 40960 p.port p.bytes

/-- Q-TEL is served once Q-CMD has no work (R40). -/
def State.serveTel (s : State) : State :=
  if s.cmdReady then s else s.link.tel.foldl State.telSend (s.modLink fun l => { l with tel := [] })

/-! ### The audit log's writer (R410, R411) -/

/-- AUDIT_ENTRY_WRITE (R410, R411): number and hash are given as the entry is written; a sector is erased before its first
entry; every entry whose number is a multiple of 64 becomes an anchor. Q-EVT is served first, and the writer waits for Q-CMD and Q-TEL
(R40). Not while the flash is not clocked (R61). -/
def execAuditEntryWrite (t : Nat) (s : State) : Out :=
  let s := (s.advance t).serveEvents
  .next (match s.link.log with
    | [] => s
    | e :: es =>
      if s.aboveLog ∨ s.n Pid.flashSize = 0 ∨ s.ref.lockedTo.isNone then s
      else
        let n := s.n Pid.auditNext
        let bs := leBytes 4 n ++ e ++ (if s.link.lastHash = [] then leBytes 32 0 else s.link.lastHash)
        let s := s.onlyIf (decide (n % 16 = 0)) fun s => s.flashErase (s.entryAt n) 4096
        let h := sha256 bs
        let s := (s.flashWrite (s.entryAt n) bs).modLink fun l => { l with log := es, lastHash := h }
        let s := s.setN Pid.auditNext ((n + 1) % 2 ^ 32)
        s.onlyIf (decide (n % 64 = 0)) fun s =>
          let as := s.fram.anchors ++ [(n, h)]
          ({ s with fram := { s.fram with anchors := as.drop (as.length - 64) } }).setN Pid.auditAnchor n)

/-! ### Session open (R398, R409, R416) -/

/-- A session identifier not in use: the free word, moved on past 0 and the open sessions. -/
def State.newSid (s : State) (w : Nat) : Nat :=
  (((List.range 9).map fun k => (w + k) % 2 ^ 32).find? fun k => decide (k ≠ 0) && (s.sess? k).isNone).getD 1

/-- An open with a valid tag is refused (R398). -/
def State.openRefused (s : State) (r : Role) : Bool :=
  !s.roleEnabled r || decide (8 ≤ s.link.sess.length) ||
    (r.meets .commissioner && s.link.sess.any fun x => x.role.meets .commissioner)

/-- The answer to a session open, tagged under the role key. -/
def State.openAnswer (s : State) (path ip port seq sid status : Nat) (payload : List Byte) (key : BitVec 128) : State :=
  s.sendPkt path ip port (pktBytes 6 0 seq sid 0 status payload key)

/-- The session opens (R398): identifier and nonce are free values, the keys follow from the nonces. -/
def State.openAccept (s : State) (path ip port seq : Nat) (r : Role) (key : BitVec 128) (nonce : List Byte) : State :=
  let (w, s) := s.fresh
  let (n0, s) := s.fresh
  let (n1, s) := s.fresh
  let (n2, s) := s.fresh
  let (n3, s) := s.fresh
  let sid := s.newSid w.toNat
  let nu := [n0, n1, n2, n3].flatMap fun x => leBytes 4 x.toNat
  let tail := nonce ++ nu ++ leBytes 8 s.serial
  let x : SessSt := { sid := sid, role := r, krq := aesCmac key (1#8 :: tail), krs := aesCmac key (2#8 :: tail),
                      path := path, ip := ip, port := port, lastAt := s.now }
  let s := s.modLink fun l => { l with sess := l.sess ++ [x] }
  let s := (s.setN Pid.sessActive s.link.sess.length).bump Pid.sessOpenCount
  let s := s.raise 0x0280 r.code (sid * 2 ^ 32 + ip)
  let s := s.onlyIf (r.meets .service) fun s => s.logNote ⟨4, r.code, path, ip, sid, seq, 0, []⟩ 0
  s.openAnswer path ip port seq sid 0 nu key

/-- A session-open packet (R398): no answer without a valid tag; an open that needs an audit entry waits for no credit (R44). -/
def State.openSession (s : State) (path ip port : Nat) (bs : List Byte) : State :=
  let p := pktPayload bs
  let seq := leAt bs 4 4
  match roleOf (leAt p 0 1) with
  | none => s.authFail path ip
  | some r => match s.roleKey r with
    | none => s.authFail path ip
    | some key =>
      if !tagOk key bs then s.authFail path ip
      else
        let bad := decide (leAt bs 2 2 ≠ 0 ∨ p.length ≠ 20 ∨ leAt p 1 3 ≠ 0)
        let refused := bad || s.openRefused r
        let note : AuditNote := ⟨5, r.code, path, ip, 0, seq, 0, []⟩
        if (refused || r.meets .service) && !s.logRoom note then
          (s.raise 0x8205 r.code seq).openAnswer path ip port seq 0 4 [] key
        else if refused then
          let st := if bad then 6 else 7
          (s.logNote note st).openAnswer path ip port seq 0 st [] key
        else s.openAccept path ip port seq r key (p.drop 4)

/-- The link receives on a path (R393, R416). -/
def State.pathUp (s : State) (path : Nat) : Bool := if path < 2 then s.ethUp path else s.blOnCan (path - 2)

/-- SESSION_OPEN (R398): a packet of kind 0x05 that passes step 1 of R400; without a Q-RSP credit it waits in Q-CMD (R43). -/
def execSessionOpen (t : Nat) (path ip port : Nat) (bytes : List Byte) (s : State) : Out :=
  let s := s.advance t
  .next (if !s.pathUp path then s
    else if pktOk bytes && decide (leAt bytes 1 1 = 5) then
      if s.rspCredit then s.openSession path ip port bytes else s.cmdIn ⟨path, ip, port, bytes⟩
    else s.blDrop)

/-- A packet of an open session waits in Q-CMD. -/
def State.requestWaits (s : State) (x : SessSt) : Bool :=
  s.link.cmds.any fun p => pktOk p.bytes && decide (leAt p.bytes 1 1 = 1 ∧ leAt p.bytes 8 4 = x.sid) && tagOk x.krq p.bytes

/-- SESSION_IDLE (R398): `sess_idle` without a valid request; one that arrives in the same instant wins. -/
def execSessionIdle (t : Nat) (sid : Nat) (s : State) : Out :=
  let s := s.advance t
  .next (match s.sess? sid with
    | some x =>
      let due := x.lastAt + s.n Pid.sessIdle * psS
      if s.now < due ∨ (s.now = due ∧ s.requestWaits x) then s else s.endSession sid 2
    | none => s)

/-! ### Announcements (R415) -/

/-- Peers present are counted. -/
def State.showPeers (s : State) : State := s.setN Pid.peerCount (s.link.peers.filter fun p => p.present).length

/-- A valid announcement fills the peer table. -/
def State.peerHeard (s : State) (ip serial : Nat) : State :=
  let new : PeerSt := ⟨ip, serial, s.now, true⟩
  match s.link.peers.find? fun p => p.ip = ip with
  | some old =>
    let s := (s.modLink fun l => { l with peers := l.peers.map fun p => if p.ip = ip then new else p }).showPeers
    s.onlyIf (decide (old.serial ≠ serial)) fun s => s.raise 0x7283 0 serial
  | none =>
    if 32 ≤ s.link.peers.length then s.blDrop else (s.modLink fun l => { l with peers := l.peers ++ [new] }).showPeers

/-- An announcement arrives. -/
def State.announced (s : State) (path ip : Nat) (bs : List Byte) : State :=
  match s.domainKey with
  | some key =>
    if path < 2 ∧ leAt bs 2 2 = 0 ∧ leAt bs 0xC 2 = 64 ∧ tagOk key bs then s.peerHeard ip (leAt (pktPayload bs) 0 8) else s.blDrop
  | none => s.blDrop

/-- ANNOUNCE_SEND (R415): broadcast on every link that is up. -/
def execAnnounceSend (t : Nat) (s : State) : Out :=
  let s := s.advance t
  .next (match s.domainKey with
    | some key =>
      if s.n Pid.annPeriod = 0 ∨ s.unit.st.startUp then s
      else s.recur .announce (s.n Pid.annPeriod * psS) fun s =>
        let payload := leBytes 8 s.serial ++ leBytes 1 (s.n Pid.variant) ++ leBytes 1 (s.n Pid.grade) ++ leBytes 1 s.unit.st.code
          ++ leBytes 1 0 ++ leBytes 4 (s.n Pid.imageId) ++ s.fingerprint ++ leBytes 4 (s.n Pid.pairDigestLo)
          ++ leBytes 4 (s.n Pid.pairDigestHi) ++ leBytes 8 0
        let bs := pktBytes 4 0 s.link.annSeq 0 0 0 payload key
        let s := s.modLink fun l => { l with annSeq := (l.annSeq + 1) % 2 ^ 32 }
        s.each ((List.range 2).filter s.ethUp) fun s e =>
          (s.modLink fun l => { l with sent := some (e, bs) }).udpSend e ipAll 40960 40960 bs
    | none => s)

/-- PEER_ABSENT (R415): an address silent for ten periods. -/
def execPeerAbsent (t : Nat) (i : Nat) (s : State) : Out :=
  let s := s.advance t
  .next (match s.link.peers[i]? with
    | some p =>
      if p.present ∧ s.n Pid.annPeriod ≠ 0 ∧ p.heardAt + 10 * s.n Pid.annPeriod * psS ≤ s.now then
        let s := (s.modLink fun l => { l with peers := l.peers.modify i fun p => { p with present := false } }).showPeers
        s.raise 0x8284 i p.serial
      else s
    | none => s)

/-! ### Packets from Q-CMD (R399, R400) -/

/-- A request packet: session and tag, retransmission, sequence; then steps 5 to 7. -/
def State.requestIn (s : State) (p : CmdPkt) (ioOk rb : Bool) : State :=
  let bs := p.bytes
  match s.sess? (leAt bs 8 4) with
  | none => s.blDrop
  | some x =>
    if !tagOk x.krq bs then s.authFail p.path p.ip
    else match x.recent.find? fun r => r.1 = pktTag bs with
      | some (_, some r) => (s.bump Pid.blDupCount).sendPkt p.path p.ip p.port (resent x r)
      | some (_, none) => s.blDrop
      | none =>
        if !x.isNew (leAt bs 4 4) then s.blDrop
        else s.request x p.path p.ip p.port (leAt bs 4 4) (some (pktTag bs)) ioOk rb (parseCmd (leAt bs 2 2) (pktPayload bs))

/-- One packet through the steps of R400. -/
def State.packetIn (s : State) (p : CmdPkt) (ioOk rb : Bool) : State :=
  if !pktOk p.bytes then s.blDrop
  else match leAt p.bytes 1 1 with
    | 1 => s.requestIn p ioOk rb
    | 5 => s.openSession p.path p.ip p.port p.bytes
    | _ => s.announced p.path p.ip p.bytes

/-- BL_PACKET_PROCESS (R40, R43, R400): the head of Q-CMD, once Q-EVT is served and a response credit is reserved; Q-TEL is
served after the last of them. A response that waits for CAN credits (R394) is no work of the shell, and holds up nothing. -/
def execBlPacketProcess (t : Nat) (ioOk readbackOk : Bool) (s : State) : Out :=
  let s := (s.advance t).serveEvents
  .next (match s.link.cmds with
    | [] => s
    | p :: ps =>
      if !s.rspCredit then s
      else ((s.modLink fun l => { l with cmds := ps }).packetIn p ioOk readbackOk).serveTel)

/-! ### The commands as rows (R402) -/

/-- READ (R402, R403). -/
def execRead (t : Nat) (sid : Nat) (ids : List Nat) (s : State) : Out := .next ((s.advance t).direct sid true true (.read ids))
/-- WRITE (R403). -/
def execWrite (t : Nat) (sid : Nat) (items : List (Nat × Word)) (s : State) : Out :=
  .next ((s.advance t).direct sid true true (.write items))
/-- BULK_READ (R404, R433). -/
def execBulkRead (t : Nat) (sid target offset length : Nat) (s : State) : Out :=
  .next ((s.advance t).direct sid true true (.bulkRead target offset length))
/-- BULK_WRITE_BEGIN (R405). -/
def execBulkWriteBegin (t : Nat) (sid target total : Nat) (digest : List Byte) (s : State) : Out :=
  .next ((s.advance t).direct sid true true (.bulkBegin target total digest))
/-- BULK_WRITE_DATA (R405). -/
def execBulkWriteData (t : Nat) (sid offset : Nat) (bytes : List Byte) (s : State) : Out :=
  .next ((s.advance t).direct sid true true (.bulkData offset bytes))
/-- BULK_WRITE_END (R405). -/
def execBulkWriteEnd (t : Nat) (sid : Nat) (ioOk : Bool) (s : State) : Out := .next ((s.advance t).direct sid ioOk true .bulkEnd)
/-- SUBSCRIBE (R406). -/
def execSubscribe (t : Nat) (sid period flags : Nat) (ids : List Nat) (s : State) : Out :=
  .next ((s.advance t).direct sid true true (.subscribe period flags ids))
/-- READ_EVENTS (R402). -/
def execReadEvents (t : Nat) (sid first count : Nat) (s : State) : Out := .next ((s.advance t).direct sid true true (.events first count))
/-- RE_BIND (R414). -/
def execReBind (t : Nat) (sid : Nat) (bytes : List Byte) (readbackOk : Bool) (s : State) : Out :=
  .next ((s.advance t).direct sid true readbackOk (parseCmd 9 bytes))
/-- REPLACE_INTEGRATOR_KEY (R413). -/
def execReplaceIntegratorKey (t : Nat) (sid : Nat) (bytes : List Byte) (readbackOk : Bool) (s : State) : Out :=
  .next ((s.advance t).direct sid true readbackOk (parseCmd 0xA bytes))
/-- RAISE_FLOOR (R413). -/
def execRaiseFloor (t : Nat) (sid floor : Nat) (readbackOk : Bool) (s : State) : Out :=
  .next ((s.advance t).direct sid true readbackOk (.raiseFloor floor))
/-- CLOSE_SESSION (R398). -/
def execCloseSession (t : Nat) (sid : Nat) (s : State) : Out := .next ((s.advance t).direct sid true true .close)

/-- SLOT_ERASE_DONE (R405): data is accepted from here. -/
def execSlotEraseDone (t : Nat) (s : State) : Out :=
  let s := s.advance t
  .next (match s.link.bulk with
    | some b =>
      if b.erasing then (s.modLink fun l => { l with bulk := some { b with erasing := false, lastAt := s.now } }).showBulk 2 b.target else s
    | none => s)

/-- BULK_WRITE_TIMEOUT (R405): 60 s without a data packet. -/
def execBulkWriteTimeout (t : Nat) (s : State) : Out :=
  let s := s.advance t
  .next (match s.link.bulk with
    | some b => if b.lastAt + 60 * psS ≤ s.now then s.bulkAbort 2 else s
    | none => s)

/-- BULK_READ_COPY_EXPIRY (R404): the copy is kept for 10 s. -/
def execBulkReadCopyExpiry (t : Nat) (sid : Nat) (s : State) : Out :=
  let s := s.advance t
  .next (match (s.sess? sid).bind fun x => x.copy with
    | some (_, _, a) => if a + 10 * psS ≤ s.now then s.modSess sid fun x => { x with copy := none } else s
    | none => s)

/-! ### Telemetry (R406, R407) -/

/-- The payload of a telemetry packet, values taken now. -/
def State.telPayload (s : State) (u : SubSt) : List Byte :=
  let evs := u.backlog.take 46
  leBytes 2 (b01 (!s.lat.forces.isEmpty) + 2 * b01 u.lost) ++ leBytes 2 (min u.skipped 0xFFFF) ++ leBytes 1 u.ids.length
    ++ leBytes 1 evs.length ++ leBytes 2 0 ++ epochBytes s.stamp s.intNs u.mark s.timeMark (decide (s.n Pid.timeValid = 1))
    ++ leBytes 4 s.stamp.toNat ++ (u.ids.flatMap fun id => leBytes 4 (s.readWord id).toNat) ++ evs.flatMap EvRec.bytes

/-- TELEMETRY_SEND (R38, R40, R406, R407): once each period, after Q-EVT is served, a packet enters Q-TEL, which is served once Q-CMD has
no work. A packet that no link can take, or that finds 64 packets in Q-TEL, is skipped and counted. -/
def execTelemetrySend (t : Nat) (sid : Nat) (s : State) : Out :=
  let s := (s.advance t).serveEvents
  .next (match s.sess? sid with
    | some x => match x.sub with
      | some u =>
        if s.now < u.lastAt + u.period * psMs then s
        else
          let es := (if bitAt u.flags 1 then [0, 1] else [x.path]).filter s.ethUp
          if es = [] ∨ 64 ≤ s.link.tel.length then (s.qLost 0xE).modSess sid fun y => { y with sub := some { u with lastAt := s.now, skipped := min (u.skipped + 1) 0xFFFF } }
          else
            let bs := pktBytes 3 0 u.seq sid 0 0 (s.telPayload u) x.krs
            let s := s.modSess sid fun y => { y with sub := some { u with
              seq := (u.seq + 1) % 2 ^ 32, backlog := u.backlog.drop 46, lost := false, skipped := 0, lastAt := s.now, mark := s.timeMark } }
            let s := s.highWater 0xE (s.link.tel.length + 1)
            (s.modLink fun l => { l with tel := l.tel ++ [⟨es, sid, x.ip, x.port, bs⟩] }).serveTel
      | none => s
    | none => s)

/-! ### The event writer's row (R42) -/

/-- EVENT_WRITER_TAKE (R42): one record from Q-EVT. -/
def execEventWriterTake (t : Nat) (s : State) : Out :=
  let s := s.advance t
  .next s.evTake

end Sys2Proof.Machine
end

