-- ==== Sys2Proof/Machine/NetRx.lean ====
section
/-! DEFINITION. Reception: CAN frames by identifier (R367, R375) and Ethernet frames by traffic (R377). The layouts of ARP, IPv4,
ICMP and UDP are those of their standards (log 7). -/

namespace Sys2Proof.Machine

/-! ### CAN (R364, R367, R371) -/

/-- A frame was received without error: REC falls (ISO 11898-1, log 13), but not in listen-only mode. From above 127 it takes a
value of 119 to 127 that the standard leaves open (log 6). -/
def State.canRxOk (s : State) (ch : Nat) : State :=
  let rec_ := s.n (Pid.canRec ch)
  if s.canCode ch = 4 ∨ rec_ = 0 then s
  else if 128 ≤ rec_ then
    let (w, s) := s.fresh
    s.canCounters ch (s.n (Pid.canTec ch)) (119 + w.toNat % 9)
  else s.canCounters ch (s.n (Pid.canTec ch)) (rec_ - 1)

/-- A usable pairing (R375): the offset feeds internal time once the source is valid. -/
def State.canPairing (s : State) (ch seq : Nat) (off : Int) : State :=
  let s := (s.setZ (Pid.canTrefOffset ch) (satNs off)).bump (Pid.canTrefCount ch)
  let s := s.modCan ch fun x => { x with pairs := x.pairs + 1, usedSeq := seq, usedAt := s.now }
  if (s.canCh ch).pairs < 2 then s
  else ((s.modTime fun x => { x with canValid := true }).takeSource).timeFeed 2 off

/-- A time reference reaches the follower (R375). Its start of frame lies `durPs` before its end. -/
def State.canRefIn (s : State) (ch : Nat) (bs : List Byte) (durPs : Nat) : State :=
  let seq := leAt bs 0 1
  let flags := leAt bs 1 1
  let own := s.nsBefore durPs
  let x := s.canCh ch
  let follows := match x.rxSeq with
    | some p => decide (seq = (p + 1) % 256)
    | none => false
  let master := leAt bs 2 6 * 1000000000 + leAt bs 8 4
  let s := s.modCan ch fun x => { x with rxSeq := some seq, rxStamp := own }
  if bs.length = 12 && bitAt flags 4 && follows && !([0, 4, 5].contains (flags % 16)) then
    s.canPairing ch seq ((master : Int) - x.rxStamp)
  else s.bump (Pid.canTrefSkipCount ch)

/-- The station and the object of an identifier of R351 on a channel: 1 and 2 the TPDOs, 3 the heartbeat. -/
def State.stationObj (s : State) (ch id : Nat) : Option (Nat × Nat) :=
  ((List.range 8).flatMap fun k =>
    let n := s.n (Pid.rioNode k)
    if n = 0 ∨ s.n (Pid.rioCan k) ≠ ch + 1 then []
    else [(0x180 + n, k, 1), (0x280 + n, k, 2), (0x700 + n, k, 3)]).find? (fun x => x.1 = id) |>.map fun x => x.2

/-- The channel follows the time reference of this identifier (R367 route 2). -/
def State.refRoute (s : State) (ch id : Nat) : Bool := decide (s.n (Pid.canTimeRole ch) = 2 ∧ id = s.n (Pid.canTrefId ch))

/-- The channel carries Bergil link under this identifier (R367 route 4). -/
def State.linkRoute (s : State) (ch id : Nat) : Bool := s.blOnCan ch && decide (id = s.n Pid.blCanRxId)

/-- What a frame of Q-CANRX does at its consumer, by routes 2 to 4 of R367: the first match takes it. -/
def State.canConsume (s : State) (ch : Nat) (f : CanFrame) (durPs : Nat) : State :=
  if s.refRoute ch f.id then s.canRefIn ch f.data durPs
  else match s.stationObj ch f.id with
    | some (k, 3) => s.heartbeat k (leAt f.data 0 1)
    | some (k, n) => s.tpdo k n f.data
    | none => if s.linkRoute ch f.id then s.segmentIn ch f.data else s

/-- A frame enters Q-CANRX; where 64 wait, it is dropped and counted (R38). -/
def State.canPush (s : State) (ch : Nat) (f : CanFrame) (durPs : Nat) : State :=
  if 64 ≤ (s.canCh ch).rxq.length then s.qLost (0x16 + ch)
  else (s.modCan ch fun x => { x with rxq := x.rxq ++ [(f, durPs)] }).highWater (0x16 + ch) ((s.canCh ch).rxq.length + 1)

/-- The consumers take what waits in Q-CANRX, in order; they never refuse an entry (R45). -/
def State.canServe (s : State) (ch : Nat) : State :=
  (s.canCh ch).rxq.foldl (fun s e => s.canConsume ch e.1 e.2) (s.modCan ch fun x => { x with rxq := [] })

/-- A received frame takes its route (R367). Safety frames bypass Q-CANRX; the consumers of the others take each frame as it comes (R38;
DESIGN CHOICE, log 46). -/
def State.canRoute (s : State) (ch : Nat) (f : CanFrame) (durPs : Nat) : State :=
  if f.rtr ∨ f.ext then s
  else if s.packetsUsed ∧ f.id = s.n Pid.spCanRxId then (if f.fd then s.packetCopy (2 + ch) f.data else s)
  else if s.refRoute ch f.id || (s.stationObj ch f.id).isSome || s.linkRoute ch f.id then (s.canPush ch f durPs).canServe ch
  else s

/-- A frame that began before the controller took part in traffic is not received, and its end completes the 11 recessive bits that the
controller waits for (R61, log 13). -/
def State.canJoin (s : State) (ch : Nat) : State :=
  s.modCan ch fun x => { x with joinAt := max x.joinAt (s.now + 3 * s.canBitPs ch) }

/-- CAN_FRAME_RECEIVE (R364, R367): a frame that took `durPs` ends. One whose CRC field is not the ISO CRC fails its check and is answered
with an error frame. -/
def execCanFrameReceive (t : Nat) (ch : Nat) (f : CanFrame) (durPs : Nat) (s : State) : Out :=
  let s := s.advance t
  .next (if ch < 2 ∧ [1, 2, 4].contains (s.canCode ch) then
      if s.now < (s.canCh ch).joinAt + durPs then s.canJoin ch
      else if !f.crcOk then s.canRxError ch false
      else ((s.bump (Pid.canRxCount ch)).canRxOk ch).canRoute ch f durPs
    else s)

/-- CAN_SOURCE_TIMEOUT (R375): 30 ms without a usable pairing. -/
def execCanSourceTimeout (t : Nat) (ch : Nat) (s : State) : Out :=
  let s := s.advance t
  let x := s.canCh ch
  .next (if ch < 2 ∧ 2 ≤ x.pairs ∧ x.usedAt + 30 * psMs ≤ s.now then
      let s := (s.modCan ch fun x => { x with pairs := 0 }).raise 0x8447 ch x.usedSeq
      (s.modTime fun x => { x with canValid := false }).takeSource
    else s)

/-! ### Ethernet (R377) -/

/-- The ones' complement sum of 16-bit words, folded. -/
def inetSum (bs : List Byte) : Nat :=
  let sum := (List.range ((bs.length + 1) / 2)).foldl (fun a k =>
    a + beNat ((bs.drop (2 * k)).take 1) * 256 + beNat ((bs.drop (2 * k + 1)).take 1)) 0
  let f := fun x => x / 65536 + x % 65536
  f (f (f sum))

/-- The checksum over the bytes holds. -/
def inetOk (bs : List Byte) : Bool := decide (inetSum bs = 0xFFFF)

/-- The field of `n` big-endian bytes at an offset. -/
def beAt (bs : List Byte) (off n : Nat) : Nat := beNat ((bs.drop off).take n)

/-- ARP (Ethertype 0x0806): what asks for or answers `eth_ip` is learnt, and a request answered. -/
def State.arpIn (s : State) (e : Nat) (p : List Byte) : State :=
  let op := beAt p 6 2
  let mac := (p.drop 8).take 6
  let ip := beAt p 14 4
  if p.length < 28 ∨ beAt p 0 2 ≠ 1 ∨ beAt p 2 2 ≠ 0x800 ∨ beAt p 24 4 ≠ s.n (Pid.ethIp e) ∨ (op ≠ 1 ∧ op ≠ 2) then s
  else
    let s := s.arpLearn e ip mac
    s.onlyIf (decide (op = 1)) fun s => s.ethSend e (.arp 2 ip mac)

/-- UDP: Bergil link, and safety packets from and to port 40961 with `sp_peer` only; a wrong checksum discards. -/
def State.udpIn (s : State) (e src : Nat) (hdr u : List Byte) : State :=
  let len := beAt u 4 2
  let body := (u.take len).drop 8
  let pseudo := (hdr.drop 12).take 8 ++ [0#8, 17#8] ++ beBytes 2 len ++ u.take len
  if len < 8 ∨ u.length < len ∨ (beAt u 6 2 ≠ 0 ∧ !inetOk pseudo) then s
  else if beAt u 2 2 = 40960 then s.datagramIn e src (beAt u 0 2) body
  else if beAt u 2 2 = 40961 ∧ beAt u 0 2 = 40961 ∧ s.n (Pid.spPeer e) ≠ 0 ∧ src = s.n (Pid.spPeer e) then s.packetCopy e body
  else s

/-- IPv4: header checked, fragments discarded, to `eth_ip` or a broadcast. -/
def State.ipIn (s : State) (e : Nat) (p : List Byte) : State :=
  let b0 := beAt p 0 1
  let hl := b0 % 16 * 4
  let len := beAt p 2 2
  let hdr := p.take hl
  let dst := beAt p 16 4
  let m := 2 ^ (32 - s.n (Pid.ethPrefix e))
  let mine := decide (dst = s.n (Pid.ethIp e) ∨ dst = ipAll ∨ dst = s.n (Pid.ethIp e) / m * m + (m - 1))
  let data := (p.take len).drop hl
  if b0 / 16 ≠ 4 ∨ hl < 20 ∨ len < hl ∨ p.length < len ∨ !inetOk hdr ∨ beAt p 6 2 % 0x4000 ≠ 0 ∨ !mine then s
  else match beAt p 9 1 with
    | 1 => if beAt data 0 2 = 0x800 ∧ inetOk data then s.ethSend e (.icmp (beAt p 12 4) (data.drop 4)) else s
    | 17 => s.udpIn e (beAt p 12 4) hdr data
    | _ => s

/-- The destination of PTP (R377). -/
def ptpDest : Nat := 0x0180C200000E

/-- A good frame, by its traffic. -/
def State.ethIn (s : State) (e : Nat) (bs : List Byte) : State :=
  let dst := beAt bs 0 6
  let tagged := decide (beAt bs 12 2 = 0x8100)
  let own := !tagged || decide (beAt bs 14 2 % 4096 = s.n (Pid.ethVlan e))
  let typ := if tagged then beAt bs 16 2 else beAt bs 12 2
  let p := bs.drop (if tagged then 18 else 14)
  let toMe := decide (dst = beNat (s.macBytes e) ∨ dst = 0xFFFFFFFFFFFF)
  if typ = 0x88F7 then (if !tagged ∧ dst = ptpDest then s.ptpIn e p else s)
  else if !own || !toMe then s
  else match typ with
    | 0x806 => s.arpIn e p
    | 0x800 => s.ipIn e p
    | _ => s

/-- ETH_FRAME_RECEIVE (R377): a frame without its frame check sequence; FCS errors, runts and oversize frames are counted as
errors. -/
def execEthFrameReceive (t : Nat) (e : Nat) (fcsOk : Bool) (bytes : List Byte) (s : State) : Out :=
  let s := s.advance t
  let most := if beAt bytes 12 2 = 0x8100 then 1518 else 1514
  .next (if !s.ethUp e then s
    else if !fcsOk || decide (bytes.length < 60) || decide (most < bytes.length) then s.bump (Pid.ethRxErrCount e)
    else (s.bump (Pid.ethRxCount e)).ethIn e bytes)

end Sys2Proof.Machine
end

