-- ==== Sys2Proof/Machine/Start.lean ====
section
/-! DEFINITION. The end of start-up: acceptance or refusal of the content, and SELF-TEST (R57, R79, R82-R85, R90, R197, R287,
R308, R340, R438-R440). -/

namespace Sys2Proof.Machine

/-! ### Acceptance -/

/-- The base current in mA (R90), rounded to nearest: s_base in VA, v_base in mV. -/
def baseCurrent (dc : Bool) (sBase vBase : Nat) : Nat :=
  if vBase = 0 then 0
  else if dc then (2 * sBase * 1000000 + vBase) / (2 * vBase)
  else (isqrt (4 * sBase * sBase * 1000000000000 / (3 * vBase * vBase)) + 1) / 2

/-- What the words of a used port show once the image is in force (R90, R207, R232, R242, R251). -/
def State.showPort (s : State) (p : Nat) : State :=
  let q := s.port p
  let s := (s.setN (Pid.iBase p) (baseCurrent q.topo.isDc (s.n (Pid.sBase p)) (s.n (Pid.vBase p)))).setN (Pid.refLeg p) q.refLeg
  let s := s.each q.groups fun s g => s.setN (Pid.grpOwner g) p
  let s := s.each q.legs fun s l =>
    ((s.dtReset p l).setN (Pid.dtMode l) 0).onlyIf (decide (s.n (Pid.dtAdapt p) = 0)) fun s => s.dtFallback p l 4
  (s.setN (Pid.hardBudget p) (s.n (Pid.iHardTime p))).glzHold p

/-- Drop the next `n` groups of optional blocks. -/
def State.dropSteps : Nat → State → State
  | 0, s => s
  | n + 1, s =>
    match s.dropGroup with
    | some (rank, res) => State.dropSteps n (s.dropBlocks rank res).1
    | none => s

/-- The ladder position is resumed, or its record cleared (R197). -/
def State.ladderResume (s : State) : State :=
  let f := s.fram
  if f.ladderDigest = s.img.digest then
    let s := State.dropSteps f.ladderPrim s
    let s := s.onlyIf (decide (f.ladderSet = 2)) fun s => State.dropSteps (f.ladderDropped - f.ladderPrim) (s.setN Pid.lawSet 1)
    let s := ((s.setN Pid.ladderRung f.ladderRung).setN Pid.ladderDropped f.ladderDropped).showOps
    s.setN Pid.sliceOpsEff (if f.ladderSet = 1 then s.sliceEff else s.n Pid.outerSliceOps)
  else
    ({ s with fram := { f with ladderDigest := [], ladderRung := 1, ladderDropped := 0, ladderSet := 0, ladderPrim := 0 } }.showOps).setN
      Pid.sliceOpsEff (s.n Pid.outerSliceOps)

/-- Why a retained value is not restored (R439), 0 when it is: 1 range, 2 stability check, 3 rounds to zero. -/
def State.restoreCode (s : State) (id : Nat) (v : Word) : Nat :=
  match findParam s.fourP id with
  | none => 1
  | some r =>
    if decide (r.cls ≠ .live) || !r.rng.holds v || s.absentPort id then 1
    else if s.liveR99 id v ≠ 0 then 2
    else if pidBlock id = 9 && s.roundsToZero (pidField id) v.toNat then 3
    else if !s.liveRule id v then 1
    else 0

/-- Restore one retained value. -/
def State.restoreLive (s : State) (e : Nat × Word) : State :=
  let c := s.restoreCode e.1 e.2
  if c = 0 then s.setW e.1 e.2
  else
    let s := { s with fram := { s.fram with live := s.fram.live.filter fun x => x.1 ≠ e.1 } }
    s.raise 0x1409 0 (c * 2 ^ 24 + e.1)

/-- The retained record (R439): restored under the same digest, else cleared; left alone by a foreign slot. -/
def State.liveResume (s : State) : State :=
  if s.img.foreign then s
  else if s.fram.liveDigest = s.img.digest then s.fram.live.foldl State.restoreLive s
  else { s with fram := { s.fram with live := [], liveDigest := s.img.digest } }

/-- The pair digest (R76): the section table and the sections' contents. -/
def State.pairDigest (s : State) (base : Nat) : List Byte :=
  sha256 (s.flashRead (base + 64) (16 * s.imgCount base) ++ (s.sections base).flatMap fun x => s.sectBytes base x)

/-- A section's content, empty when the image has none. -/
def State.sectOf (s : State) (base typ : Nat) : List Byte :=
  match (s.sections base).find? fun x => x.typ = typ with
  | some x => s.sectBytes base x
  | none => []

/-- What the image gives besides parameters: graphs, keys, claims, digest, safety block, Lattice program. -/
def State.takeImage (s : State) (base outerImageBytes : Nat) : State :=
  let sec := s.sectOf base
  let hasAlt := decide (sec 5 ≠ [])
  let dig := s.pairDigest base
  let cs := claimsOf (sec 3)
  let s := { s with img := { s.img with
    loaded := true
    graphs := graphsOf s.usedPorts (sec 4)
    altGraphs := if hasAlt then graphsOf s.usedPorts ((sec 5).drop 16) else []
    hasAlt := hasAlt
    digest := dig
    keys := s.keyEntries (sec 9)
    claims := (List.range ((sec 3).length / 8)).map fun k => ((sec 3).drop (8 * k)).take 8 } }
  let s := (s.setN Pid.pairDigestLo (leAt dig 0 4)).setN Pid.pairDigestHi (leAt dig 4 4)
  let s := s.onlyIf hasAlt fun s => (s.setN Pid.tInnerAlt (leAt (sec 5) 0 4)).setN Pid.outerRatioAlt (leAt (sec 5) 4 1)
  let s := s.setN Pid.safetyFormat (s.flashNat (base + 0x19) 1)
  let s := s.modSaf fun f => { f with blkProfile := leAt (sec 7) 2 2, blkCrc := (crc32c (sec 7)).toNat }
  let s := s.onlyIf (!s.img.foreign) fun s => s.setSafety (sec 7)
  let s := s.modCap fun x => { x with claims := capClaimsOf cs }
  let s := s.each [0, 1] fun s i => s.setN (Pid.crUnits i) (s.capClaims i).length
  let s := s.modLat fun x => { x with present := decide (sec 6 ≠ []), prog := if sec 6 = [] then {} else latProgOf (sec 6) false true true }
  let s := { s with dout := bitsOf (s.n Pid.latDoSafe) 12 }
  s.setN Pid.stateImageBytes outerImageBytes

/-- Start-up goes on once the declared reference is locked (R57): otherwise the PLL relocks to it within IMAGE-LOAD. -/
def State.takeRef (s : State) : State :=
  let decl : RefSrc := if s.n Pid.refSource = 0 then .crystal else .refIn
  let s := s.modRef fun r => { r with decl := some decl }
  if s.ref.lockedTo = some decl ∧ (decl = .crystal ∨ s.n Pid.refInFreq = s.ref.bootKHz) then s.gotoUnit .selfTest 0
  else (s.modRef fun r => { r with startupWaits := true }).attemptOn decl .scheduled

/-- The content is accepted (R79, R438, R440). -/
def State.acceptContent (s : State) (base outerImageBytes : Nat) : State :=
  let s := s.takeImage base outerImageBytes
  let s := s.each s.usedPorts State.showPort
  let s := s.ladderResume.liveResume
  let s := s.each (List.range 4) fun s p =>
    s.onlyIf (decide (s.z (Pid.derate p) < s.z Pid.derateMin)) fun s => s.setZ (Pid.derate p) (s.z Pid.derateMin)
  (s.each s.usedPorts State.lawStart).takeRef

/-! ### CONTENT_CHECK (R79) -/

/-- Step 5 on the candidate: the remaining sections in ascending order of type. -/
def State.sectionsBad (s : State) (base : Nat) (c : ContentIn) : Option Bad :=
  let sec := s.sectOf base
  let bad := fun (t : Nat) => c.badSections.contains t
  firstBad [
    need (s.graphSectOk (sec 4) (s.n Pid.outerRatio) && !bad 4) 4,
    need (sec 5 = [] || (s.altSectOk (sec 4) (sec 5) && !bad 5)) 5,
    need (sec 6 = [] || (latLimitsOk (sec 6) && c.latticeIoOk && !bad 6)) 6,
    need (s.safetyBlockOk (sec 7)) 7,
    need (decide ((sec 8).length % 8 = 0) && entriesOk s.fourP true [] (paramEntries (sec 8)) && (s.setSafety (sec 7)).netOk) 8,
    need (s.setSafety (sec 7)).linkIdsOk 2,
    need (s.keysOk (sec 9)) 9]

/-- The content is refused (R79): status 0x0A, READY-REFUSED; the event is already raised. -/
def State.contentRefused (s : State) (cause : Nat) : State := (s.setN (slotPid (s.n Pid.bootSlot)) 0x0A).refuseImage cause

/-- Refused with 0x5403. -/
def State.refuseBad (s : State) (b : Bad) : State := (s.raise 0x5403 (s.n Pid.bootSlot) b.ctx).contentRefused 0x5403

/-- Steps 4 and 5, and acceptance. `s` is the state before, `k` the candidate. -/
def State.contentTail (s k : State) (base : Nat) (c : ContentIn) : State :=
  let sec := s.sectOf base 3
  let cs := claimsOf sec
  let ctxs := claimContexts s.fourP cs
  if !claimsFormOk sec then s.refuseBad ⟨3, 3, 0⟩
  else if ctxs ≠ [] then (ctxs.foldl (fun s x => s.raise 0x5201 0 x) s).contentRefused 0x5201
  else match firstBad [need (k.comparesOk cs && k.captureOk cs) 3, k.sectionsBad base c] with
    | some b => s.refuseBad b
    | none => k.acceptContent base c.outerImageBytes

/-- CONTENT_CHECK (R79): the five steps in order, stopping at the first that fails. -/
def execContentCheck (t : Nat) (c : ContentIn) (s : State) : Out :=
  let s := s.advance t
  let slot := s.n Pid.bootSlot
  .next (if s.unit.st ≠ .imageLoad ∨ 2 ≤ slot ∨ s.img.loaded then s
    else
      let base := s.slotAt slot
      match firstBad [typesBad ((s.sections base).map fun x => x.typ), portsBad (if s.fourP then 4 else 2) c.ports,
          s.paramsBad c (s.sectOf base 2)] with
      | some b => s.refuseBad b
      | none =>
        let net := paramEntries (s.sectOf base 8)
        let k := s.candidate c (paramEntries (s.sectOf base 2) ++ net.filter fun e => netBlock e.1)
        match k.relationsBad c.outerImageBytes with
        | some b => s.refuseBad b
        | none => s.contentTail k base c)

/-! ### SELF-TEST (R82, R85, R287, R308, R340) -/

/-- Channels and islands that failed items 6 to 8 are marked, and every used island has its result. -/
def State.testMarks (s : State) (r : SelfTest) : State :=
  let s := r.fastFailed.foldl (fun s ch => s.setBit (Pid.faStatus ch) 3 true) s
  let s := r.slowFailed.foldl (fun s ch => s.setBit (Pid.saStatus ch) 2 true) s
  let s := r.skew.foldl (fun s k => s.setZ (Pid.skewCal k.1) k.2) s
  let used := (List.range 48).filter fun i => (s.portOfLeg (legOfIsl i)).isSome
  s.each used fun s i => s.istJudge i (((r.islandsFailed.find? fun x => x.1 = i).map fun x => x.2).getD 0)

/-- Lattice may run from here (R340). -/
def State.latticeReady (s : State) : State :=
  if s.img.foreign || !s.lat.present then s
  else ((s.latInit s.lat.prog).modLat fun x => { x with may := true }).setN Pid.latState 1 |> fun s => s.setN Pid.latCycleM s.latM

/-- Entry to READY or READY-UNBOUND with its event (R81, R89). -/
def State.enterReady (s : State) (u : UnitState) : State :=
  let ns := (s.now - s.unit.resetEnd) / 1000
  let s := (s.setN Pid.startupTime ns).raise 0x0408 0 (min ns 0xFFFFFFFF)
  (s.onlyIf (decide (u = .readyUnbound)) State.factoryNet).gotoUnit u 0x0408

/-- The state after the tests, with `bad` when item 4 or 9 failed. -/
def State.testEnd (s : State) (bad : Bool) : State :=
  if bad || (!s.img.foreign && (s.unit.held || decide (s.saf.faults ≠ []))) then
    ((s.bump Pid.safeStopCount).gotoUnit .safeStop (if bad then 0x6407 else 0x6C20)).latticeReady.safApply
  else if s.img.foreign then (s.enterReady .readyUnbound).safApply
  else (s.enterReady .ready).latticeReady.safApply

/-- SELF_TEST_COMPLETE (R82, R186, R190): item 5 passes where its rail search ends at 120 ns or more, and its failure has no detail (DESIGN
CHOICE, log 38). A failure of items 1, 2, 3 or 5 ends in FAULT-HOLD, of item 4 or 9 in SAFE-STOP; a channel or an
island that failed is marked. -/
def execSelfTestComplete (t : Nat) (r : SelfTest) (s : State) : Out :=
  let s := s.advance t
  .next (if s.unit.st ≠ .selfTest then s
    else
      let search := (s.setRail 780000).railSearch r.slacks
      let s := search.2
      let items : List (Nat × Nat) := (r.failed.filter fun x => decide (1 ≤ x.1 ∧ x.1 ≤ 9 ∧ x.1 ≠ 5)) ++
        (if search.1.any fun S => decide (120000 ≤ S) then [] else [(5, 0)])
      let s := s.setN Pid.selftestResult ((List.range 9).foldl (fun a k => a + 2 ^ k *
        b01 (items.any (fun x => x.1 = k + 1) || (k = 8 && !s.configOk) || (k = 5 && decide (r.fastFailed ≠ []))
          || (k = 6 && decide (r.slowFailed ≠ [])) || (k = 7 && decide (r.islandsFailed ≠ [])))) 0)
      let s := s.testMarks r
      let fatal := items.filter fun x => [1, 2, 3, 5].contains x.1
      let s := fatal.foldl (fun s x => s.raise 0x5406 x.1 x.2) s
      let safe := (items.filter fun x => [4, 9].contains x.1) ++
        (if items.any (fun x => x.1 = 9) || s.configOk then [] else [(9, 0)])
      let s := safe.foldl (fun s x => s.raise 0x6407 x.1 x.2) s
      let s := s.onlyIf (items.any fun x => x.1 = 4) fun s => s.modSaf fun f => { f with clockBad := some s.now }
      let s := s.onlyIf (items.any fun x => x.1 = 9) State.hwFailed
      let s := s.onlyIf (decide (safe ≠ [])) fun s => s.safFaults [(0x0E, 0)]
      if fatal ≠ [] then s.enterFaultHold 0x5406
      else (s.adoptProfile.safDemands true).testEnd (decide (safe ≠ [])))

end Sys2Proof.Machine
end

