-- ==== Sys2Proof/Machine/Dispatch.lean ====
section
/-! DEFINITION. The dispatch: one arm per command, each a direct call of its meaning. -/

namespace Sys2Proof.Machine

def exec (i : Instr) (s : State) : Host.Outcome State Fault Refusal :=
  match i with
  | .vinRise t => Sys2Proof.Machine.execVinRise t s
  | .vinUndervoltage t => Sys2Proof.Machine.execVinUndervoltage t s
  | .shellWatchdogExpiry t => Sys2Proof.Machine.execShellWatchdogExpiry t s
  | .resetComplete t => Sys2Proof.Machine.execResetComplete t s
  | .bootReferenceSelect t crystal refInKHz => Sys2Proof.Machine.execBootReferenceSelect t crystal refInKHz s
  | .lockDeclared t band => Sys2Proof.Machine.execLockDeclared t band s
  | .lockAttemptTimeout t => Sys2Proof.Machine.execLockAttemptTimeout t s
  | .referenceLoss t discards => Sys2Proof.Machine.execReferenceLoss t discards s
  | .phaseWindowLoss t discards => Sys2Proof.Machine.execPhaseWindowLoss t discards s
  | .relockAttempt t refValid => Sys2Proof.Machine.execRelockAttempt t refValid s
  | .attemptCountReset t => Sys2Proof.Machine.execAttemptCountReset t s
  | .safeCrossMonitor t => Sys2Proof.Machine.execSafeCrossMonitor t s
  | .sfdpRead t info => Sys2Proof.Machine.execSfdpRead t info s
  | .slotCheck t slot => Sys2Proof.Machine.execSlotCheck t slot s
  | .contentCheck t c => Sys2Proof.Machine.execContentCheck t c s
  | .selfTestComplete t r => Sys2Proof.Machine.execSelfTestComplete t r s
  | .restart t role v => Sys2Proof.Machine.execRestart t role v s
  | .nextSlotWrite t role v => Sys2Proof.Machine.execNextSlotWrite t role v s
  | .parameterWrite t role id v => Sys2Proof.Machine.execParameterWrite t role id v s
  | .periodTick t markBack frameSent lost => Sys2Proof.Machine.execPeriodTick t markBack frameSent lost s
  | .fastConversion t g conv raws => Sys2Proof.Machine.execFastConversion t g conv raws s
  | .sampleEntry t p samples frozen => Sys2Proof.Machine.execSampleEntry t p samples frozen s
  | .feedbackLost t p role elem => Sys2Proof.Machine.execFeedbackLost t p role elem s
  | .feedbackRecover t p role => Sys2Proof.Machine.execFeedbackRecover t p role s
  | .laneCompletion t laneY hs => Sys2Proof.Machine.execLaneCompletion t laneY hs s
  | .computeDeadline t => Sys2Proof.Machine.execComputeDeadline t s
  | .compareWindowEnd t parts => Sys2Proof.Machine.execCompareWindowEnd t parts s
  | .outerStep t p m => Sys2Proof.Machine.execOuterStep t p m s
  | .excursionClose t p => Sys2Proof.Machine.execExcursionClose t p s
  | .limReleaseExpiry t p => Sys2Proof.Machine.execLimReleaseExpiry t p s
  | .hardBudgetExhausted t p => Sys2Proof.Machine.execHardBudgetExhausted t p s
  | .hardBudgetRefilled t p => Sys2Proof.Machine.execHardBudgetRefilled t p s
  | .energise t req p v => Sys2Proof.Machine.execEnergise t req p v s
  | .stopPort t req p => Sys2Proof.Machine.execStopPort t req p s
  | .stopUnit t req => Sys2Proof.Machine.execStopUnit t req s
  | .armTimeout t p => Sys2Proof.Machine.execArmTimeout t p s
  | .busDeadDetected t p => Sys2Proof.Machine.execBusDeadDetected t p s
  | .busLiveDetected t p f ang => Sys2Proof.Machine.execBusLiveDetected t p f ang s
  | .backoffExpiry t p => Sys2Proof.Machine.execBackoffExpiry t p s
  | .coordinatedStart t p => Sys2Proof.Machine.execCoordinatedStart t p s
  | .scheduleCancel t p => Sys2Proof.Machine.execScheduleCancel t p s
  | .syncDwellComplete t p => Sys2Proof.Machine.execSyncDwellComplete t p s
  | .closeTimeout t p => Sys2Proof.Machine.execCloseTimeout t p s
  | .syncTimeout t p => Sys2Proof.Machine.execSyncTimeout t p s
  | .stopTimeout t p => Sys2Proof.Machine.execStopTimeout t p s
  | .injStart t role => Sys2Proof.Machine.execInjStart t role s
  | .injStop t role => Sys2Proof.Machine.execInjStop t role s
  | .frPointComplete t freq gain phase magA => Sys2Proof.Machine.execFrPointComplete t freq gain phase magA s
  | .injectionComplete t => Sys2Proof.Machine.execInjectionComplete t s
  | .railWindowEnd t => Sys2Proof.Machine.execRailWindowEnd t s
  | .railReadbackFault t uV => Sys2Proof.Machine.execRailReadbackFault t uV s
  | .prooferSecond t => Sys2Proof.Machine.execProoferSecond t s
  | .ladderChange t => Sys2Proof.Machine.execLadderChange t s
  | .ladderCmdRung t role v => Sys2Proof.Machine.execLadderCmdRung t role v s
  | .ladderRestore t role => Sys2Proof.Machine.execLadderRestore t role s
  | .datedWarningRepeat t => Sys2Proof.Machine.execDatedWarningRepeat t s
  | .prooferHour t => Sys2Proof.Machine.execProoferHour t s
  | .vceMeasurement t sw raw cur => Sys2Proof.Machine.execVceMeasurement t sw raw cur s
  | .vceRebase t role p v => Sys2Proof.Machine.execVceRebase t role p v s
  | .windowComparatorFire t ch upper => Sys2Proof.Machine.execWindowComparatorFire t ch upper s
  | .windowComparatorRelease t ch => Sys2Proof.Machine.execWindowComparatorRelease t ch s
  | .faClear t role ch v => Sys2Proof.Machine.execFaClear t role ch v s
  | .slowScanStart t m => Sys2Proof.Machine.execSlowScanStart t m s
  | .slowConversionDone t ch code => Sys2Proof.Machine.execSlowConversionDone t ch code s
  | .slowOverRange t ch high => Sys2Proof.Machine.execSlowOverRange t ch high s
  | .slowResultStale t ch => Sys2Proof.Machine.execSlowResultStale t ch s
  | .carrierBoundary t l => Sys2Proof.Machine.execCarrierBoundary t l s
  | .legEdge t l => Sys2Proof.Machine.execLegEdge t l s
  | .deadTimeExpiry t l => Sys2Proof.Machine.execDeadTimeExpiry t l s
  | .extraCompareFire t l k share => Sys2Proof.Machine.execExtraCompareFire t l k share s
  | .modRelease t role p v => Sys2Proof.Machine.execModRelease t role p v s
  | .nsCrossingReport t l near far fault => Sys2Proof.Machine.execNsCrossingReport t l near far fault s
  | .dtAdaptiveResume t l => Sys2Proof.Machine.execDtAdaptiveResume t l s
  | .keepAliveSend t => Sys2Proof.Machine.execKeepAliveSend t s
  | .islandOnCommand t isl => Sys2Proof.Machine.execIslandOnCommand t isl s
  | .islandOffCommand t isl => Sys2Proof.Machine.execIslandOffCommand t isl s
  | .offConfirm t isl => Sys2Proof.Machine.execOffConfirm t isl s
  | .turnOnTimeout t isl => Sys2Proof.Machine.execTurnOnTimeout t isl s
  | .gateNotOff t isl => Sys2Proof.Machine.execGateNotOff t isl s
  | .islandWatchdogExpiry t isl => Sys2Proof.Machine.execIslandWatchdogExpiry t isl s
  | .islandLost t isl => Sys2Proof.Machine.execIslandLost t isl s
  | .desaturation t isl => Sys2Proof.Machine.execDesaturation t isl s
  | .gatePlateauMissing t isl => Sys2Proof.Machine.execGatePlateauMissing t isl s
  | .gateNotOn t isl => Sys2Proof.Machine.execGateNotOn t isl s
  | .islandUndervoltage t isl vpLow vnLow => Sys2Proof.Machine.execIslandUndervoltage t isl vpLow vnLow s
  | .islandSupplyRecover t isl => Sys2Proof.Machine.execIslandSupplyRecover t isl s
  | .softOffFullStrength t isl => Sys2Proof.Machine.execSoftOffFullStrength t isl s
  | .legFaultRunEnd t p => Sys2Proof.Machine.execLegFaultRunEnd t p s
  | .islPulse t role isl v => Sys2Proof.Machine.execIslPulse t role isl v s
  | .islPulseEnd t isl => Sys2Proof.Machine.execIslPulseEnd t isl s
  | .tripInputAssert t n => Sys2Proof.Machine.execTripInputAssert t n s
  | .tripInputRelease t n => Sys2Proof.Machine.execTripInputRelease t n s
  | .protClear t req p v => Sys2Proof.Machine.execProtClear t req p v s
  | .autoClear t p => Sys2Proof.Machine.execAutoClear t p s
  | .istCmd t role isl v => Sys2Proof.Machine.execIstCmd t role isl v s
  | .istComplete t isl bits => Sys2Proof.Machine.execIstComplete t isl bits s
  | .safetyEvaluation t differ outs => Sys2Proof.Machine.execSafetyEvaluation t differ outs s
  | .sgoDemand t cause input => Sys2Proof.Machine.execSgoDemand t cause input s
  | .safeInputChange t n a b => Sys2Proof.Machine.execSafeInputChange t n a b s
  | .inputDiscrepancy t n => Sys2Proof.Machine.execInputDiscrepancy t n s
  | .inputTestPulse t n chB passed => Sys2Proof.Machine.execInputTestPulse t n chB passed s
  | .outputOffPulse t k low => Sys2Proof.Machine.execOutputOffPulse t k low s
  | .outputReadbackFault t k => Sys2Proof.Machine.execOutputReadbackFault t k s
  | .vsoUndervoltage t => Sys2Proof.Machine.execVsoUndervoltage t s
  | .coilCheck t k i1 i2 i3 => Sys2Proof.Machine.execCoilCheck t k i1 i2 i3 s
  | .holdingTestEnd t => Sys2Proof.Machine.execHoldingTestEnd t s
  | .mirrorTimeExpiry t => Sys2Proof.Machine.execMirrorTimeExpiry t s
  | .strapRead t pattern faulty => Sys2Proof.Machine.execStrapRead t pattern faulty s
  | .safetyCommit t role v readbackOk => Sys2Proof.Machine.execSafetyCommit t role v readbackOk s
  | .safetyPacketCopy t path bytes => Sys2Proof.Machine.execSafetyPacketCopy t path bytes s
  | .safetyWindowClose t => Sys2Proof.Machine.execSafetyWindowClose t s
  | .packetTimeout t => Sys2Proof.Machine.execPacketTimeout t s
  | .statusPacketSend t => Sys2Proof.Machine.execStatusPacketSend t s
  | .safetyReset t source => Sys2Proof.Machine.execSafetyReset t source s
  | .pairFrameReceive t bytes image forwarded => Sys2Proof.Machine.execPairFrameReceive t bytes image forwarded s
  | .pairAnnounce t => Sys2Proof.Machine.execPairAnnounce t s
  | .mismatchRepeat t => Sys2Proof.Machine.execMismatchRepeat t s
  | .leaseMarkReceive t errPs => Sys2Proof.Machine.execLeaseMarkReceive t errPs s
  | .renewalUnconfirmedLimit t => Sys2Proof.Machine.execRenewalUnconfirmedLimit t s
  | .leaseExpiryTakeover t => Sys2Proof.Machine.execLeaseExpiryTakeover t s
  | .biscuitTake t => Sys2Proof.Machine.execBiscuitTake t s
  | .pairSolo t role v => Sys2Proof.Machine.execPairSolo t role v s
  | .pairHandover t role v => Sys2Proof.Machine.execPairHandover t role v s
  | .standbyIslandTest t bits => Sys2Proof.Machine.execStandbyIslandTest t bits s
  | .standbyHealthTimeout t => Sys2Proof.Machine.execStandbyHealthTimeout t s
  | .pairFrameSilence t => Sys2Proof.Machine.execPairFrameSilence t s
  | .latticeCycleStart t di => Sys2Proof.Machine.execLatticeCycleStart t di s
  | .latticeExecutionEnd t out => Sys2Proof.Machine.execLatticeExecutionEnd t out s
  | .latticeWatchdog t => Sys2Proof.Machine.execLatticeWatchdog t s
  | .latticeForce t role v => Sys2Proof.Machine.execLatticeForce t role v s
  | .latticeUnforce t role v => Sys2Proof.Machine.execLatticeUnforce t role v s
  | .latFlagsClear t role v => Sys2Proof.Machine.execLatFlagsClear t role v s
  | .latActivate t role v => Sys2Proof.Machine.execLatActivate t role v s
  | .programExchange t crcOk => Sys2Proof.Machine.execProgramExchange t crcOk s
  | .heartbeatReceive t st state => Sys2Proof.Machine.execHeartbeatReceive t st state s
  | .heartbeatTimeout t st => Sys2Proof.Machine.execHeartbeatTimeout t st s
  | .tpdoReceive t st n bytes => Sys2Proof.Machine.execTpdoReceive t st n bytes s
  | .canFrameReceive t ch f durPs => Sys2Proof.Machine.execCanFrameReceive t ch f durPs s
  | .canSubmit t ch f src => Sys2Proof.Machine.execCanSubmit t ch f src s
  | .canTxAttemptEnd t ch r durPs => Sys2Proof.Machine.execCanTxAttemptEnd t ch r durPs s
  | .busOffRecovery t ch => Sys2Proof.Machine.execBusOffRecovery t ch s
  | .canBusoffCmd t role ch v => Sys2Proof.Machine.execCanBusoffCmd t role ch v s
  | .timeReferenceSend t ch => Sys2Proof.Machine.execTimeReferenceSend t ch s
  | .canSourceTimeout t ch => Sys2Proof.Machine.execCanSourceTimeout t ch s
  | .ethLinkUp t e => Sys2Proof.Machine.execEthLinkUp t e s
  | .ethLinkDown t e => Sys2Proof.Machine.execEthLinkDown t e s
  | .ethFrameReceive t e fcsOk bytes => Sys2Proof.Machine.execEthFrameReceive t e fcsOk bytes s
  | .ptpSyncLoss t e => Sys2Proof.Machine.execPtpSyncLoss t e s
  | .ptpFailback t => Sys2Proof.Machine.execPtpFailback t s
  | .txtsDiscard t e => Sys2Proof.Machine.execTxtsDiscard t e s
  | .holdoverExpiry t => Sys2Proof.Machine.execHoldoverExpiry t s
  | .timeStep t role v => Sys2Proof.Machine.execTimeStep t role v s
  | .toutArm t role k v => Sys2Proof.Machine.execToutArm t role k v s
  | .timeOutPulse t k => Sys2Proof.Machine.execTimeOutPulse t k s
  | .timeOutPulseEnd t k => Sys2Proof.Machine.execTimeOutPulseEnd t k s
  | .blDatagramReceive t e ip port bytes => Sys2Proof.Machine.execBlDatagramReceive t e ip port bytes s
  | .blSegmentReceive t ch bytes => Sys2Proof.Machine.execBlSegmentReceive t ch bytes s
  | .blReassemblyTimeout t ch => Sys2Proof.Machine.execBlReassemblyTimeout t ch s
  | .blPacketProcess t ioOk readbackOk => Sys2Proof.Machine.execBlPacketProcess t ioOk readbackOk s
  | .sessionOpen t path ip port bytes => Sys2Proof.Machine.execSessionOpen t path ip port bytes s
  | .sessionIdle t sid => Sys2Proof.Machine.execSessionIdle t sid s
  | .read t sid ids => Sys2Proof.Machine.execRead t sid ids s
  | .write t sid items => Sys2Proof.Machine.execWrite t sid items s
  | .bulkRead t sid target offset length => Sys2Proof.Machine.execBulkRead t sid target offset length s
  | .bulkWriteBegin t sid target total digest => Sys2Proof.Machine.execBulkWriteBegin t sid target total digest s
  | .bulkWriteData t sid offset bytes => Sys2Proof.Machine.execBulkWriteData t sid offset bytes s
  | .bulkWriteEnd t sid ioOk => Sys2Proof.Machine.execBulkWriteEnd t sid ioOk s
  | .slotEraseDone t => Sys2Proof.Machine.execSlotEraseDone t s
  | .bulkWriteTimeout t => Sys2Proof.Machine.execBulkWriteTimeout t s
  | .subscribe t sid period flags ids => Sys2Proof.Machine.execSubscribe t sid period flags ids s
  | .readEvents t sid first count => Sys2Proof.Machine.execReadEvents t sid first count s
  | .reBind t sid bytes readbackOk => Sys2Proof.Machine.execReBind t sid bytes readbackOk s
  | .replaceIntegratorKey t sid bytes readbackOk => Sys2Proof.Machine.execReplaceIntegratorKey t sid bytes readbackOk s
  | .raiseFloor t sid floor readbackOk => Sys2Proof.Machine.execRaiseFloor t sid floor readbackOk s
  | .closeSession t sid => Sys2Proof.Machine.execCloseSession t sid s
  | .telemetrySend t sid => Sys2Proof.Machine.execTelemetrySend t sid s
  | .announceSend t => Sys2Proof.Machine.execAnnounceSend t s
  | .peerAbsent t peer => Sys2Proof.Machine.execPeerAbsent t peer s
  | .auditEntryWrite t => Sys2Proof.Machine.execAuditEntryWrite t s
  | .responseSegmentRetry t => Sys2Proof.Machine.execResponseSegmentRetry t s
  | .eventWriterTake t => Sys2Proof.Machine.execEventWriterTake t s
  | .captureTrigger t f line => Sys2Proof.Machine.execCaptureTrigger t f line s
  | .crumbComplete t f => Sys2Proof.Machine.execCrumbComplete t f s
  | .captureRearm t f => Sys2Proof.Machine.execCaptureRearm t f s
  | .crArm t role f => Sys2Proof.Machine.execCrArm t role f s
  | .crDisarm t role f => Sys2Proof.Machine.execCrDisarm t role f s
  | .crForce t role f v => Sys2Proof.Machine.execCrForce t role f v s
  | .crumbLockExpiry t => Sys2Proof.Machine.execCrumbLockExpiry t s
  | .controlSupplyLost t => Sys2Proof.Machine.execControlSupplyLost t s
  | .canErrorDetected t ch dominant => Sys2Proof.Machine.execCanErrorDetected t ch dominant s
  | .bulkReadCopyExpiry t sid => Sys2Proof.Machine.execBulkReadCopyExpiry t sid s
  | .midPeriodLoad t l => Sys2Proof.Machine.execMidPeriodLoad t l s
  | .ilMinTimeElapsed t isl => Sys2Proof.Machine.execIlMinTimeElapsed t isl s
  | .gateAbovePlateau t isl => Sys2Proof.Machine.execGateAbovePlateau t isl s
  | .pdelayReqSend t => Sys2Proof.Machine.execPdelayReqSend t s
  | .grandmasterSyncSend t => Sys2Proof.Machine.execGrandmasterSyncSend t s
  | .autoWindowAgeOut t p => Sys2Proof.Machine.execAutoWindowAgeOut t p s

end Sys2Proof.Machine
end

