-- ==== Sys2Proof/Safety.lean ====
section
/-! DEFINITION. What counts as a safe run (no step of it ends in a fault or a refusal), and the invariant of the machine: its word
file and its flash are in canonical form, and its arrays have the lengths of the 4P; and which commands may touch the guarded parts
of the state, need a role, or serve one used port. -/

namespace Sys2Proof

/-- A step that answers a next state. -/
def StepSafe (s : Machine.State) : Prop := ∃ t, Machine.step s = .next t

/-- The audit log can take the entry a requester's command leaves: only a role leaves one (R44, R409). -/
def Machine.State.reqCanNote (s : Machine.State) (req : Requester) (id : Nat) (v : Word) : Bool :=
  match req with
  | .role x => s.canNote x 2 id 0 v
  | _ => true

/-- A requester's command is done, and leaves its entry where it is logged (R44, R409). -/
def Machine.State.reqNoted (s : Machine.State) (req : Requester) (id : Nat) (v : Word) (next : Machine.State) : Machine.State :=
  match req with
  | .role x => s.noted x 2 id 0 v 0 next
  | _ => next

/-- A run that reaches its end within its steps. -/
def RunSafe (k : Nat) (s : Machine.State) : Prop := ∃ t, core.run k s = .next t

/-- The commands that may write or erase the flash: the audit log (R410) and Bergil link (R405). -/
def Instr.mayWriteFlash : Instr → Bool
  | .blPacketProcess .. | .read .. | .write .. | .bulkRead .. | .bulkWriteBegin .. | .bulkWriteData ..
  | .bulkWriteEnd .. | .subscribe .. | .readEvents .. | .reBind .. | .replaceIntegratorKey .. | .raiseFloor ..
  | .closeSession .. | .auditEntryWrite .. => true
  | _ => false

/-- The commands that may fuse a re-binding record: those of Bergil link (R414). -/
def Instr.mayFuse : Instr → Bool
  | .blPacketProcess .. | .read .. | .write .. | .bulkRead .. | .bulkWriteBegin .. | .bulkWriteData ..
  | .bulkWriteEnd .. | .subscribe .. | .readEvents .. | .reBind .. | .replaceIntegratorKey .. | .raiseFloor ..
  | .closeSession .. => true
  | _ => false

/-- The commands that may write the ferroelectric memory. -/
def Instr.mayWriteFram : Instr → Bool
  | .contentCheck .. | .selfTestComplete .. | .nextSlotWrite .. | .parameterWrite .. | .periodTick ..
  | .compareWindowEnd .. | .railWindowEnd .. | .prooferSecond .. | .ladderChange .. | .safetyCommit ..
  | .pairFrameReceive .. | .leaseExpiryTakeover .. | .biscuitTake .. | .blPacketProcess .. | .read .. | .write ..
  | .bulkRead .. | .bulkWriteBegin .. | .bulkWriteData .. | .bulkWriteEnd .. | .subscribe .. | .readEvents ..
  | .reBind .. | .replaceIntegratorKey .. | .raiseFloor .. | .closeSession .. | .auditEntryWrite .. => true
  | _ => false

/-- The commands that may change the image in force: those of IMAGE-LOAD, of a reference loss, of the ladder and those that may
end in RESET. -/
def Instr.mayChangeImage : Instr → Bool
  | .vinRise .. | .vinUndervoltage .. | .shellWatchdogExpiry .. | .referenceLoss .. | .phaseWindowLoss ..
  | .sfdpRead .. | .slotCheck .. | .contentCheck .. | .restart .. | .parameterWrite .. | .periodTick ..
  | .ladderChange .. | .pairFrameReceive .. | .leaseExpiryTakeover .. | .biscuitTake .. | .blPacketProcess ..
  | .read .. | .write .. | .bulkRead .. | .bulkWriteBegin .. | .bulkWriteData .. | .bulkWriteEnd .. | .subscribe ..
  | .readEvents .. | .reBind .. | .replaceIntegratorKey .. | .raiseFloor .. | .closeSession ..
  | .controlSupplyLost .. => true
  | _ => false

/-- The commands that may change a digital output or a sync line. -/
def Instr.mayDriveOutputs : Instr → Bool
  | .vinRise .. | .vinUndervoltage .. | .shellWatchdogExpiry .. | .contentCheck .. | .restart .. | .parameterWrite ..
  | .periodTick .. | .extraCompareFire .. | .pairFrameReceive .. | .leaseExpiryTakeover .. | .biscuitTake ..
  | .latticeExecutionEnd .. | .latticeWatchdog .. | .blPacketProcess .. | .read .. | .write .. | .bulkRead ..
  | .bulkWriteBegin .. | .bulkWriteData .. | .bulkWriteEnd .. | .subscribe .. | .readEvents .. | .reBind ..
  | .replaceIntegratorKey .. | .raiseFloor .. | .closeSession .. | .controlSupplyLost .. => true
  | _ => false

/-- The commands that may change the state of the unit. -/
def Instr.mayMoveUnit : Instr → Bool
  | .vinRise .. | .vinUndervoltage .. | .shellWatchdogExpiry .. | .resetComplete .. | .bootReferenceSelect ..
  | .lockDeclared .. | .lockAttemptTimeout .. | .referenceLoss .. | .phaseWindowLoss .. | .relockAttempt ..
  | .safeCrossMonitor .. | .sfdpRead .. | .slotCheck .. | .contentCheck .. | .selfTestComplete .. | .restart ..
  | .parameterWrite .. | .periodTick .. | .computeDeadline .. | .compareWindowEnd .. | .outerStep ..
  | .excursionClose .. | .limReleaseExpiry .. | .energise .. | .stopUnit .. | .armTimeout .. | .busDeadDetected ..
  | .busLiveDetected .. | .backoffExpiry .. | .coordinatedStart .. | .scheduleCancel .. | .closeTimeout ..
  | .syncTimeout .. | .stopTimeout .. | .railReadbackFault .. | .prooferSecond ..
  | .islandOnCommand .. | .islandOffCommand ..
  | .protClear .. | .autoClear .. | .safetyEvaluation .. | .sgoDemand .. | .safeInputChange .. | .inputDiscrepancy ..
  | .inputTestPulse .. | .outputOffPulse .. | .outputReadbackFault .. | .vsoUndervoltage .. | .coilCheck ..
  | .holdingTestEnd .. | .mirrorTimeExpiry .. | .strapRead .. | .safetyCommit .. | .safetyPacketCopy ..
  | .safetyWindowClose .. | .packetTimeout .. | .safetyReset .. | .pairFrameReceive .. | .renewalUnconfirmedLimit ..
  | .leaseExpiryTakeover .. | .biscuitTake .. | .latticeExecutionEnd .. | .latticeWatchdog .. | .canFrameReceive ..
  | .ethFrameReceive .. | .blPacketProcess .. | .read .. | .write .. | .bulkRead .. | .bulkWriteBegin ..
  | .bulkWriteData .. | .bulkWriteEnd .. | .subscribe .. | .readEvents .. | .reBind .. | .replaceIntegratorKey ..
  | .raiseFloor .. | .closeSession .. | .controlSupplyLost .. => true
  | _ => false

/-- A request of a role: the instant, the role that sends, the role the spec names, the kind of its log entry (1 a write, 2 a command),
the parameter and its value. -/
structure RoleRequest where
  t : Nat
  sender : Role
  named : Role
  kind : Nat
  id : Nat
  v : Word
  deriving DecidableEq, Repr

/-- The commands that are requests of a role (R401, R437). The request of a port command may also be Lattice's own; those are
not listed. -/
def Instr.gate : Instr → Option RoleRequest
  | .faClear t r ch v => some ⟨t, r, .service, 2, Machine.Pid.faClear ch, v⟩
  | .restart t r v => some ⟨t, r, .service, 2, Machine.Pid.restart, v⟩
  | .canBusoffCmd t r ch v => some ⟨t, r, .service, 2, Machine.Pid.canBusoffCmd ch, v⟩
  | .injStart t r => some ⟨t, r, .commissioner, 2, Machine.Pid.injCmd, 1⟩
  | .injStop t r => some ⟨t, r, .commissioner, 2, Machine.Pid.injCmd, 2⟩
  | .islPulse t r i v => some ⟨t, r, .service, 2, Machine.Pid.islPulse i, v⟩
  | .latticeForce t r v => some ⟨t, r, .service, 2, Machine.Pid.latForce, v⟩
  | .latticeUnforce t r v => some ⟨t, r, .service, 2, Machine.Pid.latForce, v⟩
  | .latActivate t r v => some ⟨t, r, .commissioner, 2, Machine.Pid.latActivate, v⟩
  | .nextSlotWrite t r v => some ⟨t, r, .commissioner, 1, Machine.Pid.nextSlot, v⟩
  | .pairSolo t r v => some ⟨t, r, .commissioner, 2, Machine.Pid.pairSolo, v⟩
  | .pairHandover t r v => some ⟨t, r, .commissioner, 2, Machine.Pid.pairHandover, v⟩
  | .energise t (.role r) p v => some ⟨t, r, .operator, 2, Machine.Pid.energise p, v⟩
  | .stopPort t (.role r) p => some ⟨t, r, .operator, 2, Machine.Pid.stop p, 1⟩
  | .stopUnit t (.role r) => some ⟨t, r, .operator, 2, Machine.Pid.stop 0, 2⟩
  | .ladderCmdRung t r v => some ⟨t, r, .commissioner, 2, Machine.Pid.ladderCmd, v⟩
  | .ladderRestore t r => some ⟨t, r, .commissioner, 2, Machine.Pid.ladderCmd, 0x10⟩
  | .vceRebase t r p v => some ⟨t, r, .commissioner, 2, Machine.Pid.vceRebase p, v⟩
  | .protClear t (.role r) p v => some ⟨t, r, .operator, 2, Machine.Pid.protClear p, v⟩
  | .istCmd t r i v => some ⟨t, r, .service, 2, Machine.Pid.istCmd i, v⟩
  | .modRelease t r p v => some ⟨t, r, .service, 2, Machine.Pid.modRelease p, v⟩
  | .safetyCommit t r v _ => some ⟨t, r, .commissioner, 2, Machine.Pid.safetyCommit, v⟩
  | .timeStep t r v => some ⟨t, r, .service, 2, Machine.Pid.timeStep, v⟩
  | .toutArm t r k v => some ⟨t, r, .service, 1, Machine.Pid.toutMode k, v⟩
  | .crForce t r f v => some ⟨t, r, .service, 2, Machine.Pid.crForce (f - 1), v⟩
  | .crArm t r f => some ⟨t, r, Machine.crArmRole (f - 1), 2, Machine.Pid.crArm (f - 1), 1⟩
  | .crDisarm t r f => some ⟨t, r, Machine.crArmRole (f - 1), 2, Machine.Pid.crArm (f - 1), 2⟩
  | _ => none

/-- What a refused request comes to: the entry it leaves where it is logged (R409), with the status of its answer, or event 0x8205. -/
def Machine.State.refusedRequest (a : Machine.State) (q : RoleRequest) (status : Nat) : Machine.State :=
  a.audited q.sender q.kind q.id (if q.kind = 1 then a.w q.id else 0) q.v status a

/-- The commands that serve one used port and are no request, with the instant and the port (R26). -/
def Instr.portServed : Instr → Option (Nat × Nat)
  | .outerStep t p _ => some (t, p)
  | .limReleaseExpiry t p => some (t, p)
  | .hardBudgetExhausted t p => some (t, p)
  | .hardBudgetRefilled t p => some (t, p)
  | .energise t .lattice p _ => some (t, p)
  | .stopPort t .lattice p => some (t, p)
  | .protClear t .lattice p _ => some (t, p)
  | .busDeadDetected t p => some (t, p)
  | .busLiveDetected t p _ _ => some (t, p)
  | .syncTimeout t p => some (t, p)
  | .autoWindowAgeOut t p => some (t, p)
  | .sampleEntry t p _ _ => some (t, p)
  | _ => none

/-- The requests of a role that name one port. -/
def Instr.portAsked : Instr → Option Nat
  | .energise _ (.role _) p _ => some p
  | .stopPort _ (.role _) p => some p
  | .protClear _ (.role _) p _ => some p
  | .vceRebase _ _ p _ => some p
  | .modRelease _ _ p _ => some p
  | _ => none

namespace Machine

/-- The lengths of the arrays. -/
def State.lens (s : State) : List Nat :=
  [s.ports.length, s.legs.length, s.isl.length, s.fast.length, s.slow.length, s.mods.length, s.lines.length, s.dout.length,
    s.can.length, s.eth.length, s.tout.length]

/-- The arrays have the lengths of the 4P: 4 ports, 24 legs, 48 islands, 48 fast and 32 slow channels, 4 slow modulators, 13 sync
lines, 12 digital outputs, 2 CAN channels, 2 Ethernet ports and 4 timed outputs (R20, R24, R206, R219, R247, R256, R364, R376, R387). -/
def State.shape (s : State) : Prop := s.lens = [4, 24, 48, 48, 32, 4, 13, 12, 2, 2, 4]

/-- The invariant: canonical word file, canonical flash, arrays of their lengths. -/
def State.Inv (s : State) : Prop := regsWf s.regs = true ∧ Memory.wf s.flash = true ∧ s.shape

end Machine

end Sys2Proof
end

