-- ==== Sys2Proof/Certificates/Slice0/Obligations.lean ====
section
/-! DEFINITION. The statements about the model, for the provers. In the completion statements (Completes…) every clause has the
form: for every state and operands, with `a` the state at the command's instant, the hypotheses on `a` and the operands alone
give the next state, whole. -/

open Sys2Proof Sys2Proof.Machine

/-- Every step keeps the invariant of the machine. From every state, reachable or not, that meets State.Inv (the word file and the
flash in canonical form: identifiers and addresses strictly rising, no entry equal to its default or to the erased byte; the
arrays of the lengths of the 4P), a step that answers next keeps it. The invariant is the model's own (State.Inv in
Safety.lean); the lengths are those of the rules cited. -/
def Obligations.StepKeepsInvariant : Prop :=
   ∀ s t : State, s.Inv → step s = .next t → t.Inv

/-- The state after reset meets the invariant. State.Inv holds of State.reset, so that the invariant has a state and every run from
reset keeps it. -/
def Obligations.ResetMeetsInvariant : Prop :=
   State.reset.Inv

/-- A step runs the command at the front of the queue. For every command c, queue rest cs and state s, step of s with queue c :: cs
is exec c of s with queue cs. The queue is the model's (log 3). -/
def Obligations.StepRunsFrontCommand : Prop :=
  ∀ (c : Instr) (cs : List Instr) (s : State), step { s with pending := c :: cs } = exec c { s with pending := cs }

/-- On an empty queue the block idles. A step of a state whose queue is empty answers that state: nothing happens without a command.
The model's choice (log 3): the table has no row for a tick, and every timer that the spec gives has a row of its own. -/
def Obligations.StepIdlesOnEmptyQueue : Prop :=
   ∀ s : State, s.pending = [] → step s = .next s

/-- Every command answers a next state and leaves the queue. For every command and every state, exec answers next, never a fault or
a refusal, with the queue of waiting commands as it was. -/
def Obligations.EveryCommandAnswersNextState : Prop :=
  ∀ (c : Instr) (s : State), ∃ t, exec c s = .next t ∧ t.pending = s.pending

/-- A run consumes the queue first in, first out. From every state whose queue is cs ++ ds, a run of as many steps as cs has
commands ends in a next state whose queue is ds: no command blocks the queue, none is lost or added. -/
def Obligations.RunDrainsQueueInOrder : Prop :=
  ∀ (cs ds : List Instr) (s : State), s.pending = cs ++ ds → ∃ t, core.run cs.length s = .next t ∧ t.pending = ds

/-- The instant of the machine never runs back. For every command and state, the instant of the next state is at or after that of
the state before (log 1). -/
def Obligations.TimeNeverRunsBack : Prop :=
  ∀ (c : Instr) (s t : State), exec c s = .next t → s.now ≤ t.now

/-- No command changes the unit key or the factory key. For every command and state, the unit key and the factory key in the fuses
of the next state are those before: they are set at manufacture (R396). -/
def Obligations.PartKeysNeverChange : Prop :=
  ∀ (c : Instr) (s t : State), exec c s = .next t →
    t.fuses.unitKey = s.fuses.unitKey ∧ t.fuses.factoryKey = s.fuses.factoryKey

/-- Which commands may touch flash, fuses and ferroelectric memory. Every byte of the flash reads as before after every command but
the audit entry write and the rows of Bergil link; the fuse record of re-binding is as before after every command but the rows
of Bergil link; the ferroelectric memory is as before after every command outside its list (Instr.mayWriteFlash, mayFuse,
mayWriteFram in Safety.lean). The counts and floors that the spec keeps in fuses are words of the file. -/
def Obligations.FlashAndFuseFrame : Prop :=
  (∀ (c : Instr) (s t : State), c.mayWriteFlash = false → exec c s = .next t →
    ∀ a, memGet t.flash a = memGet s.flash a) ∧
  (∀ (c : Instr) (s t : State), c.mayFuse = false → exec c s = .next t → t.fuses = s.fuses) ∧
  (∀ (c : Instr) (s t : State), c.mayWriteFram = false → exec c s = .next t → t.fram = s.fram)

/-- Which commands may change the image in force and the outputs. The image in force is as before after every command outside
Instr.mayChangeImage; the digital outputs and the sync lines are as before after every command outside Instr.mayDriveOutputs. -/
def Obligations.ImageAndOutputFrame : Prop :=
  (∀ (c : Instr) (s t : State), c.mayChangeImage = false → exec c s = .next t → t.img = s.img) ∧
  (∀ (c : Instr) (s t : State), c.mayDriveOutputs = false → exec c s = .next t → t.dout = s.dout ∧ t.lines = s.lines)

/-- Which commands may change the state of the unit. The unit's state, its planned-surrender and hold marks and its pending enables
are as before after every command outside Instr.mayMoveUnit. -/
def Obligations.UnitStateFrame : Prop :=
  ∀ (c : Instr) (s t : State), c.mayMoveUnit = false → exec c s = .next t → t.unit = s.unit

/-- A request without its role, or in STANDBY, only leaves its log entry. For each of the requests of a role (Instr.gate), from a
role that does not meet the role the spec names, or while the unit is in STANDBY, exec answers the state with time advanced and
nothing else changed but what State.refusedRequest adds: the audit-log entry with status 3 or 9 where the request is logged
(R409), or event 0x8205 where Q-LOG has no credit (R44); of an identifier that the part does not have the status may be 2 (R2,
log 8). A LAT_FLAGS_CLEAR of a role below Service leaves its entry alone. -/
def Obligations.RoleGate : Prop :=
  (∀ (c : Instr) (s : State) (q : RoleRequest), c.gate = some q →
    (q.sender.meets q.named = false ∨ s.unit.st = .standby) → s.unknownId q.id = false →
    exec c s = .next ((s.advance q.t).refusedRequest q (if q.sender.meets q.named then 9 else 3))) ∧
  (∀ (c : Instr) (s : State) (q : RoleRequest), c.gate = some q →
    (q.sender.meets q.named = false ∨ s.unit.st = .standby) → s.unknownId q.id = true →
    ∃ st, (st = 2 ∨ st = if q.sender.meets q.named then 9 else 3) ∧ exec c s = .next ((s.advance q.t).refusedRequest q st)) ∧
  (∀ (t : Nat) (r : Role) (v : Word) (s a : State), a = s.advance t → r.meets .service = false →
    exec (.latFlagsClear t r v) s = .next (a.audited r 1 Pid.latFlags (a.w Pid.latFlags) v 3 a))

/-- A port absent from the image is inert. For each of the commands that serve one used port (Instr.portServed), on a port that is
not used exec answers the state with time advanced: no state, event or telemetry. For each of the requests of a role that name
one port (Instr.portAsked) exec on such a port answers that state with the log entry of the refusal alone (R409). -/
def Obligations.UnusedPortIsInert : Prop :=
  (∀ (c : Instr) (s : State) (t p : Nat), c.portServed = some (t, p) → (s.port p).used = false → exec c s = .next (s.advance t)) ∧
  (∀ (c : Instr) (s a : State) (q : RoleRequest) (p : Nat), c.gate = some q → c.portAsked = some p → (s.port p).used = false →
    a = s.advance q.t → exec c s = .next (a.refusedRequest q (a.rowStatus q.id q.sender q.named false)))

/-- The flash reads what was written, and an erase only its range. For every canonical flash, after a write of bytes at an address
each written address reads its byte and every other as before; after an erase of a range each address inside reads 0xFF
(PRESUMED, log 5) and every other as before; both keep the canonical form. -/
def Obligations.FlashReadsWhatWasWritten : Prop :=
  (∀ (m : List Host.Cell) (a x : Nat) (bs : List Byte), Memory.wf m = true →
    memGet (memWrite m a bs) x = if a ≤ x ∧ x < a + bs.length then bs.getD (x - a) 0 else memGet m x) ∧
  (∀ (m : List Host.Cell) (a n x : Nat),
    memGet (memErase m a n) x = if a ≤ x ∧ x < a + n then flashErased else memGet m x) ∧
  (∀ (m : List Host.Cell) (a n : Nat) (bs : List Byte), Memory.wf m = true →
    Memory.wf (memWrite m a bs) = true ∧ Memory.wf (memErase m a n) = true)

/-- Where the rows of Bergil link and the audit log store. The ten link rows that load nothing leave every byte of the flash;
BULK_WRITE_BEGIN leaves every byte outside the slot it names; BULK_WRITE_DATA leaves every byte outside its bytes in the slot of
the load in progress, computed as the meaning computes it (slotAt), and every byte when no load is in progress;
AUDIT_ENTRY_WRITE, after the events that Q-EVT holds are taken, leaves every byte outside the entry it writes (entryAt), or
outside the 4 KiB sector it erases first when the entry's number is a multiple of 16. -/
def Obligations.LinkFlashFrame : Prop :=
  (∀ (c : Instr) (s u : State), (match c with
      | .read .. | .write .. | .bulkRead .. | .bulkWriteEnd .. | .subscribe .. | .readEvents .. | .reBind ..
      | .replaceIntegratorKey .. | .raiseFloor .. | .closeSession .. => true
      | _ => false) = true →
    exec c s = .next u → ∀ x, memGet u.flash x = memGet s.flash x) ∧
  (∀ (t sid target total : Nat) (digest : List Byte) (s u a : State), a = s.advance t →
    exec (.bulkWriteBegin t sid target total digest) s = .next u →
    ∀ x, ¬ (a.slotAt target ≤ x ∧ x < a.slotAt target + a.slotBytes) → memGet u.flash x = memGet s.flash x) ∧
  (∀ (t sid offset : Nat) (bytes : List Byte) (s u a : State), a = s.advance t → Memory.wf s.flash = true →
    exec (.bulkWriteData t sid offset bytes) s = .next u →
    ∀ x, (∀ k, a.link.bulk = some k → ¬ (a.slotAt k.target + offset ≤ x ∧ x < a.slotAt k.target + offset + bytes.length)) →
      memGet u.flash x = memGet s.flash x) ∧
  (∀ (t : Nat) (s u a : State), a = (s.advance t).serveEvents → Memory.wf s.flash = true →
    exec (.auditEntryWrite t) s = .next u →
    ∀ x, (∀ e, e ∈ a.link.log.head? →
        let at_ := a.entryAt (a.n Pid.auditNext)
        let len := 4 + e.length + (if a.link.lastHash = [] then 32 else a.link.lastHash.length)
        ¬ (at_ ≤ x ∧ x < at_ + (if a.n Pid.auditNext % 16 = 0 then max 4096 len else len))) →
      memGet u.flash x = memGet s.flash x)

/-- A change of port state. For every state, port p and port state st: afterwards port p is in st, every other port is in the state
it was in, the same ports are used, and the safety state is as before. -/
def Obligations.PortTransition : Prop :=
  ∀ (s : State) (p j : Nat) (st : PortState), p < s.ports.length →
    ((s.setPort p st).port j).st = (if j = p then st else (s.port j).st) ∧
    ((s.setPort p st).port j).used = (s.port j).used ∧ (s.setPort p st).saf = s.saf

/-- A change of unit state. For every state, unit state u and cause: afterwards the unit is in u; where u is new, the parameters
unit_state and last_cause read its code and the cause; where it is not, nothing changes. -/
def Obligations.UnitTransition : Prop :=
  ∀ (s : State) (u : UnitState) (cause : Nat),
    (s.gotoUnit u cause).unit.st = u ∧
    (s.unit.st ≠ u → (s.gotoUnit u cause).n Pid.unitState = u.code ∧ (s.gotoUnit u cause).n Pid.lastCause = min cause 0xFFFFFFFF) ∧
    (s.unit.st = u → s.gotoUnit u cause = s)

/-- With a fault or a demand held, every safety output is off and every used port at rest. For every state in which the unit state
does not let the safety functions energise, no profile is in force, or a safety fault or a demand is held: after the outputs
follow the decisions, the gate enables are withdrawn, no safety output is commanded, brake and contactor are released, and every
used port is in IDLE or PORT-STOP. -/
def Obligations.SafetyDemandStopsEverything : Prop :=
  ∀ s : State, (s.unit.st.safetyLive = false ∨ s.saf.inForce = false ∨ s.saf.faults ≠ [] ∨ s.saf.dem ≠ []) →
    s.safApply.saf.gates = false ∧ (∀ x ∈ s.safApply.saf.sout, x.cmd = false) ∧
    s.safApply.saf.sbcOn = none ∧ s.safApply.saf.sccOn = false ∧
    (∀ p ∈ s.usedPorts, (s.safApply.port p).st = .idle ∨ (s.safApply.port p).st = .portStop)

/-- The packet timeout of the safety functions. When no packet has been accepted for the packet timeout (a tie included),
PACKET_TIMEOUT answers a next state: event 0x6C28 is raised, every command bit is 0, the safety fault of cause 0x05 is held, the
gate enables are withdrawn, no safety output is commanded and every used port is in IDLE or PORT-STOP. Before the timeout, or
with packets not used, only time passes. -/
def Obligations.PacketTimeout : Prop :=
  (∀ (t z : Nat) (s a : State), a = s.advance t → a.packetsUsed = true → a.saf.timer = some z → z + a.packetPs ≤ a.now →
    ∃ b u : State,
      b = ((a.modSaf fun f => { f with timer := none, await := if f.await.contains 5 then f.await else 5 :: f.await }).bump
        Pid.spTimeoutCount).raise 0x6C28 0 (a.saf.lastSeq.getD 0) ∧
      exec (.packetTimeout t) s = .next u ∧ u = ((b.holdAbort 1).safFaults [(5, 0)]).setCmd 0 0 true ∧
      u.saf.cmd = some 0 ∧ (5, 0) ∈ u.saf.faults ∧ u.saf.gates = false ∧ (∀ x ∈ u.saf.sout, x.cmd = false) ∧
      (∀ p ∈ a.usedPorts, (u.port p).st = .idle ∨ (u.port p).st = .portStop)) ∧
  (∀ (t : Nat) (s a : State), a = s.advance t →
    (a.packetsUsed = false ∨ ∀ z, a.saf.timer = some z → a.now < z + a.packetPs) → exec (.packetTimeout t) s = .next a)

/-- Counters saturate and never wrap. For every state, counter and amount: the counter after counting reads the sum, or 0xFFFFFFFF
where the sum exceeds 32 bits, so it never falls; every other parameter and every other part of the state is as before. -/
def Obligations.CountersSaturate : Prop :=
  ∀ (s : State) (id k : Nat),
    (s.bumpBy id k).n id = min (s.n id + k) 0xFFFFFFFF ∧ s.n id ≤ (s.bumpBy id k).n id ∧
    (∀ j, j ≠ id → (s.bumpBy id k).n j = s.n j) ∧ { s.bumpBy id k with regs := s.regs } = s

/-- A parameter reads what was written, and no other parameter changes. For every state, identifier and word: the parameter reads
the word, every other identifier reads as before, every other part of the state is as before, and the canonical form of the word
file is kept. -/
def Obligations.WordReadsWhatWasWritten : Prop :=
  ∀ (s : State) (id : Nat) (w : Word),
    (s.setW id w).w id = w ∧ (∀ j, j ≠ id → (s.setW id w).w j = s.w j) ∧ { s.setW id w with regs := s.regs } = s ∧
    (regsWf s.regs = true → regsWf (s.setW id w).regs = true)

/-- An event enters Q-EVT or coalesces. For every state and event: the record's severity carries the class of the code; while the
event's group is not coalescing and has room (240 records, or 256 for classes 5 to 7) the record is the last of Q-EVT and
nothing else of the event state changes; else it coalesces into the counters, the queue is as before and q_loss counts it; Q-EVT
never exceeds 256 records; and no other part of the state changes but the words of the queue. -/
def Obligations.EventQueue : Prop :=
  ∀ (s : State) (code inst ctx : Nat),
    let r := s.evRec code inst ctx
    let u := s.raise code inst ctx
    r.sev % 16 = code / 4096 % 16 ∧
    (s.ev.coalescing (evKept code) = false → s.ev.q.length < (if evKept code then 256 else 240) → u.ev = { s.ev with q := s.ev.q ++ [r] }) ∧
    (s.ev.coalescing (evKept code) = true ∨ (if evKept code then 256 else 240) ≤ s.ev.q.length →
      u.ev = s.ev.coalesce r ∧ u.ev.q = s.ev.q ∧ u.n (Pid.qLoss 12) = min (s.n (Pid.qLoss 12) + 1) 0xFFFFFFFF) ∧
    (s.ev.q.length ≤ 256 → u.ev.q.length ≤ 256) ∧ { u with regs := s.regs, ev := s.ev } = s

/-- Rounding and saturation of the accumulators. For every dividend and positive divisor, rneDiv is a nearest integer, even on a
tie; a result written out is the rounded value saturated to the range of Q4.27; a product is formed exactly, rounded once and
saturated to the accumulator; SQRT rounds down. -/
def Obligations.AccumulatorRounding : Prop :=
  (∀ (n : Int) (d : Nat), 0 < d → let q := rneDiv n d
    2 * (n - d * q).natAbs ≤ d ∧ (2 * (n - d * q).natAbs = d → q % 2 = 0)) ∧
  (∀ z : Int, q27OfAcc z = max (-2147483648) (min 2147483647 (rneDiv z 4096))) ∧
  (∀ a b : Int, mulAcc a b = max (-140737488355328) (min 140737488355327 (rneDiv (a * b) 549755813888))) ∧
  (∀ n : Nat, n < 2 ^ 200 → isqrt n * isqrt n ≤ n ∧ n < (isqrt n + 1) * (isqrt n + 1))

/-- The bytes of an event record. For every record whose fields fit: it has 24 bytes, and the little-endian fields at offsets 0x00,
0x08, 0x0A, 0x0B, 0x0C and 0x14 are its time, code, instance, severity, context and stamp; the severity byte of an event carries
the class in bits [3:0], network time not valid in bit 4, TIME stopped in bit 5 and 0 above. -/
def Obligations.EventRecordLayout : Prop :=
  ∀ e : EvRec, e.timeNs < 2 ^ 64 → e.code < 2 ^ 16 → e.inst < 2 ^ 8 → e.sev < 2 ^ 8 →
    e.bytes.length = 24 ∧ leAt e.bytes 0 8 = e.timeNs ∧ leAt e.bytes 8 2 = e.code ∧ leAt e.bytes 0xA 1 = e.inst ∧
    leAt e.bytes 0xB 1 = e.sev ∧ leAt e.bytes 0xC 8 = e.ctx.toNat ∧ leAt e.bytes 0x14 4 = e.stamp.toNat ∧
    (∀ (code : Nat) (valid stopped : Bool), let v := severity code valid stopped
      v % 16 = code / 4096 % 16 ∧ v / 16 % 2 = (if valid then 0 else 1) ∧ v / 32 % 2 = (if stopped then 1 else 0) ∧ v / 64 = 0)

/-- A command that needs a log entry and finds no room. For every state, session and command that its role may use and that creates
a log entry: without a Q-LOG credit the command is answered with status 0x04, event 0x8205 is raised and nothing else changes;
with one, status and payload are those of the command. -/
def Obligations.AuditLogBusy : Prop :=
  ∀ (s : State) (x : SessSt) (path ip seq : Nat) (ioOk rb : Bool) (c : LinkCmd) (n : AuditNote),
    s.cmdRole x.role c.code = true → s.noteOf x.role path ip x.sid seq c = some n →
    (s.logRoom n = false → s.judge x path ip seq ioOk rb c = ⟨4, [], s.raise 0x8205 x.role.code seq⟩) ∧
    (s.logRoom n = true → (s.judge x path ip seq ioOk rb c).status = (s.runCmd x path ioOk rb c).status ∧
      (s.judge x path ip seq ioOk rb c).payload = (s.runCmd x path ioOk rb c).payload)

/-- Rung 1 at a new lifetime high of the rail. For every state and every rail voltage set: where the multiple of 10 mV at or below
it is a new lifetime high, rail_high_water keeps it, event 0x0D01 is raised and the last rung entry of the health report is of
rung 1; else the high water, the ferroelectric memory and the events are as before. -/
def Obligations.RungOneRecord : Prop :=
  ∀ (s : State) (uV : Nat), let m := uV / 10000 * 10000
    (s.setRail uV).n Pid.railNow = min uV 0xFFFFFFFF ∧
    (s.n Pid.railHighWater < m → m < 2 ^ 32 → (s.setRail uV).n Pid.railHighWater = m ∧
      (∃ b : State, s.setRail uV = (b.raise 0x0D01 0 m).rungEntry 1 0) ∧
      ∃ e, (s.setRail uV).fram.rungs.getLast? = some e ∧ leAt e 8 1 = 1) ∧
    (m ≤ s.n Pid.railHighWater → (s.setRail uV).n Pid.railHighWater = s.n Pid.railHighWater ∧ (s.setRail uV).fram = s.fram ∧ (s.setRail uV).ev = s.ev)

/-- The rebase of a port's ageing baselines. For every used port in IDLE or PORT-STOP, a Commissioner write of 0x01 to vce_rebase
that can be logged and that no partner carries out (R324) answers a next state in which the baseline and the share of every
switch of the port's legs read 0, the sums behind them are cleared, and derate is 1.0; in every other port state, from every
other role or with any other value only the log entry of the refusal is left (R409). -/
def Obligations.VceRebase : Prop :=
  (∀ (t p : Nat) (role : Role) (v : Word) (s a : State), a = s.advance t → role.meets .commissioner = true → s.unit.st ≠ .standby →
    p < 4 → (a.port p).used = true → v = 1 → (a.port p).st = .idle ∨ (a.port p).st = .portStop →
    a.n Pid.pairState ≠ 1 ∨ a.forwards (Pid.vceRebase p) = false → a.canNote role 2 (Pid.vceRebase p) 0 v = true →
    ∃ u, exec (.vceRebase t role p v) s = .next u ∧ u.z (Pid.derate p) = one27 ∧
      ∀ l ∈ (a.port p).legs, ∀ sw ∈ [islHigh l, islLow l], u.n (Pid.vceBaseline sw) = 0 ∧ u.n (Pid.vceShare sw) = 0 ∧
        ∀ x, u.prf.sw[sw]? = some x → x.baseHours = 0 ∧ x.baseSum = 0 ∧ x.baseN = 0) ∧
  (∀ (t p : Nat) (role : Role) (v : Word) (s a : State), a = s.advance t →
    role.meets .commissioner = false ∨ s.unit.st = .standby ∨ (a.port p).used = false ∨ v ≠ 1 ∨
      ((a.port p).st ≠ .idle ∧ (a.port p).st ≠ .portStop) →
    exec (.vceRebase t role p v) s =
      .next (a.audited role 2 (Pid.vceRebase p) 0 v (a.rowStatus (Pid.vceRebase p) role .commissioner (a.rebaseOk p v)) a))

/-- The diverse encoding of Lane Y. For every seed, period and value, decoding undoes encoding and encoding undoes decoding; the
encoded value is the complement plus the seed rotated left by the period modulo 32; the rule's worked example holds. -/
def Obligations.LaneYEncoding : Prop :=
  (∀ (seed x : Word) (j : Nat), laneDec (laneOffset seed j) (laneEnc (laneOffset seed j) x) = x ∧
    laneEnc (laneOffset seed j) (laneDec (laneOffset seed j) x) = x) ∧
  (∀ (seed x : Word) (j : Nat), laneEnc (laneOffset seed j) x = ~~~ x + seed.rotateLeft (j % 32)) ∧
  laneEnc (laneOffset 0x5A3C96E1 5) 0x08000000 = 0x3F92DC2A

/-- The bins of the slack histogram. For every slack in ps: bin 0 at or below 0, bin b for 20(b − 1) ns to 20b ns, b from 1 to 14,
and bin 15 above 280 ns. -/
def Obligations.SlackBins : Prop :=
  ∀ S : Int, (S ≤ 0 → slackBin S = 0) ∧
    (∀ b : Nat, 1 ≤ b → b ≤ 14 → 20000 * ((b : Int) - 1) < S → S ≤ 20000 * b → slackBin S = b) ∧ (280000 < S → slackBin S = 15)

/-- Lanes that no fault befalls agree. For every state and partition that no fault befalls, the words of Lane X and of Lane Y,
decoded, are equal, and the comparator commits Lane X's words; where no partition is hit the comparison fails nowhere and every
partition is committed in order; and where the comparator finds a difference, a fault has hit the partition. The faults are an
operand of the command (log 11). -/
def Obligations.HealthyLanesAgree : Prop :=
  (∀ (s : State) (x : PartIn) (first : Bool), x.hits = [] →
    s.unequal x = none ∧ s.comparePart first x = s.agree x) ∧
  (∀ (xs : List PartIn) (s : State), (∀ x ∈ xs, x.hits = []) →
    s.compareParts false xs = (false, xs.foldl State.agree s)) ∧
  (∀ (s : State) (x : PartIn), s.unequal x ≠ none → x.hits ≠ [])

/-- What a holder with a partner forwards. In a formed pair whose unit holds the biscuit, an accepted ENERGISE, STOP_PORT, FA_CLEAR or
RESTART of a role that can be logged leaves its log entry and enters the writes that both units carry out at the outer boundary
named with it, and nothing else changes yet; an accepted LADDER_CMD_RUNG makes its rung pending at once, as every rung waits for
its own boundary, and is told to the standby too. The two writes that choose the holder, pair_solo and pair_handover, are never
forwarded: these two points are the model's choice (log 36). -/
def Obligations.HolderForwards : Prop :=
  (∀ (t p : Nat) (role : Role) (v : Word) (s a : State), a = s.advance t → p < 4 → (a.port p).used = true → a.energiseCode p v.toNat = 0 →
    a.roleOk role .operator = true → a.n Pid.pairState = 1 → a.forwards (Pid.energise p) = true →
    a.canNote role 2 (Pid.energise p) 0 v = true →
    exec (.energise t (.role role) p v) s = .next (a.noted role 2 (Pid.energise p) 0 v 0 (a.forward (Pid.energise p) v))) ∧
  (∀ (t p : Nat) (role : Role) (s a : State), a = s.advance t → p < 4 → (a.port p).used = true →
    a.roleOk role .operator = true → a.n Pid.pairState = 1 → a.forwards (Pid.stop p) = true →
    a.canNote role 2 (Pid.stop p) 0 1 = true →
    exec (.stopPort t (.role role) p) s = .next (a.noted role 2 (Pid.stop p) 0 1 0 (a.forward (Pid.stop p) 1))) ∧
  (∀ (t ch : Nat) (role : Role) (v : Word) (s a : State), a = s.advance t → a.faClearOk ch v = true →
    a.roleOk role .service = true → a.n Pid.pairState = 1 → a.forwards (Pid.faClear ch) = true →
    a.canNote role 2 (Pid.faClear ch) 0 v = true →
    exec (.faClear t role ch v) s = .next (a.noted role 2 (Pid.faClear ch) 0 v 0 (a.forward (Pid.faClear ch) v))) ∧
  (∀ (t : Nat) (role : Role) (v : Word) (s a : State), a = s.advance t → a.restartOk v = true →
    a.roleOk role .service = true → a.n Pid.pairState = 1 → a.canNote role 2 Pid.restart 0 v = true →
    a.forwards Pid.restart = true →
    exec (.restart t role v) s = .next (a.noted role 2 Pid.restart 0 v 0 (a.forward Pid.restart v))) ∧
  (∀ (t : Nat) (role : Role) (v : Word) (s a : State), a = s.advance t → a.ladderCmdOk v = true →
    a.roleOk role .commissioner = true → a.n Pid.pairState = 1 → a.forwards Pid.ladderCmd = true →
    a.canNote role 2 Pid.ladderCmd 0 v = true →
    exec (.ladderCmdRung t role v) s = .next (a.noted role 2 Pid.ladderCmd 0 v 0 ((a.doLadderCmd v).forward Pid.ladderCmd v))) ∧
  (∀ a : State, a.forwards Pid.pairSolo = false ∧ a.forwards Pid.pairHandover = false)

/-- Power and RESET: where each command completes, and its next state. VIN_RISE, VIN_UNDERVOLTAGE, SHELL_WATCHDOG_EXPIRY, RESTART,
CONTROL_SUPPLY_LOST and RESET_COMPLETE each complete with the state named: a VIN rise leaves OFF for RESET, a VIN undervoltage
not yet in force resets with it in force, a shell watchdog expiry outside OFF resets and keeps the undervoltage, an accepted
Service restart resets, a loss of the control supply ends in OFF, and RESET ends in REF-LOCK with no undervoltage in force,
remembering the instant. A request of a role needs the role, room in Q-LOG where it is logged, and no partner that must carry it
out too (R324); it leaves its log entry. Every clause: for every state s and all operands, with a = s.advance t the state at the
command's instant, under hypotheses on a and the operands alone, exec answers exactly the next state shown (so what it leaves
unchanged is stated too). Operands are the model's (logs 1, 2). -/
def Obligations.CompletesPower : Prop :=
  (∀ (t : Nat) (s : State) (a : State),
    a = s.advance t → a.unit.st = .off →
    exec (.vinRise t) s = .next (a.toReset 0 false)) ∧
  (∀ (t : Nat) (s : State) (a : State),
    a = s.advance t → a.unit.st ≠ .off → a.unit.vinUv = false →
    exec (.vinUndervoltage t) s = .next (a.toReset 0 true)) ∧
  (∀ (t : Nat) (s : State) (a : State),
    a = s.advance t → a.unit.st ≠ .off →
    exec (.shellWatchdogExpiry t) s = .next (a.toReset 0 a.unit.vinUv)) ∧
  (∀ (t : Nat) (role : Role) (v : Word) (s : State) (a : State),
    a = s.advance t → a.roleOk role .service = true → a.restartOk v = true →
    (a.n Pid.pairState ≠ 1 ∨ a.forwards Pid.restart = false) → a.canNote role 2 (Pid.restart) (0) (v) = true →
    exec (.restart t role v) s = .next (a.noted role 2 (Pid.restart) (0) (v) 0 (a.toReset 0 a.unit.vinUv))) ∧
  (∀ (t : Nat) (s : State) (a : State),
    a = s.advance t →
    exec (.controlSupplyLost t) s = .next (
      let r := a.resetAll
      { r with unit := { r.unit with st := .off, vinUv := true } }.setN Pid.unitState 0)) ∧
  (∀ (t : Nat) (s : State) (a : State),
    a = s.advance t → a.unit.st = .reset → a.unit.vinUv = false →
    exec (.resetComplete t) s = .next (({ a with unit := { a.unit with resetEnd := a.now } }).gotoUnit .refLock 0))

/-- Reference, lock and relock: where each command completes, and its next state. BOOT_REFERENCE_SELECT takes the crystal as boot
reference when it is valid within 8 ms; LOCK_DECLARED when lock is due and within 2 ms of the attempt's start shows lock,
source, band and time and raises 0x0301; LOCK_ATTEMPT_TIMEOUT fails an attempt 2 ms old; a due RELOCK_ATTEMPT on a valid
reference with no attempt running counts one attempt and starts it on the target; ATTEMPT_COUNT_RESET clears the counts after 60
s of lock; REFERENCE_LOSS and PHASE_WINDOW_LOSS lose the lock with their causes 2 and 1; SAFE_CROSS_MONITOR reports the clock
finding and the safety fault 0x0D. Every clause: for every state s and all operands, with a = s.advance t the state at the
command's instant, under hypotheses on a and the operands alone, exec answers exactly the next state shown (so what it leaves
unchanged is stated too). Operands are the model's (logs 1, 2). -/
def Obligations.CompletesLocking : Prop :=
  (∀ (t : Nat) (crystal : Bool) (refInKHz : Nat) (s : State) (a : State),
    a = s.advance t → a.unit.st = .refLock → a.ref.attempt = none → a.ref.lockedTo = none → a.ref.relocking = false →
    crystal = true → a.now ≤ a.unit.resetEnd + 8 * psMs →
    exec (.bootReferenceSelect t crystal refInKHz) s = .next (({ a with ref := { a.ref with boot := .crystal, bootKHz := 25000, attempt := some ⟨.crystal, .boot, a.now⟩ } }).setN Pid.pllState 1)) ∧
  (∀ (t : Nat) (band : Nat) (s : State) (x : Attempt) (a : State),
    a = s.advance t → a.ref.attempt = some x → a.now ≤ x.start + 2 * psMs → a.lockDue x = true →
    exec (.lockDeclared t band) s = .next (
      let ns := (a.now - x.start) / 1000
      let boot := if x.target = .refIn then a.refKHz .refIn else a.ref.bootKHz
      let b := a.modRef fun q => { q with attempt := none, lockedTo := some x.target, lockedAt := a.now, bootKHz := boot }
      let b := ((b.setN Pid.pllState 3).setN Pid.refInUse (match x.target with | .crystal => 0 | .refIn => 1 | .fallback => 2)).setN Pid.vcoBand (band % 16); let b := (b.setN Pid.lastLockTime ns).raise 0x0301 0 (band % 16 * 2 ^ 32 + min ns 0xFFFFFFFF); match x.kind with | .fallback => b | .standby => (((b.modRef fun r => { r with relocking := false }).raise 0x1302 0 0).domainsRestart).lockStep | _ => ((b.modRef fun r => { r with relocking := false }).domainsRestart).lockStep)) ∧
  (∀ (t : Nat) (s : State) (x : Attempt) (a : State),
    a = s.advance t → a.ref.attempt = some x → x.start + 2 * psMs ≤ a.now →
    exec (.lockAttemptTimeout t) s = .next (a.attemptFailed x)) ∧
  (∀ (t : Nat) (refValid : Bool) (s : State) (a : State),
    a = s.advance t → a.ref.relocking = true → a.ref.attempt = none → a.ref.lastAttempt + 100 * psMs ≤ a.now →
    a.n Pid.relockAttempts < 8 → refValid = true →
    exec (.relockAttempt t refValid) s = .next (
      let b := (a.modRef fun q => { q with lastAttempt := q.lastAttempt + 100 * psMs }).countAttempt
      b.attemptOn a.refTarget .attempt)) ∧
  (∀ (t : Nat) (s : State) (a : State),
    a = s.advance t → a.refLocked = true → a.ref.relocking = false → a.ref.lockedAt + 60 * psS ≤ a.now →
    exec (.attemptCountReset t) s = .next ((a.setN Pid.relockAttempts 0).modRef fun r => { r with fails := 0 })) ∧
  (∀ (t : Nat) (discards : List Nat) (s : State) (src : RefSrc) (a : State),
    a = s.advance t → a.ref.attempt = none → a.ref.lockedTo = some src → src ≠ .fallback →
    exec (.referenceLoss t discards) s = .next (a.lockLoss src 2 discards)) ∧
  (∀ (t : Nat) (discards : List Nat) (s : State) (src : RefSrc) (a : State),
    a = s.advance t → a.ref.attempt = none → a.ref.lockedTo = some src → src ≠ .fallback →
    exec (.phaseWindowLoss t discards) s = .next (a.lockLoss src 1 discards)) ∧
  (∀ (t : Nat) (s : State) (a : State),
    a = s.advance t →
    exec (.safeCrossMonitor t) s = .next ((a.modSaf fun f => { f with clockBad := some a.now }).safFaults [(0x0D, 0)]))

/-- Image load, content check and self-test: where each command completes, and its next state. SFDP_READ of an accepted density sets
the flash size and checks the audit log; SLOT_CHECK of the slot that is due shows the result of the check and chooses;
CONTENT_CHECK judges section types, ports and parameters, then the relations, then the rest, and refuses the image with the
first violated condition; SELF_TEST_COMPLETE with no finding, whose rail search reaches 120 ns, in a configured unit writes
result 0, leaves the rail where the search ended, marks what the test measured, adopts the profile, judges the demands and ends
the test without fault; a Commissioner NEXT_SLOT_WRITE of a valid slot sets the word and the record. A request of a role needs
the role, room in Q-LOG where it is logged, and no partner that must carry it out too (R324); it leaves its log entry. Every
clause: for every state s and all operands, with a = s.advance t the state at the command's instant, under hypotheses on a and
the operands alone, exec answers exactly the next state shown (so what it leaves unchanged is stated too). Operands are the
model's (logs 1, 2). -/
def Obligations.CompletesImageStart : Prop :=
  (∀ (t : Nat) (info : Option Sfdp) (s : State) (x : Sfdp) (a : State),
    a = s.advance t → a.unit.st = .imageLoad → a.n Pid.flashSize = 0 → a.n Pid.slotAStatus = 0 →
    a.n Pid.slotBStatus = 0 → info = some x → (x.mbit = 64 ∨ x.mbit = 128 ∨ x.mbit = 256 ∨ x.mbit = 512) →
    exec (.sfdpRead t info) s = .next (({ a with sfdpQuad := x.quad }.setN Pid.flashSize x.mbit).auditCheck)) ∧
  (∀ (t : Nat) (slot : Nat) (s : State) (a : State),
    a = s.advance t → a.unit.st = .imageLoad → a.n Pid.flashSize ≠ 0 → a.n Pid.bootSlot = 0xFF →
    slot = (if a.n (slotPid a.preferred) = 0 then a.preferred else 1 - a.preferred) → a.n (slotPid slot) = 0 →
    exec (.slotCheck t slot) s = .next ((a.showSlot slot (a.checkSlot slot)).slotChoice slot)) ∧
  (∀ (t : Nat) (c : ContentIn) (s : State) (a : State),
    a = s.advance t → a.unit.st = .imageLoad → a.n Pid.bootSlot < 2 → a.img.loaded = false →
    exec (.contentCheck t c) s = .next (
      let base := a.slotAt (a.n Pid.bootSlot)
      match firstBad [typesBad ((a.sections base).map fun x => x.typ), portsBad (if a.fourP then 4 else 2) c.ports, a.paramsBad c (a.sectOf base 2)] with | some b => a.refuseBad b | none => let net := paramEntries (a.sectOf base 8); let k := a.candidate c (paramEntries (a.sectOf base 2) ++ net.filter fun e => netBlock e.1); match k.relationsBad c.outerImageBytes with | some b => a.refuseBad b | none => a.contentTail k base c)) ∧
  (∀ (t : Nat) (r : SelfTest) (s : State) (S : Int) (a : State),
    a = s.advance t → a.unit.st = .selfTest → ((a.setRail 780000).railSearch r.slacks).1 = some S → 120000 ≤ S →
    r.failed = [] → r.fastFailed = [] → r.slowFailed = [] → r.islandsFailed = [] →
    ((a.setRail 780000).railSearch r.slacks).2.configOk = true →
    ((((a.setRail 780000).railSearch r.slacks).2.setN Pid.selftestResult 0).testMarks r).configOk = true →
    exec (.selfTestComplete t r) s = .next (((((((a.setRail 780000).railSearch r.slacks).2.setN Pid.selftestResult 0).testMarks r).adoptProfile).safDemands true).testEnd false)) ∧
  (∀ (t : Nat) (role : Role) (v : Word) (s : State) (a : State),
    a = s.advance t → a.unit.st.factory = false → v.toNat < 2 → a.n (slotPid v.toNat) = 9 →
    a.roleOk role .commissioner = true → (a.n Pid.pairState ≠ 1 ∨ a.forwards (Pid.nextSlot) = false) →
    a.canNote role 1 (Pid.nextSlot) (a.w Pid.nextSlot) (v) = true →
    exec (.nextSlotWrite t role v) s = .next (a.noted role 1 (Pid.nextSlot) (a.w Pid.nextSlot) (v) 0 (let b := a.setW Pid.nextSlot v; { b with fram := { b.fram with nextSlot := some v.toNat } })))

/-- Energise and stop requests: where each command completes, and its next state. An ENERGISE request that its asker may make, for
which no refuse code of R111 applies, is counted, clears the refuse code, takes the port to ARMED in the mode asked for
(scheduled for mode 0x04) and the unit from READY to ENERGISE. STOP_PORT on a port that is not at rest and not already stopping
starts its stop (a ramp down when ENERGISING) and withdraws the close request of an ARMED or SYNCING port. STOP_UNIT in READY,
ENERGISE, RUN, LIMITED, RIDE-THROUGH or STANDBY does so for every used port and takes the unit to STOPPING. SCHEDULE_CANCEL
before the scheduled instant with network time invalid turns the request into mode 0x01. COORDINATED_START at its instant on a
dead bus, with no close to ask for and no stop begun, begins the ramp and raises 0x0804. A request of a role needs the role,
room in Q-LOG where it is logged, and no partner that must carry it out too (R324); it leaves its log entry. Every clause: for
every state s and all operands, with a = s.advance t the state at the command's instant, under hypotheses on a and the operands
alone, exec answers exactly the next state shown (so what it leaves unchanged is stated too). Operands are the model's (logs 1,
2). -/
def Obligations.CompletesPortRequests : Prop :=
  (∀ (t : Nat) (req : Requester) (p : Nat) (v : Word) (s : State) (a : State),
    a = s.advance t → (a.port p).used = true → a.energiseCode p v.toNat = 0 → a.reqOk req .operator = true →
    (a.n Pid.pairState ≠ 1 ∨ a.forwards (Pid.energise p) = false) → a.reqCanNote req (Pid.energise p) (v) = true →
    exec (.energise t req p v) s = .next (a.reqNoted req (Pid.energise p) (v) (let b := (a.bump (Pid.energiseCount p)).setN (Pid.refuseCode p) 0; let b := b.modPort p fun q => { q with mode := v.toNat, accepted := true, arm := .waiting, legDecide := q.legs.any fun l => b.bit (Pid.legsFaulted p) l }; let b := b.setPort p .armed; let b := if v.toNat = 4 then ((b.latOut p 1 (b.contactorDeclared p)).setBit (Pid.lawFlags p) 6 true).modPort p fun q => { q with arm := .scheduled (b.schedNs p) } else b; if b.unit.st = .ready then b.gotoUnit .energise 0 else b))) ∧
  (∀ (t : Nat) (req : Requester) (p : Nat) (s : State) (a : State),
    a = s.advance t → (a.port p).used = true → (a.port p).st.atRest = false → (a.port p).stopAt = none →
    a.reqOk req .operator = true → (a.n Pid.pairState ≠ 1 ∨ a.forwards (Pid.stop p) = false) →
    a.reqCanNote req (Pid.stop p) (1) = true →
    exec (.stopPort t req p) s = .next (a.reqNoted req (Pid.stop p) (1) (let b := a.modPort p fun q => { q with stopAt := some a.now, rampDown := decide (q.st = .energising) }; if (a.port p).st = .armed ∨ (a.port p).st = .syncing then b.dropClose p else b))) ∧
  (∀ (t : Nat) (req : Requester) (s : State) (a : State),
    a = s.advance t →
    (a.each a.usedPorts State.doStop).unit.st ∈ [.ready, .energise, .run, .limited, .rideThrough, .standby] →
    a.reqOk req .operator = true → (a.n Pid.pairState ≠ 1 ∨ a.forwards (Pid.stop 0) = false) →
    a.reqCanNote req (Pid.stop 0) (2) = true →
    exec (.stopUnit t req) s = .next (a.reqNoted req (Pid.stop 0) (2) ((a.each a.usedPorts State.doStop).gotoUnit .stopping 0))) ∧
  (∀ (t : Nat) (p : Nat) (s : State) (n : Nat) (a : State),
    a = s.advance t → (a.port p).arm = .scheduled n → (a.port p).used = true → (a.port p).st = .armed → n ≤ a.intNs →
    ((a.latOut p 1 false).setBit (Pid.lawFlags p) 6 false).belowDead p = true →
    (((a.latOut p 1 false).setBit (Pid.lawFlags p) 6 false).contactorDeclared p && !(a.port p).contactor) = false →
    (a.port p).stopAt = none →
    exec (.coordinatedStart t p) s = .next (
      let b := (a.latOut p 1 false).setBit (Pid.lawFlags p) 6 false
      (b.beginRamp p).raise 0x0804 p (u32z ((b.intNs : Int) - n)))) ∧
  (∀ (t : Nat) (p : Nat) (s : State) (n : Nat) (a : State),
    a = s.advance t → (a.port p).arm = .scheduled n → (a.port p).used = true → (a.port p).st = .armed →
    a.netValid = false → a.intNs < n →
    exec (.scheduleCancel t p) s = .next (
      let b := a.raise 0x1805 p (min (n - a.intNs) 0xFFFFFFFF)
      let b := (b.latOut p 1 false).setBit (Pid.lawFlags p) 6 false
      (b.modPort p fun q => { q with mode := 1, arm := .waiting, since := b.now }).armedStart p))

/-- Starting, synchronising and stopping a port: where each command completes, and its next state. ARM_TIMEOUT of a waiting port
raises 0x1803 with cause 0x02 when no bus sense is fitted and returns it to IDLE; BUS_DEAD_DETECTED and BUS_LIVE_DETECTED
declare the bus once its level was held for dead_time and 20 ms, show the bus tracker's values and try the start conditions; BACKOFF_EXPIRY checks the bus
again and starts on a dead one; SYNC_DWELL_COMPLETE raises the close permissive and 0x0808; CLOSE_TIMEOUT in ARMED raises 0x1807
and returns to IDLE, in SYNCING it counts and withdraws the close request; SYNC_TIMEOUT raises 0x1806, counts and returns to
IDLE; STOP_TIMEOUT of a running port opens. A timeout is judged at the instant of the port's outer step (timerDue). Every clause: for every state s and all operands, with a = s.advance t the state at
the command's instant, under hypotheses on a and the operands alone, exec answers exactly the next state shown (so what it
leaves unchanged is stated too). Operands are the model's (logs 1, 2). -/
def Obligations.CompletesPortTimers : Prop :=
  (∀ (t : Nat) (p : Nat) (s : State) (a : State),
    a = s.advance t → (a.port p).st = .armed → (a.port p).arm = .waiting → a.n (Pid.busSense p) ≠ 1 →
    (a.port p).stopAt = none → (a.port p).timerDue ((a.port p).since + a.n (Pid.armTimeout p) * psS) = true →
    exec (.armTimeout t p) s = .next ((a.raise 0x1803 p 2).setPortBy p .idle 0x1803)) ∧
  (∀ (t : Nat) (p : Nat) (s : State) (a : State),
    a = s.advance t → (a.port p).used = true → a.n (Pid.busSense p) = 1 →
    a.held (a.port p).busLow (a.n (Pid.deadTime p)) = true →
    exec (.busDeadDetected t p) s = .next ((((a.modPort p fun q => { q with bus := .dead }).setN (Pid.busF p) 0).setN (Pid.busAngleDiff p) 0).armedStart p)) ∧
  (∀ (t : Nat) (p : Nat) (f ang : Unit) (s : State) (a : State),
    a = s.advance t → (a.port p).used = true → a.n (Pid.busSense p) = 1 → a.held (a.port p).busHigh 20 = true →
    exec (.busLiveDetected t p f ang) s = .next (
      let b := a.modPort p fun q => { q with bus := .live }
      ((b.setZ (Pid.busF p) (b.port p).busTrk.f).setW (Pid.busAngleDiff p) (b.w (Pid.theta p) - (b.port p).busTrk.ang)).armedStart p)) ∧
  (∀ (t : Nat) (p : Nat) (s : State) (u : Nat) (a : State),
    a = s.advance t → (a.port p).arm = .backoff u → (a.port p).used = true → (a.port p).st = .armed → u ≤ a.now →
    (a.port p).bus = .dead → (a.port p).stopAt = none →
    exec (.backoffExpiry t p) s = .next (((a.modPort p fun q => { q with arm := .waiting }).setBit (Pid.lawFlags p) 7 false).deadStart p)) ∧
  (∀ (t : Nat) (p : Nat) (s : State) (f : Nat) (a : State),
    a = s.advance t → (a.port p).dwellFrom = some f → (a.port p).used = true → (a.port p).st = .syncing →
    (a.port p).permissiveAt = none → (a.port p).stopAt = none → a.syncWindows p = true →
    f + a.n (Pid.syncDwell p) * psMs ≤ a.now →
    exec (.syncDwellComplete t p) s = .next (
      let b := (a.latOut p 0 true).modPort p fun q => { q with permissiveAt := some a.now }
      b.raise 0x0808 p (u32z (a.port p).dthPred * 2 ^ 32 + u32z (q27OfAcc (a.port p).law.omega - b.z (Pid.busF p))))) ∧
  (∀ (t : Nat) (p : Nat) (s : State) (c : Nat) (a : State),
    a = s.advance t → (a.port p).st = .armed → (a.port p).arm = .closing c → (a.port p).stopAt = none →
    (a.port p).timerDue (c + a.n (Pid.closeTimeout p) * psMs) = true → (a.port p).confirmIn ≠ some true →
    exec (.closeTimeout t p) s = .next ((a.raise 0x1807 p 1).setPortBy p .idle 0x1807)) ∧
  (∀ (t : Nat) (p : Nat) (s : State) (c : Nat) (a : State),
    a = s.advance t → (a.port p).st = .syncing → (a.port p).permissiveAt = some c → (a.port p).stopAt = none →
    (a.port p).timerDue (c + a.n (Pid.closeTimeout p) * psMs) = true → (a.port p).confirmIn ≠ some true →
    exec (.closeTimeout t p) s = .next (((a.raise 0x1807 p 2).bump (Pid.syncFailCount p)).dropClose p)) ∧
  (∀ (t : Nat) (p : Nat) (s : State) (a : State),
    a = s.advance t → (a.port p).st = .syncing → (a.port p).stopAt = none → (a.port p).confirmIn ≠ some true →
    (a.port p).timerDue ((a.port p).since + a.n (Pid.syncTimeout p) * psS) = true →
    exec (.syncTimeout t p) s =
      .next (((a.raise 0x1806 p (a.n (Pid.busAngleDiff p))).bump (Pid.syncFailCount p)).setPortBy p .idle 0x1806)) ∧
  (∀ (t : Nat) (p : Nat) (s : State) (f : Nat) (a : State),
    a = s.advance t → (a.port p).stopAt = some f → (a.port p).st.running = true → (a.port p).openAsked = false →
    (a.port p).timerDue (f + a.n (Pid.stopTimeout p) * psMs) = true →
    exec (.stopTimeout t p) s = .next (if a.contactorDeclared p then a.askOpen p else a.setPort p .idle))

/-- Outer step, limits and excursions: where each command completes, and its next state. OUTER_STEP of a used port that has not run
it in this outer period keeps what a mismatch restores and runs the outer step in order (bus tracking, measurement, limits,
phase jump, ride-through, law, the inputs of R110, the entry for Q-OUT, unit states); EXCURSION_CLOSE closes an open excursion
that has stayed in band for rt_reset with 0x0A0C; LIM_RELEASE_EXPIRY in the outer step of a port with no stop pending takes it
from LIMITED to RUN with 0x0A02; HARD_BUDGET_EXHAUSTED marks the budget and raises 0x2A03; HARD_BUDGET_REFILLED clears the mark.
Every clause: for every state s and all operands, with a = s.advance t the state at the command's instant, under hypotheses on a
and the operands alone, exec answers exactly the next state shown (so what it leaves unchanged is stated too). Operands are the
model's (logs 1, 2). -/
def Obligations.CompletesOuterLaw : Prop :=
  (∀ (t : Nat) (p : Nat) (m : OuterIn) (s : State) (a : State),
    a = s.advance t → (a.port p).used = true → (a.port p).outerRan = false → 2 ≤ a.eng.bounds →
    exec (.outerStep t p m) s = .next (
      let b := (a.busTrack p).deadStep p
      let b := b.modPort p fun q => { q with saved := some (b.outerSave p), outerRan := true, outerLeft := b.outerOps p }
      let b := (((b.glzRest p).lawMeasure p).limitStep p).clipEvents p
      let jump := b.jumpStep p
      let ride := jump.2.rtStep p
      let law := ride.2.lawOrRest p
      let st := (b.port p).st
      let c := law.2.outerInputs p m ride.1 jump.1 law.1
      let c := c.modPort p fun q => { q with outNext := c.outEntry p, stepAt := if q.st = st then some c.now else none }
      ((c.recompute 0x2A0B).leaveEnergise).leaveStopping)) ∧
  (∀ (t : Nat) (p : Nat) (s : State) (f : Nat) (a : State),
    a = s.advance t → (a.port p).rtBandFrom = some f → (a.port p).rtOpen = true →
    (a.port p).timerDue (f + a.n (Pid.rtReset p) * psMs) = true →
    exec (.excursionClose t p) s = .next (((((a.modPort p fun q => { q with rtOpen := false, rtBandFrom := none }).setN (Pid.rtState p) 0)).raise 0x0A0C p ((a.port p).rtPs / psMs)).recompute 0x0A0C)) ∧
  (∀ (t : Nat) (p : Nat) (s : State) (a : State),
    a = s.advance t → (a.port p).st = .limited →
    (a.port p).timerDue ((a.port p).satAt + a.n (Pid.limRelease p) * psMs) = true →
    exec (.limReleaseExpiry t p) s = .next ((a.raise 0x0A02 p (min ((a.now - (a.port p).limAt) / psUs) 0xFFFFFFFF)).setPort p .run)) ∧
  (∀ (t : Nat) (p : Nat) (s : State) (a : State),
    a = s.advance t → (a.port p).used = true → (a.port p).exhausted = false → 0 < a.n (Pid.iHardTime p) →
    a.budgetFull p ≤ (a.port p).budget →
    exec (.hardBudgetExhausted t p) s = .next ((a.modPort p fun q => { q with exhausted := true }).raise 0x2A03 p (a.n (Pid.iLimCont p)))) ∧
  (∀ (t : Nat) (p : Nat) (s : State) (a : State),
    a = s.advance t → (a.port p).used = true → (a.port p).exhausted = true → (a.port p).budget = 0 →
    exec (.hardBudgetRefilled t p) s = .next (a.modPort p fun q => { q with exhausted := false }))

/-- Loss and recovery of feedback: where each command completes, and its next state. FEEDBACK_LOST for an element unusable for 16
periods of a port that is not at rest marks it lost, counts, shows fb_state, and by its role stops the port with 0x4C07 and
blocks its start until a clear, enters open loop with 0x1C08, or does neither. FEEDBACK_RECOVER after fb_recover usable periods
leaves open loop with 0x0C09, or clears the loss of role 0x04 and 0x07 elements. Every clause: for every state s and all
operands, with a = s.advance t the state at the command's instant, under hypotheses on a and the operands alone, exec answers
exactly the next state shown (so what it leaves unchanged is stated too). Operands are the model's (logs 1, 2). -/
def Obligations.CompletesFeedback : Prop :=
  (∀ (t : Nat) (p : Nat) (role : Nat) (elem : Nat) (s : State) (e : FbEl) (a : State),
    a = s.advance t →
    ((a.port p).fb.find? (fun e => e.role = role ∧ e.elem = elem ∧ 16 ≤ e.bad ∧ e.lost = false) = some e) →
    (a.port p).used = true → (a.port p).st.atRest = false →
    exec (.feedbackLost t p role elem) s = .next (
      let b := a.modPort p fun q => { q with fb := q.fb.map fun x => if x.role = role ∧ x.elem = elem then { x with lost := true } else x }
      let b := (b.bump (Pid.fbLostCount p)).fbShow p
      let other := (a.port p).fb.any fun x => b.lossStops p x.role && decide (16 ≤ x.bad)
      if b.lossStops p role then ((b.raise 0x4C07 p (fbCtx e)).modPort p fun q => { q with fbBlocked := true }).faultPend p 0x4C07 else if b.lossOpens p role && (a.port p).openLoop.isNone && !(a.port p).stopPend && !other then (((b.modPort p fun q => { q with openLoop := some b.eng.count })).raise 0x1C08 p (role * 256 + elem)).fbShow p else b)) ∧
  (∀ (t : Nat) (p : Nat) (role : Nat) (s : State) (c : Nat) (a : State),
    a = s.advance t → (a.port p).used = true → (a.port p).st.atRest = false → (a.port p).openLoop = some c →
    a.lossOpens p role = true → ((((a.port p).fb.filter fun e => e.role = role).any fun e => e.lost) = true) →
    ((((a.port p).fb.filter fun e => e.role = role).all fun e => a.n (Pid.fbRecover p) ≤ e.good) = true) →
    exec (.feedbackRecover t p role) s = .next (
      let b := a.modPort p fun q => { q with openLoop := none, fb := q.fb.map fun e => if e.role = role then { e with lost := false } else e }
      (b.raise 0x0C09 p (min (b.eng.count - c) 0xFFFFFFFF)).fbShow p)) ∧
  (∀ (t : Nat) (p : Nat) (role : Nat) (s : State) (a : State),
    a = s.advance t → (a.port p).used = true → (a.port p).st.atRest = false → (a.port p).openLoop = none →
    (role = 4 ∨ role = 7) →
    exec (.feedbackRecover t p role) s = .next ((a.modPort p fun q => { q with fb := q.fb.map fun e => if e.role = role ∧ a.n (Pid.fbRecover p) ≤ e.good then { e with lost := false } else e }).fbShow p))

/-- Test-signal injections: where each command completes, and its next state. A Commissioner INJ_START whose conditions hold with no
injection running begins the injection; INJ_STOP of a running one ends it in state 3 with abort code 0x01 and 0x1E03;
FR_POINT_COMPLETE at the end of a point's measurement stores its table entry, goes on to the next point and counts it;
INJECTION_COMPLETE at the end of the injection shows state 2 and raises 0x0E02. A request of a role needs the role, room in
Q-LOG where it is logged, and no partner that must carry it out too (R324); it leaves its log entry. Every clause: for every
state s and all operands, with a = s.advance t the state at the command's instant, under hypotheses on a and the operands alone,
exec answers exactly the next state shown (so what it leaves unchanged is stated too). Operands are the model's (logs 1, 2). -/
def Obligations.CompletesInjections : Prop :=
  (∀ (t : Nat) (role : Role) (s : State) (a : State),
    a = s.advance t → a.n Pid.injState ≠ 1 → a.injCode = 0 → a.injCapBusy = false →
    a.roleOk role .commissioner = true → (a.n Pid.pairState ≠ 1 ∨ a.forwards (Pid.injCmd) = false) →
    a.canNote role 2 (Pid.injCmd) (0) (1) = true →
    exec (.injStart t role) s = .next (a.noted role 2 (Pid.injCmd) (0) (1) 0 (a.injBegin))) ∧
  (∀ (t : Nat) (role : Role) (s : State) (a : State),
    a = s.advance t → a.n Pid.injState = 1 → a.roleOk role .commissioner = true →
    (a.n Pid.pairState ≠ 1 ∨ a.forwards (Pid.injCmd) = false) → a.canNote role 2 (Pid.injCmd) (0) (2) = true →
    exec (.injStop t role) s = .next (a.noted role 2 (Pid.injCmd) (0) (2) 0 (((a.setN Pid.injState 3).setN Pid.injAbort 1).raise 0x1E03 a.inj.port 1))) ∧
  (∀ (t : Nat) (freq gain phase magA : Unit) (s : State) (a : State),
    a = s.advance t → a.injTable = true → a.injOver 0 = false → a.ssEnded = true →
    exec (.frPointComplete t freq gain phase magA) s = .next (
      let e := a.frPair
      let x := leBytes 4 (a.ssFreq a.inj.idx) ++ leBytes 4 e.1.1 ++ leBytes 4 e.1.2 ++ leBytes 4 (magOf a.inj.sumA a.ssN)
      ({ e.2 with inj := { e.2.inj with table := e.2.inj.table ++ [x] } }.ssNext).bump Pid.frPoints)) ∧
  (∀ (t : Nat) (s : State) (a : State),
    a = s.advance t → a.n Pid.injState = 1 → a.injDone = true →
    exec (.injectionComplete t) s = .next ((a.setN Pid.injState 2).raise 0x0E02 a.inj.port (a.n Pid.frPoints)))

/-- The two lanes and the period: where each command completes, and its next state. With the engine running: LANE_COMPLETION of a
lane not yet complete captures its slack, deadline minus now floored to 625 ps (0 within 1 ns before the deadline, R47), in the
lane's word, and takes the port samples that both lanes have read; COMPUTE_DEADLINE at the deadline with a late lane raises 0x1C02, counts, holds every used port and
judges the period failed; COMPARE_WINDOW_END at the end of its window with both lanes in time substitutes where no entry came, accounts the slack, takes
the slice, compares the partitions in order, judges the period and sends the pair frame, with nothing to compare only that; PERIOD_TICK when the tick is due with an image and a locked clock
finishes the old period, and begins the new one unless the unit gave up. Every clause: for every state s and all operands, with
a = s.advance t the state at the command's instant, under hypotheses on a and the operands alone, exec answers exactly the next
state shown (so what it leaves unchanged is stated too). Operands are the model's (logs 1, 2). -/
def Obligations.CompletesEnginePeriod : Prop :=
  (∀ (t : Nat) (laneY : Bool) (hs : Unit) (s : State) (a : State),
    a = s.advance t → a.engineOn = true → a.eng.count ≠ 0 → laneY = true → a.eng.doneY = none → a.now < a.periodEnd →
    exec (.laneCompletion t laneY hs) s = .next (
      let S := if a.now < a.deadlineAt ∧ a.deadlineAt ≤ a.now + 1000 then (0 : Int) else ((a.deadlineAt : Int) - a.now) / 625 * 625
      let b := { a with eng := { a.eng with doneY := some S } }.setZ Pid.slackYLast S
      if b.eng.read then b.each b.usedPorts State.takeSmp else b)) ∧
  (∀ (t : Nat) (laneY : Bool) (hs : Unit) (s : State) (a : State),
    a = s.advance t → a.engineOn = true → a.eng.count ≠ 0 → laneY = false → a.eng.doneX = none →
    a.now < a.periodEnd →
    exec (.laneCompletion t laneY hs) s = .next (
      let S := if a.now < a.deadlineAt ∧ a.deadlineAt ≤ a.now + 1000 then (0 : Int) else ((a.deadlineAt : Int) - a.now) / 625 * 625
      let b := { a with eng := { a.eng with doneX := some S } }.setZ Pid.slackXLast S
      if b.eng.read then b.each b.usedPorts State.takeSmp else b)) ∧
  (∀ (t : Nat) (s : State) (a : State),
    a = s.advance t → a.n Pid.engineState = 1 → a.eng.judged = false → a.eng.count ≠ 0 → a.deadlineAt ≤ a.now →
    (lateLane a.eng.doneX = true ∨ lateLane a.eng.doneY = true) →
    exec (.computeDeadline t) s = .next (
      let mask := b01 (lateLane a.eng.doneX) + 2 * b01 (lateLane a.eng.doneY)
      let b := (a.raise 0x1C02 0 (a.n Pid.periodSeq * 2 ^ 32 + mask)).bump Pid.lateCount
      let b := { b with eng := { b.eng with late := mask } }
      (b.each b.usedPorts State.holdPort).judgePeriod true)) ∧
  (∀ (t : Nat) (parts : List PartIn) (s : State) (a : State),
    a = s.advance t → a.n Pid.engineState = 1 → a.eng.judged = false → a.eng.count ≠ 0 → a.compareAt ≤ a.now →
    lateLane a.eng.doneX = false → lateLane a.eng.doneY = false →
    exec (.compareWindowEnd t parts) s = .next (
      let c := a.noEntries
      let b := c.slackEnd.takeSlice.compareParts false (c.partOrder parts)
      (b.2.judgePeriod b.1).sendFrame)) ∧
  (∀ (t : Nat) (parts : List PartIn) (s : State) (a : State),
    a = s.advance t → a.eng.count ≠ 0 → a.compareAt ≤ a.now →
    (a.n Pid.engineState ≠ 1 ∨ a.eng.judged = true ∨ lateLane a.eng.doneX = true ∨ lateLane a.eng.doneY = true) →
    exec (.compareWindowEnd t parts) s = .next a.sendFrame) ∧
  (∀ (t : Nat) (markBack : Bool) (frameSent : Bool) (lost : List Bool) (s : State) (a : State),
    a = s.advance t → a.img.loaded = true → a.ref.lockedTo ≠ none → a.tickDue = true →
    exec (.periodTick t markBack frameSent lost) s = .next (
      let b := a.periodFinish.sendFrame.periodGiveUp
      if b.2 then b.1 else b.1.periodBegin markBack frameSent lost))

/-- Fast samples and slow conversions: where each command completes, and its next state. FAST_CONVERSION of a later conversion of an
owned group at its instant while sampling steps range supervision and the tap words of its channels; SAMPLE_ENTRY after the
conversion window steps range and stuck supervision, puts the port's words into Q-SMP, checks their sequence and judges the
period's first entry; SLOW_SCAN_START when due starts the first used channel; SLOW_CONVERSION_DONE within the code range stores
the result and goes on to the next channel; SLOW_OVER_RANGE abandons the conversion; SLOW_RESULT_STALE marks an old result stale
once with 0x1103. Every clause: for every state s and all operands, with a = s.advance t the state at the command's instant,
under hypotheses on a and the operands alone, exec answers exactly the next state shown (so what it leaves unchanged is stated
too). Operands are the model's (logs 1, 2). -/
def Obligations.CompletesConversion : Prop :=
  (∀ (t : Nat) (g : Nat) (i : Nat) (raws : List Int) (s : State) (a : State),
    a = s.advance t → a.sampling = true → a.portOfGroup g ≠ none → i ≠ 0 → i < a.n (Pid.grpOs g) →
    a.convInst g i ≤ a.now →
    exec (.fastConversion t g i raws) s = .next (
      let inst := a.convInst g i
      let cs := ((List.range 12).map (12 * g + ·)).zip raws
      let b := cs.foldl (fun b c => b.rangeStep c.1 c.2 inst (b.stampAt inst)) a
      cs.foldl (fun b c => (b.convWord c.1 i c.2 inst).2) b)) ∧
  (∀ (t : Nat) (p : Nat) (samples : List Int) (frozen : List Bool) (s : State) (a : State),
    a = s.advance t → a.sampling = true → (a.port p).used = true → a.eng.tickAt + a.convWin ≤ a.now →
    exec (.sampleEntry t p samples frozen) s = .next (
      let cs := (a.portChans p).zip (samples.zip frozen)
      let b := cs.foldl (fun b c => b.rangeStep c.1 c.2.1 b.eng.tickAt b.eng.tickStamp) a
      let b := cs.foldl (fun b c => b.stuckStep c.1 (clampI (-8192) 8191 c.2.1) (a.port p).st.switching) b
      let r := b.sendWords cs
      let b := (r.2.pushSmp p ⟨b.eng.tickStamp, r.1.map fun w => w.2, false⟩).seqCheck p r.1
      if (b.port p).smpSeen then b else b.judgeEntry p r.1)) ∧
  (∀ (t : Nat) (m : Nat) (s : State) (c : Nat) (cs : List Nat) (a : State),
    a = s.advance t → a.smChans m = c :: cs → m < 4 → a.img.loaded = true → a.ref.lockedTo ≠ none →
    (a.smod m).scanFrom = none → (a.smod m).lastScan = none →
    exec (.slowScanStart t m) s = .next (a.modSmod m fun x => { x with lastScan := some a.now, scanFrom := some a.now, chan := some c, chanFrom := a.now })) ∧
  (∀ (t : Nat) (ch : Nat) (code : Int) (s : State) (a : State),
    a = s.advance t → (a.smod (ch / 8)).chan = some ch → (a.smod (ch / 8)).chanFrom + a.convPs ch ≤ a.now →
    code ≤ 8388607 → -8388608 ≤ code →
    exec (.slowConversionDone t ch code) s = .next ((a.slowResult ch code false).nextSlow (ch / 8) ch)) ∧
  (∀ (t : Nat) (ch : Nat) (high : Bool) (s : State) (a : State),
    a = s.advance t → (a.smod (ch / 8)).chan = some ch →
    (a.smod (ch / 8)).chanFrom + 40 * psUs + 32 * a.n (Pid.saDiv ch) * psS / 8192000 ≤ a.now →
    exec (.slowOverRange t ch high) s = .next (a.slowOver ch high)) ∧
  (∀ (t : Nat) (ch : Nat) (s : State) (n : Nat) (a : State),
    a = s.advance t → (a.slow.getD ch {}).at_ = some n → (a.slow.getD ch {}).staleTold = false →
    a.n (Pid.saRole ch) ≠ 0 → n + 2 * a.n (Pid.smScan (ch / 8)) * psMs < a.now →
    exec (.slowResultStale t ch) s = .next (((a.setBit (Pid.saStatus ch) 1 true).modSch ch fun x => { x with staleTold := true }).raise 0x1103 ch ((a.now - n) / psMs)))

/-- Window comparators and their clear: where each command completes, and its next state. WINDOW_COMPARATOR_FIRE on a channel of an
owned group whose comparator is released sets both status bits, counts, raises 0x1003 and faults the target legs with cause 0x04
and soft turn-off; WINDOW_COMPARATOR_RELEASE clears the live bit; a Service FA_CLEAR of 1 on an existing channel that is back
inside clears the sticky bits. A request of a role needs the role, room in Q-LOG where it is logged, and no partner that must
carry it out too (R324); it leaves its log entry. Every clause: for every state s and all operands, with a = s.advance t the
state at the command's instant, under hypotheses on a and the operands alone, exec answers exactly the next state shown (so what
it leaves unchanged is stated too). Operands are the model's (logs 1, 2). -/
def Obligations.CompletesFastInputs : Prop :=
  (∀ (t : Nat) (ch : Nat) (upper : Bool) (s : State) (p : Nat) (a : State),
    a = s.advance t → a.portOfGroup (ch / 12) = some p → a.bit (Pid.faStatus ch) 5 = false →
    exec (.windowComparatorFire t ch upper) s = .next (
      let b := ((a.setBit (Pid.faStatus ch) 1 true).setBit (Pid.faStatus ch) 5 true).bump (Pid.winCount ch)
      let b := b.raise 0x1003 ch (b.n (Pid.winTarget ch) * 256 + (if upper then 1 else 2))
      let ls := b.winLegs p ch
      (b.legFaults (ls.map fun l => (l, 4, b.onIsland l)) (ls.flatMap fun l => [islHigh l, islLow l])).protSources p)) ∧
  (∀ (t : Nat) (ch : Nat) (s : State) (p : Nat) (a : State),
    a = s.advance t → a.portOfGroup (ch / 12) = some p →
    exec (.windowComparatorRelease t ch) s = .next ((a.setBit (Pid.faStatus ch) 5 false).protSources p)) ∧
  (∀ (t : Nat) (role : Role) (ch : Nat) (v : Word) (s : State) (a : State),
    a = s.advance t → a.roleOk role .service = true → a.faClearOk ch v = true →
    (a.n Pid.pairState ≠ 1 ∨ a.forwards (Pid.faClear ch) = false) →
    a.canNote role 2 (Pid.faClear ch) (0) (v) = true →
    exec (.faClear t role ch v) s = .next (a.noted role 2 (Pid.faClear ch) (0) (v) 0 ((a.setBit (Pid.faStatus ch) 0 false).setBit (Pid.faStatus ch) 1 false)))

/-- Carrier, edges and the held state: where each command completes, and its next state. CARRIER_BOUNDARY of a leg of a modulating
port at its instant, no re-alignment pending on the reference leg, does what boundaryAt says; LEG_EDGE when y is due and no minimum pulse or dead time forbids it issues the
edge, when one forbids it for the first time keeps the edge, counts the delay and raises 0x1504, and issues a kept edge once it
is free; DEAD_TIME_EXPIRY sends the on command to the incoming switch and drives the output; EXTRA_COMPARE_FIRE of a line
compare records the firing and drives the SYNC_LINE, of an output compare records it and inverts the output, of a sampling
compare records it and marks its instant for the port; an accepted
MOD_RELEASE frees the modulator with 0x0503; MID_PERIOD_LOAD loads a changed period at the reference leg under upd_mode 0x01. A
request of a role needs the role, room in Q-LOG where it is logged, and no partner that must carry it out too (R324); it leaves
its log entry. Every clause: for every state s and all operands, with a = s.advance t the state at the command's instant, under
hypotheses on a and the operands alone, exec answers exactly the next state shown (so what it leaves unchanged is stated too).
Operands are the model's (logs 1, 2). -/
def Obligations.CompletesModulation : Prop :=
  (∀ (t : Nat) (l : Nat) (s : State) (p : Nat) (b : Nat) (a : State),
    a = s.advance t → a.portOfLeg l = some p → (a.leg l).nextB = some b → a.n (Pid.modState p) ≠ 0 → b ≤ a.now →
    (l ≠ (a.port p).refLeg ∨ (a.port p).realign = false) →
    exec (.carrierBoundary t l) s = .next (a.boundaryAt p l b)) ∧
  (∀ (t : Nat) (l : Nat) (s : State) (p : Nat) (y : Bool) (a : State),
    a = s.advance t → a.portOfLeg l = some p → a.n (Pid.modState p) ≠ 0 → a.hasSet p l = true →
    (a.leg l).delayed = none → a.edgeDue p l = some y → a.edgeFree p l ≤ ((a.leg l).ticks a.now).2 →
    exec (.legEdge t l) s = .next (a.issueEdge p l ((a.leg l).ticks a.now).2 y true)) ∧
  (∀ (t : Nat) (l : Nat) (s : State) (p : Nat) (y : Bool) (a : State),
    a = s.advance t → a.portOfLeg l = some p → a.n (Pid.modState p) ≠ 0 → a.hasSet p l = true →
    (a.leg l).delayed = none → a.edgeDue p l = some y → ((a.leg l).ticks a.now).2 < a.edgeFree p l →
    exec (.legEdge t l) s = .next (((a.modLeg l fun x => { x with delayed := some (y, x.bounds) }).bump (Pid.minPulseCount l)).raise 0x1504 l (a.edgeFree p l - ((a.leg l).ticks a.now).2))) ∧
  (∀ (t : Nat) (l : Nat) (s : State) (p : Nat) (y : Bool) (b : Nat) (a : State),
    a = s.advance t → a.portOfLeg l = some p → a.n (Pid.modState p) ≠ 0 → a.hasSet p l = true →
    (a.leg l).delayed = some (y, b) → a.edgeFree p l ≤ a.now →
    exec (.legEdge t l) s = .next (a.issueEdge p l (a.edgeFree p l) y (decide (b = (a.leg l).bounds)))) ∧
  (∀ (t : Nat) (l : Nat) (s : State) (u : Nat) (p : Nat) (a : State),
    a = s.advance t → (a.leg l).onAt = some u → a.portOfLeg l = some p → u ≤ a.now →
    exec (.deadTimeExpiry t l) s = .next (
      let b := a.modIsl (a.incoming p l (a.legY l)) fun x => { x with onDue := some (u + islandWay) }
      ((b.modLeg l fun x => { x with onAt := none, turnOn := u }).showLeg l).regionStep p l)) ∧
  (∀ (t : Nat) (l : Nat) (k : Nat) (share : Bool) (s : State) (p : Nat) (i : Nat) (a : State),
    a = s.advance t → a.portOfLeg l = some p → a.xDue p l k share = some i → a.n (Pid.modState p) ≠ 0 →
    share = false → (((a.leg l).fires.any fun f => f.1 / 2 = k && within10ns f.2 i) = false) →
    xKind ((a.leg l).xcNow.getD k 0) = 2 →
    exec (.extraCompareFire t l k share) s = .next (
      let b := a.modLeg l fun x => { x with fires := (2 * k, i) :: x.fires.filter fun f => f.1 ≠ 2 * k }
      { b with lines := b.lines.set (xTarget ((a.leg l).xcNow.getD k 0)) (i + 16 * tickPs) })) ∧
  (∀ (t : Nat) (l : Nat) (k : Nat) (share : Bool) (s : State) (p : Nat) (i : Nat) (a : State),
    a = s.advance t → a.portOfLeg l = some p → a.xDue p l k share = some i → a.n (Pid.modState p) ≠ 0 →
    share = false → (((a.leg l).fires.any fun f => f.1 / 2 = k && within10ns f.2 i) = false) →
    xKind ((a.leg l).xcNow.getD k 0) = 3 →
    exec (.extraCompareFire t l k share) s = .next (
      let b := a.modLeg l fun x => { x with fires := (2 * k, i) :: x.fires.filter fun f => f.1 ≠ 2 * k }
      let o := xTarget ((a.leg l).xcNow.getD k 0)
      { b with dout := b.dout.set o (!(b.dout.getD o false)) })) ∧
  (∀ (t : Nat) (l : Nat) (k : Nat) (share : Bool) (s : State) (p : Nat) (i : Nat) (a : State),
    a = s.advance t → a.portOfLeg l = some p → a.xDue p l k share = some i → a.n (Pid.modState p) ≠ 0 →
    share = false → (((a.leg l).fires.any fun f => f.1 / 2 = k && within10ns f.2 i) = false) →
    xKind ((a.leg l).xcNow.getD k 0) = 1 →
    exec (.extraCompareFire t l k share) s = .next (
      let b := a.modLeg l fun x => { x with fires := (2 * k, i) :: x.fires.filter fun f => f.1 ≠ 2 * k }
      b.modPort p fun q => { q with smpFired := some i })) ∧
  (∀ (t : Nat) (role : Role) (p : Nat) (v : Word) (s : State) (a : State),
    a = s.advance t → a.roleOk role .service = true → a.modReleaseOk p v = true →
    (a.n Pid.pairState ≠ 1 ∨ a.forwards (Pid.modRelease p) = false) →
    a.canNote role 2 (Pid.modRelease p) (0) (v) = true →
    exec (.modRelease t role p v) s = .next (a.noted role 2 (Pid.modRelease p) (0) (v) 0 ((a.setN (Pid.modState p) 1).raise 0x0503 p 1))) ∧
  (∀ (t : Nat) (l : Nat) (s : State) (p : Nat) (a : State),
    a = s.advance t → a.portOfLeg l = some p → l = (a.port p).refLeg → a.n (Pid.modState p) = 3 →
    a.n (Pid.updMode p) = 1 →
    ((((a.port p).legs.filter fun k => a.hasPhase p k).all fun k => decide (fitPhase (a.fitPeriod p (a.n (Pid.shPeriod p))) (a.n (Pid.shPhase k)) = a.n (Pid.phActive k))) = true) →
    a.fitPeriod p (a.n (Pid.shPeriod p)) ≠ a.n (Pid.pActive p) →
    (a.leg l).boundary + a.n (Pid.pActive p) / 2 * tickPs ≤ a.now →
    ((a.leg l).nextB.all (fun b => decide (a.now < b)) = true) →
    exec (.midPeriodLoad t l) s = .next (
      let old := (a.leg l).boundary
      let mid := old + a.n (Pid.pActive p) / 2 * tickPs
      let b := a.loadPoint p l false true false
      let P := b.n (Pid.pActive p)
      let e := mid + P / 2 * tickPs
      let b := (b.modLeg l fun x => { x with boundary := e - P * tickPs }).placeB p l e
      b.each ((a.port p).legs.filter fun k => b.hasPhase p k && decide (old ≤ (b.leg k).boundary)) fun b k => b.placeB p k (e + b.phiOf p k)))

/-- Adaptive dead time: where each command completes, and its next state. NS_CROSSING_REPORT with an NS fault marks it once with
0x1604 and falls back to dt_fix; of a started leg without a latched fault whose near crossing is missing it writes 0xFFFFFFFF as
the measurement, places the floor, counts the miss (but for the third and sixth type) and falls back after ns_miss_n;
DT_ADAPTIVE_RESUME ends the causes whose 1,000 usable periods have passed. Every clause: for every state s and all operands,
with a = s.advance t the state at the command's instant, under hypotheses on a and the operands alone, exec answers exactly the
next state shown (so what it leaves unchanged is stated too). Operands are the model's (logs 1, 2). -/
def Obligations.CompletesDeadTime : Prop :=
  (∀ (t : Nat) (l : Nat) (near : Option Nat) (far : Option Nat) (fault : Bool) (s : State) (p : Nat) (a : State),
    a = s.advance t → a.portOfLeg l = some p → fault = true →
    exec (.nsCrossingReport t l near far fault) s = .next (
      let i := islLow l
      (if (a.island i).nsFault then a else (a.chgIsl i fun x => { x with nsFault := true }).raise 0x1604 i 0).dtFallback p l 1)) ∧
  (∀ (t : Nat) (l : Nat) (near : Option Nat) (far : Option Nat) (fault : Bool) (s : State) (p : Nat) (a : State),
    a = s.advance t → a.portOfLeg l = some p → fault = false → (a.leg l).measuring = true →
    a.bit (Pid.legProt l) 0 = false → near = none → (a.leg l).onAt = none →
    exec (.nsCrossingReport t l near far fault) s = .next (
      let ty := (a.leg l).ctype
      let floor := a.n (Pid.dtFloor p) * 1000
      let b := a.modLeg l fun x => { x with measuring := false }
      let b := (b.setN (Pid.dtMeas l ty) 0xFFFFFFFF).dtPlace l ty floor floor
      let b := b.modLeg l fun x => { x with missRun := if ty % 3 = 2 then x.missRun else x.missRun + 1 }
      if b.n (Pid.nsMissN p) ≤ (b.leg l).missRun then b.dtFallback p l 2 else b)) ∧
  (∀ (t : Nat) (l : Nat) (s : State) (p : Nat) (a : State),
    a = s.advance t → a.portOfLeg l = some p →
    exec (.dtAdaptiveResume t l) s = .next (
      let b := if 1000 ≤ (a.port p).dcOk then a.dtCauseEnd p l 0 else a
      if 1000 ≤ (b.port p).thrOk then b.dtCauseEnd p l 3 else b))

/-- Turn-on, interlock and turn-off of islands: where each command completes, and its next state. KEEP_ALIVE_SEND after start-up
with a locked clock feeds the watchdog of every used island; ISLAND_ON_COMMAND when the command arrives is the on command, which
of an enabled island outside T-type that is off and whose partner holds no on command makes the turn-on pending and tries it;
IL_MIN_TIME_ELAPSED turns on an island that may turn on in time; GATE_ABOVE_PLATEAU of an on island is recorded and in T-type
lets the outer switch proceed; ISLAND_OFF_COMMAND outside T-type when the command arrives turns off and notifies the partner;
OFF_CONFIRM of an off island confirms it and lets its partner proceed; TURN_ON_TIMEOUT drops a turn-on 2.0 µs old with 0x1601 (a
second within 1 s faults the leg with cause 0x06); an accepted ISL_PULSE commands the island on for its time and ISL_PULSE_END
turns it off; SOFT_OFF_FULL_STRENGTH 5.0 µs into a soft turn-off goes to full strength. A request of a role needs the role, room
in Q-LOG where it is logged, and no partner that must carry it out too (R324); it leaves its log entry. Every clause: for every
state s and all operands, with a = s.advance t the state at the command's instant, under hypotheses on a and the operands alone,
exec answers exactly the next state shown (so what it leaves unchanged is stated too). Operands are the model's (logs 1, 2). -/
def Obligations.CompletesIslandCommands : Prop :=
  (∀ (t : Nat) (s : State) (a : State),
    a = s.advance t → a.unit.st ∉ [.off, .reset, .refLock, .imageLoad, .selfTest] → a.ref.lockedTo ≠ none →
    exec (.keepAliveSend t) s = .next (a.each a.usedIsls fun b i => (b.keepIsl i).showIsl i)) ∧
  (∀ (t : Nat) (i : Nat) (s : State) (a : State),
    a = (s.advance t).innerEnables → ((a.island i).onDue.any (fun u => decide (u ≤ a.now)) = true) →
    exec (.islandOnCommand t i) s = .next (((a.modIsl i fun x => { x with onDue := none }).onCommand i 0).showSw i)) ∧
  (∀ (t : Nat) (i : Nat) (s : State) (b c : State) (a : State),
    a = (s.advance t).innerEnables → ((a.island i).onDue.any (fun u => decide (u ≤ a.now)) = true) →
    (b = a.modIsl i fun x => { x with onDue := none }) → b.islUsed i = true → b.enabled i = true →
    (b.island (b.partner i)).onCmd = false → c = b.keepIsl i → c.isTType (legOfIsl i) = false →
    (c.island i).on = false →
    exec (.islandOnCommand t i) s = .next (
      let d := c.chgIsl i fun x => { x with onCmd := true, pendAt := some c.now, cmdAt := c.now, pulseLen := 0 }
      ((d.tryOn i).showSw i).showSw i)) ∧
  (∀ (t : Nat) (i : Nat) (s : State) (a : State),
    a = s.advance t → a.turnOnLate i tiePs = false → a.mayTurnOn i = true →
    exec (.ilMinTimeElapsed t i) s = .next ((a.chgIsl i fun x => { x with on := true, pendAt := none, offConf := false, above := false, pulseEnd := if x.pulseLen = 0 then none else some (a.now + x.pulseLen) }).showSw i)) ∧
  (∀ (t : Nat) (i : Nat) (s : State) (a : State),
    a = s.advance t → (a.island i).on = true →
    exec (.gateAbovePlateau t i) s = .next (
      let b := a.chgIsl i fun x => { x with above := true }
      if b.isTType (legOfIsl i) && !isOuterSw i then b.tryOn (orderMate i) else b)) ∧
  (∀ (t : Nat) (i : Nat) (s : State) (b : State) (a : State),
    a = s.advance t → a.islUsed i = true → a.isTType (legOfIsl i) = false →
    (b = (a.innerEnables.keepIsl i).modIsl i fun x => { x with offDue := none }) →
    ((a.innerEnables.island i).offDue.any (fun u => decide (u ≤ a.innerEnables.now)) = true) →
    exec (.islandOffCommand t i) s = .next ((b.islOff i).showSw i)) ∧
  (∀ (t : Nat) (i : Nat) (s : State) (b c : State) (a : State),
    a = s.advance t → b = a.gateNotOff i → (b.island i).on = false → (b.island i).offConf = false →
    (b.island i).soft = none →
    (c = b.chgIsl i fun x => { x with offConf := true, offAt := none, soft := none, softFull := false, lost := false }) →
    c.isTType (legOfIsl i) = false →
    exec (.offConfirm t i) s = .next ((c.tryOn (c.partner i)).showSw i)) ∧
  (∀ (t : Nat) (i : Nat) (s : State) (a : State),
    a = s.advance t → a.turnOnLate i 0 = true →
    exec (.turnOnTimeout t i) s = .next (
      let b := a.chgIsl i fun x => { x with pendAt := none, onCmd := false, pulseLen := 0 }
      let b := (b.bump (Pid.hsTimeoutCount i)).raise 0x1601 i b.stamp.toNat
      let k := b.pairKey i
      let b := b.modLeg k fun x => { x with drops := b.now :: x.drops.filter fun u => decide (b.now < u + psS) }
      (if 2 ≤ (b.leg k).drops.length then b.legFault (legOfIsl i) 6 i [] else b).showSw i)) ∧
  (∀ (t : Nat) (role : Role) (i : Nat) (v : Word) (s : State) (a : State),
    a = s.advance t → a.roleOk role .service = true → a.pulseOk i v = true →
    (a.n Pid.pairState ≠ 1 ∨ a.forwards (Pid.islPulse i) = false) →
    a.canNote role 2 (Pid.islPulse i) (0) (v) = true →
    exec (.islPulse t role i v) s = .next (a.noted role 2 (Pid.islPulse i) (0) (v) 0 (a.onCommand i (v.toNat * 10000)))) ∧
  (∀ (t : Nat) (i : Nat) (s : State) (n : Nat) (a : State),
    a = s.advance t → (a.island i).pulseEnd = some n → n ≤ a.now →
    (a.innerSw i = false ∨ (a.island (orderMate i)).offConf = true) →
    exec (.islPulseEnd t i) s = .next ((a.islOff i).showSw i)) ∧
  (∀ (t : Nat) (i : Nat) (s : State) (n : Nat) (a : State),
    a = s.advance t → (a.island i).soft = some n → n + 5 * psUs ≤ a.now → a.mayDrive = true →
    exec (.softOffFullStrength t i) s = .next (a.modIsl i fun x => { x with softFull := true }))

/-- Detections and supplies of islands: where each command completes, and its next state. On an island whose detection is live
(detects), DESATURATION after ds_blank counts, sets flag 3 and faults the leg with cause 0x01 and soft turn-off, and
GATE_PLATEAU_MISSING does so with flag 4 and cause 0x02; on one that is on GATE_NOT_ON at the end of ds_blank does so with flag
5, cause 0x03 and a normal turn-off. GATE_NOT_OFF 2.0 µs
after an unconfirmed off command faults the leg with cause 0x0B, ISLAND_LOST with cause 0x09. ISLAND_WATCHDOG_EXPIRY turns the
switch off and counts; ISLAND_UNDERVOLTAGE marks the supply, faults the legs that switch with cause 0x08, turns the islands off
and raises 0x1603 for those that did not switch; ISLAND_SUPPLY_RECOVER ends it. Every clause: for every state s and all
operands, with a = s.advance t the state at the command's instant, under hypotheses on a and the operands alone, exec answers
exactly the next state shown (so what it leaves unchanged is stated too). Operands are the model's (logs 1, 2). -/
def Obligations.CompletesIslandFaults : Prop :=
  (∀ (t : Nat) (i : Nat) (s : State) (a : State),
    a = s.advance t → a.detects i = true →
    (a.island i).cmdAt + a.n (Pid.dsBlank i) * 1000 ≤ a.now →
    exec (.desaturation t i) s = .next ((((a.bump (Pid.dsCount i)).detect i 3).legFault (legOfIsl i) 1 i [i]).showSw i)) ∧
  (∀ (t : Nat) (i : Nat) (s : State) (a : State),
    a = s.advance t → a.detects i = true → a.n (Pid.gsPlateauMin i) ≠ 0 →
    a.now < (a.island i).cmdAt + (a.n (Pid.gsPlateauMin i) + 30) * 1000 →
    exec (.gatePlateauMissing t i) s = .next ((((a.bump (Pid.plateauCount i)).detect i 4).legFault (legOfIsl i) 2 i [i]).showSw i)) ∧
  (∀ (t : Nat) (i : Nat) (s : State) (a : State),
    a = s.advance t → a.islUsed i = true → (a.island i).on = true → (a.island i).above = false →
    (a.island i).cmdAt + a.n (Pid.dsBlank i) * 1000 ≤ a.now →
    exec (.gateNotOn t i) s = .next ((((a.bump (Pid.plateauCount i)).detect i 5).legFault (legOfIsl i) 3 i []).showSw i)) ∧
  (∀ (t : Nat) (i : Nat) (s : State) (n : Nat) (a : State),
    a = s.advance t → (a.island i).offAt = some n → a.islUsed i = true → (a.island i).on = false →
    (a.island i).offConf = false → (a.island i).soft = none → n + 2 * psUs ≤ a.now →
    bitAt (a.island i).flags 10 = false →
    exec (.gateNotOff t i) s = .next (((a.chgIsl i fun x => { x with flags := x.flags + 1024 }).legFault (legOfIsl i) 0x0B i []).showSw i)) ∧
  (∀ (t : Nat) (i : Nat) (s : State) (a : State),
    a = s.advance t → a.islUsed i = true → (a.island i).keepAt ≠ 0 → (a.island i).wdExpired = false →
    (a.island i).keepAt + (a.wdTimes i).1 ≤ a.now →
    exec (.islandWatchdogExpiry t i) s = .next ((((a.islDown i).chgIsl i fun x => { x with wdExpired := true }).bump (Pid.wdCount i)).showSw i)) ∧
  (∀ (t : Nat) (i : Nat) (s : State) (a : State),
    a = s.advance t → a.islUsed i = true → a.ref.lockedTo ≠ none → (a.island i).lost = false →
    exec (.islandLost t i) s = .next (((a.chgIsl i fun x => { x with lost := true }).legFault (legOfIsl i) 9 i []).showSw i)) ∧
  (∀ (t : Nat) (i : Nat) (vpLow : Bool) (vnLow : Bool) (s : State) (a : State),
    a = s.advance t → (vpLow = true ∨ vnLow = true) →
    exec (.islandUndervoltage t i vpLow vnLow) s = .next (
      let is := (supplyOf i).filter a.islUsed
      let entering := is.filter fun j => decide ((a.island j).uv = 0)
      let faults := (is.filter fun j => a.bit (Pid.legOut (legOfIsl j)) 4).map fun j => (legOfIsl j, 8, j)
      let quiet := entering.filter fun j => !a.bit (Pid.legOut (legOfIsl j)) 4
      let b := a.each is fun b j => b.modIsl j fun x => { x with uv := b01 (vpLow || bitAt x.uv 0) + 2 * b01 (vnLow || bitAt x.uv 1) }
      let b := b.legFaults faults []
      let b := b.each is fun b j => (b.islDown j).showSw j
      b.each quiet fun b j => (b.raise 0x1603 j (if vpLow then 1 else 2)).bump (Pid.uvloCount j))) ∧
  (∀ (t : Nat) (i : Nat) (s : State) (a : State),
    a = s.advance t →
    exec (.islandSupplyRecover t i) s = .next (a.each ((supplyOf i).filter a.islUsed) fun b j => (b.chgIsl j fun x => { x with uv := 0, lost := false }).showSw j))

/-- Leg faults, trip inputs, clears and self-tests: where each command completes, and its next state. LEG_FAULT_RUN_END 10 µs after
the run began decides between derated operation and a stop; TRIP_INPUT_ASSERT of an assigned input not yet low shows the level,
counts, raises 0x1707 and stops its ports (softly for trip_action 0x1; a port already stopped records its phases);
TRIP_INPUT_RELEASE clears the level; a PROT_CLEAR for which no refuse code of R275 applies is accepted with 0x0705 kind 1;
AUTO_CLEAR when due counts its try and clears with kind 2 when nothing refuses it; AUTO_WINDOW_AGE_OUT keeps the tries of the
last auto_window; an accepted IST_CMD starts the test and IST_COMPLETE judges it. A request of a role needs the role, room in
Q-LOG where it is logged, and no partner that must carry it out too (R324); it leaves its log entry. Every clause: for every
state s and all operands, with a = s.advance t the state at the command's instant, under hypotheses on a and the operands alone,
exec answers exactly the next state shown (so what it leaves unchanged is stated too). Operands are the model's (logs 1, 2). -/
def Obligations.CompletesProtection : Prop :=
  (∀ (t : Nat) (p : Nat) (s : State) (n : Nat) (a : State),
    a = s.advance t → (a.port p).runFrom = some n → n + 10 * psUs ≤ a.now →
    exec (.legFaultRunEnd t p) s = .next (a.legDecision p)) ∧
  (∀ (t : Nat) (n : Nat) (s : State) (a : State),
    a = s.advance t → n < 8 → a.n (Pid.tripPorts n) ≠ 0 → a.n (Pid.tripLevel n) ≠ 1 →
    exec (.tripInputAssert t n) s = .next (
      let b := (a.setN (Pid.tripLevel n) 1).bump (Pid.tripInCount n)
      let b := b.raise 0x1707 n (b.stamp.toNat * 2 ^ 32 + b.n (Pid.tripPorts n))
      b.each (b.usedPorts.filter fun p => b.bit (Pid.tripPorts n) p) fun b p => (if (b.port p).stopped then b.recordPhases p else b.protStop p 5 (decide (b.n (Pid.tripAction n) = 1))).protSources p)) ∧
  (∀ (t : Nat) (n : Nat) (s : State) (a : State),
    a = s.advance t → n < 8 → a.n (Pid.tripPorts n) ≠ 0 →
    exec (.tripInputRelease t n) s = .next (
      let b := a.setN (Pid.tripLevel n) 0
      b.each b.usedPorts fun b p => b.protSources p)) ∧
  (∀ (t : Nat) (req : Requester) (p : Nat) (v : Word) (s : State) (a : State),
    a = s.advance t → (a.port p).used = true → a.clearCode req p v = 0 → a.reqOk req .operator = true →
    (a.n Pid.pairState ≠ 1 ∨ a.forwards (Pid.protClear p) = false) → a.reqCanNote req (Pid.protClear p) (v) = true →
    exec (.protClear t req p v) s = .next (a.reqNoted req (Pid.protClear p) (v) (a.acceptClear p 1))) ∧
  (∀ (t : Nat) (p : Nat) (s : State) (n : Nat) (a : State),
    a = s.advance t → (a.port p).autoAt = some n → n ≤ a.now →
    (((a.modPort p fun q => { q with tries := a.now :: q.tries, autoAt := none }).autoPrune p).clearCode .auto p 1#32 = 0) →
    exec (.autoClear t p) s = .next (((a.modPort p fun q => { q with tries := a.now :: q.tries, autoAt := none }).autoPrune p).acceptClear p 2)) ∧
  (∀ (t : Nat) (p : Nat) (s : State) (a : State),
    a = s.advance t → (a.port p).used = true →
    exec (.autoWindowAgeOut t p) s = .next (
      let b := a.modPort p fun q => { q with tries := q.tries.filter fun u => a.now < u + a.n (Pid.autoWindow p) * psS }
      b.setN (Pid.autoUsed p) (b.port p).tries.length)) ∧
  (∀ (t : Nat) (role : Role) (i : Nat) (v : Word) (s : State) (a : State),
    a = s.advance t → a.roleOk role .service = true → a.istOk i v = true →
    (a.n Pid.pairState ≠ 1 ∨ a.forwards (Pid.istCmd i) = false) → a.canNote role 2 (Pid.istCmd i) (0) (v) = true →
    exec (.istCmd t role i v) s = .next (a.noted role 2 (Pid.istCmd i) (0) (v) 0 ((a.modIsl i fun x => { x with testing := some a.now }).setN (Pid.istResult i) 0))) ∧
  (∀ (t : Nat) (i : Nat) (bits : Nat) (s : State) (a : State),
    a = s.advance t → (a.island i).testing ≠ none →
    exec (.istComplete t i bits) s = .next (((a.modIsl i fun x => { x with testing := none }).istJudge i bits).showSw i))

/-- Safe inputs, outputs and tests: where each command completes, and its next state. SAFE_INPUT_CHANGE of an SGO input judges a
difference that is due, reports the channel levels and re-evaluates the demands; INPUT_DISCREPANCY after sin_disc_time marks the
input, removes its permissive and is an input fault; INPUT_TEST_PULSE passed clears the miss of its channel and counts, on
channel B missed a first time holds the miss for confirmation, each when due; OUTPUT_OFF_PULSE when due read low clears a miss,
read high a first time holds it, a second time is an output fault; OUTPUT_READBACK_FAULT of a commanded output and
VSO_UNDERVOLTAGE with one commanded are output faults; COIL_CHECK when due judges the coil of a de-energised SBC output and
reports cause 0x0B when bad; HOLDING_TEST_END passes the test with 0x0C29; MIRROR_TIME_EXPIRY with SCC commanded opens it with
0x1C2F when a mirror still shows it open. Every clause: for every state s and all operands, with a = s.advance t the state at
the command's instant, under hypotheses on a and the operands alone, exec answers exactly the next state shown (so what it
leaves unchanged is stated too). Operands are the model's (logs 1, 2). -/
def Obligations.CompletesSafetyInputs : Prop :=
  (∀ (t : Nat) (n : Nat) (ca : Bool) (cb : Bool) (s : State) (b : State) (a : State),
    a = s.advance t → n < 8 → a.sinFn n = .sgo →
    b = (a.modSaf fun f => { f with raw := f.raw.set n (some (ca, cb)) }).discrepant n tiePs → b.sinFn n = .sgo →
    exec (.safeInputChange t n ca cb) s = .next ((b.modSin n fun x => x.read ca cb b.now).safDemands false)) ∧
  (∀ (t : Nat) (n : Nat) (s : State) (d : Nat) (a : State),
    a = s.advance t → (a.sin n).diffAt = some d → a.sinFn n ≠ .unused → a.blockConfirmed = true → (a.sin n).disc ≠ 1 → (a.sin n).disc ≠ 2 →
    d + a.n Pid.sinDiscTime * psMs ≤ a.now →
    exec (.inputDiscrepancy t n) s = .next (((a.modSin n fun x => { x with disc := 1, perm := false, changed := if x.perm then a.now else x.changed }).safDemands false).inputFault n)) ∧
  (∀ (t : Nat) (n : Nat) (chB : Bool) (passed : Bool) (s : State) (a : State),
    a = s.advance t → n < 8 → a.sinFn n ≠ .unused → a.blockConfirmed = true → a.bit Pid.sinTpEn n = true →
    a.dueFrom (.testPulse n chB) ≤ a.now → passed = true →
    exec (.inputTestPulse t n chB passed) s = .next ((a.again (.testPulse n chB) (20 * psMs)).modSin n fun x => if chB then { x with tpMissB := false, tpPassB := x.tpPassB + 1 } else { x with tpMissA := false, tpPassA := x.tpPassA + 1 })) ∧
  (∀ (t : Nat) (n : Nat) (chB : Bool) (passed : Bool) (s : State) (a : State),
    a = s.advance t → n < 8 → a.sinFn n ≠ .unused → a.blockConfirmed = true → a.bit Pid.sinTpEn n = true →
    a.dueFrom (.testPulse n chB) ≤ a.now → passed = false → chB = true → (a.sin n).tpMissB = false →
    exec (.inputTestPulse t n chB passed) s = .next ((a.again (.testPulse n chB) (20 * psMs)).modSin n fun x => { x with tpMissB := true, tpPassB := 0, tpBadB := x.tpBadB || false })) ∧
  (∀ (t : Nat) (k : Nat) (low : Bool) (s : State) (a : State),
    a = s.advance t → k < 6 → (a.sout k).cmd = true → a.dueFrom (.offPulse k) ≤ a.now →
    exec (.outputOffPulse t k low) s = .next (
      let b := a.again (.offPulse k) (20 * psMs)
      if low then b.modSout k fun x => { x with miss := false } else if (a.sout k).miss then b.outFault k fun x => { x with miss := false, stuckOn := true } else b.modSout k fun x => { x with miss := true })) ∧
  (∀ (t : Nat) (k : Nat) (s : State) (a : State),
    a = s.advance t → k < 6 → a.unit.st ≠ .off → (a.sout k).cmd = true →
    exec (.outputReadbackFault t k) s = .next (a.outFault k fun x => { x with stuckOff := true, high := false })) ∧
  (∀ (t : Nat) (s : State) (k : Nat) (a : State),
    a = s.advance t → ((List.range 6).find? (fun k => (a.sout k).cmd) = some k) →
    exec (.vsoUndervoltage t) s = .next (a.outFault k id)) ∧
  (∀ (t : Nat) (k : Nat) (i1 : Nat) (i2 : Nat) (i3 : Nat) (s : State) (a : State),
    a = s.advance t → a.sbcUsed = true → (k = 2 ∨ k = 3) → (a.sout k).cmd = false → a.dueFrom (.coil k) ≤ a.now →
    exec (.coilCheck t k i1 i2 i3) s = .next (
      let lo := a.n Pid.sbcIMin
      let hi := a.n Pid.sbcIMax
      let bad := decide (min (2 * i1 * i3) (9000000 * lo) < i2 * 1000 * lo) || decide (2 * i2 * 1000 * hi < i1 * i3)
      let b := (a.again (.coil k) psS).modSaf fun f => { f with coilOk := f.coilOk.set (k - 2) (!bad) }
      if bad then b.safFaults [(0x0B, k)] else b)) ∧
  (∀ (t : Nat) (s : State) (f : Nat) (a : State),
    a = s.advance t → a.saf.test = some f → f + a.n Pid.sbcHoldTime * psMs ≤ a.now → a.standstill = true →
    exec (.holdingTestEnd t) s = .next (
      let b := a.modSaf fun x => { x with test := none, passAt := some a.now, failed := false }
      (((b.setN Pid.holdTestResult 1).setN Pid.holdTestAge 0).raise 0x0C29 0 ((a.now - f) / psMs)).safApply)) ∧
  (∀ (t : Nat) (s : State) (a : State),
    a = s.advance t → a.sccUsed = true → a.saf.sccAt + a.n Pid.sccMirrorTime * psMs ≤ a.now → a.sccJudged = true →
    a.saf.sccClosed = false → a.saf.sccFail = false → ((a.sin 4).perm = true ∨ (a.sin 5).perm = true) →
    exec (.mirrorTimeExpiry t) s =
      .next (((a.raise 0x1C2F a.openMirror 1).modSaf fun f => { f with sccFail := true }).sccSet false))

/-- Demands, packets, straps, commit and reset of the safety functions: where each command completes, and its next state.
SAFETY_EVALUATION when due outside OFF evaluates read-backs, coils, differences, demands, SCC, SBC and the age of the holding
test and applies; SGO_DEMAND of a present demand not yet noted notes it, holds its onset and applies; STRAP_READ when due with
all lands valid and unchanged shows the pattern, counts the good read and adopts; an accepted SAFETY_COMMIT with good read-back
fuses one commit, writes the record and raises 0x0C31; the first valid SAFETY_PACKET_COPY on an enabled path is counted and
opens the comparison window (no bits in force before, another path enabled); SAFETY_WINDOW_CLOSE when due closes; PACKET_TIMEOUT
when due takes the bits to 0; STATUS_PACKET_SEND when due sends the status packet on every enabled path; a waiting SAFETY_RESET
is refused with its code and 0x1C22, or done. A request of a role needs the role, room in Q-LOG where it is logged, and no
partner that must carry it out too (R324); it leaves its log entry. Every clause: for every state s and all operands, with a =
s.advance t the state at the command's instant, under hypotheses on a and the operands alone, exec answers exactly the next
state shown (so what it leaves unchanged is stated too). Operands are the model's (logs 1, 2). -/
def Obligations.CompletesSafetyFunctions : Prop :=
  (∀ (t : Nat) (differ : Bool) (outs : List (Bool × Nat)) (s : State) (a : State),
    a = s.advance t → a.unit.st ≠ .off → a.dueFrom .safety ≤ a.now →
    exec (.safetyEvaluation t differ outs) s = .next (
      let b := ((a.again .safety psMs).innerEnables).readOutputs outs
      let coil := b.coilBad outs
      let b := b.modSaf fun f => { f with coilOk := if coil = [] then f.coilOk else [false, false] }
      let mir := b.mirrorFaults
      let b := mir.2.safRecognise ((if differ then [(0x0F, 0)] else []) ++ coil ++ mir.1) [] false
      let b := b.sccEval.sbcEval
      let b := match b.saf.passAt with | some u => b.setN Pid.holdTestAge ((b.now - u) / psS) | none => b; b.safApply)) ∧
  (∀ (t : Nat) (cause : Nat) (input : Nat) (s : State) (a : State),
    a = s.advance t → (a.demandNow true).contains (cause, input) = true → a.saf.dem.contains (cause, input) = false →
    exec (.sgoDemand t cause input) s = .next (((a.modSaf fun f => { f with dem := f.dem ++ [(cause, input)] }).safOnset [(cause, input)]).safApply)) ∧
  (∀ (t : Nat) (pattern : Nat) (faulty : Nat) (s : State) (b : State) (a : State),
    a = s.advance t → a.img.loaded = true → a.nativeStraps = true → faulty = 0 → pattern < 65536 →
    a.saf.strapLast = some pattern → a.dueFrom .strap ≤ a.now → b = a.again .strap (100 * psMs) →
    pattern = (if b.saf.inForce then b.n Pid.profileWord else b.saf.blkProfile) →
    exec (.strapRead t pattern faulty) s = .next (((b.setN Pid.strapRead pattern).modSaf fun f => { f with strapLast := some pattern, strapBad := 0, strapOk := f.strapOk + 1, strapEq := f.strapEq + 1 }).adoptProfile)) ∧
  (∀ (t : Nat) (role : Role) (v : Word) (readbackOk : Bool) (s : State) (a : State),
    a = s.advance t → v.toNat = 1 → a.commitCode = 0 → readbackOk = true → a.roleOk role .commissioner = true →
    (a.n Pid.pairState ≠ 1 ∨ a.forwards Pid.safetyCommit = false) → a.canNote role 2 (Pid.safetyCommit) (0) (v) = true →
    exec (.safetyCommit t role v readbackOk) s = .next (a.noted role 2 (Pid.safetyCommit) (0) (v) 0 (let b := a.setN Pid.safetyCommitsLeft (a.n Pid.safetyCommitsLeft - 1); let b := { b with fram := { b.fram with safety := (b.saf.blkProfile, b.saf.blkCrc) } }; (b.raise 0x0C31 0 (b.saf.blkProfile * 2 ^ 32 + b.saf.blkCrc)).adoptProfile))) ∧
  (∀ (t : Nat) (path : Nat) (bytes : List Byte) (s : State) (a : State),
    a = s.advance t → a.paths.contains path = true → a.unit.st ≠ .off → a.copyValid bytes = true → a.saf.win = none →
    a.saf.closedSeq = none → a.saf.lastSeq = none → a.saf.cmd = none →
    (((a.bump (Pid.spRxCount path)).paths.all fun q => q = path) = false) →
    exec (.safetyPacketCopy t path bytes) s = .next ((a.bump (Pid.spRxCount path)).modSaf fun f => { f with win := some (a.now, [(path, bytes)]) })) ∧
  (∀ (t : Nat) (s : State) (a : State),
    a = s.advance t → a.windowDue 0 = true →
    exec (.safetyWindowClose t) s = .next (a.windowClose)) ∧
  (∀ (t : Nat) (s : State) (a : State),
    a = s.advance t → a.packetDue 0 = true →
    exec (.packetTimeout t) s = .next (
      let b := ((a.modSaf fun f => { f with timer := none, await := if f.await.contains 5 then f.await else 5 :: f.await }).bump Pid.spTimeoutCount).raise 0x6C28 0 (a.saf.lastSeq.getD 0)
      ((b.holdAbort 1).safFaults [(5, 0)]).setCmd 0 0 true)) ∧
  (∀ (t : Nat) (s : State) (b : State) (a : State),
    a = s.advance t → a.paths ≠ [] → a.unit.st ≠ .off → a.dueFrom .status ≤ a.now →
    b = a.again .status (a.n Pid.spPeriod * psMs) →
    exec (.statusPacketSend t) s = .next (
      let seq := (b.saf.txSeq + 1) % 2 ^ 32
      let bits := b.statusBits
      let pkt := packetBytes 2 (b.n Pid.spConnId) seq (b.saf.lastSeq.getD 0) bits
      let c := (b.modSaf fun f => { f with txSeq := seq, status := pkt }).setN Pid.spTxOut bits
      c.each c.paths fun c q => if q < 2 then c.udpSend q (c.n (Pid.spPeer q)) 40961 40961 pkt else (c.canSubmit (q - 2) { id := c.n Pid.spCanTxId, fd := true, data := pkt } .safety).2)) ∧
  (∀ (t : Nat) (source : Nat) (s : State) (a : State),
    a = s.advance t → source = 1 → a.saf.resetIn = true →
    ((a.modSaf fun f => { f with resetIn := false, resetPkt := f.resetPkt }).resetCode 1 = 0) →
    exec (.safetyReset t source) s = .next ((a.modSaf fun f => { f with resetIn := false, resetPkt := f.resetPkt }).doReset 1)) ∧
  (∀ (t : Nat) (source : Nat) (s : State) (c : Nat) (a : State),
    a = s.advance t → source = 2 → a.saf.resetPkt = true →
    ((a.modSaf fun f => { f with resetIn := f.resetIn, resetPkt := false }).resetCode 2 = c) → c ≠ 0 →
    exec (.safetyReset t source) s = .next (((a.modSaf fun f => { f with resetIn := f.resetIn, resetPkt := false }).setN Pid.resetRefuse c).raise 0x1C22 0 (2 * 256 + c)))

/-- The standby pair: where each command completes, and its next state. PAIR_FRAME_RECEIVE with the pair on takes a valid frame by
its kind and state and counts an invalid one as a frame error; PAIR_ANNOUNCE when due outside a formed pair sends the
announcement; MISMATCH_REPEAT after 10 s raises 0x1D41 again; LEASE_MARK_RECEIVE in STANDBY renews and writes the alignment
error; RENEWAL_UNCONFIRMED_LIMIT 16 periods after the last renewal drops the biscuit with cause 6 and enters FAULT-HOLD;
LEASE_EXPIRY_TAKEOVER 18 periods after the last renewal and BISCUIT_TAKE at the first permitted update point after a release
take the biscuit; an accepted PAIR_SOLO makes the unit holder, an accepted PAIR_HANDOVER announces the give-up with cause 5;
STANDBY_ISLAND_TEST when due judges the next used island; STANDBY_HEALTH_TIMEOUT makes the standby unfit for reason 4;
PAIR_FRAME_SILENCE raises 0x1D44 once. A request of a role needs the role, room in Q-LOG where it is logged, and no partner that
must carry it out too (R324); it leaves its log entry. Every clause: for every state s and all operands, with a = s.advance t
the state at the command's instant, under hypotheses on a and the operands alone, exec answers exactly the next state shown (so
what it leaves unchanged is stated too). Operands are the model's (logs 1, 2). -/
def Obligations.CompletesPair : Prop :=
  (∀ (t : Nat) (bytes : List Byte) (image : List OuterImage) (forwarded : List (Nat × Word × Nat)) (s : State) (a : State),
    a = s.advance t → a.pairOn = true → frameValid bytes = true →
    exec (.pairFrameReceive t bytes image forwarded) s = .next (
      let b := a.modPair fun q => { q with heardAt := some a.now, prevSeq := q.frameSeq, frameSeq := leAt bytes 4 4, silenceTold := false }
      match leAt bytes 0 1, b.n Pid.pairState with | 1, 2 => b.holderIn bytes image forwarded | 2, 1 => forwarded.foldl State.itemIn (b.standbyIn bytes) | 3, _ => b.announceIn bytes | _, _ => b)) ∧
  (∀ (t : Nat) (bytes : List Byte) (image : List OuterImage) (forwarded : List (Nat × Word × Nat)) (s : State) (a : State),
    a = s.advance t → a.pairOn = true → frameValid bytes = false →
    exec (.pairFrameReceive t bytes image forwarded) s = .next (a.bump Pid.frameErrCount)) ∧
  (∀ (t : Nat) (bytes : List Byte) (image : List OuterImage) (forwarded : List (Nat × Word × Nat)) (s : State) (a : State),
    a = s.advance t → a.pairOn = false → frameValid bytes = true →
    exec (.pairFrameReceive t bytes image forwarded) s = .next (a.modPair fun q => { q with heardAt := some a.now })) ∧
  (∀ (t : Nat) (s : State) (a : State),
    a = s.advance t → a.pairOn = true → (a.pair.holds = true ∨ a.unit.st.mayHold = true) → a.n Pid.pairState ≠ 1 →
    a.n Pid.pairState ≠ 2 → a.dueFrom .pairAnnounce ≤ a.now →
    exec (.pairAnnounce t) s = .next (
      let b := a.again .pairAnnounce psMs
      b.modPair fun q => { q with sent := b.announceFrame })) ∧
  (∀ (t : Nat) (s : State) (m : Nat) (a : State),
    a = s.advance t → (a.pair.mismatchAt = some m) → a.n Pid.pairState = 4 → m + 10 * psS ≤ a.now → a.annSilent = false →
    exec (.mismatchRepeat t) s = .next (
      let b := a.modPair fun q => { q with mismatchAt := some a.now }; b.raise 0x1D41 0 (b.n Pid.mismatchReason))) ∧
  (∀ (t : Nat) (errPs : Int) (s : State) (a : State),
    a = s.advance t → a.pairOn = true → a.pair.holds = false → a.unit.st = .standby →
    (a.eng.running = false ∨ a.now + a.innerTicks * tickPs / 2 ≤ a.periodEnd) →
    exec (.leaseMarkReceive t errPs) s = .next (
      let b := a.modPair fun q => { q with heardAt := some a.now }
      let c := (b.renewed (b.n Pid.periodSeq)).setZ Pid.alignErr errPs
      { c with eng := { c.eng with trim := markTrim errPs } })) ∧
  (∀ (t : Nat) (errPs : Int) (s : State) (a : State),
    a = s.advance t → a.pairOn = true → a.pair.holds = false → a.unit.st = .standby → a.eng.running = true →
    a.periodEnd < a.now + a.innerTicks * tickPs / 2 →
    exec (.leaseMarkReceive t errPs) s = .next (a.modPair fun q => { q with heardAt := some a.now, early := some errPs })) ∧
  (∀ (t : Nat) (s : State) (a : State),
    a = s.advance t → a.pair.holds = true → seqAhead (a.n Pid.periodSeq) (a.n Pid.leaseRenewed) 16 = true →
    exec (.renewalUnconfirmedLimit t) s = .next ((a.dropBiscuit 6 (a.n Pid.leaseRenewed + 15)).holdNow 0x1D42)) ∧
  (∀ (t : Nat) (s : State) (a : State),
    a = s.advance t → a.unit.st = .standby → seqAhead (a.n Pid.periodSeq) (a.n Pid.leaseRenewed) 18 = true →
    exec (.leaseExpiryTakeover t) s = .next (a.takeBiscuit (seqDiff (a.n Pid.periodSeq) (a.n Pid.leaseRenewed)))) ∧
  (∀ (t : Nat) (s : State) (f : Nat) (m : Nat) (a : State),
    a = s.advance t → a.pair.release = some (f, m) → a.unit.st = .standby → seqAhead (a.n Pid.periodSeq) f 2 = true →
    m + 100000 < a.eng.tickAt →
    exec (.biscuitTake t) s = .next (a.takeBiscuit (seqDiff (a.n Pid.periodSeq) f - 1))) ∧
  (∀ (t : Nat) (role : Role) (v : Word) (s : State) (a : State),
    a = s.advance t → a.roleOk role .commissioner = true → a.soloOk v = true →
    a.canNote role 2 (Pid.pairSolo) (0) (v) = true →
    exec (.pairSolo t role v) s = .next (a.noted role 2 (Pid.pairSolo) (0) (v) 0 (((a.modPair fun q => { q with holds := true, mismatchAt := none }).setN Pid.pairState 3).setN Pid.leaseRenewed (a.n Pid.periodSeq)))) ∧
  (∀ (t : Nat) (role : Role) (v : Word) (s : State) (a : State),
    a = s.advance t → a.roleOk role .commissioner = true → a.handoverOk v = true →
    a.canNote role 2 (Pid.pairHandover) (0) (v) = true →
    exec (.pairHandover t role v) s = .next (a.noted role 2 (Pid.pairHandover) (0) (v) 0 (a.announceGiveUp 5 a.outerEndSeq))) ∧
  (∀ (t : Nat) (bits : Nat) (s : State) (a : State),
    a = s.advance t → a.unit.st = .standby → a.usedIsls ≠ [] → a.dueFrom .islandTest ≤ a.now →
    exec (.standbyIslandTest t bits) s = .next (
      let i := a.usedIsls.getD (a.pair.testIdx % a.usedIsls.length) 0
      let b := (a.again .islandTest (100 * psMs)).modPair fun q => { q with testIdx := q.testIdx + 1 }
      let b := (b.istJudge i bits).showSw i
      if b.n (Pid.istResult i) % 32 ≠ 0 then b.setUnfit 1 true else b)) ∧
  (∀ (t : Nat) (s : State) (a : State),
    a = s.advance t → a.n Pid.pairState = 1 → a.pair.reportAt + 3 * psS ≤ a.now →
    exec (.standbyHealthTimeout t) s = .next (a.setUnfit 4 true)) ∧
  (∀ (t : Nat) (s : State) (a : State),
    a = s.advance t → (a.n Pid.pairState = 1 ∨ a.n Pid.pairState = 2) → a.pair.silenceTold = false →
    seqAhead (a.n Pid.periodSeq) a.pair.frameSeq 16 = true →
    exec (.pairFrameSilence t) s = .next ((a.modPair fun q => { q with silenceTold := true }).raise 0x1D44 0 a.pair.frameSeq))

/-- Rail, slack, ladder and ageing: where each command completes, and its next state. RAIL_WINDOW_END after its 1 ms outside
SELF-TEST with a minimum below target − 20 ns and no emergency raises the rail by 2.5 mV up to rail_max and counts; with 1,000
good windows in a row it lowers the rail by 2.5 mV down to 720 mV. RAIL_READBACK_FAULT of more than 10 mV raises 0x5D0E and
enters FAULT-HOLD. PROOFER_SECOND in a new second closes the second, judges its minimum where there is one and reports.
LADDER_CHANGE at an outer boundary takes, in order, every pending rung whose wait is over. An accepted LADDER_CMD_RUNG and
LADDER_RESTORE make their rung pending where it is not yet. DATED_WARNING_REPEAT after 24 h raises the warning again. PROOFER_HOUR after 3,600 s outside OFF
counts the hour and updates ring, forecast, ageing and derating. VCE_MEASUREMENT of a used switch that is on stores the raw
value, counts and sums the corrected one. An accepted VCE_REBASE clears the port's baselines and sets derate to 1.0. A request
of a role needs the role, room in Q-LOG where it is logged, and no partner that must carry it out too (R324); it leaves its log
entry. Every clause: for every state s and all operands, with a = s.advance t the state at the command's instant, under
hypotheses on a and the operands alone, exec answers exactly the next state shown (so what it leaves unchanged is stated too).
Operands are the model's (logs 1, 2). -/
def Obligations.CompletesProofer : Prop :=
  (∀ (t : Nat) (s : State) (m : Int) (a : State),
    a = s.advance t → a.prf.winAt + psMs ≤ a.now → a.unit.st ≠ .selfTest → a.prf.winMin = some m →
    m < a.z Pid.slackTarget - 20000 → a.prf.winEmergency = false → a.n Pid.railNow < a.n Pid.railMax →
    exec (.railWindowEnd t) s = .next (
      let b := { a with prf := { a.prf with winAt := a.prf.winAt + (a.now - a.prf.winAt) / psMs * psMs, winMin := none, winEmergency := false, goodWins := 0 } }
      (b.setRail (min (b.n Pid.railMax) (b.n Pid.railNow + 2500))).bump Pid.railStepCount)) ∧
  (∀ (t : Nat) (s : State) (m : Int) (a : State),
    a = s.advance t → a.prf.winAt + psMs ≤ a.now → a.unit.st ≠ .selfTest → a.prf.winMin = some m →
    a.z Pid.slackTarget + 20000 < m → a.prf.winEmergency = false → 999 ≤ a.prf.goodWins →
    exec (.railWindowEnd t) s = .next ({ a with prf := { a.prf with winAt := a.prf.winAt + (a.now - a.prf.winAt) / psMs * psMs, winMin := none, winEmergency := false, goodWins := 0 } }.setRail (max 720000 (a.n Pid.railNow - 2500)))) ∧
  (∀ (t : Nat) (uV : Nat) (s : State) (a : State),
    a = s.advance t → 10000 < ((uV : Int) - a.n Pid.railNow).natAbs →
    exec (.railReadbackFault t uV) s = .next ((a.raise 0x5D0E 0 (a.n Pid.railNow * 2 ^ 32 + min uV 0xFFFFFFFF)).enterFaultHold 0x5D0E)) ∧
  (∀ (t : Nat) (s : State) (a : State),
    a = s.advance t → a.intSec ≠ a.prf.secNo →
    exec (.prooferSecond t) s = .next (
      match a.prf.secMin with | none => a.secondClose.secondReport | some m => (a.secondClose.secondJudge m).secondReport)) ∧
  (∀ (t : Nat) (s : State) (a : State),
    a = s.advance t → a.eng.outerIdx = 0 →
    exec (.ladderChange t) s = .next (
      let due := a.prf.pendRungs.filter fun r => decide (r.2 = 0)
      let b := { a with prf := { a.prf with pendRungs := a.prf.pendRungs.filter fun r => decide (r.2 ≠ 0) } }
      due.foldl (fun b r => match r.1 with | .two => b.takeTwo | .three c => b.takeThree c | .four c => b.takeFour c | .restore => b.ladderRestore) b)) ∧
  (∀ (t : Nat) (role : Role) (v : Word) (s : State) (a : State),
    a = s.advance t → a.roleOk role .commissioner = true → a.ladderCmdOk v = true →
    a.canNote role 2 (Pid.ladderCmd) (0) (v) = true →
    a.prf.pendRungs.any (fun e => sameRung e.1 (if v.toNat = 3 then .three true else .four true)) = false →
    (a.n Pid.pairState ≠ 1 ∨ a.forwards Pid.ladderCmd = false) →
    exec (.ladderCmdRung t role v) s = .next (a.noted role 2 (Pid.ladderCmd) (0) (v) 0 ({ a with prf := { a.prf with pendRungs := a.prf.pendRungs ++ [(if v.toNat = 3 then .three true else .four true, if a.n Pid.pairState = 1 ∨ a.n Pid.pairState = 2 then 2 else 1)] } }))) ∧
  (∀ (t : Nat) (role : Role) (s : State) (a : State),
    a = s.advance t → ((a.usedPorts.all fun p => (a.port p).st.atRest) = true) → a.roleOk role .commissioner = true →
    a.canNote role 2 (Pid.ladderCmd) (0) (0x10) = true →
    a.prf.pendRungs.any (fun e => sameRung e.1 .restore) = false →
    (a.n Pid.pairState ≠ 1 ∨ a.forwards Pid.ladderCmd = false) →
    exec (.ladderRestore t role) s = .next (a.noted role 2 (Pid.ladderCmd) (0) (0x10) 0 ({ a with prf := { a.prf with pendRungs := a.prf.pendRungs ++ [(.restore, if a.n Pid.pairState = 1 ∨ a.n Pid.pairState = 2 then 2 else 1)] } }))) ∧
  (∀ (t : Nat) (s : State) (n : Nat) (a : State),
    a = s.advance t → a.prf.datedAt = some n → n + 86400 * psS ≤ a.now →
    exec (.datedWarningRepeat t) s = .next (
      let b := { a with prf := { a.prf with datedAt := some a.now } }
      b.raise 0x1D08 0 (a.fcSeconds * 2 ^ 32 + a.n Pid.fcFloorHours))) ∧
  (∀ (t : Nat) (s : State) (a : State),
    a = s.advance t → a.unit.st ≠ .off → a.prf.hourAt + 3600 * psS ≤ a.now →
    exec (.prooferHour t) s = .next (
      let c := { a with prf := { a.prf with hourAt := a.prf.hourAt + 3600 * psS } }
      let b := ((c.setN Pid.powerOnHours (c.n Pid.powerOnHours + 1)).hourRing).forecast
      (b.each b.usedIsls State.vceHour).each b.usedPorts State.derateHour)) ∧
  (∀ (t : Nat) (sw : Nat) (raw : Nat) (i : Int) (s : State) (T : Int) (a : State),
    a = s.advance t → a.swTemp sw = some T → a.islUsed sw = true → (a.island sw).on = true →
    (a.prf.sw.getD sw {}).lastAt = none → a.bit (Pid.legProt (legOfIsl sw)) 0 = false → 40265318 ≤ i.natAbs →
    i.natAbs ≤ 93952410 →
    exec (.vceMeasurement t sw raw i) s = .next (
      let b := (a.setN (Pid.vceRaw sw) (min raw 65535)).bump (Pid.vceCount sw)
      b.modVce sw fun x => { x with sum := x.sum + vCorr raw i T (a.n Pid.vceTref) (a.n Pid.vceAlpha), n := x.n + 1, lastAt := some a.now })) ∧
  (∀ (t : Nat) (role : Role) (p : Nat) (v : Word) (s : State) (a : State),
    a = s.advance t → a.roleOk role .commissioner = true → a.rebaseOk p v = true →
    (a.n Pid.pairState ≠ 1 ∨ a.forwards (Pid.vceRebase p) = false) →
    a.canNote role 2 (Pid.vceRebase p) (0) (v) = true →
    exec (.vceRebase t role p v) s = .next (a.noted role 2 (Pid.vceRebase p) (0) (v) 0 (a.doRebase p)))

/-- Lattice cycles, forces, exchange and remote stations: where each command completes, and its next state. LATTICE_CYCLE_START on a
cycle boundary not yet taken with Lattice running and idle shows the cycle length and starts the cycle; while the last execution
still runs it counts an overrun and a loss of Q-LAT and raises 0x1060 once. LATTICE_EXECUTION_END within the watchdog time shows
the execution time, applies block calls, variables and the results of the arithmetic cases and writes the outputs; LATTICE_WATCHDOG beyond it
stops Lattice. A Service LATTICE_FORCE or LATTICE_UNFORCE of an accepted word forces or unforces; LAT_FLAGS_CLEAR of 0 clears
lat_flags. LAT_ACTIVATE that nothing refuses makes the exchange pending, PROGRAM_EXCHANGE at the boundary with a good CRC makes
it. An operational HEARTBEAT_RECEIVE of a station not seen is taken and raises 0x0168; HEARTBEAT_TIMEOUT loses the station with
cause 1; TPDO_RECEIVE 1 of enough bytes stores the digital inputs. A request of a role needs the role, room in Q-LOG where it is
logged, and no partner that must carry it out too (R324); it leaves its log entry. Every clause: for every state s and all
operands, with a = s.advance t the state at the command's instant, under hypotheses on a and the operands alone, exec answers
exactly the next state shown (so what it leaves unchanged is stated too). Operands are the model's (logs 1, 2). -/
def Obligations.CompletesLattice : Prop :=
  (∀ (t : Nat) (di : Nat) (s : State) (b : State) (a : State),
    a = s.advance t → a.lat.may = true → a.n Pid.latState = 1 → a.ref.lockedTo ≠ none →
    b = a.setN Pid.latCycleM a.latM → b.n Pid.periodSeq % b.latM = 0 → b.lat.tick ≠ some b.eng.count →
    b.lat.busy = false →
    exec (.latticeCycleStart t di) s = .next (b.latStart di)) ∧
  (∀ (t : Nat) (di : Nat) (s : State) (b : State) (a : State),
    a = s.advance t → a.lat.may = true → a.n Pid.latState = 1 → a.ref.lockedTo ≠ none →
    b = a.setN Pid.latCycleM a.latM → b.n Pid.periodSeq % b.latM = 0 → b.lat.tick ≠ some b.eng.count →
    b.lat.busy = true →
    exec (.latticeCycleStart t di) s = .next (
      let c := ((b.modLat fun x => { x with tick := some b.eng.count }).bump Pid.latOverrunCount).qLost 0x18
      if c.lat.overTold then c else (c.raise 0x1060 0 (min (usOf (c.now - c.lat.startAt)) 0xFFFFFFFF)).modLat fun x => { x with overTold := true })) ∧
  (∀ (t : Nat) (out : LatOut) (s : State) (a : State),
    a = s.advance t → a.lat.busy = true → a.n Pid.latState = 1 → a.now - a.lat.startAt ≤ a.n Pid.latWd * psMs →
    exec (.latticeExecutionEnd t out) s = .next (
      let b := (a.setN Pid.latExecLast a.latExec).setN Pid.latExecMax (max a.latExec (a.n Pid.latExecMax))
      let b := b.latCalls out.calls
      let b := b.modLat fun x => { x with busy := false, vars := x.vars.map fun v => (v.1, ((out.vars.reverse.find? fun w => w.1 = v.1).getD v).2) }
      (out.arith.foldl State.latArith b).outputWrite out)) ∧
  (∀ (t : Nat) (s : State) (a : State),
    a = s.advance t → a.lat.busy = true → a.n Pid.latState = 1 → a.n Pid.latWd * psMs < a.now - a.lat.startAt →
    exec (.latticeWatchdog t) s = .next (a.latStop)) ∧
  (∀ (t : Nat) (role : Role) (v : Word) (s : State) (a : State),
    a = s.advance t → forceWordOk v 1 = true → a.latForceOk v = true → a.roleOk role .service = true →
    (a.n Pid.pairState ≠ 1 ∨ a.forwards (Pid.latForce) = false) → a.canNote role 2 (Pid.latForce) (0) (v) = true →
    exec (.latticeForce t role v) s = .next (a.noted role 2 (Pid.latForce) (0) (v) 0 (a.force (v.toNat / 256 % 4) (v.toNat % 256)))) ∧
  (∀ (t : Nat) (role : Role) (v : Word) (s : State) (a : State),
    a = s.advance t → a.roleOk role .service = true → forceWordOk v 0 = true →
    (a.n Pid.pairState ≠ 1 ∨ a.forwards (Pid.latForce) = false) → a.canNote role 2 (Pid.latForce) (0) (v) = true →
    exec (.latticeUnforce t role v) s = .next (a.noted role 2 (Pid.latForce) (0) (v) 0 (a.unforce (v.toNat / 256 % 4) (v.toNat % 256)))) ∧
  (∀ (t : Nat) (role : Role) (v : Word) (s : State) (a : State),
    a = s.advance t → role.meets .service = true → v = 0 →
    a.canNote role 1 Pid.latFlags (a.w Pid.latFlags) v = true →
    exec (.latFlagsClear t role v) s = .next (a.noted role 1 Pid.latFlags (a.w Pid.latFlags) v 0 (a.setN Pid.latFlags 0))) ∧
  (∀ (t : Nat) (role : Role) (v : Word) (s : State) (a : State),
    a = s.advance t → v = 1 → a.activateCode = 0 → a.roleOk role .commissioner = true →
    (a.n Pid.pairState ≠ 1 ∨ a.forwards (Pid.latActivate) = false) →
    a.canNote role 2 (Pid.latActivate) (0) (v) = true →
    exec (.latActivate t role v) s = .next (a.noted role 2 (Pid.latActivate) (0) (v) 0 (a.modLat fun x => { x with pendingX := true }))) ∧
  (∀ (t : Nat) (crcOk : Bool) (s : State) (g : LatProg) (a : State),
    a = s.advance t → a.lat.pendingX = true → a.lat.busy = false → a.lat.bank = some g → crcOk = true →
    exec (.programExchange t crcOk) s = .next (a.exchange g)) ∧
  (∀ (t : Nat) (st : Nat) (state : Nat) (s : State) (a : State),
    a = s.advance t → a.stationOn st = true → a.hbDue st tiePs = false → state = 5 → a.n (Pid.rioState st) = 1 →
    (a.station st).back = false → a.canCode (a.n (Pid.rioCan st) - 1) = 1 →
    exec (.heartbeatReceive t st state) s = .next (
      let b := a.modStation st fun x => { x with lastHb := some a.now }
      (b.modStation st fun x => { x with back := true, gotDi := false, gotAw := false }).raise 0x0168 st (b.n (Pid.rioNode st) * 256))) ∧
  (∀ (t : Nat) (st : Nat) (s : State) (a : State),
    a = s.advance t → a.stationOn st = true → a.hbDue st 0 = true →
    exec (.heartbeatTimeout t st) s = .next (a.stationLost st 1)) ∧
  (∀ (t : Nat) (st : Nat) (n : Nat) (bytes : List Byte) (s : State) (a : State),
    a = s.advance t → n = 1 → a.stationOn st = true → a.n (Pid.rioDiLen st) ≤ bytes.length →
    exec (.tpdoReceive t st n bytes) s = .next (a.modStation st fun x => { x with di := leAt bytes 0 (a.n (Pid.rioDiLen st)), gotDi := a.stationBack st }))

/-- CAN channels: where each command completes, and its next state. CAN_SUBMIT of a data frame to one of the two channels does what
canSubmit says (queue, slot, or refusal). CAN_TX_ATTEMPT_END of the winning offer on an active channel succeeds, fails with or
without acknowledge, or changes nothing on lost arbitration; BUS_OFF_RECOVERY after 128 times 11 recessive bits ends bus-off
with both counters 0 and 0x0442; an accepted CAN_BUSOFF_CMD starts counting; CAN_ERROR_DETECTED on an active channel counts and
raises REC by 1, by 9 for a dominant bit; TIME_REFERENCE_SEND when due of an active time master with nothing pending submits a
reference and moves the sequence on; CAN_FRAME_RECEIVE of a frame of good CRC that began after the channel joined counts, lowers REC and routes, of bad CRC on an
active channel counts and answers with an error frame; CAN_SOURCE_TIMEOUT
after 30 ms raises 0x8447 and makes the source invalid. A request of a role needs the role, room in Q-LOG where it is logged,
and no partner that must carry it out too (R324); it leaves its log entry. Every clause: for every state s and all operands,
with a = s.advance t the state at the command's instant, under hypotheses on a and the operands alone, exec answers exactly the
next state shown (so what it leaves unchanged is stated too). Operands are the model's (logs 1, 2). -/
def Obligations.CompletesCanBus : Prop :=
  (∀ (t : Nat) (ch : Nat) (f : CanFrame) (src : CanSrc) (s : State) (a : State),
    a = s.advance t → ch < 2 → f.rtr = false → a.canCode ch = 1 → (src = .lattice ∨ src = .link) →
    (a.canCh ch).q.length < 32 →
    exec (.canSubmit t ch f src) s = .next ((a.modCan ch fun x => { x with q := x.q ++ [⟨f, src, 0, a.now⟩] }).highWater (0x14 + ch) ((a.canCh ch).q.length + 1))) ∧
  (∀ (t : Nat) (ch : Nat) (f : CanFrame) (src : CanSrc) (s : State) (a : State),
    a = s.advance t → ch < 2 → f.rtr = false → a.canCode ch = 1 → src = .safety → (a.canCh ch).safety = none →
    exec (.canSubmit t ch f src) s = .next (a.modCan ch fun x => { x with safety := some ⟨f, src, 0, a.now⟩ })) ∧
  (∀ (t : Nat) (ch : Nat) (r : CanResult) (durPs : Nat) (s : State) (place : Nat) (e : CanEnt) (a : State),
    a = s.advance t → (a.canCode ch = 1 ∨ a.canCode ch = 2) → ch < 2 → (a.canCh ch).joinAt + durPs ≤ a.now →
    lowestOffer ((a.canCh ch).offers (a.now - durPs)) = some (place, e) →
    exec (.canTxAttemptEnd t ch r durPs) s = .next (
      match r with | .ok => a.canSent ch place e durPs | .ackError d => a.canFailed ch place e true d | .error => a.canFailed ch place e false true | .lostArbitration => a)) ∧
  (∀ (t : Nat) (ch : Nat) (s : State) (n : Nat) (a : State),
    a = s.advance t → (a.canCh ch).busOff = some n → (a.canCh ch).counting = true → a.canCode ch = 3 →
    (a.canCh ch).countFrom + 128 * 11 * a.canBitPs ch ≤ a.now →
    exec (.busOffRecovery t ch) s = .next (
      let b := a.modCan ch fun x => { x with busOff := none, counting := false }
      let b := (b.setN (Pid.canTec ch) 0).setN (Pid.canRec ch) 0
      (b.raise 0x0442 ch (min ((b.now - n) / psUs) 0xFFFFFFFF)).canShow)) ∧
  (∀ (t : Nat) (role : Role) (ch : Nat) (v : Word) (s : State) (a : State),
    a = s.advance t → a.roleOk role .service = true → a.busoffCmdOk ch v = true →
    (a.n Pid.pairState ≠ 1 ∨ a.forwards (Pid.canBusoffCmd ch) = false) →
    a.canNote role 2 (Pid.canBusoffCmd ch) (0) (v) = true →
    exec (.canBusoffCmd t role ch v) s = .next (a.noted role 2 (Pid.canBusoffCmd ch) (0) (v) 0 (a.modCan ch fun x => { x with counting := true, countFrom := a.now }))) ∧
  (∀ (t : Nat) (ch : Nat) (dominant : Bool) (s : State) (a : State),
    a = s.advance t → ch < 2 → (a.canCode ch = 1 ∨ a.canCode ch = 2) → (a.canCh ch).joinAt ≤ a.now →
    exec (.canErrorDetected t ch dominant) s = .next (((a.bump (Pid.canErrCount ch)).modCan ch fun x => { x with errFrame := some a.now }).canCounters ch (a.n (Pid.canTec ch)) (a.n (Pid.canRec ch) + 1 + 8 * b01 dominant))) ∧
  (∀ (t : Nat) (ch : Nat) (s : State) (b c : State) (a : State),
    a = s.advance t → a.trefActive ch = true → a.dueFrom (.tref ch) ≤ a.now → b = a.again (.tref ch) (10 * psMs) →
    (b.canCh ch).trefPending = none →
    b.canSubmit ch (b.trefFrame ch (b.canCh ch).txSeq) .timeMaster = (.accepted, c) →
    exec (.timeReferenceSend t ch) s = .next (c.modCan ch fun x => { x with txSeq := ((b.canCh ch).txSeq + 1) % 256 })) ∧
  (∀ (t : Nat) (ch : Nat) (f : CanFrame) (durPs : Nat) (s : State) (a : State),
    a = s.advance t → ch < 2 → (a.canCode ch = 1 ∨ a.canCode ch = 2 ∨ a.canCode ch = 4) →
    (a.canCh ch).joinAt + durPs ≤ a.now → f.crcOk = true →
    exec (.canFrameReceive t ch f durPs) s = .next (((a.bump (Pid.canRxCount ch)).canRxOk ch).canRoute ch f durPs)) ∧
  (∀ (t : Nat) (ch : Nat) (f : CanFrame) (durPs : Nat) (s : State) (a : State),
    a = s.advance t → ch < 2 → (a.canCode ch = 1 ∨ a.canCode ch = 2) → (a.canCh ch).joinAt + durPs ≤ a.now → f.crcOk = false →
    exec (.canFrameReceive t ch f durPs) s = .next (((a.bump (Pid.canErrCount ch)).modCan ch fun x => { x with errFrame := some a.now }).canCounters ch (a.n (Pid.canTec ch)) (a.n (Pid.canRec ch) + 1))) ∧
  (∀ (t : Nat) (ch : Nat) (s : State) (a : State),
    a = s.advance t → ch < 2 → 2 ≤ (a.canCh ch).pairs → (a.canCh ch).usedAt + 30 * psMs ≤ a.now →
    exec (.canSourceTimeout t ch) s = .next (
      let b := (a.modCan ch fun x => { x with pairs := 0 }).raise 0x8447 ch (a.canCh ch).usedSeq
      (b.modTime fun x => { x with canValid := false }).takeSource))

/-- Internal time and timed outputs: where each command completes, and its next state. HOLDOVER_EXPIRY at its end takes time_state
from 3 to 4; an accepted TIME_STEP makes the pending step with marker 2; a Service TOUT_ARM of 1 sufficiently ahead arms a
one-shot output; TIME_OUT_PULSE at the instant starts a one-shot pulse and shows it fired, or starts a periodic one and moves to
the next; TIME_OUT_PULSE_END ends the pulse. A request of a role needs the role, room in Q-LOG where it is logged, and no
partner that must carry it out too (R324); it leaves its log entry. Every clause: for every state s and all operands, with a =
s.advance t the state at the command's instant, under hypotheses on a and the operands alone, exec answers exactly the next
state shown (so what it leaves unchanged is stated too). Operands are the model's (logs 1, 2). -/
def Obligations.CompletesInternalTime : Prop :=
  (∀ (t : Nat) (s : State) (n : Nat) (a : State),
    a = s.advance t → a.time.heldFrom = some n → a.n Pid.timeState = 3 → n + a.n Pid.timeHoldover * psMs ≤ a.now →
    exec (.holdoverExpiry t) s = .next ((a.modTime fun x => { x with heldFrom := none }).setTimeState 4 1)) ∧
  (∀ (t : Nat) (role : Role) (v : Word) (s : State) (d : Int) (a : State),
    a = s.advance t → v = 1 → a.time.pendNs = some d → a.roleOk role .service = true →
    (a.n Pid.pairState ≠ 1 ∨ a.forwards (Pid.timeStep) = false) → a.canNote role 2 (Pid.timeStep) (0) (v) = true →
    exec (.timeStep t role v) s = .next (a.noted role 2 (Pid.timeStep) (0) (v) 0 (a.timeStepBy d 2))) ∧
  (∀ (t : Nat) (role : Role) (k : Nat) (v : Word) (s : State) (a : State),
    a = s.advance t → a.unit.st.factory = false → k < 4 → v = 1 → a.intNs + 10000 ≤ a.toutStartNs k →
    (a.setW (Pid.toutMode k) 1).toutStartNs k = a.toutStartNs k → a.roleOk role .service = true →
    (a.n Pid.pairState ≠ 1 ∨ a.forwards (Pid.toutMode k) = false) →
    a.canNote role 1 (Pid.toutMode k) (a.w (Pid.toutMode k)) (v) = true →
    exec (.toutArm t role k v) s = .next (a.noted role 1 (Pid.toutMode k) (a.w (Pid.toutMode k)) (v) 0 (((a.setW (Pid.toutMode k) 1).modTout k fun x => { x with armed := true, periodic := false, startNs := a.toutStartNs k, nextNs := a.toutStartNs k }).setN (Pid.toutState k) 1))) ∧
  (∀ (t : Nat) (k : Nat) (s : State) (a : State),
    a = s.advance t → (a.touts k).armed = true → a.timeStopped = false → (a.touts k).nextNs ≤ a.intNs →
    (a.touts k).periodic = false →
    exec (.timeOutPulse t k) s = .next (((a.toutFire k).modTout k fun x => { x with armed := false }).setN (Pid.toutState k) 2)) ∧
  (∀ (t : Nat) (k : Nat) (s : State) (a : State),
    a = s.advance t → (a.touts k).armed = true → a.timeStopped = false → (a.touts k).nextNs ≤ a.intNs →
    (a.touts k).periodic = true →
    exec (.timeOutPulse t k) s = .next ((a.toutFire k).modTout k fun x => { x with nextNs := x.nextNs + (a.toutFire k).n (Pid.toutPeriod k) })) ∧
  (∀ (t : Nat) (k : Nat) (s : State) (n : Nat) (a : State),
    a = s.advance t → (a.touts k).pulseEnd = some n → n ≤ a.now →
    exec (.timeOutPulseEnd t k) s = .next (a.modTout k fun x => { x with pulseEnd := none }))

/-- Ethernet ports and PTP: where each command completes, and its next state. ETH_LINK_UP of a training port shows the link and
raises 0x0552; ETH_LINK_DOWN of a port that is up takes it down; ETH_FRAME_RECEIVE on a port that is up counts and routes a
frame of valid length and FCS and counts another as an error; PTP_SYNC_LOSS drops a grandmaster whose Sync is overdue and
re-selects; PTP_FAILBACK re-selects with preference for ETHA; TXTS_DISCARD drops the stamps older than 10 ms; PDELAY_REQ_SEND
when due sends on every port that is up; GRANDMASTER_SYNC_SEND of a capable unit hearing no other grandmaster sends the Sync and
the Announce that are due on every port as-capable. Every clause: for every state s and all operands, with a = s.advance t the
state at the command's instant, under hypotheses on a and the operands alone, exec answers exactly the next state shown (so what
it leaves unchanged is stated too). Operands are the model's (logs 1, 2). -/
def Obligations.CompletesEthernet : Prop :=
  (∀ (t : Nat) (e : Nat) (s : State) (a : State),
    a = s.advance t → e < 2 → a.n (Pid.ethLink e) = 1 → a.ethMay e = true →
    exec (.ethLinkUp t e) s = .next ((a.setN (Pid.ethLink e) 2).raise 0x0552 e (a.n (Pid.ethRole e)))) ∧
  (∀ (t : Nat) (e : Nat) (s : State) (a : State),
    a = s.advance t → a.ethUp e = true →
    exec (.ethLinkDown t e) s = .next (
      let b := a.setN (Pid.ethLink e) (b01 (a.ethMay e))
      let b := (b.bump (Pid.ethLinkDownCount e)).raise 0x8551 e 0
      let b := b.modEth e fun x => { x with arp := [], ptp := { x.ptp with gm := none, sync := none, syncAt := none, pdWait := false, pdResp := none } }
      (b.setN (Pid.ptpAsCapable e) 0).ptpUpdate false)) ∧
  (∀ (t : Nat) (e : Nat) (fcsOk : Bool) (bytes : List Byte) (s : State) (a : State),
    a = s.advance t → a.ethUp e = true → fcsOk = true → 60 ≤ bytes.length →
    bytes.length ≤ (if beAt bytes 12 2 = 0x8100 then 1518 else 1514) →
    exec (.ethFrameReceive t e fcsOk bytes) s = .next ((a.bump (Pid.ethRxCount e)).ethIn e bytes)) ∧
  (∀ (t : Nat) (e : Nat) (fcsOk : Bool) (bytes : List Byte) (s : State) (a : State),
    a = s.advance t → a.ethUp e = true → (fcsOk = false ∨ bytes.length < 60) →
    exec (.ethFrameReceive t e fcsOk bytes) s = .next (a.bump (Pid.ethRxErrCount e))) ∧
  (∀ (t : Nat) (e : Nat) (s : State) (n : Nat) (a : State),
    a = s.advance t → (a.ptp e).syncAt = some n → n + (a.ptp e).syncPs ≤ a.now →
    exec (.ptpSyncLoss t e) s = .next ((a.modPtp e fun p => { p with gm := none, sync := none, syncAt := none }).ptpUpdate false)) ∧
  (∀ (t : Nat) (s : State) (a : State),
    a = s.advance t → a.n Pid.ptpPort = 2 → a.n Pid.ptpActive = 1 → a.ptpUsable 0 = true →
    (a.ptp 0).gmAt + 10 * psS ≤ a.now →
    exec (.ptpFailback t) s = .next (a.ptpUpdate true)) ∧
  (∀ (t : Nat) (e : Nat) (s : State) (a : State),
    a = s.advance t →
    exec (.txtsDiscard t e) s = .next (a.modPtp e fun p => { p with txts := p.txts.filter fun x => a.now < x.2.2.2 + 10 * psMs })) ∧
  (∀ (t : Nat) (s : State) (a : State),
    a = s.advance t → a.unit.st.factory = false → a.dueFrom .pdelay ≤ a.now →
    exec (.pdelayReqSend t) s = .next (
      let c := a.again .pdelay (logSecPs (a.z Pid.ptpLogPdelay))
      c.each ((List.range 2).filter c.ethUp) fun b e => let b := if (b.ptp e).pdWait then b.setAsCapable e false else b
      let seq := ((b.ptp e).pdSeq + 1) % 65536
      let b := b.modPtp e fun p => { p with pdSeq := seq, pdWait := true, pdResp := none }
      (b.ethSend e (.ptp 2 seq (List.replicate 20 0#8))).txtsPush e 2 seq)) ∧
  (∀ (t : Nat) (s : State) (a : State),
    a = s.advance t → a.gmCapable = true → a.unit.st.factory = false → (a.ptp 0).gm = none → (a.ptp 1).gm = none →
    exec (.grandmasterSyncSend t) s = .next (
      let es := (List.range 2).filter fun e => a.ethUp e && decide (a.n (Pid.ptpAsCapable e) = 1)
      let b := a.recur .sync (logSecPs (a.z Pid.ptpLogSync)) fun b => b.each es State.ptpSync
      b.recur .gmAnnounce psS fun b => b.each es State.sendAnnounce))

/-- Packets, sessions and telemetry of Bergil link: where each command completes, and its next state. A whole datagram with room in
Q-CMD enters it; a sole CAN segment of a packet that fits one segment enters it; a reassembly over 50 ms old is discarded and
counted; BL_PACKET_PROCESS, after the events, takes the packet at the front when fewer than 16 responses wait, and then the telemetry that waited for it;
RESPONSE_SEGMENT_RETRY when due retries every waiting response; a valid SESSION_OPEN of a role that may open is accepted when
fewer than 16 responses wait; SESSION_IDLE at sess_idle with no request of the session waiting, or past it, ends the session
with cause 2; TELEMETRY_SEND, after the events, when due with its own path up sends and moves on; ANNOUNCE_SEND when due with a
domain key sends on every port that is up; PEER_ABSENT marks a silent peer and raises 0x8284; AUDIT_ENTRY_WRITE, after the
events, of an entry that starts no sector and sets no anchor writes it to flash. Every clause: for every state s and all
operands, with a = s.advance t the state at the command's instant, under hypotheses on a and the operands alone, exec answers
exactly the next state shown (so what it leaves unchanged is stated too). Operands are the model's (logs 1, 2). -/
def Obligations.CompletesLinkTransport : Prop :=
  (∀ (t : Nat) (e : Nat) (ip : Nat) (port : Nat) (bytes : List Byte) (s : State) (a : State),
    a = s.advance t → a.ethUp e = true → 32 ≤ bytes.length → bytes.length = 32 + leAt bytes 0xC 2 →
    a.link.cmds.length < 16 →
    exec (.blDatagramReceive t e ip port bytes) s = .next ((a.modLink fun x => { x with cmds := x.cmds ++ [⟨e, ip, port, bytes⟩] }).highWater 0x0F (a.link.cmds.length + 1))) ∧
  (∀ (t : Nat) (ch : Nat) (bytes : List Byte) (s : State) (a : State),
    a = s.advance t → a.blOnCan ch = true → bytes.length = 64 → leAt bytes 0 1 = 0xC0 →
    leAt (bytes.drop 2) 0xC 2 ≤ 30 → a.link.reasm.getD ch none = none → a.link.cmds.length < 16 →
    exec (.blSegmentReceive t ch bytes) s = .next (
      let b := a.setReasm ch none
      (b.modLink fun x => { x with cmds := x.cmds ++ [⟨2 + ch, 0, 0, (bytes.drop 2).take (32 + leAt (bytes.drop 2) 0xC 2)⟩] }).highWater 0x0F (b.link.cmds.length + 1))) ∧
  (∀ (t : Nat) (ch : Nat) (s : State) (r : ReasmSt) (a : State),
    a = s.advance t → a.link.reasm.getD ch none = some r → r.since + 50 * psMs < a.now →
    exec (.blReassemblyTimeout t ch) s = .next ((a.bump Pid.blDropCount).setReasm ch none)) ∧
  (∀ (t : Nat) (ioOk : Bool) (readbackOk : Bool) (s : State) (b : State) (p : CmdPkt) (ps : List CmdPkt) (a : State),
    a = s.advance t → b = a.serveEvents → b.link.cmds = p :: ps → b.rspCredit = true →
    exec (.blPacketProcess t ioOk readbackOk) s = .next (((b.modLink fun l => { l with cmds := ps }).packetIn p ioOk readbackOk).serveTel)) ∧
  (∀ (t : Nat) (s : State) (a : State),
    a = s.advance t → a.dueFrom .segRetry ≤ a.now →
    exec (.responseSegmentRetry t) s = .next (
      let b := a.again .segRetry psMs
      let q := b.link.waiting.foldl (fun q w => q.1.retryOne q.2 w) (b, [])
      q.1.modLink fun l => { l with waiting := q.2 })) ∧
  (∀ (t : Nat) (path : Nat) (ip : Nat) (port : Nat) (bytes : List Byte) (s : State) (r : Role) (key : BitVec 128) (a : State),
    a = s.advance t → a.pathUp path = true → a.rspCredit = true → pktOk bytes = true → leAt bytes 1 1 = 5 →
    roleOf (leAt (pktPayload bytes) 0 1) = some r → a.roleKey r = some key → tagOk key bytes = true →
    leAt bytes 2 2 = 0 → (pktPayload bytes).length = 20 → leAt (pktPayload bytes) 1 3 = 0 → a.openRefused r = false →
    (r.meets .service = false ∨ a.link.log.length + 1 ≤ 32) →
    exec (.sessionOpen t path ip port bytes) s = .next (a.openAccept path ip port (leAt bytes 4 4) r key ((pktPayload bytes).drop 4))) ∧
  (∀ (t : Nat) (sid : Nat) (s : State) (x : SessSt) (a : State),
    a = s.advance t → a.sess? sid = some x → x.lastAt + a.n Pid.sessIdle * psS ≤ a.now →
    (a.now ≠ x.lastAt + a.n Pid.sessIdle * psS ∨ a.requestWaits x = false) →
    exec (.sessionIdle t sid) s = .next (a.endSession sid 2)) ∧
  (∀ (t : Nat) (sid : Nat) (s : State) (b : State) (x : SessSt) (u : SubSt) (a : State),
    a = s.advance t → b = a.serveEvents → b.sess? sid = some x → x.sub = some u →
    u.lastAt + u.period * psMs ≤ b.now → bitAt u.flags 1 = false → b.ethUp x.path = true →
    b.link.tel = [] → b.cmdReady = false →
    exec (.telemetrySend t sid) s = .next (
      let bs := pktBytes 3 0 u.seq sid 0 0 (b.telPayload u) x.krs
      let c := (b.modSess sid fun y => { y with sub := some { u with seq := (u.seq + 1) % 2 ^ 32, backlog := u.backlog.drop 46, lost := false, skipped := 0, lastAt := b.now, mark := b.timeMark } }).highWater 0xE 1
      (c.modLink fun l => { l with tel := [⟨[x.path], sid, x.ip, x.port, bs⟩] }).serveTel)) ∧
  (∀ (t : Nat) (s : State) (key : BitVec 128) (a : State),
    a = s.advance t → a.domainKey = some key → a.n Pid.annPeriod ≠ 0 → a.unit.st.startUp = false →
    a.dueFrom .announce ≤ a.now →
    exec (.announceSend t) s = .next (
      let payload := leBytes 8 a.serial ++ leBytes 1 (a.n Pid.variant) ++ leBytes 1 (a.n Pid.grade) ++ leBytes 1 a.unit.st.code ++ leBytes 1 0 ++ leBytes 4 (a.n Pid.imageId) ++ a.fingerprint ++ leBytes 4 (a.n Pid.pairDigestLo) ++ leBytes 4 (a.n Pid.pairDigestHi) ++ leBytes 8 0
      let bs := pktBytes 4 0 a.link.annSeq 0 0 0 payload key
      let b := (a.again .announce (a.n Pid.annPeriod * psS)).modLink fun l => { l with annSeq := (l.annSeq + 1) % 2 ^ 32 }
      b.each ((List.range 2).filter b.ethUp) fun b e => (b.modLink fun l => { l with sent := some (e, bs) }).udpSend e ipAll 40960 40960 bs)) ∧
  (∀ (t : Nat) (i : Nat) (s : State) (p : PeerSt) (a : State),
    a = s.advance t → a.link.peers[i]? = some p → p.present = true → a.n Pid.annPeriod ≠ 0 →
    p.heardAt + 10 * a.n Pid.annPeriod * psS ≤ a.now →
    exec (.peerAbsent t i) s = .next (((a.modLink fun l => { l with peers := l.peers.modify i fun p => { p with present := false } }).showPeers).raise 0x8284 i p.serial)) ∧
  (∀ (t : Nat) (s : State) (b : State) (e : List Byte) (es : List (List Byte)) (a : State),
    a = s.advance t → b = a.serveEvents → b.link.log = e :: es → b.aboveLog = false → b.n Pid.flashSize ≠ 0 → b.ref.lockedTo ≠ none →
    b.n Pid.auditNext % 16 ≠ 0 →
    exec (.auditEntryWrite t) s = .next (
      let n := b.n Pid.auditNext
      let bs := leBytes 4 n ++ e ++ (if b.link.lastHash = [] then leBytes 32 0 else b.link.lastHash)
      ((b.flashWrite (b.entryAt n) bs).modLink fun l => { l with log := es, lastHash := sha256 bs }).setN Pid.auditNext ((n + 1) % 2 ^ 32)))

/-- Commands of Bergil link that read, write parameters, subscribe and close: where each command completes, and its next state. Of
an open session, with fewer than 16 responses waiting: READ of known identifiers answers status 0 with their values; WRITE by a
role whose writes are not logged, all items good, applies them and answers 0; BULK_READ at offset 0 of a readable target copies
it and answers the slice; SUBSCRIBE to present parameters with free room subscribes; READ_EVENTS answers the records;
CLOSE_SESSION answers and ends the session with cause 1. Every clause: for every state s and all operands, with a = s.advance t
the state at the command's instant, under hypotheses on a and the operands alone, exec answers exactly the next state shown (so
what it leaves unchanged is stated too). Operands are the model's (logs 1, 2). -/
def Obligations.CompletesLinkReads : Prop :=
  (∀ (t : Nat) (sid : Nat) (ids : List Nat) (s : State) (x : SessSt) (a : State),
    a = s.advance t → a.sess? sid = some x → (1 ≤ ids.length ∧ ids.length ≤ 350) →
    (∀ k < ids.length, (findParam a.fourP (ids.getD k 0)).isSome) → a.rspCredit = true →
    exec (.read t sid ids) s = .next (
      let b := a.heard x x.nextSeq
      b.answer x x.path x.ip x.port 1 x.nextSeq 0 (ids.flatMap fun id => leBytes 4 (b.readWord id).toNat) none)) ∧
  (∀ (t : Nat) (sid : Nat) (items : List (Nat × Word)) (s : State) (x : SessSt) (a : State),
    a = s.advance t → a.sess? sid = some x → (1 ≤ items.length ∧ items.length ≤ 175) →
    x.role.meets .service = false → ((items.any fun e => a.loggedId e.1) = false) →
    ((a.heard x x.nextSeq).writeAll x.role true items).bad = none →
    (((a.heard x x.nextSeq).writeAll x.role true items).st.sess? x.sid).isSome → a.rspCredit = true →
    exec (.write t sid items) s = .next (((a.heard x x.nextSeq).writeAll x.role true items).st.answer x x.path x.ip x.port 2 x.nextSeq 0 [] none)) ∧
  (∀ (t : Nat) (sid : Nat) (target : Nat) (offset : Nat) (length : Nat) (s : State) (x : SessSt) (bs : List Byte) (a : State),
    a = s.advance t → a.sess? sid = some x → (1 ≤ length ∧ length ≤ 1392) → offset = 0 →
    (findParam a.fourP target).isSome → crumbOf target = none → target ≠ Pid.auditLog →
    (a.heard x x.nextSeq).bulkTarget target = some bs → a.rspCredit = true →
    exec (.bulkRead t sid target offset length) s = .next (
      let b := (a.heard x x.nextSeq).modSess x.sid fun y => { y with copy := some (target, bs, a.now) }
      b.answer x x.path x.ip x.port 3 x.nextSeq 0 (leBytes 4 bs.length ++ leBytes 4 0 ++ bs.take length) none)) ∧
  (∀ (t : Nat) (sid : Nat) (period : Nat) (flags : Nat) (ids : List Nat) (s : State) (x : SessSt) (a : State),
    a = s.advance t → a.sess? sid = some x → x.path < 2 → (1 ≤ period ∧ period ≤ 1000) → flags < 4 →
    ids.length ≤ 64 → (∀ k < ids.length, (findParam a.fourP (ids.getD k 0)).isSome) →
    (∀ k < ids.length, a.absentPort (ids.getD k 0) = false) →
    ((a.link.sess.filter fun y => y.sid ≠ sid && y.sub.isSome).length < 4) → a.rspCredit = true →
    exec (.subscribe t sid period flags ids) s = .next (
      let b := (a.heard x x.nextSeq).modSess x.sid fun y => { y with sub := some { period := period, flags := flags, ids := ids, lastAt := a.now } }
      b.answer x x.path x.ip x.port 7 x.nextSeq 0 [] none)) ∧
  (∀ (t : Nat) (sid : Nat) (first : Nat) (count : Nat) (s : State) (x : SessSt) (a : State),
    a = s.advance t → a.sess? sid = some x → (1 ≤ count ∧ count ≤ 58) → a.rspCredit = true →
    exec (.readEvents t sid first count) s = .next (
      let b := a.heard x x.nextSeq
      let start := min (max first a.ev.first) (a.ev.first + a.ev.ring.length)
      let rs := (a.ev.ring.drop (start - a.ev.first)).take count
      b.answer x x.path x.ip x.port 8 x.nextSeq 0 (leBytes 4 (start + rs.length) ++ leBytes 4 (a.ev.first - first) ++ rs.flatMap EvRec.bytes) none)) ∧
  (∀ (t : Nat) (sid : Nat) (s : State) (x : SessSt) (a : State),
    a = s.advance t → a.sess? sid = some x → a.rspCredit = true →
    exec (.closeSession t sid) s = .next (
      let b := a.heard x x.nextSeq
      (b.answer x x.path x.ip x.port 0xC x.nextSeq 0 [] none).endSession x.sid 1))

/-- Commands of Bergil link that load slots and banks and fuse: where each command completes, and its next state. Of an open
session, with fewer than 16 responses waiting: BULK_WRITE_BEGIN to a slot that does not run records the load and erases the
slot; BULK_WRITE_DATA in order stores the bytes (the bank's beside the load, a slot's in flash) and counts; BULK_WRITE_END of a
complete bank load with the right digest checks the bank with 0x0287; RE_BIND for the bound serial in READY-UNBOUND is judged by
linkReBind, logged and answered; REPLACE_INTEGRATOR_KEY of an unprogrammed unit in READY-REFUSED by a Commissioner fuses the
fingerprint with 0x0285; RAISE_FLOOR by an Integrator above the floor and not above the image's counter fuses with 0x0286. Every
clause: for every state s and all operands, with a = s.advance t the state at the command's instant, under hypotheses on a and
the operands alone, exec answers exactly the next state shown (so what it leaves unchanged is stated too). Operands are the
model's (logs 1, 2). -/
def Obligations.CompletesLinkChanges : Prop :=
  (∀ (t : Nat) (sid : Nat) (target : Nat) (total : Nat) (digest : List Byte) (s : State) (x : SessSt) (a : State),
    a = s.advance t → a.sess? sid = some x → digest.length = 32 → x.role.meets .commissioner = true → target < 2 →
    (a.img.loaded = false ∨ a.n Pid.bootSlot ≠ target) → a.lat.pendingX = false → a.n Pid.flashSize ≠ 0 →
    total ≤ a.slotBytes → a.link.bulk = none → a.link.log.length + 1 ≤ 32 → a.rspCredit = true →
    exec (.bulkWriteBegin t sid target total digest) s = .next (
      let b := a.heard x x.nextSeq
      let c := b.modLink fun l => { l with bulk := some { sid := x.sid, target := target, total := total, digest := digest, erasing := true, lastAt := a.now } }
      let b := ((c.setN (slotPid target) 1).setN Pid.bulkState (target * 256 + 1)).flashErase (c.slotAt target) c.slotBytes
      (b.logNote ⟨3, x.role.code, x.path, x.ip, x.sid, x.nextSeq, 4, []⟩ 0).answer x x.path x.ip x.port 4 x.nextSeq 0 [] none)) ∧
  (∀ (t : Nat) (sid : Nat) (offset : Nat) (bytes : List Byte) (s : State) (x : SessSt) (k : BulkSt) (a : State),
    a = s.advance t → a.sess? sid = some x → (1 ≤ bytes.length ∧ bytes.length ≤ 1396) →
    x.role.meets .commissioner = true → a.link.bulk = some k → k.sid = sid → k.erasing = false → offset = k.got →
    k.got + bytes.length ≤ k.total → a.rspCredit = true →
    exec (.bulkWriteData t sid offset bytes) s = .next (
      let b := a.heard x x.nextSeq
      let b := if k.target = 0x10 then b else b.flashWrite (b.slotAt k.target + k.got) bytes
      (b.modLink fun l => { l with bulk := some { k with got := k.got + bytes.length, lastAt := a.now, bytes := if k.target = 0x10 then k.bytes ++ bytes else k.bytes } }).answer x x.path x.ip x.port 5 x.nextSeq 0 (leBytes 4 (k.got + bytes.length)) none)) ∧
  (∀ (t : Nat) (sid : Nat) (ioOk : Bool) (s : State) (x : SessSt) (k : BulkSt) (a : State),
    a = s.advance t → a.sess? sid = some x → x.role.meets .commissioner = true → a.link.bulk = some k → k.sid = sid →
    k.erasing = false → k.total ≤ k.got → k.target = 0x10 → sha256 k.bytes = k.digest → a.link.log.length + 1 ≤ 32 →
    a.rspCredit = true →
    exec (.bulkWriteEnd t sid ioOk) s = .next (
      let b := ((a.heard x x.nextSeq).modLink fun l => { l with bulk := none }).setN Pid.bulkState 0
      let g := b.bankCheck k.bytes ioOk
      let st := if g.verified then 3 else 2
      let b := ((b.modLat fun y => { y with bank := some g }).setN Pid.latBankStatus st).raise 0x0287 0x10 st
      (b.logNote ⟨3, x.role.code, x.path, x.ip, x.sid, x.nextSeq, 6, []⟩ 0).answer x x.path x.ip x.port 6 x.nextSeq 0 (leBytes 1 st) none)) ∧
  (∀ (t : Nat) (sid : Nat) (bytes : List Byte) (readbackOk : Bool) (s : State) (x : SessSt) (a : State),
    a = s.advance t → a.sess? sid = some x → bytes.length = 32 → x.role.meets .commissioner = true →
    a.unit.st = .readyUnbound → a.img.boundSerial = leAt bytes 0 8 → a.link.log.length + 1 ≤ 32 →
    a.rspCredit = true →
    exec (.reBind t sid bytes readbackOk) s = .next (
      let r := (a.heard x x.nextSeq).linkReBind (leAt bytes 0 8) (bytes.drop 8) readbackOk
      (r.st.logNote ⟨6, x.role.code, x.path, x.ip, x.sid, x.nextSeq, 9, []⟩ r.status).answer x x.path x.ip x.port 9 x.nextSeq r.status r.payload none)) ∧
  (∀ (t : Nat) (sid : Nat) (bytes : List Byte) (readbackOk : Bool) (s : State) (x : SessSt) (a : State),
    a = s.advance t → a.sess? sid = some x → bytes.length = 96 → x.role = .commissioner → a.unit.st = .readyRefused →
    ((a.fingerprint.all fun b => b = 0) = true) → (((bytes.drop 32).all fun b => b = 0) = true) → readbackOk = true →
    a.link.log.length + 1 ≤ 32 → a.rspCredit = true →
    exec (.replaceIntegratorKey t sid bytes readbackOk) s = .next (
      let fp := sha256 (bytes.take 32)
      let b := ((a.heard x x.nextSeq).setFingerprint fp).raise 0x0285 0 (leAt fp 0 8)
      (b.logNote ⟨6, x.role.code, x.path, x.ip, x.sid, x.nextSeq, 0xA, []⟩ 0).answer x x.path x.ip x.port 0xA x.nextSeq 0 [] none)) ∧
  (∀ (t : Nat) (sid : Nat) (floor : Nat) (readbackOk : Bool) (s : State) (x : SessSt) (a : State),
    a = s.advance t → a.sess? sid = some x → floor < 256 → x.role.meets .integrator = true →
    a.n Pid.rollbackFloor < floor → floor ≤ a.n Pid.imageCounter → a.n Pid.floorStepsLeft ≠ 0 → readbackOk = true →
    a.link.log.length + 1 ≤ 32 → a.rspCredit = true →
    exec (.raiseFloor t sid floor readbackOk) s = .next (
      let b := (a.heard x x.nextSeq).setN Pid.floorStepsLeft (a.n Pid.floorStepsLeft - 1)
      let b := (b.setN Pid.rollbackFloor floor).raise 0x0286 0 (a.n Pid.rollbackFloor * 256 + floor)
      (b.logNote ⟨6, x.role.code, x.path, x.ip, x.sid, x.nextSeq, 0xB, []⟩ 0).answer x x.path x.ip x.port 0xB x.nextSeq 0 [] none))

/-- Bulk writes, locks, events and parameter writes: where each command completes, and its next state. SLOT_ERASE_DONE of an erasing
bulk write opens it for data; BULK_WRITE_TIMEOUT 60 s after the last data aborts it with reason 2; BULK_READ_COPY_EXPIRY 10 s
after the copy drops it; EVENT_WRITER_TAKE moves the oldest record to the store and writes the summaries due; CRUMB_LOCK_EXPIRY
drops the locks last read 10 s ago; PARAMETER_WRITE that can be logged applies the write with all its checks as one item. Every
clause: for every state s and all operands, with a = s.advance t the state at the command's instant, under hypotheses on a and
the operands alone, exec answers exactly the next state shown (so what it leaves unchanged is stated too). Operands are the
model's (logs 1, 2). -/
def Obligations.CompletesLinkTimers : Prop :=
  (∀ (t : Nat) (s : State) (k : BulkSt) (a : State),
    a = s.advance t → a.link.bulk = some k → k.erasing = true →
    exec (.slotEraseDone t) s = .next ((a.modLink fun l => { l with bulk := some { k with erasing := false, lastAt := a.now } }).setN Pid.bulkState (k.target * 256 + 2))) ∧
  (∀ (t : Nat) (s : State) (k : BulkSt) (a : State),
    a = s.advance t → a.link.bulk = some k → k.lastAt + 60 * psS ≤ a.now →
    exec (.bulkWriteTimeout t) s = .next (
      let b := (a.modLink fun x => { x with bulk := none }).setN Pid.bulkState 0
      (if k.target = 0x10 then (b.modLat fun x => { x with bank := none }).setN Pid.latBankStatus 2 else b).raise 0x1288 k.target 2)) ∧
  (∀ (t : Nat) (sid : Nat) (s : State) (x : SessSt) (i : Nat) (bs : List Byte) (n : Nat) (a : State),
    a = s.advance t → a.sess? sid = some x → x.copy = some (i, bs, n) → n + 10 * psS ≤ a.now →
    exec (.bulkReadCopyExpiry t sid) s = .next (a.modSess sid fun x => { x with copy := none })) ∧
  (∀ (t : Nat) (s : State) (r : EvRec) (q : List EvRec) (a : State),
    a = s.advance t → a.ev.q = r :: q →
    exec (.eventWriterTake t) s = .next ((({ a with ev := { a.ev with q := q } }).evStore r).evSummaries)) ∧
  (∀ (t : Nat) (s : State) (a : State),
    a = s.advance t →
    exec (.crumbLockExpiry t) s = .next (a.modLink fun l => { l with sess := l.sess.map fun x => match x.lock with | some (_, n) => if n + 10 * psS ≤ a.now then { x with lock := none } else x | none => x })) ∧
  (∀ (t : Nat) (role : Role) (id : Nat) (v : Word) (s : State) (a : State),
    a = s.advance t → (a.writeAll role true [(id, v)]).bad = none →
    a.canNote role (if a.clsOf id = some .cmd then 2 else 1) id (a.readWord id) v = true →
    exec (.parameterWrite t role id v) s = .next (a.noted role (if a.clsOf id = some .cmd then 2 else 1) id (a.readWord id) v 0 (a.writeAll role true [(id, v)]).st))

/-- Capture functions: where each command completes, and its next state. CAPTURE_TRIGGER of a source that the mask selects and that fires
(bits 7 to 0 of the operand; bit 8 is the edge of TRIG_IN) triggers the function (the time trigger once per instant); CRUMB_COMPLETE of a crumb whose post-trigger rows are done closes it with 0x0CA0;
CAPTURE_REARM of a disturbance recorder in its dead time arms it again; an accepted CR_ARM arms, CR_DISARM releases, CR_FORCE
triggers with source 0x30. A request of a role needs the role, room in Q-LOG where it is logged, and no partner that must carry
it out too (R324); it leaves its log entry. Every clause: for every state s and all operands, with a = s.advance t the state at
the command's instant, under hypotheses on a and the operands alone, exec answers exactly the next state shown (so what it
leaves unchanged is stated too). Operands are the model's (logs 1, 2). -/
def Obligations.CompletesCapture : Prop :=
  (∀ (t : Nat) (f : Nat) (line : Nat) (s : State) (b : Nat) (a : State),
    a = s.advance t → trigMaskBit (line % 256) = some b → 1 ≤ f → f ≤ 2 → a.bit (Pid.crTrigMask (f - 1)) b = true →
    a.trigFires line = true →
    exec (.captureTrigger t f line) s = .next (
      (if line % 256 = 0x20 then a.modCap fun c => { c with timeFired := some a.trgTimeNs } else a).trigger (f - 1) (line % 256))) ∧
  (∀ (t : Nat) (f : Nat) (s : State) (no : Nat) (a : State),
    a = s.advance t → (a.capFn (f - 1)).cur = some no → f ≠ 0 → (a.capFn (f - 1)).inj = false →
    (a.capFn (f - 1)).postLeft = 0 → a.cap.q.any (fun e => e.1 = f - 1) = false →
    exec (.crumbComplete t f) s = .next (
      let b := a.modCrumb no fun c => { c with status := Nat.lor c.status 1 }
      (b.raise 0x0CA0 f (match b.crumb? no with | some c => no * 2 ^ 32 + c.status * 256 + c.source | none => 0)).capClose (f - 1))) ∧
  (∀ (t : Nat) (f : Nat) (s : State) (a : State),
    a = s.advance t → f = 1 → a.n (Pid.crState 0) = 4 → a.timeStopped = false →
    exec (.captureRearm t f) s = .next (a.capArm 0)) ∧
  (∀ (t : Nat) (role : Role) (f : Nat) (s : State) (a : State),
    a = s.advance t → 1 ≤ f → a.crArmOk (f - 1) 1 = true → a.roleOk role (crArmRole (f - 1)) = true →
    (a.n Pid.pairState ≠ 1 ∨ a.forwards (Pid.crArm (f - 1)) = false) →
    a.canNote role 2 (Pid.crArm (f - 1)) (0) (1) = true →
    exec (.crArm t role f) s = .next (a.noted role 2 (Pid.crArm (f - 1)) (0) (1) 0 (a.capArm (f - 1)))) ∧
  (∀ (t : Nat) (role : Role) (f : Nat) (s : State) (a : State),
    a = s.advance t → 1 ≤ f → a.crArmOk (f - 1) 2 = true → a.roleOk role (crArmRole (f - 1)) = true →
    (a.n Pid.pairState ≠ 1 ∨ a.forwards (Pid.crArm (f - 1)) = false) →
    a.canNote role 2 (Pid.crArm (f - 1)) (0) (2) = true →
    exec (.crDisarm t role f) s = .next (a.noted role 2 (Pid.crArm (f - 1)) (0) (2) 0 ((a.modFn (f - 1) fun c => { c with units := [], kept := [], trig := none, deadFrom := none }).setN (Pid.crState (f - 1)) 0))) ∧
  (∀ (t : Nat) (role : Role) (f : Nat) (v : Word) (s : State) (a : State),
    a = s.advance t → 1 ≤ f → a.crForceOk (f - 1) v = true → a.roleOk role .service = true →
    (a.n Pid.pairState ≠ 1 ∨ a.forwards (Pid.crForce (f - 1)) = false) →
    a.canNote role 2 (Pid.crForce (f - 1)) (0) (v) = true →
    exec (.crForce t role f v) s = .next (a.noted role 2 (Pid.crForce (f - 1)) (0) (v) 0 (a.trigger (f - 1) 0x30)))
end

