-- ==== Sys2Proof/Laws/Evolve.lean ====
section
/-! SUPPORT. What any meaning can do to the parts of State that have few ways to change: the word file, the flash, the fuses, the
queue, the clock and the lengths of the arrays. Every function of the model is shown once to stay within it (Laws/Kept*.lean), and
a claim about those parts follows by induction over `Evolve`. -/

set_option Elab.async false

namespace Sys2Proof.Machine

/-- The parts that a function leaves alone unless it is one of the few that change them. -/
structure Guard where
  regs : List (Nat × Word)
  flash : List Host.Cell
  fuses : Fuses
  pending : List Instr
  now : Nat
  unit : UnitSt
  fram : Fram
  img : ImgSt
  dout : List Bool
  lines : List Nat
  deriving DecidableEq, Repr

/-- The guarded parts of a state. -/
def State.guard (s : State) : Guard := ⟨s.regs, s.flash, s.fuses, s.pending, s.now, s.unit, s.fram, s.img, s.dout, s.lines⟩

/-- What a command may do beyond the ordinary: write the flash, the fuses, the ferroelectric memory, the image, the digital
outputs, the sync lines, the unit's state; or reset. -/
structure Kinds where
  flash : Bool := false
  fuse : Bool := false
  reset : Bool := false
  fram : Bool := false
  img : Bool := false
  dout : Bool := false
  lines : Bool := false
  unit : Bool := false
  deriving DecidableEq, Repr

/-- What a meaning of some kinds can make of a state, in the guarded parts and the lengths. -/
inductive Evolve (k : Kinds) (s0 : State) : State → Prop
  | start : Evolve k s0 s0
  | free {s s' : State} : Evolve k s0 s →
      s'.guard = { s.guard with unit := s'.unit, fram := s'.fram, img := s'.img, dout := s'.dout, lines := s'.lines } → s'.lens = s.lens →
      (k.unit = true ∨ s'.unit = s.unit) → (k.fram = true ∨ s'.fram = s.fram) → (k.img = true ∨ s'.img = s.img) →
      (k.dout = true ∨ s'.dout = s.dout) → (k.lines = true ∨ s'.lines = s.lines) → Evolve k s0 s'
  | word {s : State} (id : Nat) (w : Word) : Evolve k s0 s → Evolve k s0 (s.setW id w)
  | words {s : State} (f : Nat × Word → Bool) : Evolve k s0 s → Evolve k s0 { s with regs := s.regs.filter f }
  | clock {s : State} (t : Nat) : Evolve k s0 s → Evolve k s0 (s.advance t)
  | flash {s : State} (a : Nat) (bs : List Byte) : k.flash = true → Evolve k s0 s → Evolve k s0 (s.flashWrite a bs)
  | erase {s : State} (a n : Nat) : k.flash = true → Evolve k s0 s → Evolve k s0 (s.flashErase a n)
  | rebind {s : State} (key : Option (BitVec 128)) : k.fuse = true → Evolve k s0 s →
      Evolve k s0 { s with fuses := { s.fuses with rebindKey := key } }
  | ports {s : State} (ps : List PortSt) : Evolve k s0 s → ps.length = 4 → Evolve k s0 { s with ports := ps }
  | dout {s : State} (ds : List Bool) : k.dout = true → Evolve k s0 s → ds.length = 12 → Evolve k s0 { s with dout := ds }
  | isl {s s1 : State} : Evolve k s0 s → Evolve k s0 s1 → Evolve k s0 { s with isl := s1.isl }
  | reset {s s' : State} (f : Nat × Word → Bool) : k.reset = true → Evolve k s0 s →
      s'.guard = { s.guard with regs := s.regs.filter f, unit := s'.unit, img := s'.img, dout := s'.dout, lines := s'.lines } →
      s'.shape → Evolve k s0 s'

/-! ### The word file -/

theorem regsWf_cons {e : Nat × Word} {rs : List (Nat × Word)} :
    regsWf (e :: rs) = true ↔ e.2 ≠ defaultWord e.1 ∧ (∀ f ∈ rs.head?, e.1 < f.1) ∧ regsWf rs = true := by
  cases rs <;> simp [regsWf, and_assoc]

/-- In a canonical file every later identifier is larger. -/
theorem regsWf_lt {e : Nat × Word} {rs : List (Nat × Word)} (h : regsWf (e :: rs) = true) : ∀ f ∈ rs, e.1 < f.1 := by
  induction rs generalizing e with
  | nil => simp
  | cons g rs ih =>
    obtain ⟨-, h1, h2⟩ := regsWf_cons.1 h
    intro f hf
    have hg : e.1 < g.1 := h1 g (by simp)
    rcases List.mem_cons.1 hf with rfl | hf
    · exact hg
    · exact hg.trans (ih h2 f hf)

theorem regsWf_mk {e : Nat × Word} {rs : List (Nat × Word)} (hd : e.2 ≠ defaultWord e.1) (hl : ∀ f ∈ rs, e.1 < f.1)
    (hr : regsWf rs = true) : regsWf (e :: rs) = true := by
  refine regsWf_cons.2 ⟨hd, fun f hf => hl f ?_, hr⟩
  cases rs with
  | nil => simp at hf
  | cons g rs => simp at hf; simp [hf]

/-- Leaving entries out keeps the canonical form. -/
theorem regsWf_filter {rs : List (Nat × Word)} (f : Nat × Word → Bool) (h : regsWf rs = true) : regsWf (rs.filter f) = true := by
  induction rs with
  | nil => rfl
  | cons e rs ih =>
    have hr := ih (regsWf_cons.1 h).2.2
    by_cases hf : f e = true
    · rw [List.filter_cons_of_pos hf]
      exact regsWf_mk (regsWf_cons.1 h).1 (fun g hg => regsWf_lt h g (List.mem_of_mem_filter hg)) hr
    · rw [List.filter_cons_of_neg hf]; exact hr

theorem mem_regsIns {id : Nat} {w : Word} {rs : List (Nat × Word)} {f : Nat × Word} (h : f ∈ regsIns id w rs) :
    f = (id, w) ∨ f ∈ rs := by
  induction rs with
  | nil => simpa [regsIns] using h
  | cons e rs ih =>
    unfold regsIns at h
    split at h
    · simpa using h
    · rcases List.mem_cons.1 h with h | h
      · simp [h]
      · rcases ih h with h | h <;> simp [h]

/-- Inserting a word that is not its default and not listed keeps the canonical form. -/
theorem regsWf_ins {id : Nat} {w : Word} {rs : List (Nat × Word)} (hw : w ≠ defaultWord id) (hn : ∀ f ∈ rs, f.1 ≠ id)
    (h : regsWf rs = true) : regsWf (regsIns id w rs) = true := by
  induction rs with
  | nil => simp [regsIns, regsWf, hw]
  | cons e rs ih =>
    unfold regsIns
    split
    · rename_i hlt
      refine regsWf_mk hw (fun f hf => ?_) h
      rcases List.mem_cons.1 hf with rfl | hf
      · exact hlt
      · exact hlt.trans (regsWf_lt h f hf)
    · rename_i hge
      have he : e.1 ≠ id := hn e (by simp)
      refine regsWf_mk (regsWf_cons.1 h).1 (fun f hf => ?_) (ih (fun f hf => hn f (by simp [hf])) (regsWf_cons.1 h).2.2)
      rcases mem_regsIns hf with rfl | hf
      · simp only; omega
      · exact regsWf_lt h f hf

/-- Writing a word keeps the canonical form. -/
theorem regsWf_put {id : Nat} {w : Word} {rs : List (Nat × Word)} (h : regsWf rs = true) : regsWf (regsPut rs id w) = true := by
  unfold regsPut
  split
  · exact regsWf_filter _ h
  · rename_i hw
    refine regsWf_ins hw (fun f hf => ?_) (regsWf_filter _ h)
    have := (List.mem_filter.1 hf).2
    simpa using this

/-! ### The flash -/

theorem memWf_cons {c : Host.Cell} {m : List Host.Cell} :
    Memory.wf (c :: m) = true ↔ c.2 ≠ flashErased ∧ (∀ d ∈ m.head?, c.1 < d.1) ∧ Memory.wf m = true := by
  cases m <;> simp [Memory.wf, and_assoc]

theorem memWf_lt {c : Host.Cell} {m : List Host.Cell} (h : Memory.wf (c :: m) = true) : ∀ d ∈ m, c.1 < d.1 := by
  induction m generalizing c with
  | nil => simp
  | cons e m ih =>
    obtain ⟨-, h1, h2⟩ := memWf_cons.1 h
    intro d hd
    have he : c.1 < e.1 := h1 e (by simp)
    rcases List.mem_cons.1 hd with rfl | hd
    · exact he
    · exact he.trans (ih h2 d hd)

theorem memWf_mk {c : Host.Cell} {m : List Host.Cell} (hd : c.2 ≠ flashErased) (hl : ∀ d ∈ m, c.1 < d.1)
    (hm : Memory.wf m = true) : Memory.wf (c :: m) = true := by
  refine memWf_cons.2 ⟨hd, fun d h => hl d ?_, hm⟩
  cases m with
  | nil => simp at h
  | cons e m => simp at h; simp [h]

theorem memWf_filter {m : List Host.Cell} (f : Host.Cell → Bool) (h : Memory.wf m = true) : Memory.wf (m.filter f) = true := by
  induction m with
  | nil => rfl
  | cons c m ih =>
    have hr := ih (memWf_cons.1 h).2.2
    by_cases hf : f c = true
    · rw [List.filter_cons_of_pos hf]
      exact memWf_mk (memWf_cons.1 h).1 (fun d hd => memWf_lt h d (List.mem_of_mem_filter hd)) hr
    · rw [List.filter_cons_of_neg hf]; exact hr

theorem mem_memPut {a : Nat} {b : Byte} {m : List Host.Cell} {d : Host.Cell} (h : d ∈ memPut m a b) : d = (a, b) ∨ d ∈ m := by
  induction m with
  | nil => unfold memPut at h; split at h <;> simp_all
  | cons c m ih =>
    unfold memPut at h
    split at h
    · rcases List.mem_cons.1 h with h | h
      · simp [h]
      · rcases ih h with h | h <;> simp [h]
    · split at h
      · split at h
        · simp [h]
        · rcases List.mem_cons.1 h with h | h <;> simp [h]
      · split at h
        · simp [List.mem_cons.1 h]
        · rcases List.mem_cons.1 h with h | h
          · simp [h]
          · simp [List.mem_cons.1 h]

/-- Writing a byte keeps the canonical form. -/
theorem memWf_put {a : Nat} {b : Byte} {m : List Host.Cell} (h : Memory.wf m = true) : Memory.wf (memPut m a b) = true := by
  induction m with
  | nil => unfold memPut; split <;> simp_all [Memory.wf]
  | cons c m ih =>
    have hm := (memWf_cons.1 h).2.2
    have hl := memWf_lt h
    unfold memPut
    split
    · rename_i hlt
      refine memWf_mk (memWf_cons.1 h).1 (fun d hd => ?_) (ih hm)
      rcases mem_memPut hd with rfl | hd
      · exact hlt
      · exact hl d hd
    · split
      · rename_i heq
        split
        · exact hm
        · rename_i hb
          exact memWf_mk hb (fun d hd => by have := hl d hd; simp only; omega) hm
      · rename_i h1 h2
        split
        · exact h
        · rename_i hb
          refine memWf_mk hb (fun d hd => ?_) h
          rcases List.mem_cons.1 hd with rfl | hd
          · simp only; omega
          · have := hl d hd; simp only; omega

/-- Writing bytes keeps the canonical form. -/
theorem memWf_write {m : List Host.Cell} {a : Nat} {bs : List Byte} (h : Memory.wf m = true) : Memory.wf (memWrite m a bs) = true := by
  induction bs generalizing m a with
  | nil => exact h
  | cons b bs ih => exact ih (memWf_put h)

/-- Erasing keeps the canonical form. -/
theorem memWf_erase {m : List Host.Cell} {a n : Nat} (h : Memory.wf m = true) : Memory.wf (memErase m a n) = true := memWf_filter _ h

/-- Below the first listed address nothing is listed. -/
theorem memGet_below {m : List Host.Cell} {y : Nat} (h : ∀ d ∈ m, y < d.1) : memGet m y = flashErased := by
  induction m with
  | nil => rfl
  | cons d m ih =>
    have h1 := h d (by simp)
    unfold memGet
    rw [if_neg (by omega), ih fun e he => h e (by simp [he])]

/-- What a written byte reads. -/
theorem memGet_put (m : List Host.Cell) (a : Nat) (b : Byte) (h : Memory.wf m = true) (x : Nat) :
    memGet (memPut m a b) x = if x = a then b else memGet m x := by
  induction m with
  | nil =>
    unfold memPut
    by_cases hb : b = flashErased
    · subst hb; simp [memGet]
    · rw [if_neg hb]
      simp only [memGet]
      by_cases hx : x = a
      · rw [if_pos hx.symm, if_pos hx]
      · rw [if_neg (Ne.symm hx), if_neg hx]
  | cons c m ih =>
    have hm := (memWf_cons.1 h).2.2
    have hl := memWf_lt h
    have hout : ∀ y, y ≤ c.1 → memGet m y = flashErased := fun y hy => memGet_below fun d hd => by have := hl d hd; omega
    unfold memPut
    split
    · rename_i hlt
      simp only [memGet, ih hm]
      by_cases hc : c.1 = x
      · rw [if_pos hc, if_neg (by omega), if_pos hc]
      · rw [if_neg hc, if_neg hc]
    · split
      · rename_i heq
        by_cases hx : x = a
        · rw [if_pos hx]
          split
          · rename_i hb; rw [hout x (by omega), hb]
          · simp only [memGet]; rw [if_pos hx.symm]
        · rw [if_neg hx]
          split
          · simp only [memGet]; rw [if_neg (by omega)]
          · simp only [memGet]; rw [if_neg (by omega), if_neg (by omega)]
      · by_cases hx : x = a
        · rw [if_pos hx]
          split
          · rename_i hb; simp only [memGet]; rw [if_neg (by omega), hout x (by omega), hb]
          · simp only [memGet]; rw [if_pos hx.symm]
        · rw [if_neg hx]
          split
          · rfl
          · simp only [memGet]; rw [if_neg (Ne.symm hx)]

/-! ### What `Evolve` keeps -/

theorem guard_regs {s : State} {g : Guard} (h : s.guard = g) : s.regs = g.regs := congrArg Guard.regs h
theorem guard_flash {s : State} {g : Guard} (h : s.guard = g) : s.flash = g.flash := congrArg Guard.flash h
theorem guard_fuses {s : State} {g : Guard} (h : s.guard = g) : s.fuses = g.fuses := congrArg Guard.fuses h
theorem guard_pending {s : State} {g : Guard} (h : s.guard = g) : s.pending = g.pending := congrArg Guard.pending h
theorem guard_now {s : State} {g : Guard} (h : s.guard = g) : s.now = g.now := congrArg Guard.now h

theorem lens_eq_shape {s s' : State} (h : s'.lens = s.lens) (hs : s.shape) : s'.shape := h.trans hs

/-- The word file stays canonical. -/
theorem Evolve.regs {k : Kinds} {s0 s : State} (h : Evolve k s0 s) (h0 : regsWf s0.regs = true) : regsWf s.regs = true := by
  induction h with
  | start => exact h0
  | free _ hg _ _ _ _ _ _ ih => rw [guard_regs hg]; exact ih
  | word _ _ _ ih => exact regsWf_put ih
  | words f _ ih => exact regsWf_filter f ih
  | clock t _ ih => unfold State.advance; split <;> [exact ih; skip]; split <;> exact ih
  | reset f _ _ hg _ ih => rw [guard_regs hg]; exact regsWf_filter f ih
  | _ => assumption

/-- The flash stays canonical. -/
theorem Evolve.memory {k : Kinds} {s0 s : State} (h : Evolve k s0 s) (h0 : Memory.wf s0.flash = true) : Memory.wf s.flash = true := by
  induction h with
  | start => exact h0
  | free _ hg _ _ _ _ _ _ ih => rw [guard_flash hg]; exact ih
  | clock t _ ih => unfold State.advance; split <;> [exact ih; skip]; split <;> exact ih
  | flash _ _ _ _ ih => exact memWf_write ih
  | erase _ _ _ _ ih => exact memWf_erase ih
  | reset _ _ _ hg _ ih => rw [guard_flash hg]; exact ih
  | _ => assumption

/-- The queue is untouched. -/
theorem Evolve.queue {k : Kinds} {s0 s : State} (h : Evolve k s0 s) : s.pending = s0.pending := by
  induction h with
  | start => rfl
  | free _ hg _ _ _ _ _ _ ih => exact (guard_pending hg).trans ih
  | clock t _ ih => unfold State.advance; split <;> [exact ih; skip]; split <;> exact ih
  | reset _ _ _ hg _ ih => exact (guard_pending hg).trans ih
  | _ => assumption

/-- The unit key and the factory key are untouched (R396). -/
theorem Evolve.keys {k : Kinds} {s0 s : State} (h : Evolve k s0 s) :
    s.fuses.unitKey = s0.fuses.unitKey ∧ s.fuses.factoryKey = s0.fuses.factoryKey := by
  induction h with
  | start => exact ⟨rfl, rfl⟩
  | free _ hg _ _ _ _ _ _ ih => rw [guard_fuses hg]; exact ih
  | clock t _ ih => unfold State.advance; split <;> [exact ih; skip]; split <;> exact ih
  | reset _ _ _ hg _ ih => rw [guard_fuses hg]; exact ih
  | _ => assumption

/-- Time does not run backwards. -/
theorem Evolve.time {k : Kinds} {s0 s : State} (h : Evolve k s0 s) : s0.now ≤ s.now := by
  induction h with
  | start => exact Nat.le_refl _
  | free _ hg _ _ _ _ _ _ ih => rw [guard_now hg]; exact ih
  | clock t _ ih =>
    unfold State.advance
    split
    · exact ih
    · split <;> simp only <;> omega
  | reset _ _ _ hg _ ih => rw [guard_now hg]; exact ih
  | _ => assumption

/-- The arrays keep the lengths of the 4P. -/
theorem Evolve.lengths {k : Kinds} {s0 s : State} (h : Evolve k s0 s) (h0 : s0.shape) : s.shape := by
  induction h with
  | start => exact h0
  | free _ _ hl _ _ _ _ _ ih => exact hl.trans ih
  | clock t _ ih => unfold State.advance; split <;> [exact ih; skip]; split <;> exact ih
  | ports ps _ hp ih => simp_all [State.shape, State.lens]
  | dout ds _ _ hd ih => simp_all [State.shape, State.lens]
  | isl _ _ ih ih1 => simp_all [State.shape, State.lens]
  | reset _ _ _ _ hs _ => exact hs
  | _ => assumption

/-- The flash changes only by what may write it. -/
theorem Evolve.sameFlash {k : Kinds} {s0 s : State} (h : Evolve k s0 s) (hk : k.flash = false) : s.flash = s0.flash := by
  induction h with
  | start => rfl
  | free _ hg _ _ _ _ _ _ ih => exact (guard_flash hg).trans ih
  | clock t _ ih => unfold State.advance; split <;> [exact ih; skip]; split <;> exact ih
  | flash _ _ hf _ _ => simp [hk] at hf
  | erase _ _ hf _ _ => simp [hk] at hf
  | reset _ _ _ hg _ ih => exact (guard_flash hg).trans ih
  | _ => assumption

/-- The fuses change only by what may burn them. -/
theorem Evolve.sameFuses {k : Kinds} {s0 s : State} (h : Evolve k s0 s) (hk : k.fuse = false) : s.fuses = s0.fuses := by
  induction h with
  | start => rfl
  | free _ hg _ _ _ _ _ _ ih => exact (guard_fuses hg).trans ih
  | clock t _ ih => unfold State.advance; split <;> [exact ih; skip]; split <;> exact ih
  | rebind _ hf _ _ => simp [hk] at hf
  | reset _ _ _ hg _ ih => exact (guard_fuses hg).trans ih
  | _ => assumption

/-- The ferroelectric memory changes only by what may write it. -/
theorem Evolve.sameFram {k : Kinds} {s0 s : State} (h : Evolve k s0 s) (hk : k.fram = false) : s.fram = s0.fram := by
  induction h with
  | start => rfl
  | free _ _ _ _ hf _ _ _ ih => exact (hf.resolve_left (by simp [hk])).trans ih
  | clock t _ ih => unfold State.advance; split <;> [exact ih; skip]; split <;> exact ih
  | reset _ _ _ hg _ ih => exact (congrArg Guard.fram hg).trans ih
  | _ => assumption

/-- The image in force changes only by what may change it. -/
theorem Evolve.sameImg {k : Kinds} {s0 s : State} (h : Evolve k s0 s) (hk : k.img = false) (hr : k.reset = false) : s.img = s0.img := by
  induction h with
  | start => rfl
  | free _ _ _ _ _ hf _ _ ih => exact (hf.resolve_left (by simp [hk])).trans ih
  | clock t _ ih => unfold State.advance; split <;> [exact ih; skip]; split <;> exact ih
  | reset _ hf _ _ _ _ => simp [hr] at hf
  | _ => assumption

/-- The digital outputs change only by what may drive them. -/
theorem Evolve.sameDout {k : Kinds} {s0 s : State} (h : Evolve k s0 s) (hk : k.dout = false) (hr : k.reset = false) : s.dout = s0.dout := by
  induction h with
  | start => rfl
  | free _ _ _ _ _ _ hf _ ih => exact (hf.resolve_left (by simp [hk])).trans ih
  | clock t _ ih => unfold State.advance; split <;> [exact ih; skip]; split <;> exact ih
  | dout _ hf _ _ _ => simp [hk] at hf
  | reset _ hf _ _ _ _ => simp [hr] at hf
  | _ => assumption

/-- The sync lines change only by what may drive them. -/
theorem Evolve.sameLines {k : Kinds} {s0 s : State} (h : Evolve k s0 s) (hk : k.lines = false) (hr : k.reset = false) : s.lines = s0.lines := by
  induction h with
  | start => rfl
  | free _ _ _ _ _ _ _ hf ih => exact (hf.resolve_left (by simp [hk])).trans ih
  | clock t _ ih => unfold State.advance; split <;> [exact ih; skip]; split <;> exact ih
  | reset _ hf _ _ _ _ => simp [hr] at hf
  | _ => assumption

/-- The unit's state changes only by what may change it. -/
theorem Evolve.sameUnit {k : Kinds} {s0 s : State} (h : Evolve k s0 s) (hk : k.unit = false) (hr : k.reset = false) : s.unit = s0.unit := by
  induction h with
  | start => rfl
  | free _ _ _ hf _ _ _ _ ih => exact (hf.resolve_left (by simp [hk])).trans ih
  | clock t _ ih => unfold State.advance; split <;> [exact ih; skip]; split <;> exact ih
  | reset _ hf _ _ _ _ => simp [hr] at hf
  | _ => assumption

/-! ### Composing -/

theorem ite_evo {k : Kinds} {s0 a b : State} {c : Prop} [Decidable c] (ha : c → Evolve k s0 a) (hb : ¬c → Evolve k s0 b) :
    Evolve k s0 (if c then a else b) := by
  split
  · exact ha ‹_›
  · exact hb ‹_›

theorem foldl_evo {k : Kinds} {α : Type} {s0 s : State} {l : List α} {f : State → α → State} (h : Evolve k s0 s)
    (hf : ∀ s x, Evolve k s0 s → Evolve k s0 (f s x)) : Evolve k s0 (l.foldl f s) := by
  induction l generalizing s with
  | nil => exact h
  | cons x l ih => exact ih (hf s x h)

/-- A fold that carries the state second. -/
theorem foldlSnd_evo {k : Kinds} {α β : Type} {s0 : State} {l : List α} {a : β × State} {f : β × State → α → β × State} (h : Evolve k s0 a.2)
    (hf : ∀ a x, Evolve k s0 a.2 → Evolve k s0 (f a x).2) : Evolve k s0 (l.foldl f a).2 := by
  induction l generalizing a with
  | nil => exact h
  | cons x l ih => exact ih (hf a x h)

/-- A fold that carries the state first. -/
theorem foldlFst_evo {k : Kinds} {α β : Type} {s0 : State} {l : List α} {a : State × β} {f : State × β → α → State × β} (h : Evolve k s0 a.1)
    (hf : ∀ a x, Evolve k s0 a.1 → Evolve k s0 (f a x).1) : Evolve k s0 (l.foldl f a).1 := by
  induction l generalizing a with
  | nil => exact h
  | cons x l ih => exact ih (hf a x h)

/-- `Evolve` of the first part of a pair, said of the pair. -/
def EvoFst {β : Type} (k : Kinds) (s0 : State) (p : State × β) : Prop := Evolve k s0 p.1

theorem foldl_evoFst {k : Kinds} {α β : Type} {s0 : State} {l : List α} {a : State × β} {f : State × β → α → State × β} (h : EvoFst k s0 a)
    (hf : ∀ a x, EvoFst k s0 a → EvoFst k s0 (f a x)) : EvoFst k s0 (l.foldl f a) := by
  induction l generalizing a with
  | nil => exact h
  | cons x l ih => exact ih (hf a x h)

theorem iteSnd_evo {k : Kinds} {β : Type} {s0 : State} {a b : β × State} {c : Prop} [Decidable c] (ha : c → Evolve k s0 a.2)
    (hb : ¬c → Evolve k s0 b.2) : Evolve k s0 (if c then a else b).2 := by
  split
  · exact ha ‹_›
  · exact hb ‹_›

theorem iteFst_evo {k : Kinds} {β : Type} {s0 : State} {a b : State × β} {c : Prop} [Decidable c] (ha : c → Evolve k s0 a.1)
    (hb : ¬c → Evolve k s0 b.1) : Evolve k s0 (if c then a else b).1 := by
  split
  · exact ha ‹_›
  · exact hb ‹_›

theorem snd_evo {k : Kinds} {β : Type} {s0 s : State} {p : β × State} {b : β} (e : p = (b, s)) (h : Evolve k s0 p.2) : Evolve k s0 s := by
  rw [e] at h; exact h

theorem fst_evo {k : Kinds} {β : Type} {s0 s : State} {p : State × β} {b : β} (e : p = (s, b)) (h : Evolve k s0 p.1) : Evolve k s0 s := by
  rw [e] at h; exact h

theorem cutSnd_evo {k : Kinds} {β : Type} {s0 : State} {x : β × State} {P : Prop} (h : Evolve k s0 x.2) (k : Evolve k s0 x.2 → P) : P := k h

theorem cut_evo {k : Kinds} {s0 x : State} {P : Prop} (h : Evolve k s0 x) (k : Evolve k s0 x → P) : P := k h

/-- An update of fields that are neither guarded nor arrays. -/
theorem upd_evo {k : Kinds} {s0 s : State} {fine strFine sfdpQuad ref ev eng inj prf seqRun saf pair lat time link cap timers freeCtr}
    (h : Evolve k s0 s) :
    Evolve k s0 ⟨s.now, fine, strFine, s.unit, s.regs, s.fuses, s.fram, s.flash, sfdpQuad, ref, s.img, ev, s.ports, eng, inj, prf,
      s.fast, s.slow, s.mods, s.legs, s.isl, seqRun, s.lines, s.dout, saf, pair, lat, s.can, s.eth, time, s.tout, link, cap, timers, freeCtr,
      s.pending⟩ := .free h rfl rfl (.inr rfl) (.inr rfl) (.inr rfl) (.inr rfl) (.inr rfl)

/-- An update that may change the unit's state. -/
theorem updUnit_evo {k : Kinds} {s0 s : State} {fine strFine unit sfdpQuad ref ev eng inj prf seqRun saf pair lat time link cap timers freeCtr}
    (hk : k.unit = true) (h : Evolve k s0 s) :
    Evolve k s0 ⟨s.now, fine, strFine, unit, s.regs, s.fuses, s.fram, s.flash, sfdpQuad, ref, s.img, ev, s.ports, eng, inj, prf,
      s.fast, s.slow, s.mods, s.legs, s.isl, seqRun, s.lines, s.dout, saf, pair, lat, s.can, s.eth, time, s.tout, link, cap, timers, freeCtr,
      s.pending⟩ := .free h rfl rfl (.inl hk) (.inr rfl) (.inr rfl) (.inr rfl) (.inr rfl)

/-- An update that may change the ferroelectric memory. -/
theorem updFram_evo {k : Kinds} {s0 s : State} {fine strFine fram sfdpQuad ref ev eng inj prf seqRun saf pair lat time link cap timers freeCtr}
    (hk : k.fram = true) (h : Evolve k s0 s) :
    Evolve k s0 ⟨s.now, fine, strFine, s.unit, s.regs, s.fuses, fram, s.flash, sfdpQuad, ref, s.img, ev, s.ports, eng, inj, prf,
      s.fast, s.slow, s.mods, s.legs, s.isl, seqRun, s.lines, s.dout, saf, pair, lat, s.can, s.eth, time, s.tout, link, cap, timers, freeCtr,
      s.pending⟩ := .free h rfl rfl (.inr rfl) (.inl hk) (.inr rfl) (.inr rfl) (.inr rfl)

/-- An update that may change the image. -/
theorem updImg_evo {k : Kinds} {s0 s : State} {fine strFine sfdpQuad ref img ev eng inj prf seqRun saf pair lat time link cap timers freeCtr}
    (hk : k.img = true) (h : Evolve k s0 s) :
    Evolve k s0 ⟨s.now, fine, strFine, s.unit, s.regs, s.fuses, s.fram, s.flash, sfdpQuad, ref, img, ev, s.ports, eng, inj, prf,
      s.fast, s.slow, s.mods, s.legs, s.isl, seqRun, s.lines, s.dout, saf, pair, lat, s.can, s.eth, time, s.tout, link, cap, timers, freeCtr,
      s.pending⟩ := .free h rfl rfl (.inr rfl) (.inr rfl) (.inl hk) (.inr rfl) (.inr rfl)

/-- An update that may change both. -/
theorem updBoth_evo {k : Kinds} {s0 s : State} {fine strFine fram sfdpQuad ref img ev eng inj prf seqRun saf pair lat time link cap timers freeCtr}
    (hf : k.fram = true) (hi : k.img = true) (h : Evolve k s0 s) :
    Evolve k s0 ⟨s.now, fine, strFine, s.unit, s.regs, s.fuses, fram, s.flash, sfdpQuad, ref, img, ev, s.ports, eng, inj, prf,
      s.fast, s.slow, s.mods, s.legs, s.isl, seqRun, s.lines, s.dout, saf, pair, lat, s.can, s.eth, time, s.tout, link, cap, timers, freeCtr,
      s.pending⟩ := .free h rfl rfl (.inr rfl) (.inl hf) (.inl hi) (.inr rfl) (.inr rfl)

theorem lineSet_evo {k : Kinds} {s0 s : State} {i t : Nat} (hk : k.lines = true) (h : Evolve k s0 s) :
    Evolve k s0 { s with lines := s.lines.set i t } :=
  .free h rfl (by simp [State.lens]) (.inr rfl) (.inr rfl) (.inr rfl) (.inr rfl) (.inl hk)

theorem doutSet_evo {k : Kinds} {s0 s : State} {i : Nat} {b : Bool} (hk : k.dout = true) (h : Evolve k s0 s) :
    Evolve k s0 { s with dout := s.dout.set i b } :=
  .free h rfl (by simp [State.lens]) (.inr rfl) (.inr rfl) (.inr rfl) (.inl hk) (.inr rfl)

theorem douts_evo {k : Kinds} {s0 s : State} {ds : List Bool} (hk : k.dout = true) (hl : ds.length = 12) (h : Evolve k s0 s) :
    Evolve k s0 { s with dout := ds } := .dout _ hk h hl

theorem adcMap_evo {k : Kinds} {s0 s : State} {f : FastSt → FastSt} {g : ModSt → ModSt} (h : Evolve k s0 s) :
    Evolve k s0 { s with fast := s.fast.map f, mods := s.mods.map g } :=
  .free h rfl (by simp [State.lens]) (.inr rfl) (.inr rfl) (.inr rfl) (.inr rfl) (.inr rfl)

theorem ports_evo {k : Kinds} {s0 s : State} {ps : List PortSt} (hl : ps.length = 4) (h : Evolve k s0 s) :
    Evolve k s0 { s with ports := ps } := .ports _ h hl

theorem words_evo {k : Kinds} {s0 s : State} {f : Nat × Word → Bool} (h : Evolve k s0 s) :
    Evolve k s0 { s with regs := s.regs.filter f } := .words f h

theorem noPorts_evo {k : Kinds} {s0 s : State} {img : ImgSt} (hk : k.img = true) (h : Evolve k s0 s) :
    Evolve k s0 { s with img := img, ports := List.replicate 4 {} } :=
  .free (.ports (List.replicate 4 {}) h rfl) rfl rfl (.inr rfl) (.inr rfl) (.inl hk) (.inr rfl) (.inr rfl)

end Sys2Proof.Machine
end

