-- ==== Sys2Proof/Laws/KeptOps.lean ====
section
/-! SUPPORT. What the functions of Machine/Ops.lean keep: each stays within `Evolve`. -/

set_option Elab.async false
set_option linter.unusedVariables false
set_option linter.unreachableTactic false
set_option linter.unusedTactic false
set_option linter.unusedSimpArgs false

namespace Sys2Proof.Machine

theorem State.setW_evo {K : Kinds} {s0 s : State} {id : Nat} {w : Word} (h : Evolve K s0 s) :
    Evolve K s0 (State.setW s id w) := by
  exact .word id w h

theorem State.setN_evo {K : Kinds} {s0 s : State} {id n : Nat} (h : Evolve K s0 s) :
    Evolve K s0 (State.setN s id n) := by
  unfold State.setN
  repeat' first
    | with_reducible assumption
    | with_reducible refine State.setW_evo ?_

theorem State.setZ_evo {K : Kinds} {s0 s : State} {id : Nat} {z : Int} (h : Evolve K s0 s) :
    Evolve K s0 (State.setZ s id z) := by
  unfold State.setZ
  repeat' first
    | with_reducible assumption
    | with_reducible refine State.setW_evo ?_

theorem State.bumpBy_evo {K : Kinds} {s0 s : State} {id k : Nat} (h : Evolve K s0 s) :
    Evolve K s0 (State.bumpBy s id k) := by
  unfold State.bumpBy
  repeat' first
    | with_reducible assumption
    | with_reducible refine State.setN_evo ?_

theorem State.bump_evo {K : Kinds} {s0 s : State} {id : Nat} (h : Evolve K s0 s) :
    Evolve K s0 (State.bump s id) := by
  unfold State.bump
  repeat' first
    | with_reducible assumption
    | with_reducible refine State.bumpBy_evo ?_

theorem State.setBit_evo {K : Kinds} {s0 s : State} {id k : Nat} {b : Bool} (h : Evolve K s0 s) :
    Evolve K s0 (State.setBit s id k b) := by
  unfold State.setBit
  repeat' first
    | with_reducible assumption
    | with_reducible refine State.setW_evo ?_

theorem State.each_evo {K : Kinds} {s0 s : State} {is : List Nat} {f : State → Nat → State} (h : Evolve K s0 s)
    (hf : ∀ s i, Evolve K s0 s → Evolve K s0 (f s i)) : Evolve K s0 (s.each is f) := foldl_evo h hf

theorem State.onlyIf_evo {K : Kinds} {s0 s : State} {c : Bool} {f : State → State} (h : Evolve K s0 s)
    (hf : ∀ s, Evolve K s0 s → Evolve K s0 (f s)) : Evolve K s0 (s.onlyIf c f) := ite_evo (fun _ => hf s h) (fun _ => h)

theorem State.advance_evo {K : Kinds} {s0 s : State} {t : Nat} (h : Evolve K s0 s) :
    Evolve K s0 (State.advance s t) := by
  exact .clock t h

theorem State.fresh_evo {K : Kinds} {s0 s : State} (h : Evolve K s0 s) :
    Evolve K s0 (State.fresh s).2 := by
  exact .free h rfl rfl (.inr rfl) (.inr rfl) (.inr rfl) (.inr rfl) (.inr rfl)

theorem State.forget_evo {K : Kinds} {s0 s : State} {k : Timer} (h : Evolve K s0 s) :
    Evolve K s0 (State.forget s k) := by
  unfold State.forget
  repeat' first
    | with_reducible assumption
    | (with_reducible refine upd_evo ?_; with_reducible assumption)
    | (with_reducible refine upd_evo ?_; with_reducible refine upd_evo ?_; with_reducible assumption)

theorem State.again_evo {K : Kinds} {s0 s : State} {k : Timer} {period : Nat} (h : Evolve K s0 s) :
    Evolve K s0 (State.again s k period) := by
  unfold State.again
  repeat' first
    | with_reducible assumption
    | (intro x; refine cut_evo (k := K) (s0 := s0) (x := x) ?_ ?_; rotate_left; intro hx; clear_value x; rotate_left; subst x)
    | (intro x; clear_value x)
    | lift_lets
    | with_reducible refine ite_evo (fun _ => ?_) (fun _ => ?_)
    | with_reducible refine State.forget_evo ?_
    | (with_reducible refine upd_evo ?_; with_reducible assumption)
    | (with_reducible refine upd_evo ?_; with_reducible refine upd_evo ?_; with_reducible assumption)

theorem State.recur_evo {K : Kinds} {s0 s : State} {k : Timer} {period : Nat} {f : State → State} (h : Evolve K s0 s)
    (hf : ∀ s, Evolve K s0 s → Evolve K s0 (f s)) : Evolve K s0 (s.recur k period f) := by
  unfold State.recur
  exact ite_evo (fun _ => h) fun _ => hf _ (State.again_evo h)

theorem State.highWater_evo {K : Kinds} {s0 s : State} {q occ : Nat} (h : Evolve K s0 s) :
    Evolve K s0 (State.highWater s q occ) := by
  unfold State.highWater
  repeat' first
    | with_reducible assumption
    | with_reducible refine State.setN_evo ?_
    | (with_reducible refine State.onlyIf_evo ?_ (fun s h => ?_))

theorem State.qLost_evo {K : Kinds} {s0 s : State} {q : Nat} (h : Evolve K s0 s) :
    Evolve K s0 (State.qLost s q) := by
  unfold State.qLost
  repeat' first
    | with_reducible assumption
    | with_reducible refine State.bump_evo ?_

theorem State.raise_evo {K : Kinds} {s0 s : State} {code inst ctx : Nat} (h : Evolve K s0 s) :
    Evolve K s0 (State.raise s code inst ctx) := by
  unfold State.raise
  repeat' first
    | with_reducible assumption
    | (intro x; refine cut_evo (k := K) (s0 := s0) (x := x) ?_ ?_; rotate_left; intro hx; clear_value x; rotate_left; subst x)
    | (intro x; clear_value x)
    | lift_lets
    | with_reducible refine ite_evo (fun _ => ?_) (fun _ => ?_)
    | with_reducible refine State.highWater_evo ?_
    | with_reducible refine State.qLost_evo ?_
    | (with_reducible refine upd_evo ?_; with_reducible assumption)
    | (with_reducible refine upd_evo ?_; with_reducible refine upd_evo ?_; with_reducible assumption)

theorem State.modPort_evo {K : Kinds} {s0 s : State} {p : Nat} {f : PortSt → PortSt} (h : Evolve K s0 s) :
    Evolve K s0 (State.modPort s p f) := by
  exact .free h rfl (by simp [State.modPort, State.lens]) (.inr rfl) (.inr rfl) (.inr rfl) (.inr rfl) (.inr rfl)

theorem State.modLeg_evo {K : Kinds} {s0 s : State} {l : Nat} {f : LegSt → LegSt} (h : Evolve K s0 s) :
    Evolve K s0 (State.modLeg s l f) := by
  exact .free h rfl (by simp [State.modLeg, State.lens]) (.inr rfl) (.inr rfl) (.inr rfl) (.inr rfl) (.inr rfl)

theorem State.modIsl_evo {K : Kinds} {s0 s : State} {i : Nat} {f : IslSt → IslSt} (h : Evolve K s0 s) :
    Evolve K s0 (State.modIsl s i f) := by
  exact .free h rfl (by simp [State.modIsl, State.lens]) (.inr rfl) (.inr rfl) (.inr rfl) (.inr rfl) (.inr rfl)

theorem State.latOut_evo {K : Kinds} {s0 s : State} {p k : Nat} {b : Bool} (h : Evolve K s0 s) :
    Evolve K s0 (State.latOut s p k b) := by
  unfold State.latOut
  repeat' first
    | with_reducible assumption
    | with_reducible refine State.setBit_evo ?_

theorem State.askOpen_evo {K : Kinds} {s0 s : State} {p : Nat} (h : Evolve K s0 s) :
    Evolve K s0 (State.askOpen s p) := by
  unfold State.askOpen
  repeat' first
    | with_reducible assumption
    | with_reducible refine State.modPort_evo ?_
    | with_reducible refine State.latOut_evo ?_
    | (with_reducible refine upd_evo ?_; with_reducible assumption)
    | (with_reducible refine upd_evo ?_; with_reducible refine upd_evo ?_; with_reducible assumption)

theorem State.dropClose_evo {K : Kinds} {s0 s : State} {p : Nat} (h : Evolve K s0 s) :
    Evolve K s0 (State.dropClose s p) := by
  unfold State.dropClose
  repeat' first
    | with_reducible assumption
    | with_reducible refine State.modPort_evo ?_
    | with_reducible refine State.latOut_evo ?_
    | (with_reducible refine upd_evo ?_; with_reducible assumption)
    | (with_reducible refine upd_evo ?_; with_reducible refine upd_evo ?_; with_reducible assumption)

theorem State.modLat_evo {K : Kinds} {s0 s : State} {f : LatSt → LatSt} (h : Evolve K s0 s) :
    Evolve K s0 (State.modLat s f) := by
  unfold State.modLat
  repeat' first
    | with_reducible assumption
    | (with_reducible refine upd_evo ?_; with_reducible assumption)
    | (with_reducible refine upd_evo ?_; with_reducible refine upd_evo ?_; with_reducible assumption)

theorem State.modStation_evo {K : Kinds} {s0 s : State} {k : Nat} {f : StationSt → StationSt} (h : Evolve K s0 s) :
    Evolve K s0 (State.modStation s k f) := by
  unfold State.modStation
  repeat' first
    | with_reducible assumption
    | with_reducible refine State.modLat_evo ?_
    | (with_reducible refine upd_evo ?_; with_reducible assumption)
    | (with_reducible refine upd_evo ?_; with_reducible refine upd_evo ?_; with_reducible assumption)

theorem State.stationLost_evo {K : Kinds} {s0 s : State} {k cause : Nat} (h : Evolve K s0 s) :
    Evolve K s0 (State.stationLost s k cause) := by
  unfold State.stationLost
  repeat' first
    | with_reducible assumption
    | (intro x; refine cut_evo (k := K) (s0 := s0) (x := x) ?_ ?_; rotate_left; intro hx; clear_value x; rotate_left; subst x)
    | (intro x; clear_value x)
    | lift_lets
    | with_reducible refine State.setN_evo ?_
    | with_reducible refine State.bump_evo ?_
    | with_reducible refine State.raise_evo ?_
    | with_reducible refine State.modStation_evo ?_
    | (with_reducible refine upd_evo ?_; with_reducible assumption)
    | (with_reducible refine upd_evo ?_; with_reducible refine upd_evo ?_; with_reducible assumption)

theorem State.modCan_evo {K : Kinds} {s0 s : State} {ch : Nat} {f : CanSt → CanSt} (h : Evolve K s0 s) :
    Evolve K s0 (State.modCan s ch f) := by
  exact .free h rfl (by simp [State.modCan, State.lens]) (.inr rfl) (.inr rfl) (.inr rfl) (.inr rfl) (.inr rfl)

theorem State.canShow_evo {K : Kinds} {s0 s : State} (h : Evolve K s0 s) :
    Evolve K s0 (State.canShow s) := by
  unfold State.canShow
  repeat' first
    | with_reducible assumption
    | (intro x; refine cut_evo (k := K) (s0 := s0) (x := x) ?_ ?_; rotate_left; intro hx; clear_value x; rotate_left; subst x)
    | (intro x; clear_value x)
    | lift_lets
    | with_reducible refine ite_evo (fun _ => ?_) (fun _ => ?_)
    | with_reducible refine State.setN_evo ?_
    | (with_reducible refine State.each_evo ?_ (fun s i h => ?_))
    | with_reducible refine State.stationLost_evo ?_
    | with_reducible refine State.modCan_evo ?_
    | (with_reducible refine upd_evo ?_; with_reducible assumption)
    | (with_reducible refine upd_evo ?_; with_reducible refine upd_evo ?_; with_reducible assumption)

theorem State.ethShow_evo {K : Kinds} {s0 s : State} (h : Evolve K s0 s) :
    Evolve K s0 (State.ethShow s) := by
  unfold State.ethShow
  repeat' first
    | with_reducible assumption
    | with_reducible refine State.setN_evo ?_
    | (with_reducible refine State.each_evo ?_ (fun s i h => ?_))

theorem State.modTime_evo {K : Kinds} {s0 s : State} {f : TimeSt → TimeSt} (h : Evolve K s0 s) :
    Evolve K s0 (State.modTime s f) := by
  unfold State.modTime
  repeat' first
    | with_reducible assumption
    | (with_reducible refine upd_evo ?_; with_reducible assumption)
    | (with_reducible refine upd_evo ?_; with_reducible refine upd_evo ?_; with_reducible assumption)

theorem State.showValid_evo {K : Kinds} {s0 s : State} {cause : Nat} (h : Evolve K s0 s) :
    Evolve K s0 (State.showValid s cause) := by
  unfold State.showValid
  repeat' first
    | with_reducible assumption
    | (intro x; refine cut_evo (k := K) (s0 := s0) (x := x) ?_ ?_; rotate_left; intro hx; clear_value x; rotate_left; subst x)
    | (intro x; clear_value x)
    | lift_lets
    | with_reducible refine State.setN_evo ?_
    | (with_reducible refine State.onlyIf_evo ?_ (fun s h => ?_))
    | with_reducible refine State.raise_evo ?_

theorem State.setTimeState_evo {K : Kinds} {s0 s : State} {new cause : Nat} (h : Evolve K s0 s) :
    Evolve K s0 (State.setTimeState s new cause) := by
  unfold State.setTimeState
  repeat' first
    | with_reducible assumption
    | (intro x; refine cut_evo (k := K) (s0 := s0) (x := x) ?_ ?_; rotate_left; intro hx; clear_value x; rotate_left; subst x)
    | (intro x; clear_value x)
    | lift_lets
    | with_reducible refine ite_evo (fun _ => ?_) (fun _ => ?_)
    | with_reducible refine State.setN_evo ?_
    | with_reducible refine State.raise_evo ?_
    | with_reducible refine State.showValid_evo ?_

theorem State.modTout_evo {K : Kinds} {s0 s : State} {k : Nat} {f : ToutSt → ToutSt} (h : Evolve K s0 s) :
    Evolve K s0 (State.modTout s k f) := by
  exact .free h rfl (by simp [State.modTout, State.lens]) (.inr rfl) (.inr rfl) (.inr rfl) (.inr rfl) (.inr rfl)

theorem State.toutFire_evo {K : Kinds} {s0 s : State} {k : Nat} (h : Evolve K s0 s) :
    Evolve K s0 (State.toutFire s k) := by
  unfold State.toutFire
  repeat' first
    | with_reducible assumption
    | with_reducible refine State.modTout_evo ?_
    | (with_reducible refine upd_evo ?_; with_reducible assumption)
    | (with_reducible refine upd_evo ?_; with_reducible refine upd_evo ?_; with_reducible assumption)

theorem State.toutStep_evo {K : Kinds} {s0 s : State} {k old new : Nat} (h : Evolve K s0 s) :
    Evolve K s0 (State.toutStep s k old new) := by
  unfold State.toutStep
  repeat' first
    | with_reducible assumption
    | (intro x; refine cut_evo (k := K) (s0 := s0) (x := x) ?_ ?_; rotate_left; intro hx; clear_value x; rotate_left; subst x)
    | (intro x; clear_value x)
    | lift_lets
    | with_reducible refine ite_evo (fun _ => ?_) (fun _ => ?_)
    | with_reducible refine State.setN_evo ?_
    | with_reducible refine State.bumpBy_evo ?_
    | with_reducible refine State.bump_evo ?_
    | with_reducible refine State.raise_evo ?_
    | with_reducible refine State.modTout_evo ?_
    | with_reducible refine State.toutFire_evo ?_
    | (with_reducible refine upd_evo ?_; with_reducible assumption)
    | (with_reducible refine upd_evo ?_; with_reducible refine upd_evo ?_; with_reducible assumption)

theorem State.timeStepBy_evo {K : Kinds} {s0 s : State} {d : Int} {marker : Nat} (h : Evolve K s0 s) :
    Evolve K s0 (State.timeStepBy s d marker) := by
  unfold State.timeStepBy
  repeat' first
    | with_reducible assumption
    | (intro x; refine cut_evo (k := K) (s0 := s0) (x := x) ?_ ?_; rotate_left; intro hx; clear_value x; rotate_left; subst x)
    | (intro x; clear_value x)
    | lift_lets
    | with_reducible refine State.setZ_evo ?_
    | with_reducible refine State.bump_evo ?_
    | (with_reducible refine State.each_evo ?_ (fun s i h => ?_))
    | with_reducible refine State.raise_evo ?_
    | with_reducible refine State.modTime_evo ?_
    | with_reducible refine State.showValid_evo ?_
    | with_reducible refine State.toutStep_evo ?_
    | (with_reducible refine upd_evo ?_; with_reducible assumption)
    | (with_reducible refine upd_evo ?_; with_reducible refine upd_evo ?_; with_reducible assumption)

theorem State.modLink_evo {K : Kinds} {s0 s : State} {f : LinkSt → LinkSt} (h : Evolve K s0 s) :
    Evolve K s0 (State.modLink s f) := by
  unfold State.modLink
  repeat' first
    | with_reducible assumption
    | (with_reducible refine upd_evo ?_; with_reducible assumption)
    | (with_reducible refine upd_evo ?_; with_reducible refine upd_evo ?_; with_reducible assumption)

theorem State.bulkAbort_evo {K : Kinds} {s0 s : State} {why : Nat} (h : Evolve K s0 s) :
    Evolve K s0 (State.bulkAbort s why) := by
  unfold State.bulkAbort
  repeat' first
    | with_reducible assumption
    | split
    | (intro x; refine cut_evo (k := K) (s0 := s0) (x := x) ?_ ?_; rotate_left; intro hx; clear_value x; rotate_left; subst x)
    | (intro x; clear_value x)
    | lift_lets
    | with_reducible refine State.setN_evo ?_
    | (with_reducible refine State.onlyIf_evo ?_ (fun s h => ?_))
    | with_reducible refine State.raise_evo ?_
    | with_reducible refine State.modLat_evo ?_
    | with_reducible refine State.modLink_evo ?_
    | (with_reducible refine upd_evo ?_; with_reducible assumption)
    | (with_reducible refine upd_evo ?_; with_reducible refine upd_evo ?_; with_reducible assumption)
    | split

theorem State.endSession_evo {K : Kinds} {s0 s : State} {sid why : Nat} (h : Evolve K s0 s) :
    Evolve K s0 (State.endSession s sid why) := by
  unfold State.endSession
  repeat' first
    | with_reducible assumption
    | split
    | (intro x; refine cut_evo (k := K) (s0 := s0) (x := x) ?_ ?_; rotate_left; intro hx; clear_value x; rotate_left; subst x)
    | (intro x; clear_value x)
    | lift_lets
    | with_reducible refine ite_evo (fun _ => ?_) (fun _ => ?_)
    | with_reducible refine State.setN_evo ?_
    | with_reducible refine State.raise_evo ?_
    | with_reducible refine State.modLink_evo ?_
    | with_reducible refine State.bulkAbort_evo ?_
    | (with_reducible refine upd_evo ?_; with_reducible assumption)
    | (with_reducible refine upd_evo ?_; with_reducible refine upd_evo ?_; with_reducible assumption)
    | split

theorem State.endSessions_evo {K : Kinds} {s0 s : State} {why : Nat} (h : Evolve K s0 s) :
    Evolve K s0 (State.endSessions s why) := by
  unfold State.endSessions
  repeat' first
    | with_reducible assumption
    | with_reducible refine State.endSession_evo ?_
    | (with_reducible refine foldl_evo ?_ (fun s i h => ?_))

theorem State.factoryNet_evo {K : Kinds} {s0 s : State} (h : Evolve K s0 s) :
    Evolve K s0 (State.factoryNet s) := by
  unfold State.factoryNet
  repeat' first
    | with_reducible assumption
    | with_reducible refine words_evo ?_
    | (with_reducible refine upd_evo ?_; with_reducible assumption)
    | (with_reducible refine upd_evo ?_; with_reducible refine upd_evo ?_; with_reducible assumption)
    | split

theorem State.gotoUnit_evo {K : Kinds} {s0 s : State} {u : UnitState} {cause : Nat} (h : Evolve K s0 s) (hk_unit : K.unit = true) :
    Evolve K s0 (State.gotoUnit s u cause) := by
  unfold State.gotoUnit
  repeat' first
    | with_reducible assumption
    | (intro x; refine cut_evo (k := K) (s0 := s0) (x := x) ?_ ?_; rotate_left; intro hx; clear_value x; rotate_left; subst x)
    | (intro x; clear_value x)
    | lift_lets
    | with_reducible refine ite_evo (fun _ => ?_) (fun _ => ?_)
    | with_reducible refine State.setN_evo ?_
    | (with_reducible refine State.onlyIf_evo ?_ (fun s h => ?_))
    | with_reducible refine State.forget_evo ?_
    | with_reducible refine State.canShow_evo ?_
    | with_reducible refine State.ethShow_evo ?_
    | with_reducible refine State.timeStepBy_evo ?_
    | with_reducible refine State.endSessions_evo ?_
    | (with_reducible refine updUnit_evo hk_unit ?_; with_reducible assumption)
    | (with_reducible refine upd_evo ?_; with_reducible assumption)
    | (with_reducible refine upd_evo ?_; with_reducible refine upd_evo ?_; with_reducible assumption)
    | split

theorem State.recompute_evo {K : Kinds} {s0 s : State} {cause : Nat} (h : Evolve K s0 s) (hk_unit : K.unit = true) :
    Evolve K s0 (State.recompute s cause) := by
  unfold State.recompute
  repeat' first
    | with_reducible assumption
    | split
    | with_reducible refine ite_evo (fun _ => ?_) (fun _ => ?_)
    | with_reducible refine State.gotoUnit_evo ?_ hk_unit
    | (with_reducible refine upd_evo ?_; with_reducible assumption)
    | (with_reducible refine upd_evo ?_; with_reducible refine upd_evo ?_; with_reducible assumption)
    | split

theorem State.leaveEnergise_evo {K : Kinds} {s0 s : State} (h : Evolve K s0 s) (hk_unit : K.unit = true) :
    Evolve K s0 (State.leaveEnergise s) := by
  unfold State.leaveEnergise
  repeat' first
    | with_reducible assumption
    | with_reducible refine ite_evo (fun _ => ?_) (fun _ => ?_)
    | with_reducible refine State.gotoUnit_evo ?_ hk_unit
    | with_reducible refine State.recompute_evo ?_ hk_unit

theorem State.injAbort_evo {K : Kinds} {s0 s : State} {code : Nat} (h : Evolve K s0 s) :
    Evolve K s0 (State.injAbort s code) := by
  unfold State.injAbort
  repeat' first
    | with_reducible assumption
    | with_reducible refine ite_evo (fun _ => ?_) (fun _ => ?_)
    | with_reducible refine State.setN_evo ?_
    | with_reducible refine State.raise_evo ?_

theorem State.showIsl_evo {K : Kinds} {s0 s : State} {i : Nat} (h : Evolve K s0 s) :
    Evolve K s0 (State.showIsl s i) := by
  unfold State.showIsl
  repeat' first
    | with_reducible assumption
    | with_reducible refine State.setN_evo ?_

theorem State.chgIsl_evo {K : Kinds} {s0 s : State} {i : Nat} {f : IslSt → IslSt} (h : Evolve K s0 s) :
    Evolve K s0 (State.chgIsl s i f) := by
  unfold State.chgIsl
  repeat' first
    | with_reducible assumption
    | with_reducible refine State.modIsl_evo ?_
    | with_reducible refine State.showIsl_evo ?_

theorem State.showLeg_evo {K : Kinds} {s0 s : State} {l : Nat} (h : Evolve K s0 s) :
    Evolve K s0 (State.showLeg s l) := by
  unfold State.showLeg
  repeat' first
    | with_reducible assumption
    | (intro x; refine cut_evo (k := K) (s0 := s0) (x := x) ?_ ?_; rotate_left; intro hx; clear_value x; rotate_left; subst x)
    | (intro x; clear_value x)
    | lift_lets
    | with_reducible refine State.setBit_evo ?_

theorem State.islDown_evo {K : Kinds} {s0 s : State} {i : Nat} (h : Evolve K s0 s) :
    Evolve K s0 (State.islDown s i) := by
  unfold State.islDown
  repeat' first
    | with_reducible assumption
    | with_reducible refine State.chgIsl_evo ?_

theorem State.islSoft_evo {K : Kinds} {s0 s : State} {i : Nat} (h : Evolve K s0 s) :
    Evolve K s0 (State.islSoft s i) := by
  unfold State.islSoft
  repeat' first
    | with_reducible assumption
    | with_reducible refine State.chgIsl_evo ?_

theorem State.islOff_evo {K : Kinds} {s0 s : State} {i : Nat} (h : Evolve K s0 s) :
    Evolve K s0 (State.islOff s i) := by
  unfold State.islOff
  repeat' first
    | with_reducible assumption
    | with_reducible refine State.modIsl_evo ?_
    | with_reducible refine State.islDown_evo ?_
    | (with_reducible refine upd_evo ?_; with_reducible assumption)
    | (with_reducible refine upd_evo ?_; with_reducible refine upd_evo ?_; with_reducible assumption)

theorem State.dropPending_evo {K : Kinds} {s0 s : State} {i : Nat} (h : Evolve K s0 s) :
    Evolve K s0 (State.dropPending s i) := by
  unfold State.dropPending
  repeat' first
    | with_reducible assumption
    | with_reducible refine ite_evo (fun _ => ?_) (fun _ => ?_)
    | with_reducible refine State.chgIsl_evo ?_
    | (with_reducible refine upd_evo ?_; with_reducible assumption)
    | (with_reducible refine upd_evo ?_; with_reducible refine upd_evo ?_; with_reducible assumption)

theorem State.legOff_evo {K : Kinds} {s0 s : State} {l : Nat} (h : Evolve K s0 s) :
    Evolve K s0 (State.legOff s l) := by
  unfold State.legOff
  repeat' first
    | with_reducible assumption
    | (intro x; refine cut_evo (k := K) (s0 := s0) (x := x) ?_ ?_; rotate_left; intro hx; clear_value x; rotate_left; subst x)
    | (intro x; clear_value x)
    | lift_lets
    | with_reducible refine ite_evo (fun _ => ?_) (fun _ => ?_)
    | with_reducible refine State.setBit_evo ?_
    | with_reducible refine State.modLeg_evo ?_
    | with_reducible refine State.showLeg_evo ?_
    | with_reducible refine State.islOff_evo ?_
    | with_reducible refine State.dropPending_evo ?_
    | (with_reducible refine upd_evo ?_; with_reducible assumption)
    | (with_reducible refine upd_evo ?_; with_reducible refine upd_evo ?_; with_reducible assumption)

theorem State.legsOff_evo {K : Kinds} {s0 s : State} {p : Nat} (h : Evolve K s0 s) :
    Evolve K s0 (State.legsOff s p) := by
  unfold State.legsOff
  repeat' first
    | with_reducible assumption
    | (with_reducible refine State.each_evo ?_ (fun s i h => ?_))
    | with_reducible refine State.legOff_evo ?_

theorem State.dtReset_evo {K : Kinds} {s0 s : State} {p l : Nat} (h : Evolve K s0 s) :
    Evolve K s0 (State.dtReset s p l) := by
  unfold State.dtReset
  repeat' first
    | with_reducible assumption
    | with_reducible refine State.setN_evo ?_
    | (with_reducible refine State.each_evo ?_ (fun s i h => ?_))
    | with_reducible refine State.modLeg_evo ?_
    | (with_reducible refine upd_evo ?_; with_reducible assumption)
    | (with_reducible refine upd_evo ?_; with_reducible refine upd_evo ?_; with_reducible assumption)

theorem State.dtCauseEnd_evo {K : Kinds} {s0 s : State} {p l k : Nat} (h : Evolve K s0 s) :
    Evolve K s0 (State.dtCauseEnd s p l k) := by
  unfold State.dtCauseEnd
  repeat' first
    | with_reducible assumption
    | (intro x; refine cut_evo (k := K) (s0 := s0) (x := x) ?_ ?_; rotate_left; intro hx; clear_value x; rotate_left; subst x)
    | (intro x; clear_value x)
    | lift_lets
    | with_reducible refine ite_evo (fun _ => ?_) (fun _ => ?_)
    | with_reducible refine State.setBit_evo ?_
    | (with_reducible refine State.onlyIf_evo ?_ (fun s h => ?_))
    | with_reducible refine State.raise_evo ?_
    | with_reducible refine State.dtReset_evo ?_

theorem State.dtStart_evo {K : Kinds} {s0 s : State} {p l : Nat} (h : Evolve K s0 s) :
    Evolve K s0 (State.dtStart s p l) := by
  unfold State.dtStart
  repeat' first
    | with_reducible assumption
    | (intro x; refine cut_evo (k := K) (s0 := s0) (x := x) ?_ ?_; rotate_left; intro hx; clear_value x; rotate_left; subst x)
    | (intro x; clear_value x)
    | lift_lets
    | (with_reducible refine State.onlyIf_evo ?_ (fun s h => ?_))
    | with_reducible refine State.dtReset_evo ?_
    | with_reducible refine State.dtCauseEnd_evo ?_

theorem State.modOnState_evo {K : Kinds} {s0 s : State} {p : Nat} {st : PortState} (h : Evolve K s0 s) :
    Evolve K s0 (State.modOnState s p st) := by
  unfold State.modOnState
  repeat' first
    | with_reducible assumption
    | split
    | (intro x; refine cut_evo (k := K) (s0 := s0) (x := x) ?_ ?_; rotate_left; intro hx; clear_value x; rotate_left; subst x)
    | (intro x; clear_value x)
    | lift_lets
    | with_reducible refine State.setN_evo ?_
    | with_reducible refine State.setBit_evo ?_
    | (with_reducible refine State.each_evo ?_ (fun s i h => ?_))
    | (with_reducible refine State.onlyIf_evo ?_ (fun s h => ?_))
    | with_reducible refine State.raise_evo ?_
    | with_reducible refine State.modPort_evo ?_
    | with_reducible refine State.modLeg_evo ?_
    | with_reducible refine State.legsOff_evo ?_
    | with_reducible refine State.dtStart_evo ?_
    | (with_reducible refine upd_evo ?_; with_reducible assumption)
    | (with_reducible refine upd_evo ?_; with_reducible refine upd_evo ?_; with_reducible assumption)
    | split

theorem State.dropExcursion_evo {K : Kinds} {s0 s : State} {p : Nat} (h : Evolve K s0 s) :
    Evolve K s0 (State.dropExcursion s p) := by
  unfold State.dropExcursion
  repeat' first
    | with_reducible assumption
    | with_reducible refine ite_evo (fun _ => ?_) (fun _ => ?_)
    | with_reducible refine State.setN_evo ?_
    | with_reducible refine State.modPort_evo ?_
    | (with_reducible refine upd_evo ?_; with_reducible assumption)
    | (with_reducible refine upd_evo ?_; with_reducible refine upd_evo ?_; with_reducible assumption)

theorem State.glzHold_evo {K : Kinds} {s0 s : State} {p : Nat} (h : Evolve K s0 s) :
    Evolve K s0 (State.glzHold s p) := by
  unfold State.glzHold
  repeat' first
    | with_reducible assumption
    | (intro x; refine cut_evo (k := K) (s0 := s0) (x := x) ?_ ?_; rotate_left; intro hx; clear_value x; rotate_left; subst x)
    | (intro x; clear_value x)
    | lift_lets
    | with_reducible refine ite_evo (fun _ => ?_) (fun _ => ?_)
    | with_reducible refine State.setN_evo ?_
    | with_reducible refine State.setZ_evo ?_
    | with_reducible refine State.setBit_evo ?_
    | with_reducible refine State.modPort_evo ?_
    | (with_reducible refine upd_evo ?_; with_reducible assumption)
    | (with_reducible refine upd_evo ?_; with_reducible refine upd_evo ?_; with_reducible assumption)

theorem State.lawRest_evo {K : Kinds} {s0 s : State} {p : Nat} (h : Evolve K s0 s) :
    Evolve K s0 (State.lawRest s p) := by
  unfold State.lawRest
  repeat' first
    | with_reducible assumption
    | (intro x; refine cut_evo (k := K) (s0 := s0) (x := x) ?_ ?_; rotate_left; intro hx; clear_value x; rotate_left; subst x)
    | (intro x; clear_value x)
    | lift_lets
    | with_reducible refine State.setBit_evo ?_
    | with_reducible refine State.modPort_evo ?_
    | (with_reducible refine upd_evo ?_; with_reducible assumption)
    | (with_reducible refine upd_evo ?_; with_reducible refine upd_evo ?_; with_reducible assumption)

theorem State.fbShow_evo {K : Kinds} {s0 s : State} {p : Nat} (h : Evolve K s0 s) :
    Evolve K s0 (State.fbShow s p) := by
  unfold State.fbShow
  repeat' first
    | with_reducible assumption
    | with_reducible refine State.setN_evo ?_

theorem State.setPortBy_evo {K : Kinds} {s0 s : State} {p : Nat} {st : PortState} {cause : Nat} (h : Evolve K s0 s) (hk_unit : K.unit = true) :
    Evolve K s0 (State.setPortBy s p st cause) := by
  unfold State.setPortBy
  repeat' first
    | with_reducible assumption
    | (intro x; refine cut_evo (k := K) (s0 := s0) (x := x) ?_ ?_; rotate_left; intro hx; clear_value x; rotate_left; subst x)
    | (intro x; clear_value x)
    | lift_lets
    | with_reducible refine ite_evo (fun _ => ?_) (fun _ => ?_)
    | with_reducible refine State.setW_evo ?_
    | with_reducible refine State.setN_evo ?_
    | (with_reducible refine State.onlyIf_evo ?_ (fun s h => ?_))
    | with_reducible refine State.raise_evo ?_
    | with_reducible refine State.modPort_evo ?_
    | with_reducible refine State.latOut_evo ?_
    | with_reducible refine State.dropClose_evo ?_
    | with_reducible refine State.recompute_evo ?_ hk_unit
    | with_reducible refine State.injAbort_evo ?_
    | with_reducible refine State.modOnState_evo ?_
    | with_reducible refine State.dropExcursion_evo ?_
    | with_reducible refine State.glzHold_evo ?_
    | with_reducible refine State.lawRest_evo ?_
    | with_reducible refine State.fbShow_evo ?_
    | (with_reducible refine upd_evo ?_; with_reducible assumption)
    | (with_reducible refine upd_evo ?_; with_reducible refine upd_evo ?_; with_reducible assumption)

theorem State.setPort_evo {K : Kinds} {s0 s : State} {p : Nat} {st : PortState} (h : Evolve K s0 s) (hk_unit : K.unit = true) :
    Evolve K s0 (State.setPort s p st) := by
  unfold State.setPort
  repeat' first
    | with_reducible assumption
    | with_reducible refine State.setPortBy_evo ?_ hk_unit

theorem State.autoPrune_evo {K : Kinds} {s0 s : State} {p : Nat} (h : Evolve K s0 s) :
    Evolve K s0 (State.autoPrune s p) := by
  unfold State.autoPrune
  repeat' first
    | with_reducible assumption
    | (intro x; refine cut_evo (k := K) (s0 := s0) (x := x) ?_ ?_; rotate_left; intro hx; clear_value x; rotate_left; subst x)
    | (intro x; clear_value x)
    | lift_lets
    | with_reducible refine State.setN_evo ?_
    | with_reducible refine State.modPort_evo ?_
    | (with_reducible refine upd_evo ?_; with_reducible assumption)
    | (with_reducible refine upd_evo ?_; with_reducible refine upd_evo ?_; with_reducible assumption)

theorem State.autoArm_evo {K : Kinds} {s0 s : State} {p : Nat} (h : Evolve K s0 s) :
    Evolve K s0 (State.autoArm s p) := by
  unfold State.autoArm
  repeat' first
    | with_reducible assumption
    | (intro x; refine cut_evo (k := K) (s0 := s0) (x := x) ?_ ?_; rotate_left; intro hx; clear_value x; rotate_left; subst x)
    | (intro x; clear_value x)
    | lift_lets
    | with_reducible refine ite_evo (fun _ => ?_) (fun _ => ?_)
    | with_reducible refine State.setBit_evo ?_
    | with_reducible refine State.raise_evo ?_
    | with_reducible refine State.modPort_evo ?_
    | with_reducible refine State.autoPrune_evo ?_
    | (with_reducible refine upd_evo ?_; with_reducible assumption)
    | (with_reducible refine upd_evo ?_; with_reducible refine upd_evo ?_; with_reducible assumption)

theorem State.autoStart_evo {K : Kinds} {s0 s : State} {p maskBit : Nat} (h : Evolve K s0 s) :
    Evolve K s0 (State.autoStart s p maskBit) := by
  unfold State.autoStart
  repeat' first
    | with_reducible assumption
    | with_reducible refine ite_evo (fun _ => ?_) (fun _ => ?_)
    | with_reducible refine State.autoArm_evo ?_

theorem State.recordPhases_evo {K : Kinds} {s0 s : State} {p : Nat} (h : Evolve K s0 s) :
    Evolve K s0 (State.recordPhases s p) := by
  unfold State.recordPhases
  repeat' first
    | with_reducible assumption
    | with_reducible refine State.setN_evo ?_
    | (with_reducible refine State.each_evo ?_ (fun s i h => ?_))

theorem State.portFault_evo {K : Kinds} {s0 s : State} {p code : Nat} {open_ auto : Bool} (h : Evolve K s0 s) (hk_unit : K.unit = true) :
    Evolve K s0 (State.portFault s p code open_ auto) := by
  unfold State.portFault
  repeat' first
    | with_reducible assumption
    | (intro x; refine cut_evo (k := K) (s0 := s0) (x := x) ?_ ?_; rotate_left; intro hx; clear_value x; rotate_left; subst x)
    | (intro x; clear_value x)
    | lift_lets
    | with_reducible refine ite_evo (fun _ => ?_) (fun _ => ?_)
    | with_reducible refine State.setN_evo ?_
    | with_reducible refine State.setBit_evo ?_
    | (with_reducible refine State.onlyIf_evo ?_ (fun s h => ?_))
    | with_reducible refine State.modPort_evo ?_
    | with_reducible refine State.askOpen_evo ?_
    | with_reducible refine State.setPort_evo ?_ hk_unit
    | with_reducible refine State.autoStart_evo ?_
    | (with_reducible refine upd_evo ?_; with_reducible assumption)
    | (with_reducible refine upd_evo ?_; with_reducible refine upd_evo ?_; with_reducible assumption)

theorem State.setEnable_evo {K : Kinds} {s0 s : State} {b : Bool} {i : Nat} (h : Evolve K s0 s) :
    Evolve K s0 (State.setEnable s b i) := by
  unfold State.setEnable
  repeat' first
    | with_reducible assumption
    | (intro x; refine cut_evo (k := K) (s0 := s0) (x := x) ?_ ?_; rotate_left; intro hx; clear_value x; rotate_left; subst x)
    | (intro x; clear_value x)
    | lift_lets
    | with_reducible refine ite_evo (fun _ => ?_) (fun _ => ?_)
    | (with_reducible refine State.onlyIf_evo ?_ (fun s h => ?_))
    | with_reducible refine State.chgIsl_evo ?_
    | with_reducible refine State.showLeg_evo ?_
    | with_reducible refine State.islDown_evo ?_
    | (with_reducible refine upd_evo ?_; with_reducible assumption)
    | (with_reducible refine upd_evo ?_; with_reducible refine upd_evo ?_; with_reducible assumption)

theorem State.setEnables_evo {K : Kinds} {s0 s : State} {b : Bool} (h : Evolve K s0 s) (hk_unit : K.unit = true) :
    Evolve K s0 (State.setEnables s b) := by
  unfold State.setEnables
  repeat' first
    | with_reducible assumption
    | (intro x; refine cut_evo (k := K) (s0 := s0) (x := x) ?_ ?_; rotate_left; intro hx; clear_value x; rotate_left; subst x)
    | (intro x; clear_value x)
    | lift_lets
    | with_reducible refine ite_evo (fun _ => ?_) (fun _ => ?_)
    | (with_reducible refine State.each_evo ?_ (fun s i h => ?_))
    | with_reducible refine State.setEnable_evo ?_
    | (with_reducible refine updUnit_evo hk_unit ?_; with_reducible assumption)
    | (with_reducible refine upd_evo ?_; with_reducible assumption)
    | (with_reducible refine upd_evo ?_; with_reducible refine upd_evo ?_; with_reducible assumption)

theorem State.innerEnables_evo {K : Kinds} {s0 s : State} (h : Evolve K s0 s) (hk_unit : K.unit = true) :
    Evolve K s0 (State.innerEnables s) := by
  unfold State.innerEnables
  repeat' first
    | with_reducible assumption
    | (intro x; refine cut_evo (k := K) (s0 := s0) (x := x) ?_ ?_; rotate_left; intro hx; clear_value x; rotate_left; subst x)
    | (intro x; clear_value x)
    | lift_lets
    | with_reducible refine ite_evo (fun _ => ?_) (fun _ => ?_)
    | (with_reducible refine State.each_evo ?_ (fun s i h => ?_))
    | with_reducible refine State.setEnable_evo ?_
    | (with_reducible refine updUnit_evo hk_unit ?_; with_reducible refine State.each_evo ?_ (fun s i h => ?_))
    | (with_reducible refine updUnit_evo hk_unit ?_; with_reducible assumption)
    | (with_reducible refine upd_evo ?_; with_reducible assumption)
    | (with_reducible refine upd_evo ?_; with_reducible refine upd_evo ?_; with_reducible assumption)
    | split

theorem State.modSaf_evo {K : Kinds} {s0 s : State} {f : SafSt → SafSt} (h : Evolve K s0 s) :
    Evolve K s0 (State.modSaf s f) := by
  unfold State.modSaf
  repeat' first
    | with_reducible assumption
    | (with_reducible refine upd_evo ?_; with_reducible assumption)
    | (with_reducible refine upd_evo ?_; with_reducible refine upd_evo ?_; with_reducible assumption)

theorem State.safApply_evo {K : Kinds} {s0 s : State} (h : Evolve K s0 s) (hk_unit : K.unit = true) :
    Evolve K s0 (State.safApply s) := by
  unfold State.safApply
  repeat' first
    | with_reducible assumption
    | (intro x; refine cut_evo (k := K) (s0 := s0) (x := x) ?_ ?_; rotate_left; intro hx; clear_value x; rotate_left; subst x)
    | (intro x; clear_value x)
    | lift_lets
    | with_reducible refine ite_evo (fun _ => ?_) (fun _ => ?_)
    | with_reducible refine State.setN_evo ?_
    | (with_reducible refine State.each_evo ?_ (fun s i h => ?_))
    | (with_reducible refine State.onlyIf_evo ?_ (fun s h => ?_))
    | with_reducible refine State.portFault_evo ?_ hk_unit
    | with_reducible refine State.setEnables_evo ?_ hk_unit
    | with_reducible refine State.modSaf_evo ?_
    | (with_reducible refine upd_evo ?_; with_reducible assumption)
    | (with_reducible refine upd_evo ?_; with_reducible refine upd_evo ?_; with_reducible assumption)

theorem State.safCause_evo {K : Kinds} {s0 s : State} {c : Nat × Nat} (h : Evolve K s0 s) :
    Evolve K s0 (State.safCause s c) := by
  unfold State.safCause
  repeat' first
    | with_reducible assumption
    | (intro x; refine cut_evo (k := K) (s0 := s0) (x := x) ?_ ?_; rotate_left; intro hx; clear_value x; rotate_left; subst x)
    | (intro x; refine cutSnd_evo (k := K) (s0 := s0) (x := x) ?_ ?_; rotate_left; intro hx; clear_value x; rotate_left; subst x)
    | (intro x; clear_value x)
    | lift_lets
    | with_reducible refine State.setN_evo ?_
    | (with_reducible refine State.onlyIf_evo ?_ (fun s h => ?_))
    | with_reducible refine State.raise_evo ?_

theorem State.safOnset_evo {K : Kinds} {s0 s : State} {cs : List (Nat × Nat)} (h : Evolve K s0 s) (hk_unit : K.unit = true) :
    Evolve K s0 (State.safOnset s cs) := by
  unfold State.safOnset
  repeat' first
    | with_reducible assumption
    | (intro x; refine cut_evo (k := K) (s0 := s0) (x := x) ?_ ?_; rotate_left; intro hx; clear_value x; rotate_left; subst x)
    | (intro x; clear_value x)
    | lift_lets
    | with_reducible refine ite_evo (fun _ => ?_) (fun _ => ?_)
    | with_reducible refine State.bump_evo ?_
    | with_reducible refine State.gotoUnit_evo ?_ hk_unit
    | with_reducible refine State.safCause_evo ?_
    | (with_reducible refine foldl_evo ?_ (fun s i h => ?_))
    | (with_reducible refine foldlFst_evo ?_ (fun a x h => ?_))
    | (dsimp only; with_reducible assumption)
    | (with_reducible refine updUnit_evo hk_unit ?_; with_reducible assumption)
    | (with_reducible refine upd_evo ?_; with_reducible assumption)
    | (with_reducible refine upd_evo ?_; with_reducible refine upd_evo ?_; with_reducible assumption)

theorem State.safFaults_evo {K : Kinds} {s0 s : State} {cs : List (Nat × Nat)} (h : Evolve K s0 s) (hk_unit : K.unit = true) :
    Evolve K s0 (State.safFaults s cs) := by
  unfold State.safFaults
  repeat' first
    | with_reducible assumption
    | (intro x; refine cut_evo (k := K) (s0 := s0) (x := x) ?_ ?_; rotate_left; intro hx; clear_value x; rotate_left; subst x)
    | (intro x; clear_value x)
    | lift_lets
    | with_reducible refine State.modSaf_evo ?_
    | with_reducible refine State.safApply_evo ?_ hk_unit
    | with_reducible refine State.safOnset_evo ?_ hk_unit
    | (with_reducible refine upd_evo ?_; with_reducible assumption)
    | (with_reducible refine upd_evo ?_; with_reducible refine upd_evo ?_; with_reducible assumption)

theorem State.safRecognise_evo {K : Kinds} {s0 s : State} {cs extra : List (Nat × Nat)} {all : Bool} (h : Evolve K s0 s) (hk_unit : K.unit = true) :
    Evolve K s0 (State.safRecognise s cs extra all) := by
  unfold State.safRecognise
  repeat' first
    | with_reducible assumption
    | (intro x; refine cut_evo (k := K) (s0 := s0) (x := x) ?_ ?_; rotate_left; intro hx; clear_value x; rotate_left; subst x)
    | (intro x; clear_value x)
    | lift_lets
    | with_reducible refine State.fresh_evo ?_
    | with_reducible refine State.modSaf_evo ?_
    | with_reducible refine State.safApply_evo ?_ hk_unit
    | with_reducible refine State.safOnset_evo ?_ hk_unit
    | (refine snd_evo (by assumption) ?_)
    | (refine fst_evo (by assumption) ?_)
    | (with_reducible refine upd_evo ?_; with_reducible assumption)
    | (with_reducible refine upd_evo ?_; with_reducible refine upd_evo ?_; with_reducible assumption)

theorem State.safDemands_evo {K : Kinds} {s0 s : State} {all : Bool} (h : Evolve K s0 s) (hk_unit : K.unit = true) :
    Evolve K s0 (State.safDemands s all) := by
  unfold State.safDemands
  repeat' first
    | with_reducible assumption
    | with_reducible refine State.safRecognise_evo ?_ hk_unit

theorem State.showFit_evo {K : Kinds} {s0 s : State} (h : Evolve K s0 s) :
    Evolve K s0 (State.showFit s) := by
  unfold State.showFit
  repeat' first
    | with_reducible assumption
    | (intro x; refine cut_evo (k := K) (s0 := s0) (x := x) ?_ ?_; rotate_left; intro hx; clear_value x; rotate_left; subst x)
    | (intro x; clear_value x)
    | lift_lets
    | with_reducible refine ite_evo (fun _ => ?_) (fun _ => ?_)
    | with_reducible refine State.setN_evo ?_

theorem State.setUnfit_evo {K : Kinds} {s0 s : State} {reason : Nat} {on : Bool} (h : Evolve K s0 s) :
    Evolve K s0 (State.setUnfit s reason on) := by
  unfold State.setUnfit
  repeat' first
    | with_reducible assumption
    | (intro x; refine cut_evo (k := K) (s0 := s0) (x := x) ?_ ?_; rotate_left; intro hx; clear_value x; rotate_left; subst x)
    | (intro x; clear_value x)
    | lift_lets
    | with_reducible refine ite_evo (fun _ => ?_) (fun _ => ?_)
    | (with_reducible refine State.onlyIf_evo ?_ (fun s h => ?_))
    | with_reducible refine State.raise_evo ?_
    | with_reducible refine State.showFit_evo ?_
    | (with_reducible refine upd_evo ?_; with_reducible assumption)
    | (with_reducible refine upd_evo ?_; with_reducible refine upd_evo ?_; with_reducible assumption)

theorem State.setFarUnfit_evo {K : Kinds} {s0 s : State} {reason : Nat} (h : Evolve K s0 s) :
    Evolve K s0 (State.setFarUnfit s reason) := by
  unfold State.setFarUnfit
  repeat' first
    | with_reducible assumption
    | (intro x; refine cut_evo (k := K) (s0 := s0) (x := x) ?_ ?_; rotate_left; intro hx; clear_value x; rotate_left; subst x)
    | (intro x; clear_value x)
    | lift_lets
    | (with_reducible refine State.onlyIf_evo ?_ (fun s h => ?_))
    | with_reducible refine State.raise_evo ?_
    | with_reducible refine State.showFit_evo ?_
    | (with_reducible refine upd_evo ?_; with_reducible assumption)
    | (with_reducible refine upd_evo ?_; with_reducible refine upd_evo ?_; with_reducible assumption)

theorem State.announceGiveUp_evo {K : Kinds} {s0 s : State} {cause release : Nat} (h : Evolve K s0 s) :
    Evolve K s0 (State.announceGiveUp s cause release) := by
  unfold State.announceGiveUp
  repeat' first
    | with_reducible assumption
    | (intro x; refine cut_evo (k := K) (s0 := s0) (x := x) ?_ ?_; rotate_left; intro hx; clear_value x; rotate_left; subst x)
    | (intro x; clear_value x)
    | lift_lets
    | with_reducible refine ite_evo (fun _ => ?_) (fun _ => ?_)
    | with_reducible refine State.bump_evo ?_
    | with_reducible refine State.raise_evo ?_
    | (with_reducible refine upd_evo ?_; with_reducible assumption)
    | (with_reducible refine upd_evo ?_; with_reducible refine upd_evo ?_; with_reducible assumption)

theorem State.dropBiscuit_evo {K : Kinds} {s0 s : State} {cause release : Nat} (h : Evolve K s0 s) :
    Evolve K s0 (State.dropBiscuit s cause release) := by
  unfold State.dropBiscuit
  repeat' first
    | with_reducible assumption
    | (intro x; refine cut_evo (k := K) (s0 := s0) (x := x) ?_ ?_; rotate_left; intro hx; clear_value x; rotate_left; subst x)
    | (intro x; clear_value x)
    | lift_lets
    | with_reducible refine ite_evo (fun _ => ?_) (fun _ => ?_)
    | with_reducible refine State.setN_evo ?_
    | with_reducible refine State.announceGiveUp_evo ?_
    | (with_reducible refine upd_evo ?_; with_reducible assumption)
    | (with_reducible refine upd_evo ?_; with_reducible refine upd_evo ?_; with_reducible assumption)

theorem State.holdNow_evo {K : Kinds} {s0 s : State} {cause : Nat} (h : Evolve K s0 s) (hk_unit : K.unit = true) :
    Evolve K s0 (State.holdNow s cause) := by
  unfold State.holdNow
  repeat' first
    | with_reducible assumption
    | split
    | (intro x; refine cut_evo (k := K) (s0 := s0) (x := x) ?_ ?_; rotate_left; intro hx; clear_value x; rotate_left; subst x)
    | (intro x; clear_value x)
    | lift_lets
    | with_reducible refine ite_evo (fun _ => ?_) (fun _ => ?_)
    | (with_reducible refine State.each_evo ?_ (fun s i h => ?_))
    | with_reducible refine State.gotoUnit_evo ?_ hk_unit
    | with_reducible refine State.portFault_evo ?_ hk_unit
    | with_reducible refine State.setEnables_evo ?_ hk_unit
    | with_reducible refine State.safApply_evo ?_ hk_unit
    | with_reducible refine State.dropBiscuit_evo ?_
    | (with_reducible refine upd_evo ?_; with_reducible assumption)
    | (with_reducible refine upd_evo ?_; with_reducible refine upd_evo ?_; with_reducible assumption)
    | split

theorem State.enterFaultHold_evo {K : Kinds} {s0 s : State} {cause : Nat} (h : Evolve K s0 s) (hk_unit : K.unit = true) :
    Evolve K s0 (State.enterFaultHold s cause) := by
  unfold State.enterFaultHold
  repeat' first
    | with_reducible assumption
    | (intro x; refine cut_evo (k := K) (s0 := s0) (x := x) ?_ ?_; rotate_left; intro hx; clear_value x; rotate_left; subst x)
    | (intro x; clear_value x)
    | lift_lets
    | with_reducible refine ite_evo (fun _ => ?_) (fun _ => ?_)
    | with_reducible refine State.announceGiveUp_evo ?_
    | with_reducible refine State.holdNow_evo ?_ hk_unit
    | (with_reducible refine upd_evo ?_; with_reducible assumption)
    | (with_reducible refine upd_evo ?_; with_reducible refine upd_evo ?_; with_reducible assumption)

theorem State.leaveStopping_evo {K : Kinds} {s0 s : State} (h : Evolve K s0 s) (hk_unit : K.unit = true) :
    Evolve K s0 (State.leaveStopping s) := by
  unfold State.leaveStopping
  repeat' first
    | with_reducible assumption
    | (intro x; refine cut_evo (k := K) (s0 := s0) (x := x) ?_ ?_; rotate_left; intro hx; clear_value x; rotate_left; subst x)
    | (intro x; clear_value x)
    | lift_lets
    | with_reducible refine ite_evo (fun _ => ?_) (fun _ => ?_)
    | (with_reducible refine State.each_evo ?_ (fun s i h => ?_))
    | with_reducible refine State.modPort_evo ?_
    | with_reducible refine State.gotoUnit_evo ?_ hk_unit
    | with_reducible refine State.enterFaultHold_evo ?_ hk_unit
    | (with_reducible refine upd_evo ?_; with_reducible assumption)
    | (with_reducible refine upd_evo ?_; with_reducible refine upd_evo ?_; with_reducible assumption)

theorem State.faultPend_evo {K : Kinds} {s0 s : State} {p code : Nat} (h : Evolve K s0 s) :
    Evolve K s0 (State.faultPend s p code) := by
  unfold State.faultPend
  repeat' first
    | with_reducible assumption
    | with_reducible refine ite_evo (fun _ => ?_) (fun _ => ?_)
    | with_reducible refine State.setN_evo ?_
    | with_reducible refine State.modPort_evo ?_
    | with_reducible refine State.autoStart_evo ?_
    | (with_reducible refine upd_evo ?_; with_reducible assumption)
    | (with_reducible refine upd_evo ?_; with_reducible refine upd_evo ?_; with_reducible assumption)

theorem State.protStop_evo {K : Kinds} {s0 s : State} {p cause : Nat} {soft : Bool} (h : Evolve K s0 s) :
    Evolve K s0 (State.protStop s p cause soft) := by
  unfold State.protStop
  repeat' first
    | with_reducible assumption
    | (intro x; refine cut_evo (k := K) (s0 := s0) (x := x) ?_ ?_; rotate_left; intro hx; clear_value x; rotate_left; subst x)
    | (intro x; clear_value x)
    | lift_lets
    | with_reducible refine ite_evo (fun _ => ?_) (fun _ => ?_)
    | with_reducible refine State.setN_evo ?_
    | with_reducible refine State.bump_evo ?_
    | (with_reducible refine State.each_evo ?_ (fun s i h => ?_))
    | (with_reducible refine State.onlyIf_evo ?_ (fun s h => ?_))
    | with_reducible refine State.raise_evo ?_
    | with_reducible refine State.modPort_evo ?_
    | with_reducible refine State.islSoft_evo ?_
    | with_reducible refine State.legsOff_evo ?_
    | with_reducible refine State.autoStart_evo ?_
    | with_reducible refine State.recordPhases_evo ?_
    | (with_reducible refine upd_evo ?_; with_reducible assumption)
    | (with_reducible refine upd_evo ?_; with_reducible refine upd_evo ?_; with_reducible assumption)

theorem State.protSources_evo {K : Kinds} {s0 s : State} {p : Nat} (h : Evolve K s0 s) :
    Evolve K s0 (State.protSources s p) := by
  unfold State.protSources
  repeat' first
    | with_reducible assumption
    | (intro x; refine cut_evo (k := K) (s0 := s0) (x := x) ?_ ?_; rotate_left; intro hx; clear_value x; rotate_left; subst x)
    | (intro x; clear_value x)
    | lift_lets
    | with_reducible refine State.setBit_evo ?_

theorem State.latchLeg_evo {K : Kinds} {s0 s : State} {l cause island : Nat} {softs : List Nat} (h : Evolve K s0 s) :
    Evolve K s0 (State.latchLeg s l cause island softs) := by
  unfold State.latchLeg
  repeat' first
    | with_reducible assumption
    | (intro x; refine cut_evo (k := K) (s0 := s0) (x := x) ?_ ?_; rotate_left; intro hx; clear_value x; rotate_left; subst x)
    | (intro x; clear_value x)
    | lift_lets
    | with_reducible refine ite_evo (fun _ => ?_) (fun _ => ?_)
    | with_reducible refine State.setN_evo ?_
    | with_reducible refine State.bump_evo ?_
    | (with_reducible refine State.each_evo ?_ (fun s i h => ?_))
    | with_reducible refine State.raise_evo ?_
    | with_reducible refine State.chgIsl_evo ?_
    | with_reducible refine State.islSoft_evo ?_
    | with_reducible refine State.legOff_evo ?_
    | (with_reducible refine upd_evo ?_; with_reducible assumption)
    | (with_reducible refine upd_evo ?_; with_reducible refine upd_evo ?_; with_reducible assumption)

theorem State.legDecision_evo {K : Kinds} {s0 s : State} {p : Nat} (h : Evolve K s0 s) :
    Evolve K s0 (State.legDecision s p) := by
  unfold State.legDecision
  repeat' first
    | with_reducible assumption
    | (intro x; refine cut_evo (k := K) (s0 := s0) (x := x) ?_ ?_; rotate_left; intro hx; clear_value x; rotate_left; subst x)
    | (intro x; clear_value x)
    | lift_lets
    | with_reducible refine ite_evo (fun _ => ?_) (fun _ => ?_)
    | with_reducible refine State.setZ_evo ?_
    | with_reducible refine State.setBit_evo ?_
    | with_reducible refine State.raise_evo ?_
    | with_reducible refine State.modPort_evo ?_
    | with_reducible refine State.protStop_evo ?_
    | (with_reducible refine upd_evo ?_; with_reducible assumption)
    | (with_reducible refine upd_evo ?_; with_reducible refine upd_evo ?_; with_reducible assumption)
    | split

theorem State.latchFault_evo {K : Kinds} {s0 s : State} {l cause island : Nat} {softs : List Nat} (h : Evolve K s0 s) :
    Evolve K s0 (State.latchFault s l cause island softs).2 := by
  unfold State.latchFault
  repeat' first
    | with_reducible assumption
    | split
    | (intro x; refine cut_evo (k := K) (s0 := s0) (x := x) ?_ ?_; rotate_left; intro hx; clear_value x; rotate_left; subst x)
    | (intro x; clear_value x)
    | lift_lets
    | with_reducible refine ite_evo (fun _ => ?_) (fun _ => ?_)
    | with_reducible refine State.setBit_evo ?_
    | (with_reducible refine State.each_evo ?_ (fun s i h => ?_))
    | (with_reducible refine State.onlyIf_evo ?_ (fun s h => ?_))
    | with_reducible refine State.modPort_evo ?_
    | with_reducible refine State.islSoft_evo ?_
    | with_reducible refine State.protSources_evo ?_
    | with_reducible refine State.latchLeg_evo ?_
    | (with_reducible refine iteSnd_evo (fun _ => ?_) (fun _ => ?_))
    | (with_reducible refine foldlSnd_evo ?_ (fun a x h => ?_))
    | (with_reducible refine upd_evo ?_; with_reducible assumption)
    | (with_reducible refine upd_evo ?_; with_reducible refine upd_evo ?_; with_reducible assumption)
    | split
    | dsimp only

theorem State.faultRun_evo {K : Kinds} {s0 s : State} {p n : Nat} (h : Evolve K s0 s) :
    Evolve K s0 (State.faultRun s p n) := by
  unfold State.faultRun
  repeat' first
    | with_reducible assumption
    | (intro x; refine cut_evo (k := K) (s0 := s0) (x := x) ?_ ?_; rotate_left; intro hx; clear_value x; rotate_left; subst x)
    | (intro x; clear_value x)
    | lift_lets
    | with_reducible refine ite_evo (fun _ => ?_) (fun _ => ?_)
    | with_reducible refine State.modPort_evo ?_
    | with_reducible refine State.protStop_evo ?_
    | (with_reducible refine upd_evo ?_; with_reducible assumption)
    | (with_reducible refine upd_evo ?_; with_reducible refine upd_evo ?_; with_reducible assumption)

theorem State.legFaults_evo {K : Kinds} {s0 s : State} {fs : List (Nat × Nat × Nat)} {softs : List Nat} (h : Evolve K s0 s) :
    Evolve K s0 (State.legFaults s fs softs) := by
  unfold State.legFaults
  repeat' first
    | with_reducible assumption
    | (intro x; refine cut_evo (k := K) (s0 := s0) (x := x) ?_ ?_; rotate_left; intro hx; clear_value x; rotate_left; subst x)
    | (intro x; refine cutSnd_evo (k := K) (s0 := s0) (x := x) ?_ ?_; rotate_left; intro hx; clear_value x; rotate_left; subst x)
    | (intro x; clear_value x)
    | lift_lets
    | with_reducible refine ite_evo (fun _ => ?_) (fun _ => ?_)
    | (with_reducible refine State.each_evo ?_ (fun s i h => ?_))
    | with_reducible refine State.latchFault_evo ?_
    | with_reducible refine State.faultRun_evo ?_
    | (with_reducible refine foldl_evo ?_ (fun s i h => ?_))
    | (with_reducible refine iteSnd_evo (fun _ => ?_) (fun _ => ?_))
    | (with_reducible refine foldlSnd_evo ?_ (fun a x h => ?_))
    | (with_reducible refine foldlFst_evo ?_ (fun a x h => ?_))
    | (dsimp only; with_reducible assumption)
    | (with_reducible refine foldlSnd_evo ?_ (fun a x h => ?_))
    | (dsimp only; with_reducible assumption)
    | (refine snd_evo (by assumption) ?_)
    | (refine fst_evo (by assumption) ?_)
    | split

theorem State.legFault_evo {K : Kinds} {s0 s : State} {l cause island : Nat} {softs : List Nat} (h : Evolve K s0 s) :
    Evolve K s0 (State.legFault s l cause island softs) := by
  unfold State.legFault
  repeat' first
    | with_reducible assumption
    | with_reducible refine State.legFaults_evo ?_

end Sys2Proof.Machine
end

