-- ==== Sys2Proof/Laws/KeptAudit.lean ====
section
/-! SUPPORT. What the functions of Machine/Audit.lean keep: each stays within `Evolve`. -/

set_option Elab.async false
set_option linter.unusedVariables false
set_option linter.unreachableTactic false
set_option linter.unusedTactic false
set_option linter.unusedSimpArgs false

namespace Sys2Proof.Machine

theorem State.logNote_evo {K : Kinds} {s0 s : State} {a : AuditNote} {status : Nat} (h : Evolve K s0 s) :
    Evolve K s0 (State.logNote s a status) := by
  unfold State.logNote
  repeat' first
    | with_reducible assumption
    | (intro x; refine cut_evo (k := K) (s0 := s0) (x := x) ?_ ?_; rotate_left; intro hx; clear_value x; rotate_left; subst x)
    | (intro x; clear_value x)
    | lift_lets
    | with_reducible refine ite_evo (fun _ => ?_) (fun _ => ?_)
    | with_reducible refine State.highWater_evo ?_
    | with_reducible refine State.modLink_evo ?_
    | (with_reducible refine upd_evo ?_; with_reducible assumption)
    | (with_reducible refine upd_evo ?_; with_reducible refine upd_evo ?_; with_reducible assumption)

theorem State.logAfter_evo {K : Kinds} {s0 s t : State} {a : AuditNote} {status : Nat} (h : Evolve K s0 t) :
    Evolve K s0 (s.logAfter a status t) := ite_evo (fun _ => State.modLink_evo h) fun _ => State.logNote_evo h

theorem State.forward_evo {K : Kinds} {s0 s : State} {id : Nat} {v : Word} (h : Evolve K s0 s) :
    Evolve K s0 (State.forward s id v) := by
  unfold State.forward
  repeat' first
    | with_reducible assumption
    | (intro x; refine cut_evo (k := K) (s0 := s0) (x := x) ?_ ?_; rotate_left; intro hx; clear_value x; rotate_left; subst x)
    | (intro x; clear_value x)
    | lift_lets
    | (with_reducible refine upd_evo ?_; with_reducible assumption)
    | (with_reducible refine upd_evo ?_; with_reducible refine upd_evo ?_; with_reducible assumption)

theorem State.inStep_evo {K : Kinds} {s0 s next : State} {ok : Bool} {id : Nat} {v : Word} (h : Evolve K s0 s) (hn : Evolve K s0 next) :
    Evolve K s0 (s.inStep ok id v next) := by
  unfold State.inStep
  exact ite_evo (fun _ => ite_evo (fun _ => State.forward_evo hn) fun _ => State.forward_evo h) fun _ => hn

theorem State.noted_evo {K : Kinds} {s0 s next : State} {role : Role} {kind id : Nat} {old v : Word} {status : Nat} (hn : Evolve K s0 next) :
    Evolve K s0 (s.noted role kind id old v status next) := ite_evo (fun _ => State.logAfter_evo hn) fun _ => hn

theorem State.audited_evo {K : Kinds} {s0 s next : State} {role : Role} {kind id : Nat} {old v : Word} {status : Nat} (h : Evolve K s0 s) (hn : Evolve K s0 next) :
    Evolve K s0 (s.audited role kind id old v status next) := by
  unfold State.audited
  exact ite_evo (fun _ => State.noted_evo hn) fun _ => State.raise_evo h

theorem State.roleRow_evo {K : Kinds} {s0 s next : State} {role named : Role} {kind id : Nat} {old v : Word} {ok : Bool} (h : Evolve K s0 s) (hn : Evolve K s0 next) :
    Evolve K s0 (s.roleRow role named kind id old v ok next) := by
  exact State.audited_evo h (ite_evo (fun _ => State.inStep_evo h hn) fun _ => h)

theorem State.reqRow_evo {K : Kinds} {s0 s next : State} {r : Requester} {named : Role} {id : Nat} {v : Word} {ok : Bool} (h : Evolve K s0 s) (hn : Evolve K s0 next) :
    Evolve K s0 (s.reqRow r named id v ok next) := by
  unfold State.reqRow
  split
  · exact State.roleRow_evo h hn
  · exact ite_evo (fun _ => State.inStep_evo h hn) fun _ => h

theorem State.cmdRow_evo {K : Kinds} {s0 s done : State} {role named : Role} {id : Nat} {v : Word} {ok : Bool} (h : Evolve K s0 s) (hn : Evolve K s0 done) :
    Evolve K s0 (s.cmdRow role named id v ok done) := by
  exact State.roleRow_evo h (ite_evo (fun _ => hn) fun _ => h)

end Sys2Proof.Machine
end

