-- ==== Sys2Proof/Laws/KeptCan.lean ====
section
/-! SUPPORT. What the functions of Machine/Can.lean keep: each stays within `Evolve`. -/

set_option Elab.async false
set_option linter.unusedVariables false
set_option linter.unreachableTactic false
set_option linter.unusedTactic false
set_option linter.unusedSimpArgs false

namespace Sys2Proof.Machine

theorem State.canSubmit_evo {K : Kinds} {s0 s : State} {ch : Nat} {f : CanFrame} {src : CanSrc} (h : Evolve K s0 s) :
    Evolve K s0 (State.canSubmit s ch f src).2 := by
  unfold State.canSubmit
  repeat' first
    | with_reducible assumption
    | (intro x; refine cut_evo (k := K) (s0 := s0) (x := x) ?_ ?_; rotate_left; intro hx; clear_value x; rotate_left; subst x)
    | (intro x; clear_value x)
    | lift_lets
    | with_reducible refine ite_evo (fun _ => ?_) (fun _ => ?_)
    | with_reducible refine State.bump_evo ?_
    | with_reducible refine State.highWater_evo ?_
    | with_reducible refine State.qLost_evo ?_
    | with_reducible refine State.modCan_evo ?_
    | (with_reducible refine iteSnd_evo (fun _ => ?_) (fun _ => ?_))
    | (with_reducible refine foldlSnd_evo ?_ (fun a x h => ?_))
    | (with_reducible refine upd_evo ?_; with_reducible assumption)
    | (with_reducible refine upd_evo ?_; with_reducible refine upd_evo ?_; with_reducible assumption)
    | split
    | dsimp only

theorem execCanSubmit_evo {K : Kinds} {t : Nat} {ch : Nat} {f : CanFrame} {src : CanSrc} {s0 s : State} (h : Evolve K s0 s) :
    ∃ s', (execCanSubmit t ch f src s) = .next s' ∧ Evolve K s0 s' := by
  unfold execCanSubmit
  refine ⟨_, rfl, ?_⟩
  replace h := State.advance_evo (t := t) h
  revert h
  generalize State.advance s t = s
  intro h
  repeat' first
    | with_reducible assumption
    | (intro x; refine cut_evo (k := K) (s0 := s0) (x := x) ?_ ?_; rotate_left; intro hx; clear_value x; rotate_left; subst x)
    | (intro x; clear_value x)
    | lift_lets
    | with_reducible refine ite_evo (fun _ => ?_) (fun _ => ?_)
    | with_reducible refine State.advance_evo ?_
    | with_reducible refine State.canSubmit_evo ?_
    | (refine snd_evo (by assumption) ?_)
    | (refine fst_evo (by assumption) ?_)

theorem State.canCounters_evo {K : Kinds} {s0 s : State} {ch tec rec : Nat} (h : Evolve K s0 s) :
    Evolve K s0 (State.canCounters s ch tec rec) := by
  unfold State.canCounters
  repeat' first
    | with_reducible assumption
    | (intro x; refine cut_evo (k := K) (s0 := s0) (x := x) ?_ ?_; rotate_left; intro hx; clear_value x; rotate_left; subst x)
    | (intro x; clear_value x)
    | lift_lets
    | with_reducible refine State.setN_evo ?_
    | (with_reducible refine State.onlyIf_evo ?_ (fun s h => ?_))
    | with_reducible refine State.raise_evo ?_
    | with_reducible refine State.canShow_evo ?_

theorem State.canBusOff_evo {K : Kinds} {s0 s : State} {ch : Nat} (h : Evolve K s0 s) :
    Evolve K s0 (State.canBusOff s ch) := by
  unfold State.canBusOff
  repeat' first
    | with_reducible assumption
    | (intro x; refine cut_evo (k := K) (s0 := s0) (x := x) ?_ ?_; rotate_left; intro hx; clear_value x; rotate_left; subst x)
    | (intro x; clear_value x)
    | lift_lets
    | with_reducible refine State.setN_evo ?_
    | with_reducible refine State.bump_evo ?_
    | with_reducible refine State.raise_evo ?_
    | with_reducible refine State.modCan_evo ?_
    | with_reducible refine State.canShow_evo ?_
    | (with_reducible refine upd_evo ?_; with_reducible assumption)
    | (with_reducible refine upd_evo ?_; with_reducible refine upd_evo ?_; with_reducible assumption)

theorem State.canSent_evo {K : Kinds} {s0 s : State} {ch place : Nat} {e : CanEnt} {durPs : Nat} (h : Evolve K s0 s) :
    Evolve K s0 (State.canSent s ch place e durPs) := by
  unfold State.canSent
  repeat' first
    | with_reducible assumption
    | (intro x; refine cut_evo (k := K) (s0 := s0) (x := x) ?_ ?_; rotate_left; intro hx; clear_value x; rotate_left; subst x)
    | (intro x; clear_value x)
    | lift_lets
    | with_reducible refine State.setN_evo ?_
    | with_reducible refine State.bump_evo ?_
    | (with_reducible refine State.onlyIf_evo ?_ (fun s h => ?_))
    | with_reducible refine State.raise_evo ?_
    | with_reducible refine State.modCan_evo ?_
    | with_reducible refine State.canCounters_evo ?_
    | (with_reducible refine upd_evo ?_; with_reducible assumption)
    | (with_reducible refine upd_evo ?_; with_reducible refine upd_evo ?_; with_reducible assumption)

theorem State.canRemoved_evo {K : Kinds} {s0 s : State} {ch place : Nat} {e : CanEnt} {noAck : Bool} (h : Evolve K s0 s) :
    Evolve K s0 (State.canRemoved s ch place e noAck) := by
  unfold State.canRemoved
  repeat' first
    | with_reducible assumption
    | (intro x; refine cut_evo (k := K) (s0 := s0) (x := x) ?_ ?_; rotate_left; intro hx; clear_value x; rotate_left; subst x)
    | (intro x; clear_value x)
    | lift_lets
    | with_reducible refine ite_evo (fun _ => ?_) (fun _ => ?_)
    | with_reducible refine State.setN_evo ?_
    | with_reducible refine State.bump_evo ?_
    | (with_reducible refine State.onlyIf_evo ?_ (fun s h => ?_))
    | with_reducible refine State.raise_evo ?_
    | with_reducible refine State.modCan_evo ?_
    | (with_reducible refine upd_evo ?_; with_reducible assumption)
    | (with_reducible refine upd_evo ?_; with_reducible refine upd_evo ?_; with_reducible assumption)

theorem State.canErrFrame_evo {K : Kinds} {s0 s : State} {ch : Nat} (h : Evolve K s0 s) :
    Evolve K s0 (State.canErrFrame s ch) := by
  unfold State.canErrFrame
  repeat' first
    | with_reducible assumption
    | with_reducible refine State.modCan_evo ?_
    | (with_reducible refine upd_evo ?_; with_reducible assumption)
    | (with_reducible refine upd_evo ?_; with_reducible refine upd_evo ?_; with_reducible assumption)

theorem State.canFailed_evo {K : Kinds} {s0 s : State} {ch place : Nat} {e : CanEnt} {ack dominant : Bool} (h : Evolve K s0 s) :
    Evolve K s0 (State.canFailed s ch place e ack dominant) := by
  unfold State.canFailed
  repeat' first
    | with_reducible assumption
    | (intro x; refine cut_evo (k := K) (s0 := s0) (x := x) ?_ ?_; rotate_left; intro hx; clear_value x; rotate_left; subst x)
    | (intro x; clear_value x)
    | lift_lets
    | with_reducible refine ite_evo (fun _ => ?_) (fun _ => ?_)
    | with_reducible refine State.bump_evo ?_
    | with_reducible refine State.modCan_evo ?_
    | with_reducible refine State.canCounters_evo ?_
    | with_reducible refine State.canBusOff_evo ?_
    | with_reducible refine State.canRemoved_evo ?_
    | with_reducible refine State.canErrFrame_evo ?_
    | (with_reducible refine upd_evo ?_; with_reducible assumption)
    | (with_reducible refine upd_evo ?_; with_reducible refine upd_evo ?_; with_reducible assumption)

theorem execCanTxAttemptEnd_evo {K : Kinds} {t : Nat} {ch : Nat} {r : CanResult} {durPs : Nat} {s0 s : State} (h : Evolve K s0 s) :
    ∃ s', (execCanTxAttemptEnd t ch r durPs s) = .next s' ∧ Evolve K s0 s' := by
  unfold execCanTxAttemptEnd
  refine ⟨_, rfl, ?_⟩
  replace h := State.advance_evo (t := t) h
  revert h
  generalize State.advance s t = s
  intro h
  repeat' first
    | with_reducible assumption
    | (intro x; refine cut_evo (k := K) (s0 := s0) (x := x) ?_ ?_; rotate_left; intro hx; clear_value x; rotate_left; subst x)
    | (intro x; clear_value x)
    | lift_lets
    | with_reducible refine ite_evo (fun _ => ?_) (fun _ => ?_)
    | with_reducible refine State.advance_evo ?_
    | with_reducible refine State.canSent_evo ?_
    | with_reducible refine State.canFailed_evo ?_
    | (with_reducible refine upd_evo ?_; with_reducible assumption)
    | (with_reducible refine upd_evo ?_; with_reducible refine upd_evo ?_; with_reducible assumption)
    | split

theorem execBusOffRecovery_evo {K : Kinds} {t : Nat} {ch : Nat} {s0 s : State} (h : Evolve K s0 s) :
    ∃ s', (execBusOffRecovery t ch s) = .next s' ∧ Evolve K s0 s' := by
  unfold execBusOffRecovery
  refine ⟨_, rfl, ?_⟩
  replace h := State.advance_evo (t := t) h
  revert h
  generalize State.advance s t = s
  intro h
  repeat' first
    | with_reducible assumption
    | (intro x; refine cut_evo (k := K) (s0 := s0) (x := x) ?_ ?_; rotate_left; intro hx; clear_value x; rotate_left; subst x)
    | (intro x; clear_value x)
    | lift_lets
    | with_reducible refine ite_evo (fun _ => ?_) (fun _ => ?_)
    | with_reducible refine State.setN_evo ?_
    | with_reducible refine State.advance_evo ?_
    | with_reducible refine State.raise_evo ?_
    | with_reducible refine State.modCan_evo ?_
    | with_reducible refine State.canShow_evo ?_
    | (with_reducible refine upd_evo ?_; with_reducible assumption)
    | (with_reducible refine upd_evo ?_; with_reducible refine upd_evo ?_; with_reducible assumption)
    | split

theorem State.doBusoffCmd_evo {K : Kinds} {s0 s : State} {ch : Nat} (h : Evolve K s0 s) :
    Evolve K s0 (State.doBusoffCmd s ch) := by
  unfold State.doBusoffCmd
  repeat' first
    | with_reducible assumption
    | with_reducible refine State.modCan_evo ?_
    | (with_reducible refine upd_evo ?_; with_reducible assumption)
    | (with_reducible refine upd_evo ?_; with_reducible refine upd_evo ?_; with_reducible assumption)

theorem execCanBusoffCmd_evo {K : Kinds} {t : Nat} {role : Role} {ch : Nat} {v : Word} {s0 s : State} (h : Evolve K s0 s) :
    ∃ s', (execCanBusoffCmd t role ch v s) = .next s' ∧ Evolve K s0 s' := by
  unfold execCanBusoffCmd
  refine ⟨_, rfl, ?_⟩
  replace h := State.advance_evo (t := t) h
  revert h
  generalize State.advance s t = s
  intro h
  repeat' first
    | with_reducible assumption
    | (intro x; refine cut_evo (k := K) (s0 := s0) (x := x) ?_ ?_; rotate_left; intro hx; clear_value x; rotate_left; subst x)
    | (intro x; clear_value x)
    | lift_lets
    | with_reducible refine State.advance_evo ?_
    | with_reducible refine State.cmdRow_evo ?_ ?_
    | with_reducible refine State.doBusoffCmd_evo ?_

theorem State.canRxError_evo {K : Kinds} {s0 s : State} {ch : Nat} {dominant : Bool} (h : Evolve K s0 s) :
    Evolve K s0 (State.canRxError s ch dominant) := by
  unfold State.canRxError
  repeat' first
    | with_reducible assumption
    | (intro x; refine cut_evo (k := K) (s0 := s0) (x := x) ?_ ?_; rotate_left; intro hx; clear_value x; rotate_left; subst x)
    | (intro x; clear_value x)
    | lift_lets
    | with_reducible refine ite_evo (fun _ => ?_) (fun _ => ?_)
    | with_reducible refine State.bump_evo ?_
    | with_reducible refine State.canCounters_evo ?_
    | with_reducible refine State.canErrFrame_evo ?_

theorem execCanErrorDetected_evo {K : Kinds} {t : Nat} {ch : Nat} {dominant : Bool} {s0 s : State} (h : Evolve K s0 s) :
    ∃ s', (execCanErrorDetected t ch dominant s) = .next s' ∧ Evolve K s0 s' := by
  unfold execCanErrorDetected
  refine ⟨_, rfl, ?_⟩
  replace h := State.advance_evo (t := t) h
  revert h
  generalize State.advance s t = s
  intro h
  repeat' first
    | with_reducible assumption
    | (intro x; refine cut_evo (k := K) (s0 := s0) (x := x) ?_ ?_; rotate_left; intro hx; clear_value x; rotate_left; subst x)
    | (intro x; clear_value x)
    | lift_lets
    | with_reducible refine ite_evo (fun _ => ?_) (fun _ => ?_)
    | with_reducible refine State.advance_evo ?_
    | with_reducible refine State.canRxError_evo ?_

theorem execTimeReferenceSend_evo {K : Kinds} {t : Nat} {ch : Nat} {s0 s : State} (h : Evolve K s0 s) :
    ∃ s', (execTimeReferenceSend t ch s) = .next s' ∧ Evolve K s0 s' := by
  unfold execTimeReferenceSend
  refine ⟨_, rfl, ?_⟩
  replace h := State.advance_evo (t := t) h
  revert h
  generalize State.advance s t = s
  intro h
  repeat' first
    | with_reducible assumption
    | (intro x; refine cut_evo (k := K) (s0 := s0) (x := x) ?_ ?_; rotate_left; intro hx; clear_value x; rotate_left; subst x)
    | (intro x; clear_value x)
    | lift_lets
    | with_reducible refine ite_evo (fun _ => ?_) (fun _ => ?_)
    | with_reducible refine State.bump_evo ?_
    | with_reducible refine State.advance_evo ?_
    | (with_reducible refine State.recur_evo ?_ (fun s h => ?_))
    | with_reducible refine State.raise_evo ?_
    | with_reducible refine State.modCan_evo ?_
    | with_reducible refine State.canSubmit_evo ?_
    | (refine snd_evo (by assumption) ?_)
    | (refine fst_evo (by assumption) ?_)
    | (with_reducible refine upd_evo ?_; with_reducible assumption)
    | (with_reducible refine upd_evo ?_; with_reducible refine upd_evo ?_; with_reducible assumption)
    | split

end Sys2Proof.Machine
end

