-- ==== Sys2Proof/Laws/KeptTime.lean ====
section
/-! SUPPORT. What the functions of Machine/Time.lean keep: each stays within `Evolve`. -/

set_option Elab.async false
set_option linter.unusedVariables false
set_option linter.unreachableTactic false
set_option linter.unusedTactic false
set_option linter.unusedSimpArgs false

namespace Sys2Proof.Machine

theorem State.takeSource_evo {K : Kinds} {s0 s : State} (h : Evolve K s0 s) :
    Evolve K s0 (State.takeSource s) := by
  unfold State.takeSource
  repeat' first
    | with_reducible assumption
    | (intro x; refine cut_evo (k := K) (s0 := s0) (x := x) ?_ ?_; rotate_left; intro hx; clear_value x; rotate_left; subst x)
    | (intro x; clear_value x)
    | lift_lets
    | with_reducible refine ite_evo (fun _ => ?_) (fun _ => ?_)
    | with_reducible refine State.modTime_evo ?_
    | with_reducible refine State.setTimeState_evo ?_
    | (with_reducible refine upd_evo ?_; with_reducible assumption)
    | (with_reducible refine upd_evo ?_; with_reducible refine upd_evo ?_; with_reducible assumption)
    | split

theorem State.sourceChanged_evo {K : Kinds} {s0 s : State} (h : Evolve K s0 s) :
    Evolve K s0 (State.sourceChanged s) := by
  unfold State.sourceChanged
  repeat' first
    | with_reducible assumption
    | with_reducible refine ite_evo (fun _ => ?_) (fun _ => ?_)
    | with_reducible refine State.modTime_evo ?_
    | with_reducible refine State.showValid_evo ?_
    | (with_reducible refine upd_evo ?_; with_reducible assumption)
    | (with_reducible refine upd_evo ?_; with_reducible refine upd_evo ?_; with_reducible assumption)

theorem State.rateCorrect_evo {K : Kinds} {s0 s : State} (h : Evolve K s0 s) :
    Evolve K s0 (State.rateCorrect s) := by
  unfold State.rateCorrect
  repeat' first
    | with_reducible assumption
    | (intro x; refine cut_evo (k := K) (s0 := s0) (x := x) ?_ ?_; rotate_left; intro hx; clear_value x; rotate_left; subst x)
    | (intro x; clear_value x)
    | lift_lets
    | with_reducible refine State.setZ_evo ?_
    | with_reducible refine State.fresh_evo ?_
    | (refine snd_evo (by assumption) ?_)
    | (refine fst_evo (by assumption) ?_)
    | split

theorem State.pendStep_evo {K : Kinds} {s0 s : State} {off : Int} (h : Evolve K s0 s) :
    Evolve K s0 (State.pendStep s off) := by
  unfold State.pendStep
  repeat' first
    | with_reducible assumption
    | (intro x; refine cut_evo (k := K) (s0 := s0) (x := x) ?_ ?_; rotate_left; intro hx; clear_value x; rotate_left; subst x)
    | (intro x; clear_value x)
    | lift_lets
    | with_reducible refine ite_evo (fun _ => ?_) (fun _ => ?_)
    | with_reducible refine State.setZ_evo ?_
    | (with_reducible refine State.onlyIf_evo ?_ (fun s h => ?_))
    | with_reducible refine State.raise_evo ?_
    | with_reducible refine State.modTime_evo ?_
    | with_reducible refine State.showValid_evo ?_
    | (with_reducible refine upd_evo ?_; with_reducible assumption)
    | (with_reducible refine upd_evo ?_; with_reducible refine upd_evo ?_; with_reducible assumption)

theorem State.timeFeed_evo {K : Kinds} {s0 s : State} {src : Nat} {off : Int} (h : Evolve K s0 s) :
    Evolve K s0 (State.timeFeed s src off) := by
  unfold State.timeFeed
  repeat' first
    | with_reducible assumption
    | (intro x; refine cut_evo (k := K) (s0 := s0) (x := x) ?_ ?_; rotate_left; intro hx; clear_value x; rotate_left; subst x)
    | (intro x; clear_value x)
    | lift_lets
    | with_reducible refine ite_evo (fun _ => ?_) (fun _ => ?_)
    | with_reducible refine State.setZ_evo ?_
    | with_reducible refine State.modTime_evo ?_
    | with_reducible refine State.showValid_evo ?_
    | with_reducible refine State.timeStepBy_evo ?_
    | with_reducible refine State.rateCorrect_evo ?_
    | with_reducible refine State.pendStep_evo ?_
    | (with_reducible refine upd_evo ?_; with_reducible assumption)
    | (with_reducible refine upd_evo ?_; with_reducible refine upd_evo ?_; with_reducible assumption)

theorem execHoldoverExpiry_evo {K : Kinds} {t : Nat} {s0 s : State} (h : Evolve K s0 s) :
    ∃ s', (execHoldoverExpiry t s) = .next s' ∧ Evolve K s0 s' := by
  unfold execHoldoverExpiry
  refine ⟨_, rfl, ?_⟩
  replace h := State.advance_evo (t := t) h
  revert h
  generalize State.advance s t = s
  intro h
  repeat' first
    | with_reducible assumption
    | (intro x; refine cut_evo (k := K) (s0 := s0) (x := x) ?_ ?_; rotate_left; intro hx; clear_value x; rotate_left; subst x)
    | (intro x; clear_value x)
    | lift_lets
    | with_reducible refine ite_evo (fun _ => ?_) (fun _ => ?_)
    | with_reducible refine State.advance_evo ?_
    | with_reducible refine State.modTime_evo ?_
    | with_reducible refine State.setTimeState_evo ?_
    | (with_reducible refine upd_evo ?_; with_reducible assumption)
    | (with_reducible refine upd_evo ?_; with_reducible refine upd_evo ?_; with_reducible assumption)
    | split

theorem State.doTimeStep_evo {K : Kinds} {s0 s : State} (h : Evolve K s0 s) :
    Evolve K s0 (State.doTimeStep s) := by
  unfold State.doTimeStep
  repeat' first
    | with_reducible assumption
    | split
    | with_reducible refine State.timeStepBy_evo ?_
    | (with_reducible refine upd_evo ?_; with_reducible assumption)
    | (with_reducible refine upd_evo ?_; with_reducible refine upd_evo ?_; with_reducible assumption)
    | split

theorem execTimeStep_evo {K : Kinds} {t : Nat} {role : Role} {v : Word} {s0 s : State} (h : Evolve K s0 s) :
    ∃ s', (execTimeStep t role v s) = .next s' ∧ Evolve K s0 s' := by
  unfold execTimeStep
  refine ⟨_, rfl, ?_⟩
  replace h := State.advance_evo (t := t) h
  revert h
  generalize State.advance s t = s
  intro h
  repeat' first
    | with_reducible assumption
    | (intro x; refine cut_evo (k := K) (s0 := s0) (x := x) ?_ ?_; rotate_left; intro hx; clear_value x; rotate_left; subst x)
    | (intro x; clear_value x)
    | lift_lets
    | with_reducible refine State.advance_evo ?_
    | with_reducible refine State.cmdRow_evo ?_ ?_
    | with_reducible refine State.doTimeStep_evo ?_

theorem State.doTout_evo {K : Kinds} {s0 s : State} {k : Nat} {v : Word} (h : Evolve K s0 s) :
    Evolve K s0 (State.doTout s k v) := by
  unfold State.doTout
  repeat' first
    | with_reducible assumption
    | (intro x; refine cut_evo (k := K) (s0 := s0) (x := x) ?_ ?_; rotate_left; intro hx; clear_value x; rotate_left; subst x)
    | (intro x; clear_value x)
    | lift_lets
    | with_reducible refine ite_evo (fun _ => ?_) (fun _ => ?_)
    | with_reducible refine State.setW_evo ?_
    | with_reducible refine State.setN_evo ?_
    | with_reducible refine State.modTout_evo ?_
    | (with_reducible refine upd_evo ?_; with_reducible assumption)
    | (with_reducible refine upd_evo ?_; with_reducible refine upd_evo ?_; with_reducible assumption)
    | split

theorem execToutArm_evo {K : Kinds} {t : Nat} {role : Role} {k : Nat} {v : Word} {s0 s : State} (h : Evolve K s0 s) :
    ∃ s', (execToutArm t role k v s) = .next s' ∧ Evolve K s0 s' := by
  unfold execToutArm
  refine ⟨_, rfl, ?_⟩
  replace h := State.advance_evo (t := t) h
  revert h
  generalize State.advance s t = s
  intro h
  repeat' first
    | with_reducible assumption
    | (intro x; refine cut_evo (k := K) (s0 := s0) (x := x) ?_ ?_; rotate_left; intro hx; clear_value x; rotate_left; subst x)
    | (intro x; clear_value x)
    | lift_lets
    | with_reducible refine ite_evo (fun _ => ?_) (fun _ => ?_)
    | with_reducible refine State.advance_evo ?_
    | with_reducible refine State.roleRow_evo ?_ ?_
    | with_reducible refine State.doTout_evo ?_

theorem execTimeOutPulse_evo {K : Kinds} {t : Nat} {k : Nat} {s0 s : State} (h : Evolve K s0 s) :
    ∃ s', (execTimeOutPulse t k s) = .next s' ∧ Evolve K s0 s' := by
  unfold execTimeOutPulse
  refine ⟨_, rfl, ?_⟩
  replace h := State.advance_evo (t := t) h
  revert h
  generalize State.advance s t = s
  intro h
  repeat' first
    | with_reducible assumption
    | (intro x; refine cut_evo (k := K) (s0 := s0) (x := x) ?_ ?_; rotate_left; intro hx; clear_value x; rotate_left; subst x)
    | (intro x; clear_value x)
    | lift_lets
    | with_reducible refine ite_evo (fun _ => ?_) (fun _ => ?_)
    | with_reducible refine State.setN_evo ?_
    | with_reducible refine State.advance_evo ?_
    | with_reducible refine State.modTout_evo ?_
    | with_reducible refine State.toutFire_evo ?_
    | (with_reducible refine upd_evo ?_; with_reducible assumption)
    | (with_reducible refine upd_evo ?_; with_reducible refine upd_evo ?_; with_reducible assumption)

theorem execTimeOutPulseEnd_evo {K : Kinds} {t : Nat} {k : Nat} {s0 s : State} (h : Evolve K s0 s) :
    ∃ s', (execTimeOutPulseEnd t k s) = .next s' ∧ Evolve K s0 s' := by
  unfold execTimeOutPulseEnd
  refine ⟨_, rfl, ?_⟩
  replace h := State.advance_evo (t := t) h
  revert h
  generalize State.advance s t = s
  intro h
  repeat' first
    | with_reducible assumption
    | (intro x; refine cut_evo (k := K) (s0 := s0) (x := x) ?_ ?_; rotate_left; intro hx; clear_value x; rotate_left; subst x)
    | (intro x; clear_value x)
    | lift_lets
    | with_reducible refine ite_evo (fun _ => ?_) (fun _ => ?_)
    | with_reducible refine State.advance_evo ?_
    | with_reducible refine State.modTout_evo ?_
    | (with_reducible refine upd_evo ?_; with_reducible assumption)
    | (with_reducible refine upd_evo ?_; with_reducible refine upd_evo ?_; with_reducible assumption)
    | split

end Sys2Proof.Machine
end

