-- ==== Sys2Proof/Laws/KeptEth.lean ====
section
/-! SUPPORT. What the functions of Machine/Eth.lean keep: each stays within `Evolve`. -/

set_option Elab.async false
set_option linter.unusedVariables false
set_option linter.unreachableTactic false
set_option linter.unusedTactic false
set_option linter.unusedSimpArgs false

namespace Sys2Proof.Machine

theorem State.modEth_evo {K : Kinds} {s0 s : State} {e : Nat} {f : EthSt → EthSt} (h : Evolve K s0 s) :
    Evolve K s0 (State.modEth s e f) := by
  exact .free h rfl (by simp [State.modEth, State.lens]) (.inr rfl) (.inr rfl) (.inr rfl) (.inr rfl) (.inr rfl)

theorem State.modPtp_evo {K : Kinds} {s0 s : State} {e : Nat} {f : PtpSt → PtpSt} (h : Evolve K s0 s) :
    Evolve K s0 (State.modPtp s e f) := by
  unfold State.modPtp
  repeat' first
    | with_reducible assumption
    | with_reducible refine State.modEth_evo ?_
    | (with_reducible refine upd_evo ?_; with_reducible assumption)
    | (with_reducible refine upd_evo ?_; with_reducible refine upd_evo ?_; with_reducible assumption)

theorem State.ethSend_evo {K : Kinds} {s0 s : State} {e : Nat} {m : EthMsg} (h : Evolve K s0 s) :
    Evolve K s0 (State.ethSend s e m) := by
  unfold State.ethSend
  repeat' first
    | with_reducible assumption
    | (intro x; refine cut_evo (k := K) (s0 := s0) (x := x) ?_ ?_; rotate_left; intro hx; clear_value x; rotate_left; subst x)
    | (intro x; clear_value x)
    | lift_lets
    | with_reducible refine ite_evo (fun _ => ?_) (fun _ => ?_)
    | with_reducible refine State.bump_evo ?_
    | with_reducible refine State.modEth_evo ?_
    | (with_reducible refine upd_evo ?_; with_reducible assumption)
    | (with_reducible refine upd_evo ?_; with_reducible refine upd_evo ?_; with_reducible assumption)
    | split

theorem State.udpSend_evo {K : Kinds} {s0 s : State} {e ip src dst : Nat} {body : List Byte} (h : Evolve K s0 s) :
    Evolve K s0 (State.udpSend s e ip src dst body) := by
  unfold State.udpSend
  repeat' first
    | with_reducible assumption
    | (intro x; refine cut_evo (k := K) (s0 := s0) (x := x) ?_ ?_; rotate_left; intro hx; clear_value x; rotate_left; subst x)
    | (intro x; clear_value x)
    | lift_lets
    | with_reducible refine ite_evo (fun _ => ?_) (fun _ => ?_)
    | with_reducible refine State.ethSend_evo ?_

theorem State.arpLearn_evo {K : Kinds} {s0 s : State} {e ip : Nat} {mac : List Byte} (h : Evolve K s0 s) :
    Evolve K s0 (State.arpLearn s e ip mac) := by
  unfold State.arpLearn
  repeat' first
    | with_reducible assumption
    | with_reducible refine State.modEth_evo ?_
    | (with_reducible refine upd_evo ?_; with_reducible assumption)
    | (with_reducible refine upd_evo ?_; with_reducible refine upd_evo ?_; with_reducible assumption)

theorem State.ptpUpdate_evo {K : Kinds} {s0 s : State} {back : Bool} (h : Evolve K s0 s) :
    Evolve K s0 (State.ptpUpdate s back) := by
  unfold State.ptpUpdate
  repeat' first
    | with_reducible assumption
    | (intro x; refine cut_evo (k := K) (s0 := s0) (x := x) ?_ ?_; rotate_left; intro hx; clear_value x; rotate_left; subst x)
    | (intro x; clear_value x)
    | lift_lets
    | with_reducible refine ite_evo (fun _ => ?_) (fun _ => ?_)
    | with_reducible refine State.setN_evo ?_
    | (with_reducible refine State.onlyIf_evo ?_ (fun s h => ?_))
    | with_reducible refine State.raise_evo ?_
    | with_reducible refine State.modTime_evo ?_
    | with_reducible refine State.takeSource_evo ?_
    | with_reducible refine State.sourceChanged_evo ?_
    | (with_reducible refine upd_evo ?_; with_reducible assumption)
    | (with_reducible refine upd_evo ?_; with_reducible refine upd_evo ?_; with_reducible assumption)
    | split

theorem State.setAsCapable_evo {K : Kinds} {s0 s : State} {e : Nat} {b : Bool} (h : Evolve K s0 s) :
    Evolve K s0 (State.setAsCapable s e b) := by
  unfold State.setAsCapable
  repeat' first
    | with_reducible assumption
    | with_reducible refine ite_evo (fun _ => ?_) (fun _ => ?_)
    | with_reducible refine State.setN_evo ?_
    | with_reducible refine State.ptpUpdate_evo ?_

theorem State.txtsPush_evo {K : Kinds} {s0 s : State} {e typ seq : Nat} (h : Evolve K s0 s) :
    Evolve K s0 (State.txtsPush s e typ seq) := by
  unfold State.txtsPush
  repeat' first
    | with_reducible assumption
    | (intro x; refine cut_evo (k := K) (s0 := s0) (x := x) ?_ ?_; rotate_left; intro hx; clear_value x; rotate_left; subst x)
    | (intro x; clear_value x)
    | lift_lets
    | with_reducible refine ite_evo (fun _ => ?_) (fun _ => ?_)
    | with_reducible refine State.setN_evo ?_
    | with_reducible refine State.bump_evo ?_
    | with_reducible refine State.highWater_evo ?_
    | with_reducible refine State.qLost_evo ?_
    | with_reducible refine State.raise_evo ?_
    | with_reducible refine State.modPtp_evo ?_
    | (with_reducible refine upd_evo ?_; with_reducible assumption)
    | (with_reducible refine upd_evo ?_; with_reducible refine upd_evo ?_; with_reducible assumption)

theorem State.txtsTake_evo {K : Kinds} {s0 s : State} {e typ seq : Nat} (h : Evolve K s0 s) :
    Evolve K s0 (State.txtsTake s e typ seq).2 := by
  unfold State.txtsTake
  repeat' first
    | with_reducible assumption
    | (intro x; refine cut_evo (k := K) (s0 := s0) (x := x) ?_ ?_; rotate_left; intro hx; clear_value x; rotate_left; subst x)
    | (intro x; refine cutSnd_evo (k := K) (s0 := s0) (x := x) ?_ ?_; rotate_left; intro hx; clear_value x; rotate_left; subst x)
    | (intro x; clear_value x)
    | lift_lets
    | with_reducible refine State.modPtp_evo ?_
    | (with_reducible refine iteSnd_evo (fun _ => ?_) (fun _ => ?_))
    | (with_reducible refine foldlSnd_evo ?_ (fun a x h => ?_))
    | (with_reducible refine upd_evo ?_; with_reducible assumption)
    | (with_reducible refine upd_evo ?_; with_reducible refine upd_evo ?_; with_reducible assumption)
    | split
    | dsimp only

theorem execTxtsDiscard_evo {K : Kinds} {t : Nat} {e : Nat} {s0 s : State} (h : Evolve K s0 s) :
    ∃ s', (execTxtsDiscard t e s) = .next s' ∧ Evolve K s0 s' := by
  unfold execTxtsDiscard
  refine ⟨_, rfl, ?_⟩
  replace h := State.advance_evo (t := t) h
  revert h
  generalize State.advance s t = s
  intro h
  repeat' first
    | with_reducible assumption
    | (intro x; refine cut_evo (k := K) (s0 := s0) (x := x) ?_ ?_; rotate_left; intro hx; clear_value x; rotate_left; subst x)
    | (intro x; refine cutSnd_evo (k := K) (s0 := s0) (x := x) ?_ ?_; rotate_left; intro hx; clear_value x; rotate_left; subst x)
    | (intro x; clear_value x)
    | lift_lets
    | with_reducible refine State.advance_evo ?_
    | with_reducible refine State.modPtp_evo ?_
    | (with_reducible refine upd_evo ?_; with_reducible assumption)
    | (with_reducible refine upd_evo ?_; with_reducible refine upd_evo ?_; with_reducible assumption)

theorem State.ptpEvent_evo {K : Kinds} {s0 s : State} {e typ seq : Nat} {body : List Byte} {fuTyp : Nat} {fuTail : List Byte} (h : Evolve K s0 s) :
    Evolve K s0 (State.ptpEvent s e typ seq body fuTyp fuTail) := by
  unfold State.ptpEvent
  repeat' first
    | with_reducible assumption
    | (intro x; refine cut_evo (k := K) (s0 := s0) (x := x) ?_ ?_; rotate_left; intro hx; clear_value x; rotate_left; subst x)
    | (intro x; clear_value x)
    | lift_lets
    | with_reducible refine State.ethSend_evo ?_
    | with_reducible refine State.txtsPush_evo ?_
    | with_reducible refine State.txtsTake_evo ?_
    | (refine snd_evo (by assumption) ?_)
    | (refine fst_evo (by assumption) ?_)
    | (with_reducible refine upd_evo ?_; with_reducible assumption)
    | (with_reducible refine upd_evo ?_; with_reducible refine upd_evo ?_; with_reducible assumption)
    | split

theorem execPdelayReqSend_evo {K : Kinds} {t : Nat} {s0 s : State} (h : Evolve K s0 s) :
    ∃ s', (execPdelayReqSend t s) = .next s' ∧ Evolve K s0 s' := by
  unfold execPdelayReqSend
  refine ⟨_, rfl, ?_⟩
  replace h := State.advance_evo (t := t) h
  revert h
  generalize State.advance s t = s
  intro h
  repeat' first
    | with_reducible assumption
    | (intro x; refine cut_evo (k := K) (s0 := s0) (x := x) ?_ ?_; rotate_left; intro hx; clear_value x; rotate_left; subst x)
    | (intro x; clear_value x)
    | lift_lets
    | with_reducible refine ite_evo (fun _ => ?_) (fun _ => ?_)
    | (with_reducible refine State.each_evo ?_ (fun s i h => ?_))
    | (with_reducible refine State.onlyIf_evo ?_ (fun s h => ?_))
    | with_reducible refine State.advance_evo ?_
    | (with_reducible refine State.recur_evo ?_ (fun s h => ?_))
    | with_reducible refine State.modPtp_evo ?_
    | with_reducible refine State.ethSend_evo ?_
    | with_reducible refine State.setAsCapable_evo ?_
    | with_reducible refine State.txtsPush_evo ?_
    | (with_reducible refine upd_evo ?_; with_reducible assumption)
    | (with_reducible refine upd_evo ?_; with_reducible refine upd_evo ?_; with_reducible assumption)

theorem State.ptpSync_evo {K : Kinds} {s0 s : State} {e : Nat} (h : Evolve K s0 s) :
    Evolve K s0 (State.ptpSync s e) := by
  unfold State.ptpSync
  repeat' first
    | with_reducible assumption
    | (intro x; refine cut_evo (k := K) (s0 := s0) (x := x) ?_ ?_; rotate_left; intro hx; clear_value x; rotate_left; subst x)
    | (intro x; clear_value x)
    | lift_lets
    | with_reducible refine State.modPtp_evo ?_
    | with_reducible refine State.ptpEvent_evo ?_
    | (with_reducible refine upd_evo ?_; with_reducible assumption)
    | (with_reducible refine upd_evo ?_; with_reducible refine upd_evo ?_; with_reducible assumption)

theorem State.sendAnnounce_evo {K : Kinds} {s0 s : State} {e : Nat} (h : Evolve K s0 s) :
    Evolve K s0 (State.sendAnnounce s e) := by
  unfold State.sendAnnounce
  repeat' first
    | with_reducible assumption
    | (intro x; refine cut_evo (k := K) (s0 := s0) (x := x) ?_ ?_; rotate_left; intro hx; clear_value x; rotate_left; subst x)
    | (intro x; clear_value x)
    | lift_lets
    | with_reducible refine State.modPtp_evo ?_
    | with_reducible refine State.ethSend_evo ?_
    | (with_reducible refine upd_evo ?_; with_reducible assumption)
    | (with_reducible refine upd_evo ?_; with_reducible refine upd_evo ?_; with_reducible assumption)

theorem execGrandmasterSyncSend_evo {K : Kinds} {t : Nat} {s0 s : State} (h : Evolve K s0 s) :
    ∃ s', (execGrandmasterSyncSend t s) = .next s' ∧ Evolve K s0 s' := by
  unfold execGrandmasterSyncSend
  refine ⟨_, rfl, ?_⟩
  replace h := State.advance_evo (t := t) h
  revert h
  generalize State.advance s t = s
  intro h
  repeat' first
    | with_reducible assumption
    | (intro x; refine cut_evo (k := K) (s0 := s0) (x := x) ?_ ?_; rotate_left; intro hx; clear_value x; rotate_left; subst x)
    | (intro x; clear_value x)
    | lift_lets
    | with_reducible refine ite_evo (fun _ => ?_) (fun _ => ?_)
    | (with_reducible refine State.each_evo ?_ (fun s i h => ?_))
    | with_reducible refine State.advance_evo ?_
    | (with_reducible refine State.recur_evo ?_ (fun s h => ?_))
    | with_reducible refine State.ptpSync_evo ?_
    | with_reducible refine State.sendAnnounce_evo ?_

theorem State.ptpAnnounce_evo {K : Kinds} {s0 s : State} {e : Nat} {m : List Byte} (h : Evolve K s0 s) :
    Evolve K s0 (State.ptpAnnounce s e m) := by
  unfold State.ptpAnnounce
  repeat' first
    | with_reducible assumption
    | (intro x; refine cut_evo (k := K) (s0 := s0) (x := x) ?_ ?_; rotate_left; intro hx; clear_value x; rotate_left; subst x)
    | (intro x; clear_value x)
    | lift_lets
    | with_reducible refine ite_evo (fun _ => ?_) (fun _ => ?_)
    | (with_reducible refine State.onlyIf_evo ?_ (fun s h => ?_))
    | with_reducible refine State.modPtp_evo ?_
    | with_reducible refine State.ptpUpdate_evo ?_
    | (with_reducible refine upd_evo ?_; with_reducible assumption)
    | (with_reducible refine upd_evo ?_; with_reducible refine upd_evo ?_; with_reducible assumption)
    | split

theorem State.ptpFollowUp_evo {K : Kinds} {s0 s : State} {e : Nat} {m : List Byte} (h : Evolve K s0 s) :
    Evolve K s0 (State.ptpFollowUp s e m) := by
  unfold State.ptpFollowUp
  repeat' first
    | with_reducible assumption
    | split
    | (intro x; refine cut_evo (k := K) (s0 := s0) (x := x) ?_ ?_; rotate_left; intro hx; clear_value x; rotate_left; subst x)
    | (intro x; clear_value x)
    | lift_lets
    | with_reducible refine ite_evo (fun _ => ?_) (fun _ => ?_)
    | (with_reducible refine State.onlyIf_evo ?_ (fun s h => ?_))
    | with_reducible refine State.timeFeed_evo ?_
    | with_reducible refine State.modPtp_evo ?_
    | with_reducible refine State.ptpUpdate_evo ?_
    | (with_reducible refine upd_evo ?_; with_reducible assumption)
    | (with_reducible refine upd_evo ?_; with_reducible refine upd_evo ?_; with_reducible assumption)
    | split

theorem State.ptpPdelayDone_evo {K : Kinds} {s0 s : State} {e : Nat} {m : List Byte} (h : Evolve K s0 s) :
    Evolve K s0 (State.ptpPdelayDone s e m) := by
  unfold State.ptpPdelayDone
  repeat' first
    | with_reducible assumption
    | split
    | (intro x; refine cut_evo (k := K) (s0 := s0) (x := x) ?_ ?_; rotate_left; intro hx; clear_value x; rotate_left; subst x)
    | (intro x; clear_value x)
    | lift_lets
    | with_reducible refine State.setN_evo ?_
    | with_reducible refine State.modPtp_evo ?_
    | with_reducible refine State.setAsCapable_evo ?_
    | with_reducible refine State.txtsTake_evo ?_
    | (refine snd_evo (by assumption) ?_)
    | (refine fst_evo (by assumption) ?_)
    | (with_reducible refine upd_evo ?_; with_reducible assumption)
    | (with_reducible refine upd_evo ?_; with_reducible refine upd_evo ?_; with_reducible assumption)
    | split

theorem State.ptpIn_evo {K : Kinds} {s0 s : State} {e : Nat} {m : List Byte} (h : Evolve K s0 s) :
    Evolve K s0 (State.ptpIn s e m) := by
  unfold State.ptpIn
  repeat' first
    | with_reducible assumption
    | (intro x; refine cut_evo (k := K) (s0 := s0) (x := x) ?_ ?_; rotate_left; intro hx; clear_value x; rotate_left; subst x)
    | (intro x; clear_value x)
    | lift_lets
    | with_reducible refine ite_evo (fun _ => ?_) (fun _ => ?_)
    | with_reducible refine State.modPtp_evo ?_
    | with_reducible refine State.ptpEvent_evo ?_
    | with_reducible refine State.ptpAnnounce_evo ?_
    | with_reducible refine State.ptpFollowUp_evo ?_
    | with_reducible refine State.ptpPdelayDone_evo ?_
    | (with_reducible refine upd_evo ?_; with_reducible assumption)
    | (with_reducible refine upd_evo ?_; with_reducible refine upd_evo ?_; with_reducible assumption)
    | split

theorem execPtpSyncLoss_evo {K : Kinds} {t : Nat} {e : Nat} {s0 s : State} (h : Evolve K s0 s) :
    ∃ s', (execPtpSyncLoss t e s) = .next s' ∧ Evolve K s0 s' := by
  unfold execPtpSyncLoss
  refine ⟨_, rfl, ?_⟩
  replace h := State.advance_evo (t := t) h
  revert h
  generalize State.advance s t = s
  intro h
  repeat' first
    | with_reducible assumption
    | (intro x; refine cut_evo (k := K) (s0 := s0) (x := x) ?_ ?_; rotate_left; intro hx; clear_value x; rotate_left; subst x)
    | (intro x; clear_value x)
    | lift_lets
    | (with_reducible refine State.onlyIf_evo ?_ (fun s h => ?_))
    | with_reducible refine State.advance_evo ?_
    | with_reducible refine State.modPtp_evo ?_
    | with_reducible refine State.ptpUpdate_evo ?_
    | (with_reducible refine upd_evo ?_; with_reducible assumption)
    | (with_reducible refine upd_evo ?_; with_reducible refine upd_evo ?_; with_reducible assumption)
    | split

theorem execPtpFailback_evo {K : Kinds} {t : Nat} {s0 s : State} (h : Evolve K s0 s) :
    ∃ s', (execPtpFailback t s) = .next s' ∧ Evolve K s0 s' := by
  unfold execPtpFailback
  refine ⟨_, rfl, ?_⟩
  replace h := State.advance_evo (t := t) h
  revert h
  generalize State.advance s t = s
  intro h
  repeat' first
    | with_reducible assumption
    | (intro x; refine cut_evo (k := K) (s0 := s0) (x := x) ?_ ?_; rotate_left; intro hx; clear_value x; rotate_left; subst x)
    | (intro x; clear_value x)
    | lift_lets
    | with_reducible refine ite_evo (fun _ => ?_) (fun _ => ?_)
    | with_reducible refine State.advance_evo ?_
    | with_reducible refine State.ptpUpdate_evo ?_

theorem execEthLinkUp_evo {K : Kinds} {t : Nat} {e : Nat} {s0 s : State} (h : Evolve K s0 s) :
    ∃ s', (execEthLinkUp t e s) = .next s' ∧ Evolve K s0 s' := by
  unfold execEthLinkUp
  refine ⟨_, rfl, ?_⟩
  replace h := State.advance_evo (t := t) h
  revert h
  generalize State.advance s t = s
  intro h
  repeat' first
    | with_reducible assumption
    | (intro x; refine cut_evo (k := K) (s0 := s0) (x := x) ?_ ?_; rotate_left; intro hx; clear_value x; rotate_left; subst x)
    | (intro x; clear_value x)
    | lift_lets
    | with_reducible refine ite_evo (fun _ => ?_) (fun _ => ?_)
    | with_reducible refine State.setN_evo ?_
    | with_reducible refine State.advance_evo ?_
    | with_reducible refine State.raise_evo ?_

theorem State.ethDown_evo {K : Kinds} {s0 s : State} {e : Nat} (h : Evolve K s0 s) :
    Evolve K s0 (State.ethDown s e) := by
  unfold State.ethDown
  repeat' first
    | with_reducible assumption
    | (intro x; refine cut_evo (k := K) (s0 := s0) (x := x) ?_ ?_; rotate_left; intro hx; clear_value x; rotate_left; subst x)
    | (intro x; clear_value x)
    | lift_lets
    | with_reducible refine ite_evo (fun _ => ?_) (fun _ => ?_)
    | with_reducible refine State.setN_evo ?_
    | with_reducible refine State.bump_evo ?_
    | with_reducible refine State.raise_evo ?_
    | with_reducible refine State.modEth_evo ?_
    | with_reducible refine State.ptpUpdate_evo ?_
    | (with_reducible refine upd_evo ?_; with_reducible assumption)
    | (with_reducible refine upd_evo ?_; with_reducible refine upd_evo ?_; with_reducible assumption)

theorem execEthLinkDown_evo {K : Kinds} {t : Nat} {e : Nat} {s0 s : State} (h : Evolve K s0 s) :
    ∃ s', (execEthLinkDown t e s) = .next s' ∧ Evolve K s0 s' := by
  unfold execEthLinkDown
  refine ⟨_, rfl, ?_⟩
  replace h := State.advance_evo (t := t) h
  revert h
  generalize State.advance s t = s
  intro h
  repeat' first
    | with_reducible assumption
    | (intro x; refine cut_evo (k := K) (s0 := s0) (x := x) ?_ ?_; rotate_left; intro hx; clear_value x; rotate_left; subst x)
    | (intro x; clear_value x)
    | lift_lets
    | with_reducible refine ite_evo (fun _ => ?_) (fun _ => ?_)
    | with_reducible refine State.advance_evo ?_
    | with_reducible refine State.ethDown_evo ?_

end Sys2Proof.Machine
end

