-- ==== Sys2Proof/Laws/KeptPortCmd.lean ====
section
/-! SUPPORT. What the functions of Machine/PortCmd.lean keep: each stays within `Evolve`. -/

set_option Elab.async false
set_option linter.unusedVariables false
set_option linter.unreachableTactic false
set_option linter.unusedTactic false
set_option linter.unusedSimpArgs false

namespace Sys2Proof.Machine

theorem State.lawStart_evo {K : Kinds} {s0 s : State} {p : Nat} (h : Evolve K s0 s) :
    Evolve K s0 (State.lawStart s p) := by
  unfold State.lawStart
  repeat' first
    | with_reducible assumption
    | (intro x; refine cut_evo (k := K) (s0 := s0) (x := x) ?_ ?_; rotate_left; intro hx; clear_value x; rotate_left; subst x)
    | (intro x; clear_value x)
    | lift_lets
    | with_reducible refine ite_evo (fun _ => ?_) (fun _ => ?_)
    | with_reducible refine State.setN_evo ?_
    | with_reducible refine State.setZ_evo ?_
    | with_reducible refine State.modPort_evo ?_
    | (with_reducible refine upd_evo ?_; with_reducible assumption)
    | (with_reducible refine upd_evo ?_; with_reducible refine upd_evo ?_; with_reducible assumption)

theorem State.beginRamp_evo {K : Kinds} {s0 s : State} {p : Nat} (h : Evolve K s0 s) (hk_unit : K.unit = true) :
    Evolve K s0 (State.beginRamp s p) := by
  unfold State.beginRamp
  repeat' first
    | with_reducible assumption
    | (intro x; refine cut_evo (k := K) (s0 := s0) (x := x) ?_ ?_; rotate_left; intro hx; clear_value x; rotate_left; subst x)
    | (intro x; clear_value x)
    | lift_lets
    | with_reducible refine ite_evo (fun _ => ?_) (fun _ => ?_)
    | with_reducible refine State.setN_evo ?_
    | with_reducible refine State.setZ_evo ?_
    | with_reducible refine State.setBit_evo ?_
    | with_reducible refine State.modPort_evo ?_
    | with_reducible refine State.latOut_evo ?_
    | with_reducible refine State.glzHold_evo ?_
    | with_reducible refine State.setPort_evo ?_ hk_unit
    | (with_reducible refine upd_evo ?_; with_reducible assumption)
    | (with_reducible refine upd_evo ?_; with_reducible refine upd_evo ?_; with_reducible assumption)

theorem State.deadStart_evo {K : Kinds} {s0 s : State} {p : Nat} (h : Evolve K s0 s) (hk_unit : K.unit = true) :
    Evolve K s0 (State.deadStart s p) := by
  unfold State.deadStart
  repeat' first
    | with_reducible assumption
    | with_reducible refine ite_evo (fun _ => ?_) (fun _ => ?_)
    | with_reducible refine State.modPort_evo ?_
    | with_reducible refine State.latOut_evo ?_
    | with_reducible refine State.beginRamp_evo ?_ hk_unit
    | (with_reducible refine upd_evo ?_; with_reducible assumption)
    | (with_reducible refine upd_evo ?_; with_reducible refine upd_evo ?_; with_reducible assumption)

theorem State.beginSync_evo {K : Kinds} {s0 s : State} {p : Nat} (h : Evolve K s0 s) (hk_unit : K.unit = true) :
    Evolve K s0 (State.beginSync s p) := by
  unfold State.beginSync
  repeat' first
    | with_reducible assumption
    | (intro x; refine cut_evo (k := K) (s0 := s0) (x := x) ?_ ?_; rotate_left; intro hx; clear_value x; rotate_left; subst x)
    | (intro x; clear_value x)
    | lift_lets
    | with_reducible refine State.setZ_evo ?_
    | with_reducible refine State.setBit_evo ?_
    | with_reducible refine State.modPort_evo ?_
    | with_reducible refine State.setPort_evo ?_ hk_unit
    | (with_reducible refine upd_evo ?_; with_reducible assumption)
    | (with_reducible refine upd_evo ?_; with_reducible refine upd_evo ?_; with_reducible assumption)

theorem State.refuseStart_evo {K : Kinds} {s0 s : State} {p : Nat} (h : Evolve K s0 s) (hk_unit : K.unit = true) :
    Evolve K s0 (State.refuseStart s p) := by
  unfold State.refuseStart
  repeat' first
    | with_reducible assumption
    | (intro x; refine cut_evo (k := K) (s0 := s0) (x := x) ?_ ?_; rotate_left; intro hx; clear_value x; rotate_left; subst x)
    | (intro x; clear_value x)
    | lift_lets
    | with_reducible refine State.setN_evo ?_
    | with_reducible refine State.raise_evo ?_
    | with_reducible refine State.modPort_evo ?_
    | with_reducible refine State.setPortBy_evo ?_ hk_unit
    | (with_reducible refine upd_evo ?_; with_reducible assumption)
    | (with_reducible refine upd_evo ?_; with_reducible refine upd_evo ?_; with_reducible assumption)

theorem State.startBackoff_evo {K : Kinds} {s0 s : State} {p : Nat} (h : Evolve K s0 s) :
    Evolve K s0 (State.startBackoff s p) := by
  unfold State.startBackoff
  repeat' first
    | with_reducible assumption
    | (intro x; refine cut_evo (k := K) (s0 := s0) (x := x) ?_ ?_; rotate_left; intro hx; clear_value x; rotate_left; subst x)
    | (intro x; clear_value x)
    | lift_lets
    | with_reducible refine State.setN_evo ?_
    | with_reducible refine State.setBit_evo ?_
    | with_reducible refine State.fresh_evo ?_
    | with_reducible refine State.modPort_evo ?_
    | (refine snd_evo (by assumption) ?_)
    | (refine fst_evo (by assumption) ?_)
    | (with_reducible refine upd_evo ?_; with_reducible assumption)
    | (with_reducible refine upd_evo ?_; with_reducible refine upd_evo ?_; with_reducible assumption)
    | split

theorem State.armedStart_evo {K : Kinds} {s0 s : State} {p : Nat} (h : Evolve K s0 s) (hk_unit : K.unit = true) :
    Evolve K s0 (State.armedStart s p) := by
  unfold State.armedStart
  repeat' first
    | with_reducible assumption
    | (intro x; refine cut_evo (k := K) (s0 := s0) (x := x) ?_ ?_; rotate_left; intro hx; clear_value x; rotate_left; subst x)
    | (intro x; clear_value x)
    | lift_lets
    | with_reducible refine ite_evo (fun _ => ?_) (fun _ => ?_)
    | with_reducible refine State.beginRamp_evo ?_ hk_unit
    | with_reducible refine State.deadStart_evo ?_ hk_unit
    | with_reducible refine State.beginSync_evo ?_ hk_unit
    | with_reducible refine State.refuseStart_evo ?_ hk_unit
    | with_reducible refine State.startBackoff_evo ?_
    | (with_reducible refine upd_evo ?_; with_reducible assumption)
    | (with_reducible refine upd_evo ?_; with_reducible refine upd_evo ?_; with_reducible assumption)
    | split

theorem State.rearm_evo {K : Kinds} {s0 s : State} {p : Nat} (h : Evolve K s0 s) (hk_unit : K.unit = true) :
    Evolve K s0 (State.rearm s p) := by
  unfold State.rearm
  repeat' first
    | with_reducible assumption
    | with_reducible refine ite_evo (fun _ => ?_) (fun _ => ?_)
    | with_reducible refine State.modPort_evo ?_
    | with_reducible refine State.armedStart_evo ?_ hk_unit
    | (with_reducible refine upd_evo ?_; with_reducible assumption)
    | (with_reducible refine upd_evo ?_; with_reducible refine upd_evo ?_; with_reducible assumption)

theorem State.busRose_evo {K : Kinds} {s0 s : State} {p : Nat} (h : Evolve K s0 s) (hk_unit : K.unit = true) :
    Evolve K s0 (State.busRose s p) := by
  unfold State.busRose
  repeat' first
    | with_reducible assumption
    | (intro x; refine cut_evo (k := K) (s0 := s0) (x := x) ?_ ?_; rotate_left; intro hx; clear_value x; rotate_left; subst x)
    | (intro x; clear_value x)
    | lift_lets
    | with_reducible refine ite_evo (fun _ => ?_) (fun _ => ?_)
    | with_reducible refine State.raise_evo ?_
    | with_reducible refine State.modPort_evo ?_
    | with_reducible refine State.latOut_evo ?_
    | with_reducible refine State.askOpen_evo ?_
    | with_reducible refine State.rearm_evo ?_ hk_unit
    | (with_reducible refine upd_evo ?_; with_reducible assumption)
    | (with_reducible refine upd_evo ?_; with_reducible refine upd_evo ?_; with_reducible assumption)

theorem State.refuseEnergise_evo {K : Kinds} {s0 s : State} {p v code : Nat} (h : Evolve K s0 s) :
    Evolve K s0 (State.refuseEnergise s p v code) := by
  unfold State.refuseEnergise
  repeat' first
    | with_reducible assumption
    | with_reducible refine State.setN_evo ?_
    | with_reducible refine State.raise_evo ?_
    | with_reducible refine State.modPort_evo ?_
    | (with_reducible refine upd_evo ?_; with_reducible assumption)
    | (with_reducible refine upd_evo ?_; with_reducible refine upd_evo ?_; with_reducible assumption)

theorem State.doEnergise_evo {K : Kinds} {s0 s : State} {p v : Nat} (h : Evolve K s0 s) (hk_unit : K.unit = true) :
    Evolve K s0 (State.doEnergise s p v) := by
  unfold State.doEnergise
  repeat' first
    | with_reducible assumption
    | (intro x; refine cut_evo (k := K) (s0 := s0) (x := x) ?_ ?_; rotate_left; intro hx; clear_value x; rotate_left; subst x)
    | (intro x; clear_value x)
    | lift_lets
    | with_reducible refine ite_evo (fun _ => ?_) (fun _ => ?_)
    | with_reducible refine State.setN_evo ?_
    | with_reducible refine State.bump_evo ?_
    | with_reducible refine State.setBit_evo ?_
    | (with_reducible refine State.onlyIf_evo ?_ (fun s h => ?_))
    | with_reducible refine State.modPort_evo ?_
    | with_reducible refine State.latOut_evo ?_
    | with_reducible refine State.gotoUnit_evo ?_ hk_unit
    | with_reducible refine State.setPort_evo ?_ hk_unit
    | with_reducible refine State.refuseEnergise_evo ?_
    | (with_reducible refine upd_evo ?_; with_reducible assumption)
    | (with_reducible refine upd_evo ?_; with_reducible refine upd_evo ?_; with_reducible assumption)

theorem execEnergise_evo {K : Kinds} {t : Nat} {req : Requester} {p : Nat} {v : Word} {s0 s : State} (h : Evolve K s0 s) (hk_unit : K.unit = true) :
    ∃ s', (execEnergise t req p v s) = .next s' ∧ Evolve K s0 s' := by
  unfold execEnergise
  refine ⟨_, rfl, ?_⟩
  replace h := State.advance_evo (t := t) h
  revert h
  generalize State.advance s t = s
  intro h
  repeat' first
    | with_reducible assumption
    | (intro x; refine cut_evo (k := K) (s0 := s0) (x := x) ?_ ?_; rotate_left; intro hx; clear_value x; rotate_left; subst x)
    | (intro x; clear_value x)
    | lift_lets
    | with_reducible refine ite_evo (fun _ => ?_) (fun _ => ?_)
    | with_reducible refine State.advance_evo ?_
    | with_reducible refine State.reqRow_evo ?_ ?_
    | with_reducible refine State.doEnergise_evo ?_ hk_unit

theorem State.doStop_evo {K : Kinds} {s0 s : State} {p : Nat} (h : Evolve K s0 s) :
    Evolve K s0 (State.doStop s p) := by
  unfold State.doStop
  repeat' first
    | with_reducible assumption
    | (intro x; refine cut_evo (k := K) (s0 := s0) (x := x) ?_ ?_; rotate_left; intro hx; clear_value x; rotate_left; subst x)
    | (intro x; clear_value x)
    | lift_lets
    | with_reducible refine ite_evo (fun _ => ?_) (fun _ => ?_)
    | (with_reducible refine State.onlyIf_evo ?_ (fun s h => ?_))
    | with_reducible refine State.modPort_evo ?_
    | with_reducible refine State.dropClose_evo ?_
    | (with_reducible refine upd_evo ?_; with_reducible assumption)
    | (with_reducible refine upd_evo ?_; with_reducible refine upd_evo ?_; with_reducible assumption)

theorem execStopPort_evo {K : Kinds} {t : Nat} {req : Requester} {p : Nat} {s0 s : State} (h : Evolve K s0 s) :
    ∃ s', (execStopPort t req p s) = .next s' ∧ Evolve K s0 s' := by
  unfold execStopPort
  refine ⟨_, rfl, ?_⟩
  replace h := State.advance_evo (t := t) h
  revert h
  generalize State.advance s t = s
  intro h
  repeat' first
    | with_reducible assumption
    | (intro x; refine cut_evo (k := K) (s0 := s0) (x := x) ?_ ?_; rotate_left; intro hx; clear_value x; rotate_left; subst x)
    | (intro x; clear_value x)
    | lift_lets
    | with_reducible refine ite_evo (fun _ => ?_) (fun _ => ?_)
    | with_reducible refine State.advance_evo ?_
    | with_reducible refine State.reqRow_evo ?_ ?_
    | with_reducible refine State.doStop_evo ?_

theorem State.doStopUnit_evo {K : Kinds} {s0 s : State} {cause : Nat} (h : Evolve K s0 s) (hk_unit : K.unit = true) :
    Evolve K s0 (State.doStopUnit s cause) := by
  unfold State.doStopUnit
  repeat' first
    | with_reducible assumption
    | (intro x; refine cut_evo (k := K) (s0 := s0) (x := x) ?_ ?_; rotate_left; intro hx; clear_value x; rotate_left; subst x)
    | (intro x; clear_value x)
    | lift_lets
    | (with_reducible refine State.each_evo ?_ (fun s i h => ?_))
    | with_reducible refine State.gotoUnit_evo ?_ hk_unit
    | with_reducible refine State.doStop_evo ?_
    | (with_reducible refine upd_evo ?_; with_reducible assumption)
    | (with_reducible refine upd_evo ?_; with_reducible refine upd_evo ?_; with_reducible assumption)
    | split

theorem execStopUnit_evo {K : Kinds} {t : Nat} {req : Requester} {s0 s : State} (h : Evolve K s0 s) (hk_unit : K.unit = true) :
    ∃ s', (execStopUnit t req s) = .next s' ∧ Evolve K s0 s' := by
  unfold execStopUnit
  refine ⟨_, rfl, ?_⟩
  replace h := State.advance_evo (t := t) h
  revert h
  generalize State.advance s t = s
  intro h
  repeat' first
    | with_reducible assumption
    | (intro x; refine cut_evo (k := K) (s0 := s0) (x := x) ?_ ?_; rotate_left; intro hx; clear_value x; rotate_left; subst x)
    | (intro x; clear_value x)
    | lift_lets
    | with_reducible refine State.advance_evo ?_
    | with_reducible refine State.reqRow_evo ?_ ?_
    | with_reducible refine State.doStopUnit_evo ?_ hk_unit

theorem execArmTimeout_evo {K : Kinds} {t : Nat} {p : Nat} {s0 s : State} (h : Evolve K s0 s) (hk_unit : K.unit = true) :
    ∃ s', (execArmTimeout t p s) = .next s' ∧ Evolve K s0 s' := by
  unfold execArmTimeout
  refine ⟨_, rfl, ?_⟩
  replace h := State.advance_evo (t := t) h
  revert h
  generalize State.advance s t = s
  intro h
  repeat' first
    | with_reducible assumption
    | (intro x; refine cut_evo (k := K) (s0 := s0) (x := x) ?_ ?_; rotate_left; intro hx; clear_value x; rotate_left; subst x)
    | (intro x; clear_value x)
    | lift_lets
    | with_reducible refine ite_evo (fun _ => ?_) (fun _ => ?_)
    | with_reducible refine State.advance_evo ?_
    | with_reducible refine State.raise_evo ?_
    | with_reducible refine State.setPortBy_evo ?_ hk_unit

theorem execBusDeadDetected_evo {K : Kinds} {t : Nat} {p : Nat} {s0 s : State} (h : Evolve K s0 s) (hk_unit : K.unit = true) :
    ∃ s', (execBusDeadDetected t p s) = .next s' ∧ Evolve K s0 s' := by
  unfold execBusDeadDetected
  refine ⟨_, rfl, ?_⟩
  replace h := State.advance_evo (t := t) h
  revert h
  generalize State.advance s t = s
  intro h
  repeat' first
    | with_reducible assumption
    | (intro x; refine cut_evo (k := K) (s0 := s0) (x := x) ?_ ?_; rotate_left; intro hx; clear_value x; rotate_left; subst x)
    | (intro x; clear_value x)
    | lift_lets
    | with_reducible refine ite_evo (fun _ => ?_) (fun _ => ?_)
    | with_reducible refine State.setN_evo ?_
    | with_reducible refine State.advance_evo ?_
    | with_reducible refine State.modPort_evo ?_
    | with_reducible refine State.armedStart_evo ?_ hk_unit
    | (with_reducible refine upd_evo ?_; with_reducible assumption)
    | (with_reducible refine upd_evo ?_; with_reducible refine upd_evo ?_; with_reducible assumption)

theorem State.showBus_evo {K : Kinds} {s0 s : State} {p : Nat} (h : Evolve K s0 s) :
    Evolve K s0 (State.showBus s p) := by
  unfold State.showBus
  repeat' first
    | with_reducible assumption
    | (intro x; refine cut_evo (k := K) (s0 := s0) (x := x) ?_ ?_; rotate_left; intro hx; clear_value x; rotate_left; subst x)
    | (intro x; clear_value x)
    | lift_lets
    | with_reducible refine State.setW_evo ?_
    | with_reducible refine State.setZ_evo ?_

theorem execBusLiveDetected_evo {K : Kinds} {t : Nat} {p : Nat} {_f _ang : Unit} {s0 s : State} (h : Evolve K s0 s) (hk_unit : K.unit = true) :
    ∃ s', (execBusLiveDetected t p _f _ang s) = .next s' ∧ Evolve K s0 s' := by
  unfold execBusLiveDetected
  refine ⟨_, rfl, ?_⟩
  replace h := State.advance_evo (t := t) h
  revert h
  generalize State.advance s t = s
  intro h
  repeat' first
    | with_reducible assumption
    | (intro x; refine cut_evo (k := K) (s0 := s0) (x := x) ?_ ?_; rotate_left; intro hx; clear_value x; rotate_left; subst x)
    | (intro x; clear_value x)
    | lift_lets
    | with_reducible refine ite_evo (fun _ => ?_) (fun _ => ?_)
    | with_reducible refine State.advance_evo ?_
    | with_reducible refine State.modPort_evo ?_
    | with_reducible refine State.armedStart_evo ?_ hk_unit
    | with_reducible refine State.showBus_evo ?_
    | (with_reducible refine upd_evo ?_; with_reducible assumption)
    | (with_reducible refine upd_evo ?_; with_reducible refine upd_evo ?_; with_reducible assumption)

theorem execBackoffExpiry_evo {K : Kinds} {t : Nat} {p : Nat} {s0 s : State} (h : Evolve K s0 s) (hk_unit : K.unit = true) :
    ∃ s', (execBackoffExpiry t p s) = .next s' ∧ Evolve K s0 s' := by
  unfold execBackoffExpiry
  refine ⟨_, rfl, ?_⟩
  replace h := State.advance_evo (t := t) h
  revert h
  generalize State.advance s t = s
  intro h
  repeat' first
    | with_reducible assumption
    | (intro x; refine cut_evo (k := K) (s0 := s0) (x := x) ?_ ?_; rotate_left; intro hx; clear_value x; rotate_left; subst x)
    | (intro x; clear_value x)
    | lift_lets
    | with_reducible refine ite_evo (fun _ => ?_) (fun _ => ?_)
    | with_reducible refine State.setBit_evo ?_
    | with_reducible refine State.advance_evo ?_
    | with_reducible refine State.modPort_evo ?_
    | with_reducible refine State.deadStart_evo ?_ hk_unit
    | with_reducible refine State.beginSync_evo ?_ hk_unit
    | with_reducible refine State.refuseStart_evo ?_ hk_unit
    | (with_reducible refine upd_evo ?_; with_reducible assumption)
    | (with_reducible refine upd_evo ?_; with_reducible refine upd_evo ?_; with_reducible assumption)
    | split

theorem execCoordinatedStart_evo {K : Kinds} {t : Nat} {p : Nat} {s0 s : State} (h : Evolve K s0 s) (hk_unit : K.unit = true) :
    ∃ s', (execCoordinatedStart t p s) = .next s' ∧ Evolve K s0 s' := by
  unfold execCoordinatedStart
  refine ⟨_, rfl, ?_⟩
  replace h := State.advance_evo (t := t) h
  revert h
  generalize State.advance s t = s
  intro h
  repeat' first
    | with_reducible assumption
    | (intro x; refine cut_evo (k := K) (s0 := s0) (x := x) ?_ ?_; rotate_left; intro hx; clear_value x; rotate_left; subst x)
    | (intro x; clear_value x)
    | lift_lets
    | with_reducible refine ite_evo (fun _ => ?_) (fun _ => ?_)
    | with_reducible refine State.setBit_evo ?_
    | with_reducible refine State.advance_evo ?_
    | with_reducible refine State.raise_evo ?_
    | with_reducible refine State.latOut_evo ?_
    | with_reducible refine State.setPortBy_evo ?_ hk_unit
    | with_reducible refine State.beginRamp_evo ?_ hk_unit
    | with_reducible refine State.busRose_evo ?_ hk_unit
    | (with_reducible refine upd_evo ?_; with_reducible assumption)
    | (with_reducible refine upd_evo ?_; with_reducible refine upd_evo ?_; with_reducible assumption)
    | split

theorem execScheduleCancel_evo {K : Kinds} {t : Nat} {p : Nat} {s0 s : State} (h : Evolve K s0 s) (hk_unit : K.unit = true) :
    ∃ s', (execScheduleCancel t p s) = .next s' ∧ Evolve K s0 s' := by
  unfold execScheduleCancel
  refine ⟨_, rfl, ?_⟩
  replace h := State.advance_evo (t := t) h
  revert h
  generalize State.advance s t = s
  intro h
  repeat' first
    | with_reducible assumption
    | (intro x; refine cut_evo (k := K) (s0 := s0) (x := x) ?_ ?_; rotate_left; intro hx; clear_value x; rotate_left; subst x)
    | (intro x; clear_value x)
    | lift_lets
    | with_reducible refine ite_evo (fun _ => ?_) (fun _ => ?_)
    | with_reducible refine State.setBit_evo ?_
    | with_reducible refine State.advance_evo ?_
    | with_reducible refine State.raise_evo ?_
    | with_reducible refine State.modPort_evo ?_
    | with_reducible refine State.latOut_evo ?_
    | with_reducible refine State.armedStart_evo ?_ hk_unit
    | (with_reducible refine upd_evo ?_; with_reducible assumption)
    | (with_reducible refine upd_evo ?_; with_reducible refine upd_evo ?_; with_reducible assumption)
    | split

theorem execSyncDwellComplete_evo {K : Kinds} {t : Nat} {p : Nat} {s0 s : State} (h : Evolve K s0 s) :
    ∃ s', (execSyncDwellComplete t p s) = .next s' ∧ Evolve K s0 s' := by
  unfold execSyncDwellComplete
  refine ⟨_, rfl, ?_⟩
  replace h := State.advance_evo (t := t) h
  revert h
  generalize State.advance s t = s
  intro h
  repeat' first
    | with_reducible assumption
    | (intro x; refine cut_evo (k := K) (s0 := s0) (x := x) ?_ ?_; rotate_left; intro hx; clear_value x; rotate_left; subst x)
    | (intro x; clear_value x)
    | lift_lets
    | with_reducible refine ite_evo (fun _ => ?_) (fun _ => ?_)
    | with_reducible refine State.advance_evo ?_
    | with_reducible refine State.raise_evo ?_
    | with_reducible refine State.modPort_evo ?_
    | with_reducible refine State.latOut_evo ?_
    | (with_reducible refine upd_evo ?_; with_reducible assumption)
    | (with_reducible refine upd_evo ?_; with_reducible refine upd_evo ?_; with_reducible assumption)
    | split

theorem execCloseTimeout_evo {K : Kinds} {t : Nat} {p : Nat} {s0 s : State} (h : Evolve K s0 s) (hk_unit : K.unit = true) :
    ∃ s', (execCloseTimeout t p s) = .next s' ∧ Evolve K s0 s' := by
  unfold execCloseTimeout
  refine ⟨_, rfl, ?_⟩
  replace h := State.advance_evo (t := t) h
  revert h
  generalize State.advance s t = s
  intro h
  repeat' first
    | with_reducible assumption
    | (intro x; refine cut_evo (k := K) (s0 := s0) (x := x) ?_ ?_; rotate_left; intro hx; clear_value x; rotate_left; subst x)
    | (intro x; clear_value x)
    | lift_lets
    | with_reducible refine ite_evo (fun _ => ?_) (fun _ => ?_)
    | with_reducible refine State.bump_evo ?_
    | with_reducible refine State.advance_evo ?_
    | with_reducible refine State.raise_evo ?_
    | with_reducible refine State.dropClose_evo ?_
    | with_reducible refine State.setPortBy_evo ?_ hk_unit
    | (with_reducible refine upd_evo ?_; with_reducible assumption)
    | (with_reducible refine upd_evo ?_; with_reducible refine upd_evo ?_; with_reducible assumption)
    | split

theorem execSyncTimeout_evo {K : Kinds} {t : Nat} {p : Nat} {s0 s : State} (h : Evolve K s0 s) (hk_unit : K.unit = true) :
    ∃ s', (execSyncTimeout t p s) = .next s' ∧ Evolve K s0 s' := by
  unfold execSyncTimeout
  refine ⟨_, rfl, ?_⟩
  replace h := State.advance_evo (t := t) h
  revert h
  generalize State.advance s t = s
  intro h
  repeat' first
    | with_reducible assumption
    | (intro x; refine cut_evo (k := K) (s0 := s0) (x := x) ?_ ?_; rotate_left; intro hx; clear_value x; rotate_left; subst x)
    | (intro x; clear_value x)
    | lift_lets
    | with_reducible refine ite_evo (fun _ => ?_) (fun _ => ?_)
    | with_reducible refine State.bump_evo ?_
    | with_reducible refine State.advance_evo ?_
    | with_reducible refine State.raise_evo ?_
    | with_reducible refine State.setPortBy_evo ?_ hk_unit

theorem State.stopOpen_evo {K : Kinds} {s0 s : State} {p : Nat} (h : Evolve K s0 s) (hk_unit : K.unit = true) :
    Evolve K s0 (State.stopOpen s p) := by
  unfold State.stopOpen
  repeat' first
    | with_reducible assumption
    | with_reducible refine ite_evo (fun _ => ?_) (fun _ => ?_)
    | with_reducible refine State.askOpen_evo ?_
    | with_reducible refine State.setPort_evo ?_ hk_unit

theorem execStopTimeout_evo {K : Kinds} {t : Nat} {p : Nat} {s0 s : State} (h : Evolve K s0 s) (hk_unit : K.unit = true) :
    ∃ s', (execStopTimeout t p s) = .next s' ∧ Evolve K s0 s' := by
  unfold execStopTimeout
  refine ⟨_, rfl, ?_⟩
  replace h := State.advance_evo (t := t) h
  revert h
  generalize State.advance s t = s
  intro h
  repeat' first
    | with_reducible assumption
    | (intro x; refine cut_evo (k := K) (s0 := s0) (x := x) ?_ ?_; rotate_left; intro hx; clear_value x; rotate_left; subst x)
    | (intro x; clear_value x)
    | lift_lets
    | with_reducible refine ite_evo (fun _ => ?_) (fun _ => ?_)
    | with_reducible refine State.advance_evo ?_
    | with_reducible refine State.stopOpen_evo ?_ hk_unit
    | (with_reducible refine upd_evo ?_; with_reducible assumption)
    | (with_reducible refine upd_evo ?_; with_reducible refine upd_evo ?_; with_reducible assumption)
    | split

end Sys2Proof.Machine
end

