-- ==== Sys2Proof/Laws/KeptLaw.lean ====
section
/-! SUPPORT. What the functions of Machine/Law.lean keep: each stays within `Evolve`. -/

set_option Elab.async false
set_option linter.unusedVariables false
set_option linter.unreachableTactic false
set_option linter.unusedTactic false
set_option linter.unusedSimpArgs false

namespace Sys2Proof.Machine

theorem State.lawMeasure_evo {K : Kinds} {s0 s : State} {p : Nat} (h : Evolve K s0 s) :
    Evolve K s0 (State.lawMeasure s p) := by
  unfold State.lawMeasure
  repeat' first
    | with_reducible assumption
    | (intro x; refine cut_evo (k := K) (s0 := s0) (x := x) ?_ ?_; rotate_left; intro hx; clear_value x; rotate_left; subst x)
    | (intro x; clear_value x)
    | lift_lets
    | with_reducible refine ite_evo (fun _ => ?_) (fun _ => ?_)
    | with_reducible refine State.setZ_evo ?_
    | with_reducible refine State.modPort_evo ?_
    | (with_reducible refine upd_evo ?_; with_reducible assumption)
    | (with_reducible refine upd_evo ?_; with_reducible refine upd_evo ?_; with_reducible assumption)

theorem State.glzOne_evo {K : Kinds} {s0 s : State} {p k : Nat} {q : Glz} {g : Int} {rate jerk out : Nat} (h : Evolve K s0 s) :
    Evolve K s0 (State.glzOne s p k q g rate jerk out).2 := by
  unfold State.glzOne
  repeat' first
    | with_reducible assumption
    | (intro x; refine cut_evo (k := K) (s0 := s0) (x := x) ?_ ?_; rotate_left; intro hx; clear_value x; rotate_left; subst x)
    | (intro x; clear_value x)
    | lift_lets
    | with_reducible refine State.setZ_evo ?_
    | with_reducible refine State.bump_evo ?_
    | with_reducible refine State.setBit_evo ?_
    | (with_reducible refine State.onlyIf_evo ?_ (fun s h => ?_))
    | with_reducible refine State.raise_evo ?_
    | (with_reducible refine iteSnd_evo (fun _ => ?_) (fun _ => ?_))
    | (with_reducible refine foldlSnd_evo ?_ (fun a x h => ?_))
    | split
    | dsimp only

theorem State.glzStep_evo {K : Kinds} {s0 s : State} {p : Nat} (h : Evolve K s0 s) :
    Evolve K s0 (State.glzStep s p) := by
  unfold State.glzStep
  repeat' first
    | with_reducible assumption
    | (intro x; refine cut_evo (k := K) (s0 := s0) (x := x) ?_ ?_; rotate_left; intro hx; clear_value x; rotate_left; subst x)
    | (intro x; clear_value x)
    | lift_lets
    | with_reducible refine ite_evo (fun _ => ?_) (fun _ => ?_)
    | with_reducible refine State.setBit_evo ?_
    | with_reducible refine State.modPort_evo ?_
    | with_reducible refine State.glzOne_evo ?_
    | (refine snd_evo (by assumption) ?_)
    | (refine fst_evo (by assumption) ?_)
    | (with_reducible refine upd_evo ?_; with_reducible assumption)
    | (with_reducible refine upd_evo ?_; with_reducible refine upd_evo ?_; with_reducible assumption)
    | split

theorem State.putOmega_evo {K : Kinds} {s0 s : State} {p : Nat} {w : Int} (h : Evolve K s0 s) :
    Evolve K s0 (State.putOmega s p w) := by
  unfold State.putOmega
  repeat' first
    | with_reducible assumption
    | (intro x; refine cut_evo (k := K) (s0 := s0) (x := x) ?_ ?_; rotate_left; intro hx; clear_value x; rotate_left; subst x)
    | (intro x; clear_value x)
    | lift_lets
    | with_reducible refine State.setZ_evo ?_
    | with_reducible refine State.setBit_evo ?_
    | (with_reducible refine State.onlyIf_evo ?_ (fun s h => ?_))
    | with_reducible refine State.raise_evo ?_
    | with_reducible refine State.modPort_evo ?_
    | (with_reducible refine upd_evo ?_; with_reducible assumption)
    | (with_reducible refine upd_evo ?_; with_reducible refine upd_evo ?_; with_reducible assumption)

theorem State.putE_evo {K : Kinds} {s0 s : State} {p : Nat} {e : Int} (h : Evolve K s0 s) :
    Evolve K s0 (State.putE s p e) := by
  unfold State.putE
  repeat' first
    | with_reducible assumption
    | (intro x; refine cut_evo (k := K) (s0 := s0) (x := x) ?_ ?_; rotate_left; intro hx; clear_value x; rotate_left; subst x)
    | (intro x; clear_value x)
    | lift_lets
    | with_reducible refine State.setZ_evo ?_
    | with_reducible refine State.setBit_evo ?_
    | (with_reducible refine State.onlyIf_evo ?_ (fun s h => ?_))
    | with_reducible refine State.raise_evo ?_
    | with_reducible refine State.modPort_evo ?_
    | (with_reducible refine upd_evo ?_; with_reducible assumption)
    | (with_reducible refine upd_evo ?_; with_reducible refine upd_evo ?_; with_reducible assumption)

theorem State.slipStep_evo {K : Kinds} {s0 s : State} {p : Nat} (h : Evolve K s0 s) :
    Evolve K s0 (State.slipStep s p) := by
  unfold State.slipStep
  repeat' first
    | with_reducible assumption
    | (intro x; refine cut_evo (k := K) (s0 := s0) (x := x) ?_ ?_; rotate_left; intro hx; clear_value x; rotate_left; subst x)
    | (intro x; clear_value x)
    | lift_lets
    | (with_reducible refine State.onlyIf_evo ?_ (fun s h => ?_))
    | with_reducible refine State.raise_evo ?_
    | with_reducible refine State.modPort_evo ?_
    | with_reducible refine State.putOmega_evo ?_
    | (with_reducible refine upd_evo ?_; with_reducible assumption)
    | (with_reducible refine upd_evo ?_; with_reducible refine upd_evo ?_; with_reducible assumption)
    | split

theorem State.rampStep_evo {K : Kinds} {s0 s : State} {p : Nat} (h : Evolve K s0 s) :
    Evolve K s0 (State.rampStep s p).2 := by
  unfold State.rampStep
  repeat' first
    | with_reducible assumption
    | (intro x; refine cut_evo (k := K) (s0 := s0) (x := x) ?_ ?_; rotate_left; intro hx; clear_value x; rotate_left; subst x)
    | (intro x; clear_value x)
    | lift_lets
    | with_reducible refine ite_evo (fun _ => ?_) (fun _ => ?_)
    | with_reducible refine State.putE_evo ?_
    | (with_reducible refine iteSnd_evo (fun _ => ?_) (fun _ => ?_))
    | (with_reducible refine foldlSnd_evo ?_ (fun a x h => ?_))
    | dsimp only

theorem State.lawIntegrate_evo {K : Kinds} {s0 s : State} {p : Nat} {frozen : Bool} (h : Evolve K s0 s) :
    Evolve K s0 (State.lawIntegrate s p frozen) := by
  unfold State.lawIntegrate
  repeat' first
    | with_reducible assumption
    | (intro x; refine cut_evo (k := K) (s0 := s0) (x := x) ?_ ?_; rotate_left; intro hx; clear_value x; rotate_left; subst x)
    | (intro x; clear_value x)
    | lift_lets
    | with_reducible refine ite_evo (fun _ => ?_) (fun _ => ?_)
    | with_reducible refine State.setZ_evo ?_
    | with_reducible refine State.modPort_evo ?_
    | with_reducible refine State.putOmega_evo ?_
    | with_reducible refine State.putE_evo ?_
    | with_reducible refine State.slipStep_evo ?_
    | (with_reducible refine upd_evo ?_; with_reducible assumption)
    | (with_reducible refine upd_evo ?_; with_reducible refine upd_evo ?_; with_reducible assumption)

theorem State.syncStep_evo {K : Kinds} {s0 s : State} {p : Nat} (h : Evolve K s0 s) :
    Evolve K s0 (State.syncStep s p) := by
  unfold State.syncStep
  repeat' first
    | with_reducible assumption
    | (intro x; refine cut_evo (k := K) (s0 := s0) (x := x) ?_ ?_; rotate_left; intro hx; clear_value x; rotate_left; subst x)
    | (intro x; clear_value x)
    | lift_lets
    | with_reducible refine ite_evo (fun _ => ?_) (fun _ => ?_)
    | with_reducible refine State.setZ_evo ?_
    | with_reducible refine State.modPort_evo ?_
    | with_reducible refine State.latOut_evo ?_
    | (with_reducible refine upd_evo ?_; with_reducible assumption)
    | (with_reducible refine upd_evo ?_; with_reducible refine upd_evo ?_; with_reducible assumption)

theorem State.limitStep_evo {K : Kinds} {s0 s : State} {p : Nat} (h : Evolve K s0 s) :
    Evolve K s0 (State.limitStep s p) := by
  unfold State.limitStep
  repeat' first
    | with_reducible assumption
    | (intro x; refine cut_evo (k := K) (s0 := s0) (x := x) ?_ ?_; rotate_left; intro hx; clear_value x; rotate_left; subst x)
    | (intro x; clear_value x)
    | lift_lets
    | with_reducible refine ite_evo (fun _ => ?_) (fun _ => ?_)
    | with_reducible refine State.setN_evo ?_
    | with_reducible refine State.setZ_evo ?_
    | with_reducible refine State.modPort_evo ?_
    | (with_reducible refine upd_evo ?_; with_reducible assumption)
    | (with_reducible refine upd_evo ?_; with_reducible refine upd_evo ?_; with_reducible assumption)

theorem execHardBudgetExhausted_evo {K : Kinds} {t : Nat} {p : Nat} {s0 s : State} (h : Evolve K s0 s) :
    ∃ s', (execHardBudgetExhausted t p s) = .next s' ∧ Evolve K s0 s' := by
  unfold execHardBudgetExhausted
  refine ⟨_, rfl, ?_⟩
  replace h := State.advance_evo (t := t) h
  revert h
  generalize State.advance s t = s
  intro h
  repeat' first
    | with_reducible assumption
    | (intro x; refine cut_evo (k := K) (s0 := s0) (x := x) ?_ ?_; rotate_left; intro hx; clear_value x; rotate_left; subst x)
    | (intro x; clear_value x)
    | lift_lets
    | with_reducible refine ite_evo (fun _ => ?_) (fun _ => ?_)
    | with_reducible refine State.advance_evo ?_
    | with_reducible refine State.raise_evo ?_
    | with_reducible refine State.modPort_evo ?_
    | (with_reducible refine upd_evo ?_; with_reducible assumption)
    | (with_reducible refine upd_evo ?_; with_reducible refine upd_evo ?_; with_reducible assumption)

theorem execHardBudgetRefilled_evo {K : Kinds} {t : Nat} {p : Nat} {s0 s : State} (h : Evolve K s0 s) :
    ∃ s', (execHardBudgetRefilled t p s) = .next s' ∧ Evolve K s0 s' := by
  unfold execHardBudgetRefilled
  refine ⟨_, rfl, ?_⟩
  replace h := State.advance_evo (t := t) h
  revert h
  generalize State.advance s t = s
  intro h
  repeat' first
    | with_reducible assumption
    | (intro x; refine cut_evo (k := K) (s0 := s0) (x := x) ?_ ?_; rotate_left; intro hx; clear_value x; rotate_left; subst x)
    | (intro x; clear_value x)
    | lift_lets
    | with_reducible refine ite_evo (fun _ => ?_) (fun _ => ?_)
    | with_reducible refine State.advance_evo ?_
    | with_reducible refine State.modPort_evo ?_
    | (with_reducible refine upd_evo ?_; with_reducible assumption)
    | (with_reducible refine upd_evo ?_; with_reducible refine upd_evo ?_; with_reducible assumption)

theorem State.jumpStep_evo {K : Kinds} {s0 s : State} {p : Nat} (h : Evolve K s0 s) :
    Evolve K s0 (State.jumpStep s p).2 := by
  unfold State.jumpStep
  repeat' first
    | with_reducible assumption
    | (intro x; refine cut_evo (k := K) (s0 := s0) (x := x) ?_ ?_; rotate_left; intro hx; clear_value x; rotate_left; subst x)
    | (intro x; clear_value x)
    | lift_lets
    | with_reducible refine ite_evo (fun _ => ?_) (fun _ => ?_)
    | with_reducible refine State.modPort_evo ?_
    | (with_reducible refine foldl_evo ?_ (fun s i h => ?_))
    | (with_reducible refine iteSnd_evo (fun _ => ?_) (fun _ => ?_))
    | (with_reducible refine foldlSnd_evo ?_ (fun a x h => ?_))
    | (with_reducible refine upd_evo ?_; with_reducible assumption)
    | (with_reducible refine upd_evo ?_; with_reducible refine upd_evo ?_; with_reducible assumption)
    | split
    | dsimp only

theorem State.rtStep_evo {K : Kinds} {s0 s : State} {p : Nat} (h : Evolve K s0 s) :
    Evolve K s0 (State.rtStep s p).2 := by
  unfold State.rtStep
  repeat' first
    | with_reducible assumption
    | (intro x; refine cut_evo (k := K) (s0 := s0) (x := x) ?_ ?_; rotate_left; intro hx; clear_value x; rotate_left; subst x)
    | (intro x; clear_value x)
    | lift_lets
    | with_reducible refine ite_evo (fun _ => ?_) (fun _ => ?_)
    | with_reducible refine State.setN_evo ?_
    | (with_reducible refine State.onlyIf_evo ?_ (fun s h => ?_))
    | with_reducible refine State.raise_evo ?_
    | with_reducible refine State.modPort_evo ?_
    | with_reducible refine State.injAbort_evo ?_
    | (with_reducible refine iteSnd_evo (fun _ => ?_) (fun _ => ?_))
    | (with_reducible refine foldlSnd_evo ?_ (fun a x h => ?_))
    | (with_reducible refine upd_evo ?_; with_reducible assumption)
    | (with_reducible refine upd_evo ?_; with_reducible refine upd_evo ?_; with_reducible assumption)
    | dsimp only

theorem execExcursionClose_evo {K : Kinds} {t : Nat} {p : Nat} {s0 s : State} (h : Evolve K s0 s) (hk_unit : K.unit = true) :
    ∃ s', (execExcursionClose t p s) = .next s' ∧ Evolve K s0 s' := by
  unfold execExcursionClose
  refine ⟨_, rfl, ?_⟩
  replace h := State.advance_evo (t := t) h
  revert h
  generalize State.advance s t = s
  intro h
  repeat' first
    | with_reducible assumption
    | (intro x; refine cut_evo (k := K) (s0 := s0) (x := x) ?_ ?_; rotate_left; intro hx; clear_value x; rotate_left; subst x)
    | (intro x; clear_value x)
    | lift_lets
    | with_reducible refine ite_evo (fun _ => ?_) (fun _ => ?_)
    | with_reducible refine State.setN_evo ?_
    | with_reducible refine State.advance_evo ?_
    | with_reducible refine State.raise_evo ?_
    | with_reducible refine State.modPort_evo ?_
    | with_reducible refine State.recompute_evo ?_ hk_unit
    | (with_reducible refine upd_evo ?_; with_reducible assumption)
    | (with_reducible refine upd_evo ?_; with_reducible refine upd_evo ?_; with_reducible assumption)
    | split

theorem execLimReleaseExpiry_evo {K : Kinds} {t : Nat} {p : Nat} {s0 s : State} (h : Evolve K s0 s) (hk_unit : K.unit = true) :
    ∃ s', (execLimReleaseExpiry t p s) = .next s' ∧ Evolve K s0 s' := by
  unfold execLimReleaseExpiry
  refine ⟨_, rfl, ?_⟩
  replace h := State.advance_evo (t := t) h
  revert h
  generalize State.advance s t = s
  intro h
  repeat' first
    | with_reducible assumption
    | (intro x; refine cut_evo (k := K) (s0 := s0) (x := x) ?_ ?_; rotate_left; intro hx; clear_value x; rotate_left; subst x)
    | (intro x; clear_value x)
    | lift_lets
    | with_reducible refine ite_evo (fun _ => ?_) (fun _ => ?_)
    | with_reducible refine State.advance_evo ?_
    | with_reducible refine State.raise_evo ?_
    | with_reducible refine State.setPort_evo ?_ hk_unit

theorem State.jumpTold_evo {K : Kinds} {s0 s : State} {p : Nat} {phi : Option Int} (h : Evolve K s0 s) :
    Evolve K s0 (State.jumpTold s p phi) := by
  unfold State.jumpTold
  repeat' first
    | with_reducible assumption
    | split
    | with_reducible refine State.bump_evo ?_
    | with_reducible refine State.raise_evo ?_
    | (with_reducible refine upd_evo ?_; with_reducible assumption)
    | (with_reducible refine upd_evo ?_; with_reducible refine upd_evo ?_; with_reducible assumption)
    | split

theorem State.slipTold_evo {K : Kinds} {s0 s : State} {p : Nat} (h : Evolve K s0 s) :
    Evolve K s0 (State.slipTold s p).2 := by
  unfold State.slipTold
  repeat' first
    | with_reducible assumption
    | (intro x; refine cut_evo (k := K) (s0 := s0) (x := x) ?_ ?_; rotate_left; intro hx; clear_value x; rotate_left; subst x)
    | (intro x; clear_value x)
    | lift_lets
    | with_reducible refine ite_evo (fun _ => ?_) (fun _ => ?_)
    | with_reducible refine State.setZ_evo ?_
    | with_reducible refine State.bump_evo ?_
    | (with_reducible refine State.onlyIf_evo ?_ (fun s h => ?_))
    | with_reducible refine State.raise_evo ?_
    | with_reducible refine State.modPort_evo ?_
    | (with_reducible refine iteSnd_evo (fun _ => ?_) (fun _ => ?_))
    | (with_reducible refine foldlSnd_evo ?_ (fun a x h => ?_))
    | (with_reducible refine upd_evo ?_; with_reducible assumption)
    | (with_reducible refine upd_evo ?_; with_reducible refine upd_evo ?_; with_reducible assumption)
    | split
    | dsimp only

theorem State.rtTrip_evo {K : Kinds} {s0 s : State} {p : Nat} {v : Int} {side : Nat} (h : Evolve K s0 s) (hk_unit : K.unit = true) :
    Evolve K s0 (State.rtTrip s p v side) := by
  unfold State.rtTrip
  repeat' first
    | with_reducible assumption
    | (intro x; refine cut_evo (k := K) (s0 := s0) (x := x) ?_ ?_; rotate_left; intro hx; clear_value x; rotate_left; subst x)
    | (intro x; clear_value x)
    | lift_lets
    | with_reducible refine ite_evo (fun _ => ?_) (fun _ => ?_)
    | with_reducible refine State.bump_evo ?_
    | with_reducible refine State.raise_evo ?_
    | with_reducible refine State.askOpen_evo ?_
    | with_reducible refine State.setPort_evo ?_ hk_unit
    | with_reducible refine State.portFault_evo ?_ hk_unit

theorem State.deadStep_evo {K : Kinds} {s0 s : State} {p : Nat} (h : Evolve K s0 s) :
    Evolve K s0 (State.deadStep s p) := by
  unfold State.deadStep
  repeat' first
    | with_reducible assumption
    | with_reducible refine ite_evo (fun _ => ?_) (fun _ => ?_)
    | with_reducible refine State.modPort_evo ?_
    | (with_reducible refine upd_evo ?_; with_reducible assumption)
    | (with_reducible refine upd_evo ?_; with_reducible refine upd_evo ?_; with_reducible assumption)

theorem State.outerFaults_evo {K : Kinds} {s0 s : State} {p : Nat} {trip : Nat} {phi : Option Int} (h : Evolve K s0 s) (hk_unit : K.unit = true) :
    Evolve K s0 (State.outerFaults s p trip phi) := by
  unfold State.outerFaults
  repeat' first
    | with_reducible assumption
    | (intro x; refine cut_evo (k := K) (s0 := s0) (x := x) ?_ ?_; rotate_left; intro hx; clear_value x; rotate_left; subst x)
    | (intro x; refine cutSnd_evo (k := K) (s0 := s0) (x := x) ?_ ?_; rotate_left; intro hx; clear_value x; rotate_left; subst x)
    | (intro x; clear_value x)
    | lift_lets
    | with_reducible refine ite_evo (fun _ => ?_) (fun _ => ?_)
    | with_reducible refine State.raise_evo ?_
    | with_reducible refine State.setPort_evo ?_ hk_unit
    | with_reducible refine State.portFault_evo ?_ hk_unit
    | with_reducible refine State.legDecision_evo ?_
    | with_reducible refine State.jumpTold_evo ?_
    | with_reducible refine State.slipTold_evo ?_
    | with_reducible refine State.rtTrip_evo ?_ hk_unit
    | (refine snd_evo (by assumption) ?_)
    | (refine fst_evo (by assumption) ?_)
    | (with_reducible refine upd_evo ?_; with_reducible assumption)
    | (with_reducible refine upd_evo ?_; with_reducible refine upd_evo ?_; with_reducible assumption)
    | split

theorem State.outerStop_evo {K : Kinds} {s0 s : State} {p : Nat} {confirm : Option Bool} {rampEnd : Bool} (h : Evolve K s0 s) (hk_unit : K.unit = true) :
    Evolve K s0 (State.outerStop s p confirm rampEnd) := by
  unfold State.outerStop
  repeat' first
    | with_reducible assumption
    | (intro x; refine cut_evo (k := K) (s0 := s0) (x := x) ?_ ?_; rotate_left; intro hx; clear_value x; rotate_left; subst x)
    | (intro x; clear_value x)
    | lift_lets
    | with_reducible refine ite_evo (fun _ => ?_) (fun _ => ?_)
    | (with_reducible refine State.onlyIf_evo ?_ (fun s h => ?_))
    | with_reducible refine State.latOut_evo ?_
    | with_reducible refine State.askOpen_evo ?_
    | with_reducible refine State.setPort_evo ?_ hk_unit
    | with_reducible refine State.stopOpen_evo ?_ hk_unit
    | (with_reducible refine upd_evo ?_; with_reducible assumption)
    | (with_reducible refine upd_evo ?_; with_reducible refine upd_evo ?_; with_reducible assumption)
    | split

theorem State.syncConfirm_evo {K : Kinds} {s0 s : State} {p : Nat} (h : Evolve K s0 s) (hk_unit : K.unit = true) :
    Evolve K s0 (State.syncConfirm s p) := by
  unfold State.syncConfirm
  repeat' first
    | with_reducible assumption
    | (intro x; refine cut_evo (k := K) (s0 := s0) (x := x) ?_ ?_; rotate_left; intro hx; clear_value x; rotate_left; subst x)
    | (intro x; clear_value x)
    | lift_lets
    | with_reducible refine ite_evo (fun _ => ?_) (fun _ => ?_)
    | with_reducible refine State.setBit_evo ?_
    | (with_reducible refine State.onlyIf_evo ?_ (fun s h => ?_))
    | with_reducible refine State.raise_evo ?_
    | with_reducible refine State.dropClose_evo ?_
    | with_reducible refine State.setPort_evo ?_ hk_unit
    | with_reducible refine State.portFault_evo ?_ hk_unit

theorem State.outerConfirm_evo {K : Kinds} {s0 s : State} {p : Nat} {closed : Bool} (h : Evolve K s0 s) (hk_unit : K.unit = true) :
    Evolve K s0 (State.outerConfirm s p closed) := by
  unfold State.outerConfirm
  repeat' first
    | with_reducible assumption
    | (intro x; refine cut_evo (k := K) (s0 := s0) (x := x) ?_ ?_; rotate_left; intro hx; clear_value x; rotate_left; subst x)
    | (intro x; clear_value x)
    | lift_lets
    | with_reducible refine ite_evo (fun _ => ?_) (fun _ => ?_)
    | (with_reducible refine State.onlyIf_evo ?_ (fun s h => ?_))
    | with_reducible refine State.modPort_evo ?_
    | with_reducible refine State.latOut_evo ?_
    | with_reducible refine State.beginRamp_evo ?_ hk_unit
    | with_reducible refine State.rearm_evo ?_ hk_unit
    | with_reducible refine State.busRose_evo ?_ hk_unit
    | with_reducible refine State.syncConfirm_evo ?_ hk_unit
    | (with_reducible refine upd_evo ?_; with_reducible assumption)
    | (with_reducible refine upd_evo ?_; with_reducible refine upd_evo ?_; with_reducible assumption)
    | split

theorem State.outerBus_evo {K : Kinds} {s0 s : State} {p : Nat} (h : Evolve K s0 s) (hk_unit : K.unit = true) :
    Evolve K s0 (State.outerBus s p) := by
  unfold State.outerBus
  repeat' first
    | with_reducible assumption
    | (intro x; refine cut_evo (k := K) (s0 := s0) (x := x) ?_ ?_; rotate_left; intro hx; clear_value x; rotate_left; subst x)
    | (intro x; clear_value x)
    | lift_lets
    | with_reducible refine ite_evo (fun _ => ?_) (fun _ => ?_)
    | with_reducible refine State.setBit_evo ?_
    | with_reducible refine State.modPort_evo ?_
    | with_reducible refine State.dropClose_evo ?_
    | with_reducible refine State.setPort_evo ?_ hk_unit
    | with_reducible refine State.armedStart_evo ?_ hk_unit
    | with_reducible refine State.busRose_evo ?_ hk_unit
    | (with_reducible refine upd_evo ?_; with_reducible assumption)
    | (with_reducible refine upd_evo ?_; with_reducible refine upd_evo ?_; with_reducible assumption)
    | split

theorem State.outerLimit_evo {K : Kinds} {s0 s : State} {p : Nat} {sat : Bool} (h : Evolve K s0 s) (hk_unit : K.unit = true) :
    Evolve K s0 (State.outerLimit s p sat) := by
  unfold State.outerLimit
  repeat' first
    | with_reducible assumption
    | (intro x; refine cut_evo (k := K) (s0 := s0) (x := x) ?_ ?_; rotate_left; intro hx; clear_value x; rotate_left; subst x)
    | (intro x; clear_value x)
    | lift_lets
    | with_reducible refine ite_evo (fun _ => ?_) (fun _ => ?_)
    | with_reducible refine State.bump_evo ?_
    | with_reducible refine State.raise_evo ?_
    | with_reducible refine State.modPort_evo ?_
    | with_reducible refine State.setPort_evo ?_ hk_unit
    | (with_reducible refine upd_evo ?_; with_reducible assumption)
    | (with_reducible refine upd_evo ?_; with_reducible refine upd_evo ?_; with_reducible assumption)

theorem State.busTrack_evo {K : Kinds} {s0 s : State} {p : Nat} (h : Evolve K s0 s) :
    Evolve K s0 (State.busTrack s p) := by
  unfold State.busTrack
  repeat' first
    | with_reducible assumption
    | (intro x; refine cut_evo (k := K) (s0 := s0) (x := x) ?_ ?_; rotate_left; intro hx; clear_value x; rotate_left; subst x)
    | (intro x; clear_value x)
    | lift_lets
    | with_reducible refine ite_evo (fun _ => ?_) (fun _ => ?_)
    | with_reducible refine State.setN_evo ?_
    | with_reducible refine State.setZ_evo ?_
    | with_reducible refine State.modPort_evo ?_
    | with_reducible refine State.showBus_evo ?_
    | (with_reducible refine upd_evo ?_; with_reducible assumption)
    | (with_reducible refine upd_evo ?_; with_reducible refine upd_evo ?_; with_reducible assumption)

theorem State.outerInputs_evo {K : Kinds} {s0 s : State} {p : Nat} {m : OuterIn} {trip : Nat} {phi : Option Int} {rampEnd : Bool} (h : Evolve K s0 s) (hk_unit : K.unit = true) :
    Evolve K s0 (State.outerInputs s p m trip phi rampEnd) := by
  unfold State.outerInputs
  repeat' first
    | with_reducible assumption
    | (intro x; refine cut_evo (k := K) (s0 := s0) (x := x) ?_ ?_; rotate_left; intro hx; clear_value x; rotate_left; subst x)
    | (intro x; clear_value x)
    | lift_lets
    | with_reducible refine ite_evo (fun _ => ?_) (fun _ => ?_)
    | (with_reducible refine State.onlyIf_evo ?_ (fun s h => ?_))
    | with_reducible refine State.modPort_evo ?_
    | with_reducible refine State.setPort_evo ?_ hk_unit
    | with_reducible refine State.outerFaults_evo ?_ hk_unit
    | with_reducible refine State.outerStop_evo ?_ hk_unit
    | with_reducible refine State.outerConfirm_evo ?_ hk_unit
    | with_reducible refine State.outerBus_evo ?_ hk_unit
    | with_reducible refine State.outerLimit_evo ?_ hk_unit
    | (with_reducible refine upd_evo ?_; with_reducible assumption)
    | (with_reducible refine upd_evo ?_; with_reducible refine upd_evo ?_; with_reducible assumption)
    | split

theorem State.clipEvents_evo {K : Kinds} {s0 s : State} {p : Nat} (h : Evolve K s0 s) :
    Evolve K s0 (State.clipEvents s p) := by
  unfold State.clipEvents
  repeat' first
    | with_reducible assumption
    | with_reducible refine State.raise_evo ?_
    | (with_reducible refine foldl_evo ?_ (fun s i h => ?_))
    | (with_reducible refine foldlFst_evo ?_ (fun a x h => ?_))
    | (dsimp only; with_reducible assumption)
    | (with_reducible refine foldlSnd_evo ?_ (fun a x h => ?_))
    | (dsimp only; with_reducible assumption)

theorem State.tviStep_evo {K : Kinds} {s0 s : State} {p : Nat} (h : Evolve K s0 s) :
    Evolve K s0 (State.tviStep s p) := by
  unfold State.tviStep
  repeat' first
    | with_reducible assumption
    | split
    | with_reducible refine ite_evo (fun _ => ?_) (fun _ => ?_)
    | with_reducible refine State.setBit_evo ?_
    | with_reducible refine State.modPort_evo ?_
    | (with_reducible refine upd_evo ?_; with_reducible assumption)
    | (with_reducible refine upd_evo ?_; with_reducible refine upd_evo ?_; with_reducible assumption)
    | split

theorem State.outerLaw_evo {K : Kinds} {s0 s : State} {p : Nat} (h : Evolve K s0 s) :
    Evolve K s0 (State.outerLaw s p).2 := by
  unfold State.outerLaw
  repeat' first
    | with_reducible assumption
    | (intro x; refine cut_evo (k := K) (s0 := s0) (x := x) ?_ ?_; rotate_left; intro hx; clear_value x; rotate_left; subst x)
    | (intro x; clear_value x)
    | lift_lets
    | with_reducible refine ite_evo (fun _ => ?_) (fun _ => ?_)
    | with_reducible refine State.setBit_evo ?_
    | (with_reducible refine State.onlyIf_evo ?_ (fun s h => ?_))
    | with_reducible refine State.modPort_evo ?_
    | with_reducible refine State.glzStep_evo ?_
    | with_reducible refine State.rampStep_evo ?_
    | with_reducible refine State.lawIntegrate_evo ?_
    | with_reducible refine State.syncStep_evo ?_
    | with_reducible refine State.tviStep_evo ?_
    | (with_reducible refine iteSnd_evo (fun _ => ?_) (fun _ => ?_))
    | (with_reducible refine foldlSnd_evo ?_ (fun a x h => ?_))
    | (refine snd_evo (by assumption) ?_)
    | (refine fst_evo (by assumption) ?_)
    | (with_reducible refine upd_evo ?_; with_reducible assumption)
    | (with_reducible refine upd_evo ?_; with_reducible refine upd_evo ?_; with_reducible assumption)
    | dsimp only

theorem State.lawOrRest_evo {K : Kinds} {s0 s : State} {p : Nat} (h : Evolve K s0 s) :
    Evolve K s0 (State.lawOrRest s p).2 := by
  unfold State.lawOrRest
  repeat' first
    | with_reducible assumption
    | with_reducible refine ite_evo (fun _ => ?_) (fun _ => ?_)
    | with_reducible refine State.outerLaw_evo ?_
    | (with_reducible refine iteSnd_evo (fun _ => ?_) (fun _ => ?_))
    | (with_reducible refine foldlSnd_evo ?_ (fun a x h => ?_))
    | (refine snd_evo (by assumption) ?_)
    | (refine fst_evo (by assumption) ?_)
    | dsimp only

theorem State.glzRest_evo {K : Kinds} {s0 s : State} {p : Nat} (h : Evolve K s0 s) :
    Evolve K s0 (State.glzRest s p) := by
  unfold State.glzRest
  repeat' first
    | with_reducible assumption
    | (with_reducible refine State.onlyIf_evo ?_ (fun s h => ?_))
    | with_reducible refine State.glzHold_evo ?_

theorem State.outerBegin_evo {K : Kinds} {s0 s : State} {p : Nat} (h : Evolve K s0 s) :
    Evolve K s0 (State.outerBegin s p) := by
  unfold State.outerBegin
  repeat' first
    | with_reducible assumption
    | (intro x; refine cut_evo (k := K) (s0 := s0) (x := x) ?_ ?_; rotate_left; intro hx; clear_value x; rotate_left; subst x)
    | (intro x; clear_value x)
    | lift_lets
    | with_reducible refine State.modPort_evo ?_
    | with_reducible refine State.lawMeasure_evo ?_
    | with_reducible refine State.limitStep_evo ?_
    | with_reducible refine State.deadStep_evo ?_
    | with_reducible refine State.busTrack_evo ?_
    | with_reducible refine State.clipEvents_evo ?_
    | with_reducible refine State.glzRest_evo ?_
    | (with_reducible refine upd_evo ?_; with_reducible assumption)
    | (with_reducible refine upd_evo ?_; with_reducible refine upd_evo ?_; with_reducible assumption)

theorem State.outerClose_evo {K : Kinds} {s0 s : State} {p : Nat} {st : PortState} (h : Evolve K s0 s) :
    Evolve K s0 (State.outerClose s p st) := by
  unfold State.outerClose
  repeat' first
    | with_reducible assumption
    | with_reducible refine ite_evo (fun _ => ?_) (fun _ => ?_)
    | with_reducible refine State.modPort_evo ?_
    | (with_reducible refine upd_evo ?_; with_reducible assumption)
    | (with_reducible refine upd_evo ?_; with_reducible refine upd_evo ?_; with_reducible assumption)

theorem State.outerStep_evo {K : Kinds} {s0 s : State} {p : Nat} {m : OuterIn} (h : Evolve K s0 s) (hk_unit : K.unit = true) :
    Evolve K s0 (State.outerStep s p m) := by
  unfold State.outerStep
  exact State.leaveStopping_evo (State.leaveEnergise_evo (State.recompute_evo (State.outerClose_evo (State.outerInputs_evo
    (State.lawOrRest_evo (State.rtStep_evo (State.jumpStep_evo (State.outerBegin_evo h)))) hk_unit)) hk_unit) hk_unit) hk_unit

theorem execOuterStep_evo {K : Kinds} {t : Nat} {p : Nat} {m : OuterIn} {s0 s : State} (h : Evolve K s0 s) (hk_unit : K.unit = true) :
    ∃ s', (execOuterStep t p m s) = .next s' ∧ Evolve K s0 s' := by
  unfold execOuterStep
  refine ⟨_, rfl, ?_⟩
  replace h := State.advance_evo (t := t) h
  revert h
  generalize State.advance s t = s
  intro h
  repeat' first
    | with_reducible assumption
    | (intro x; refine cut_evo (k := K) (s0 := s0) (x := x) ?_ ?_; rotate_left; intro hx; clear_value x; rotate_left; subst x)
    | (intro x; clear_value x)
    | lift_lets
    | with_reducible refine ite_evo (fun _ => ?_) (fun _ => ?_)
    | with_reducible refine State.advance_evo ?_
    | with_reducible refine State.outerStep_evo ?_ hk_unit

end Sys2Proof.Machine
end

