-- ==== Sys2Proof/Laws/KeptPwm.lean ====
section
/-! SUPPORT. What the functions of Machine/Pwm.lean keep: each stays within `Evolve`. -/

set_option Elab.async false
set_option linter.unusedVariables false
set_option linter.unreachableTactic false
set_option linter.unusedTactic false
set_option linter.unusedSimpArgs false

namespace Sys2Proof.Machine

theorem State.dtFallback_evo {K : Kinds} {s0 s : State} {p l k : Nat} (h : Evolve K s0 s) :
    Evolve K s0 (State.dtFallback s p l k) := by
  unfold State.dtFallback
  repeat' first
    | with_reducible assumption
    | (intro x; refine cut_evo (k := K) (s0 := s0) (x := x) ?_ ?_; rotate_left; intro hx; clear_value x; rotate_left; subst x)
    | (intro x; clear_value x)
    | lift_lets
    | with_reducible refine ite_evo (fun _ => ?_) (fun _ => ?_)
    | with_reducible refine State.bump_evo ?_
    | with_reducible refine State.setBit_evo ?_
    | (with_reducible refine State.onlyIf_evo ?_ (fun s h => ?_))
    | with_reducible refine State.raise_evo ?_
    | with_reducible refine State.dtReset_evo ?_

theorem State.dtFallbackPort_evo {K : Kinds} {s0 s : State} {p k : Nat} (h : Evolve K s0 s) :
    Evolve K s0 (State.dtFallbackPort s p k) := by
  unfold State.dtFallbackPort
  repeat' first
    | with_reducible assumption
    | (with_reducible refine State.each_evo ?_ (fun s i h => ?_))
    | with_reducible refine State.dtFallback_evo ?_

theorem State.dtApply_evo {K : Kinds} {s0 s : State} {l : Nat} (h : Evolve K s0 s) :
    Evolve K s0 (State.dtApply s l) := by
  unfold State.dtApply
  repeat' first
    | with_reducible assumption
    | (intro x; refine cut_evo (k := K) (s0 := s0) (x := x) ?_ ?_; rotate_left; intro hx; clear_value x; rotate_left; subst x)
    | (intro x; refine cutSnd_evo (k := K) (s0 := s0) (x := x) ?_ ?_; rotate_left; intro hx; clear_value x; rotate_left; subst x)
    | (intro x; clear_value x)
    | lift_lets
    | with_reducible refine State.setN_evo ?_
    | with_reducible refine State.modLeg_evo ?_
    | (with_reducible refine foldl_evo ?_ (fun s i h => ?_))
    | (with_reducible refine foldlFst_evo ?_ (fun a x h => ?_))
    | (dsimp only; with_reducible assumption)
    | (with_reducible refine foldlSnd_evo ?_ (fun a x h => ?_))
    | (dsimp only; with_reducible assumption)
    | (with_reducible refine upd_evo ?_; with_reducible assumption)
    | (with_reducible refine upd_evo ?_; with_reducible refine upd_evo ?_; with_reducible assumption)

theorem State.nsUpdate_evo {K : Kinds} {s0 s : State} {p : Nat} (h : Evolve K s0 s) :
    Evolve K s0 (State.nsUpdate s p) := by
  unfold State.nsUpdate
  repeat' first
    | with_reducible assumption
    | (intro x; refine cut_evo (k := K) (s0 := s0) (x := x) ?_ ?_; rotate_left; intro hx; clear_value x; rotate_left; subst x)
    | (intro x; clear_value x)
    | lift_lets
    | with_reducible refine ite_evo (fun _ => ?_) (fun _ => ?_)
    | (with_reducible refine State.each_evo ?_ (fun s i h => ?_))
    | with_reducible refine State.modPort_evo ?_
    | with_reducible refine State.modLeg_evo ?_
    | with_reducible refine State.dtFallbackPort_evo ?_
    | (with_reducible refine upd_evo ?_; with_reducible assumption)
    | (with_reducible refine upd_evo ?_; with_reducible refine upd_evo ?_; with_reducible assumption)

theorem State.adjusted_evo {K : Kinds} {s0 s : State} {p l member : Nat} {v : Int} (h : Evolve K s0 s) :
    Evolve K s0 (State.adjusted s p l member v) := by
  unfold State.adjusted
  repeat' first
    | with_reducible assumption
    | with_reducible refine State.bump_evo ?_
    | (with_reducible refine State.onlyIf_evo ?_ (fun s h => ?_))
    | with_reducible refine State.raise_evo ?_

theorem State.loadDuty_evo {K : Kinds} {s0 s : State} {p l : Nat} (h : Evolve K s0 s) :
    Evolve K s0 (State.loadDuty s p l) := by
  unfold State.loadDuty
  repeat' first
    | with_reducible assumption
    | (intro x; refine cut_evo (k := K) (s0 := s0) (x := x) ?_ ?_; rotate_left; intro hx; clear_value x; rotate_left; subst x)
    | (intro x; clear_value x)
    | lift_lets
    | with_reducible refine State.setN_evo ?_
    | with_reducible refine State.setZ_evo ?_
    | (with_reducible refine State.onlyIf_evo ?_ (fun s h => ?_))
    | with_reducible refine State.adjusted_evo ?_

theorem State.loadPeriod_evo {K : Kinds} {s0 s : State} {p : Nat} (h : Evolve K s0 s) :
    Evolve K s0 (State.loadPeriod s p) := by
  unfold State.loadPeriod
  repeat' first
    | with_reducible assumption
    | (intro x; refine cut_evo (k := K) (s0 := s0) (x := x) ?_ ?_; rotate_left; intro hx; clear_value x; rotate_left; subst x)
    | (intro x; clear_value x)
    | lift_lets
    | with_reducible refine State.setN_evo ?_
    | (with_reducible refine State.onlyIf_evo ?_ (fun s h => ?_))
    | with_reducible refine State.adjusted_evo ?_

theorem State.loadPhase_evo {K : Kinds} {s0 s : State} {p l : Nat} (h : Evolve K s0 s) :
    Evolve K s0 (State.loadPhase s p l) := by
  unfold State.loadPhase
  repeat' first
    | with_reducible assumption
    | (intro x; refine cut_evo (k := K) (s0 := s0) (x := x) ?_ ?_; rotate_left; intro hx; clear_value x; rotate_left; subst x)
    | (intro x; clear_value x)
    | lift_lets
    | with_reducible refine State.setN_evo ?_
    | (with_reducible refine State.onlyIf_evo ?_ (fun s h => ?_))
    | with_reducible refine State.adjusted_evo ?_

theorem State.tornOne_evo {K : Kinds} {s0 s : State} {p l : Nat} (h : Evolve K s0 s) :
    Evolve K s0 (State.tornOne s p l) := by
  unfold State.tornOne
  repeat' first
    | with_reducible assumption
    | (intro x; refine cut_evo (k := K) (s0 := s0) (x := x) ?_ ?_; rotate_left; intro hx; clear_value x; rotate_left; subst x)
    | (intro x; clear_value x)
    | lift_lets
    | with_reducible refine State.bump_evo ?_
    | with_reducible refine State.raise_evo ?_
    | with_reducible refine State.modPort_evo ?_
    | (with_reducible refine upd_evo ?_; with_reducible assumption)
    | (with_reducible refine upd_evo ?_; with_reducible refine upd_evo ?_; with_reducible assumption)

theorem State.tornSet_evo {K : Kinds} {s0 s : State} {p l : Nat} (h : Evolve K s0 s) :
    Evolve K s0 (State.tornSet s p l) := by
  unfold State.tornSet
  repeat' first
    | with_reducible assumption
    | (intro x; refine cut_evo (k := K) (s0 := s0) (x := x) ?_ ?_; rotate_left; intro hx; clear_value x; rotate_left; subst x)
    | (intro x; clear_value x)
    | lift_lets
    | with_reducible refine ite_evo (fun _ => ?_) (fun _ => ?_)
    | with_reducible refine State.setN_evo ?_
    | with_reducible refine State.raise_evo ?_
    | with_reducible refine State.tornOne_evo ?_
    | (with_reducible refine foldl_evo ?_ (fun s i h => ?_))

theorem State.loadPoint_evo {K : Kinds} {s0 s : State} {p l : Nat} {duty period phase : Bool} (h : Evolve K s0 s) :
    Evolve K s0 (State.loadPoint s p l duty period phase) := by
  unfold State.loadPoint
  repeat' first
    | with_reducible assumption
    | (intro x; refine cut_evo (k := K) (s0 := s0) (x := x) ?_ ?_; rotate_left; intro hx; clear_value x; rotate_left; subst x)
    | (intro x; clear_value x)
    | lift_lets
    | with_reducible refine ite_evo (fun _ => ?_) (fun _ => ?_)
    | (with_reducible refine State.onlyIf_evo ?_ (fun s h => ?_))
    | with_reducible refine State.loadDuty_evo ?_
    | with_reducible refine State.loadPeriod_evo ?_
    | with_reducible refine State.loadPhase_evo ?_
    | with_reducible refine State.tornSet_evo ?_

theorem State.commitShadow_evo {K : Kinds} {s0 s : State} {p : Nat} {e : RefEntry} (h : Evolve K s0 s) :
    Evolve K s0 (State.commitShadow s p e) := by
  unfold State.commitShadow
  repeat' first
    | with_reducible assumption
    | (intro x; refine cut_evo (k := K) (s0 := s0) (x := x) ?_ ?_; rotate_left; intro hx; clear_value x; rotate_left; subst x)
    | (intro x; clear_value x)
    | lift_lets
    | with_reducible refine State.setW_evo ?_
    | with_reducible refine State.setN_evo ?_
    | with_reducible refine State.setZ_evo ?_
    | (with_reducible refine State.each_evo ?_ (fun s i h => ?_))
    | with_reducible refine State.modPort_evo ?_
    | (with_reducible refine upd_evo ?_; with_reducible assumption)
    | (with_reducible refine upd_evo ?_; with_reducible refine upd_evo ?_; with_reducible assumption)
    | split

theorem State.regionStep_evo {K : Kinds} {s0 s : State} {p l : Nat} (h : Evolve K s0 s) :
    Evolve K s0 (State.regionStep s p l) := by
  unfold State.regionStep
  repeat' first
    | with_reducible assumption
    | (intro x; refine cut_evo (k := K) (s0 := s0) (x := x) ?_ ?_; rotate_left; intro hx; clear_value x; rotate_left; subst x)
    | (intro x; clear_value x)
    | lift_lets
    | with_reducible refine ite_evo (fun _ => ?_) (fun _ => ?_)
    | with_reducible refine State.setBit_evo ?_
    | with_reducible refine State.modLeg_evo ?_
    | (with_reducible refine upd_evo ?_; with_reducible assumption)
    | (with_reducible refine upd_evo ?_; with_reducible refine upd_evo ?_; with_reducible assumption)

theorem State.issueEdge_evo {K : Kinds} {s0 s : State} {p l tAt : Nat} {y mark : Bool} (h : Evolve K s0 s) :
    Evolve K s0 (State.issueEdge s p l tAt y mark) := by
  unfold State.issueEdge
  repeat' first
    | with_reducible assumption
    | (intro x; refine cut_evo (k := K) (s0 := s0) (x := x) ?_ ?_; rotate_left; intro hx; clear_value x; rotate_left; subst x)
    | (intro x; clear_value x)
    | lift_lets
    | with_reducible refine ite_evo (fun _ => ?_) (fun _ => ?_)
    | with_reducible refine State.setBit_evo ?_
    | (with_reducible refine State.onlyIf_evo ?_ (fun s h => ?_))
    | with_reducible refine State.modLeg_evo ?_
    | with_reducible refine State.modIsl_evo ?_
    | with_reducible refine State.dtApply_evo ?_
    | with_reducible refine State.regionStep_evo ?_
    | (with_reducible refine upd_evo ?_; with_reducible assumption)
    | (with_reducible refine upd_evo ?_; with_reducible refine upd_evo ?_; with_reducible assumption)

theorem execLegEdge_evo {K : Kinds} {t : Nat} {l : Nat} {s0 s : State} (h : Evolve K s0 s) :
    ∃ s', (execLegEdge t l s) = .next s' ∧ Evolve K s0 s' := by
  unfold execLegEdge
  refine ⟨_, rfl, ?_⟩
  replace h := State.advance_evo (t := t) h
  revert h
  generalize State.advance s t = s
  intro h
  repeat' first
    | with_reducible assumption
    | (intro x; refine cut_evo (k := K) (s0 := s0) (x := x) ?_ ?_; rotate_left; intro hx; clear_value x; rotate_left; subst x)
    | (intro x; clear_value x)
    | lift_lets
    | with_reducible refine ite_evo (fun _ => ?_) (fun _ => ?_)
    | with_reducible refine State.bump_evo ?_
    | with_reducible refine State.advance_evo ?_
    | with_reducible refine State.raise_evo ?_
    | with_reducible refine State.modLeg_evo ?_
    | with_reducible refine State.issueEdge_evo ?_
    | (with_reducible refine upd_evo ?_; with_reducible assumption)
    | (with_reducible refine upd_evo ?_; with_reducible refine upd_evo ?_; with_reducible assumption)
    | split

theorem execDeadTimeExpiry_evo {K : Kinds} {t : Nat} {l : Nat} {s0 s : State} (h : Evolve K s0 s) :
    ∃ s', (execDeadTimeExpiry t l s) = .next s' ∧ Evolve K s0 s' := by
  unfold execDeadTimeExpiry
  refine ⟨_, rfl, ?_⟩
  replace h := State.advance_evo (t := t) h
  revert h
  generalize State.advance s t = s
  intro h
  repeat' first
    | with_reducible assumption
    | (intro x; refine cut_evo (k := K) (s0 := s0) (x := x) ?_ ?_; rotate_left; intro hx; clear_value x; rotate_left; subst x)
    | (intro x; clear_value x)
    | lift_lets
    | with_reducible refine ite_evo (fun _ => ?_) (fun _ => ?_)
    | with_reducible refine State.advance_evo ?_
    | with_reducible refine State.modLeg_evo ?_
    | with_reducible refine State.modIsl_evo ?_
    | with_reducible refine State.showLeg_evo ?_
    | with_reducible refine State.regionStep_evo ?_
    | (with_reducible refine upd_evo ?_; with_reducible assumption)
    | (with_reducible refine upd_evo ?_; with_reducible refine upd_evo ?_; with_reducible assumption)
    | split

theorem State.startLeg_evo {K : Kinds} {s0 s : State} {p l tAt : Nat} (h : Evolve K s0 s) :
    Evolve K s0 (State.startLeg s p l tAt) := by
  unfold State.startLeg
  repeat' first
    | with_reducible assumption
    | (intro x; refine cut_evo (k := K) (s0 := s0) (x := x) ?_ ?_; rotate_left; intro hx; clear_value x; rotate_left; subst x)
    | (intro x; clear_value x)
    | lift_lets
    | with_reducible refine ite_evo (fun _ => ?_) (fun _ => ?_)
    | (with_reducible refine State.onlyIf_evo ?_ (fun s h => ?_))
    | with_reducible refine State.modLeg_evo ?_
    | with_reducible refine State.modIsl_evo ?_
    | with_reducible refine State.issueEdge_evo ?_
    | (with_reducible refine upd_evo ?_; with_reducible assumption)
    | (with_reducible refine upd_evo ?_; with_reducible refine upd_evo ?_; with_reducible assumption)

theorem State.placeB_evo {K : Kinds} {s0 s : State} {p l b : Nat} (h : Evolve K s0 s) :
    Evolve K s0 (State.placeB s p l b) := by
  unfold State.placeB
  repeat' first
    | with_reducible assumption
    | (intro x; refine cut_evo (k := K) (s0 := s0) (x := x) ?_ ?_; rotate_left; intro hx; clear_value x; rotate_left; subst x)
    | (intro x; clear_value x)
    | lift_lets
    | (with_reducible refine State.onlyIf_evo ?_ (fun s h => ?_))
    | with_reducible refine State.modLeg_evo ?_
    | (with_reducible refine upd_evo ?_; with_reducible assumption)
    | (with_reducible refine upd_evo ?_; with_reducible refine upd_evo ?_; with_reducible assumption)

theorem State.placeLegs_evo {K : Kinds} {s0 s : State} {p b : Nat} {moved : List Nat} (h : Evolve K s0 s) :
    Evolve K s0 (State.placeLegs s p b moved) := by
  unfold State.placeLegs
  repeat' first
    | with_reducible assumption
    | (intro x; refine cut_evo (k := K) (s0 := s0) (x := x) ?_ ?_; rotate_left; intro hx; clear_value x; rotate_left; subst x)
    | (intro x; clear_value x)
    | lift_lets
    | with_reducible refine ite_evo (fun _ => ?_) (fun _ => ?_)
    | (with_reducible refine State.each_evo ?_ (fun s i h => ?_))
    | with_reducible refine State.placeB_evo ?_

theorem State.carrierStart_evo {K : Kinds} {s0 s : State} {p : Nat} (h : Evolve K s0 s) :
    Evolve K s0 (State.carrierStart s p) := by
  unfold State.carrierStart
  repeat' first
    | with_reducible assumption
    | (intro x; refine cut_evo (k := K) (s0 := s0) (x := x) ?_ ?_; rotate_left; intro hx; clear_value x; rotate_left; subst x)
    | (intro x; clear_value x)
    | lift_lets
    | with_reducible refine ite_evo (fun _ => ?_) (fun _ => ?_)
    | with_reducible refine State.setN_evo ?_
    | (with_reducible refine State.each_evo ?_ (fun s i h => ?_))
    | with_reducible refine State.modLeg_evo ?_
    | with_reducible refine State.placeB_evo ?_
    | with_reducible refine State.placeLegs_evo ?_
    | (with_reducible refine upd_evo ?_; with_reducible assumption)
    | (with_reducible refine upd_evo ?_; with_reducible refine upd_evo ?_; with_reducible assumption)

theorem State.carrierTrim_evo {K : Kinds} {s0 s : State} {p : Nat} {shift : Int} (h : Evolve K s0 s) :
    Evolve K s0 (State.carrierTrim s p shift) := by
  unfold State.carrierTrim
  repeat' first
    | with_reducible assumption
    | (with_reducible refine State.each_evo ?_ (fun s i h => ?_))
    | (with_reducible refine State.onlyIf_evo ?_ (fun s h => ?_))
    | with_reducible refine State.modLeg_evo ?_
    | (with_reducible refine upd_evo ?_; with_reducible assumption)
    | (with_reducible refine upd_evo ?_; with_reducible refine upd_evo ?_; with_reducible assumption)

theorem State.boundaryLoad_evo {K : Kinds} {s0 s : State} {p l : Nat} (h : Evolve K s0 s) :
    Evolve K s0 (State.boundaryLoad s p l) := by
  unfold State.boundaryLoad
  repeat' first
    | with_reducible assumption
    | (intro x; refine cut_evo (k := K) (s0 := s0) (x := x) ?_ ?_; rotate_left; intro hx; clear_value x; rotate_left; subst x)
    | (intro x; clear_value x)
    | lift_lets
    | with_reducible refine ite_evo (fun _ => ?_) (fun _ => ?_)
    | with_reducible refine State.loadPoint_evo ?_
    | (with_reducible refine foldl_evo ?_ (fun s i h => ?_))
    | (with_reducible refine upd_evo ?_; with_reducible assumption)
    | (with_reducible refine upd_evo ?_; with_reducible refine upd_evo ?_; with_reducible assumption)
    | split

theorem State.realignAt_evo {K : Kinds} {s0 s : State} {p l b : Nat} (h : Evolve K s0 s) :
    Evolve K s0 (State.realignAt s p l b) := by
  unfold State.realignAt
  repeat' first
    | with_reducible assumption
    | (intro x; refine cut_evo (k := K) (s0 := s0) (x := x) ?_ ?_; rotate_left; intro hx; clear_value x; rotate_left; subst x)
    | (intro x; clear_value x)
    | lift_lets
    | with_reducible refine State.setN_evo ?_
    | with_reducible refine State.raise_evo ?_
    | with_reducible refine State.modPort_evo ?_
    | with_reducible refine State.placeB_evo ?_
    | (with_reducible refine upd_evo ?_; with_reducible assumption)
    | (with_reducible refine upd_evo ?_; with_reducible refine upd_evo ?_; with_reducible assumption)

theorem State.countAnew_evo {K : Kinds} {s0 s : State} {l b : Nat} (h : Evolve K s0 s) :
    Evolve K s0 (State.countAnew s l b) := by
  unfold State.countAnew
  repeat' first
    | with_reducible assumption
    | with_reducible refine State.modLeg_evo ?_
    | (with_reducible refine upd_evo ?_; with_reducible assumption)
    | (with_reducible refine upd_evo ?_; with_reducible refine upd_evo ?_; with_reducible assumption)

theorem State.boundaryAt_evo {K : Kinds} {s0 s : State} {p l b : Nat} (h : Evolve K s0 s) :
    Evolve K s0 (State.boundaryAt s p l b) := by
  unfold State.boundaryAt
  repeat' first
    | with_reducible assumption
    | (intro x; refine cut_evo (k := K) (s0 := s0) (x := x) ?_ ?_; rotate_left; intro hx; clear_value x; rotate_left; subst x)
    | (intro x; clear_value x)
    | lift_lets
    | with_reducible refine ite_evo (fun _ => ?_) (fun _ => ?_)
    | with_reducible refine State.setN_evo ?_
    | (with_reducible refine State.onlyIf_evo ?_ (fun s h => ?_))
    | with_reducible refine State.modLeg_evo ?_
    | with_reducible refine State.regionStep_evo ?_
    | with_reducible refine State.startLeg_evo ?_
    | with_reducible refine State.placeB_evo ?_
    | with_reducible refine State.placeLegs_evo ?_
    | with_reducible refine State.boundaryLoad_evo ?_
    | with_reducible refine State.countAnew_evo ?_
    | (with_reducible refine upd_evo ?_; with_reducible assumption)
    | (with_reducible refine upd_evo ?_; with_reducible refine upd_evo ?_; with_reducible assumption)

theorem State.boundaryDue_evo {K : Kinds} {s0 s : State} {p l b : Nat} (h : Evolve K s0 s) :
    Evolve K s0 (State.boundaryDue s p l b) := by
  unfold State.boundaryDue
  repeat' first
    | with_reducible assumption
    | (intro x; refine cut_evo (k := K) (s0 := s0) (x := x) ?_ ?_; rotate_left; intro hx; clear_value x; rotate_left; subst x)
    | (intro x; clear_value x)
    | lift_lets
    | with_reducible refine ite_evo (fun _ => ?_) (fun _ => ?_)
    | with_reducible refine State.modPort_evo ?_
    | with_reducible refine State.realignAt_evo ?_
    | with_reducible refine State.boundaryAt_evo ?_
    | (with_reducible refine upd_evo ?_; with_reducible assumption)
    | (with_reducible refine upd_evo ?_; with_reducible refine upd_evo ?_; with_reducible assumption)

theorem execCarrierBoundary_evo {K : Kinds} {t : Nat} {l : Nat} {s0 s : State} (h : Evolve K s0 s) :
    ∃ s', (execCarrierBoundary t l s) = .next s' ∧ Evolve K s0 s' := by
  unfold execCarrierBoundary
  refine ⟨_, rfl, ?_⟩
  replace h := State.advance_evo (t := t) h
  revert h
  generalize State.advance s t = s
  intro h
  repeat' first
    | with_reducible assumption
    | (intro x; refine cut_evo (k := K) (s0 := s0) (x := x) ?_ ?_; rotate_left; intro hx; clear_value x; rotate_left; subst x)
    | (intro x; clear_value x)
    | lift_lets
    | with_reducible refine ite_evo (fun _ => ?_) (fun _ => ?_)
    | with_reducible refine State.advance_evo ?_
    | with_reducible refine State.boundaryDue_evo ?_
    | (with_reducible refine upd_evo ?_; with_reducible assumption)
    | (with_reducible refine upd_evo ?_; with_reducible refine upd_evo ?_; with_reducible assumption)
    | split

theorem execMidPeriodLoad_evo {K : Kinds} {t : Nat} {l : Nat} {s0 s : State} (h : Evolve K s0 s) :
    ∃ s', (execMidPeriodLoad t l s) = .next s' ∧ Evolve K s0 s' := by
  unfold execMidPeriodLoad
  refine ⟨_, rfl, ?_⟩
  replace h := State.advance_evo (t := t) h
  revert h
  generalize State.advance s t = s
  intro h
  repeat' first
    | with_reducible assumption
    | (intro x; refine cut_evo (k := K) (s0 := s0) (x := x) ?_ ?_; rotate_left; intro hx; clear_value x; rotate_left; subst x)
    | (intro x; clear_value x)
    | lift_lets
    | with_reducible refine ite_evo (fun _ => ?_) (fun _ => ?_)
    | (with_reducible refine State.each_evo ?_ (fun s i h => ?_))
    | with_reducible refine State.advance_evo ?_
    | with_reducible refine State.modLeg_evo ?_
    | with_reducible refine State.loadPoint_evo ?_
    | with_reducible refine State.placeB_evo ?_
    | (with_reducible refine upd_evo ?_; with_reducible assumption)
    | (with_reducible refine upd_evo ?_; with_reducible refine upd_evo ?_; with_reducible assumption)
    | split

theorem State.updatePoint_evo {K : Kinds} {s0 s : State} {p : Nat} (h : Evolve K s0 s) :
    Evolve K s0 (State.updatePoint s p) := by
  unfold State.updatePoint
  repeat' first
    | with_reducible assumption
    | (intro x; refine cut_evo (k := K) (s0 := s0) (x := x) ?_ ?_; rotate_left; intro hx; clear_value x; rotate_left; subst x)
    | (intro x; clear_value x)
    | lift_lets
    | with_reducible refine ite_evo (fun _ => ?_) (fun _ => ?_)
    | (with_reducible refine State.each_evo ?_ (fun s i h => ?_))
    | (with_reducible refine State.onlyIf_evo ?_ (fun s h => ?_))
    | with_reducible refine State.modPort_evo ?_
    | with_reducible refine State.nsUpdate_evo ?_
    | with_reducible refine State.loadPoint_evo ?_
    | with_reducible refine State.commitShadow_evo ?_
    | with_reducible refine State.regionStep_evo ?_
    | (with_reducible refine upd_evo ?_; with_reducible assumption)
    | (with_reducible refine upd_evo ?_; with_reducible refine upd_evo ?_; with_reducible assumption)
    | split

theorem State.doModRelease_evo {K : Kinds} {s0 s : State} {p : Nat} (h : Evolve K s0 s) :
    Evolve K s0 (State.doModRelease s p) := by
  unfold State.doModRelease
  repeat' first
    | with_reducible assumption
    | with_reducible refine State.setN_evo ?_
    | with_reducible refine State.raise_evo ?_

theorem execModRelease_evo {K : Kinds} {t : Nat} {role : Role} {p : Nat} {v : Word} {s0 s : State} (h : Evolve K s0 s) :
    ∃ s', (execModRelease t role p v s) = .next s' ∧ Evolve K s0 s' := by
  unfold execModRelease
  refine ⟨_, rfl, ?_⟩
  replace h := State.advance_evo (t := t) h
  revert h
  generalize State.advance s t = s
  intro h
  repeat' first
    | with_reducible assumption
    | (intro x; refine cut_evo (k := K) (s0 := s0) (x := x) ?_ ?_; rotate_left; intro hx; clear_value x; rotate_left; subst x)
    | (intro x; clear_value x)
    | lift_lets
    | with_reducible refine State.advance_evo ?_
    | with_reducible refine State.cmdRow_evo ?_ ?_
    | with_reducible refine State.doModRelease_evo ?_

theorem execExtraCompareFire_evo {K : Kinds} {t : Nat} {l k : Nat} {share : Bool} {s0 s : State} (h : Evolve K s0 s) (hk_dout : K.dout = true) (hk_lines : K.lines = true) :
    ∃ s', (execExtraCompareFire t l k share s) = .next s' ∧ Evolve K s0 s' := by
  unfold execExtraCompareFire
  refine ⟨_, rfl, ?_⟩
  replace h := State.advance_evo (t := t) h
  revert h
  generalize State.advance s t = s
  intro h
  repeat' first
    | with_reducible assumption
    | (intro x; refine cut_evo (k := K) (s0 := s0) (x := x) ?_ ?_; rotate_left; intro hx; clear_value x; rotate_left; subst x)
    | (intro x; refine cutSnd_evo (k := K) (s0 := s0) (x := x) ?_ ?_; rotate_left; intro hx; clear_value x; rotate_left; subst x)
    | (intro x; clear_value x)
    | lift_lets
    | with_reducible refine ite_evo (fun _ => ?_) (fun _ => ?_)
    | with_reducible refine State.bump_evo ?_
    | with_reducible refine State.advance_evo ?_
    | with_reducible refine State.raise_evo ?_
    | with_reducible refine State.modPort_evo ?_
    | with_reducible refine State.modLeg_evo ?_
    | with_reducible refine lineSet_evo hk_lines ?_
    | with_reducible refine doutSet_evo hk_dout ?_
    | (with_reducible refine upd_evo ?_; with_reducible assumption)
    | (with_reducible refine upd_evo ?_; with_reducible refine upd_evo ?_; with_reducible assumption)
    | split

theorem State.dtPlace_evo {K : Kinds} {s0 s : State} {l ty floor raw : Nat} (h : Evolve K s0 s) :
    Evolve K s0 (State.dtPlace s l ty floor raw) := by
  unfold State.dtPlace
  repeat' first
    | with_reducible assumption
    | (intro x; refine cut_evo (k := K) (s0 := s0) (x := x) ?_ ?_; rotate_left; intro hx; clear_value x; rotate_left; subst x)
    | (intro x; clear_value x)
    | lift_lets
    | with_reducible refine State.bump_evo ?_
    | (with_reducible refine State.onlyIf_evo ?_ (fun s h => ?_))
    | with_reducible refine State.raise_evo ?_
    | with_reducible refine State.modLeg_evo ?_
    | (with_reducible refine upd_evo ?_; with_reducible assumption)
    | (with_reducible refine upd_evo ?_; with_reducible refine upd_evo ?_; with_reducible assumption)

theorem execNsCrossingReport_evo {K : Kinds} {t : Nat} {l : Nat} {near far : Option Nat} {fault : Bool} {s0 s : State} (h : Evolve K s0 s) :
    ∃ s', (execNsCrossingReport t l near far fault s) = .next s' ∧ Evolve K s0 s' := by
  unfold execNsCrossingReport
  refine ⟨_, rfl, ?_⟩
  replace h := State.advance_evo (t := t) h
  revert h
  generalize State.advance s t = s
  intro h
  repeat' first
    | with_reducible assumption
    | (intro x; refine cut_evo (k := K) (s0 := s0) (x := x) ?_ ?_; rotate_left; intro hx; clear_value x; rotate_left; subst x)
    | (intro x; clear_value x)
    | lift_lets
    | with_reducible refine ite_evo (fun _ => ?_) (fun _ => ?_)
    | with_reducible refine State.setN_evo ?_
    | with_reducible refine State.bump_evo ?_
    | (with_reducible refine State.onlyIf_evo ?_ (fun s h => ?_))
    | with_reducible refine State.advance_evo ?_
    | with_reducible refine State.raise_evo ?_
    | with_reducible refine State.modLeg_evo ?_
    | with_reducible refine State.chgIsl_evo ?_
    | with_reducible refine State.dtFallback_evo ?_
    | with_reducible refine State.dtPlace_evo ?_
    | (with_reducible refine upd_evo ?_; with_reducible assumption)
    | (with_reducible refine upd_evo ?_; with_reducible refine upd_evo ?_; with_reducible assumption)
    | split

theorem execDtAdaptiveResume_evo {K : Kinds} {t : Nat} {l : Nat} {s0 s : State} (h : Evolve K s0 s) :
    ∃ s', (execDtAdaptiveResume t l s) = .next s' ∧ Evolve K s0 s' := by
  unfold execDtAdaptiveResume
  refine ⟨_, rfl, ?_⟩
  replace h := State.advance_evo (t := t) h
  revert h
  generalize State.advance s t = s
  intro h
  repeat' first
    | with_reducible assumption
    | (intro x; refine cut_evo (k := K) (s0 := s0) (x := x) ?_ ?_; rotate_left; intro hx; clear_value x; rotate_left; subst x)
    | (intro x; clear_value x)
    | lift_lets
    | (with_reducible refine State.onlyIf_evo ?_ (fun s h => ?_))
    | with_reducible refine State.advance_evo ?_
    | with_reducible refine State.dtCauseEnd_evo ?_
    | (with_reducible refine upd_evo ?_; with_reducible assumption)
    | (with_reducible refine upd_evo ?_; with_reducible refine upd_evo ?_; with_reducible assumption)
    | split

end Sys2Proof.Machine
end

