-- ==== Sys2Proof/Laws/KeptAdc.lean ====
section
/-! SUPPORT. What the functions of Machine/Adc.lean keep: each stays within `Evolve`. -/

set_option Elab.async false
set_option linter.unusedVariables false
set_option linter.unreachableTactic false
set_option linter.unusedTactic false
set_option linter.unusedSimpArgs false

namespace Sys2Proof.Machine

theorem State.modFch_evo {K : Kinds} {s0 s : State} {ch : Nat} {f : FastSt → FastSt} (h : Evolve K s0 s) :
    Evolve K s0 (State.modFch s ch f) := by
  exact .free h rfl (by simp [State.modFch, State.lens]) (.inr rfl) (.inr rfl) (.inr rfl) (.inr rfl) (.inr rfl)

theorem State.rangeStep_evo {K : Kinds} {s0 s : State} {ch : Nat} {raw : Int} {inst : Nat} {stamp : Word} (h : Evolve K s0 s) :
    Evolve K s0 (State.rangeStep s ch raw inst stamp) := by
  unfold State.rangeStep
  repeat' first
    | with_reducible assumption
    | (intro x; refine cut_evo (k := K) (s0 := s0) (x := x) ?_ ?_; rotate_left; intro hx; clear_value x; rotate_left; subst x)
    | (intro x; clear_value x)
    | lift_lets
    | with_reducible refine ite_evo (fun _ => ?_) (fun _ => ?_)
    | with_reducible refine State.bump_evo ?_
    | with_reducible refine State.setBit_evo ?_
    | (with_reducible refine State.onlyIf_evo ?_ (fun s h => ?_))
    | with_reducible refine State.raise_evo ?_
    | with_reducible refine State.modFch_evo ?_
    | (with_reducible refine upd_evo ?_; with_reducible assumption)
    | (with_reducible refine upd_evo ?_; with_reducible refine upd_evo ?_; with_reducible assumption)

theorem State.stuckStep_evo {K : Kinds} {s0 s : State} {ch : Nat} {code : Int} {on : Bool} (h : Evolve K s0 s) :
    Evolve K s0 (State.stuckStep s ch code on) := by
  unfold State.stuckStep
  repeat' first
    | with_reducible assumption
    | (intro x; refine cut_evo (k := K) (s0 := s0) (x := x) ?_ ?_; rotate_left; intro hx; clear_value x; rotate_left; subst x)
    | (intro x; clear_value x)
    | lift_lets
    | with_reducible refine ite_evo (fun _ => ?_) (fun _ => ?_)
    | with_reducible refine State.setN_evo ?_
    | with_reducible refine State.bump_evo ?_
    | with_reducible refine State.setBit_evo ?_
    | (with_reducible refine State.onlyIf_evo ?_ (fun s h => ?_))
    | with_reducible refine State.raise_evo ?_
    | with_reducible refine State.modFch_evo ?_
    | (with_reducible refine upd_evo ?_; with_reducible assumption)
    | (with_reducible refine upd_evo ?_; with_reducible refine upd_evo ?_; with_reducible assumption)

theorem State.convWord_evo {K : Kinds} {s0 s : State} {ch i : Nat} {raw : Int} {inst : Nat} (h : Evolve K s0 s) :
    Evolve K s0 (State.convWord s ch i raw inst).2 := by
  unfold State.convWord
  repeat' first
    | with_reducible assumption
    | (intro x; refine cut_evo (k := K) (s0 := s0) (x := x) ?_ ?_; rotate_left; intro hx; clear_value x; rotate_left; subst x)
    | (intro x; clear_value x)
    | lift_lets
    | with_reducible refine ite_evo (fun _ => ?_) (fun _ => ?_)
    | with_reducible refine State.setBit_evo ?_
    | with_reducible refine State.modFch_evo ?_
    | (with_reducible refine iteSnd_evo (fun _ => ?_) (fun _ => ?_))
    | (with_reducible refine foldlSnd_evo ?_ (fun a x h => ?_))
    | (with_reducible refine upd_evo ?_; with_reducible assumption)
    | (with_reducible refine upd_evo ?_; with_reducible refine upd_evo ?_; with_reducible assumption)
    | dsimp only

theorem execFastConversion_evo {K : Kinds} {t : Nat} {g i : Nat} {raws : List Int} {s0 s : State} (h : Evolve K s0 s) :
    ∃ s', (execFastConversion t g i raws s) = .next s' ∧ Evolve K s0 s' := by
  unfold execFastConversion
  refine ⟨_, rfl, ?_⟩
  replace h := State.advance_evo (t := t) h
  revert h
  generalize State.advance s t = s
  intro h
  repeat' first
    | with_reducible assumption
    | (intro x; refine cut_evo (k := K) (s0 := s0) (x := x) ?_ ?_; rotate_left; intro hx; clear_value x; rotate_left; subst x)
    | (intro x; refine cutSnd_evo (k := K) (s0 := s0) (x := x) ?_ ?_; rotate_left; intro hx; clear_value x; rotate_left; subst x)
    | (intro x; clear_value x)
    | lift_lets
    | with_reducible refine ite_evo (fun _ => ?_) (fun _ => ?_)
    | with_reducible refine State.advance_evo ?_
    | with_reducible refine State.rangeStep_evo ?_
    | with_reducible refine State.convWord_evo ?_
    | (with_reducible refine foldl_evo ?_ (fun s i h => ?_))
    | (with_reducible refine foldlFst_evo ?_ (fun a x h => ?_))
    | (dsimp only; with_reducible assumption)
    | (with_reducible refine foldlSnd_evo ?_ (fun a x h => ?_))
    | (dsimp only; with_reducible assumption)
    | (refine snd_evo (by assumption) ?_)
    | (refine fst_evo (by assumption) ?_)

theorem State.supervise_evo {K : Kinds} {s0 s : State} {p : Nat} {tst : Nat → Nat → Nat → Nat} (h : Evolve K s0 s) :
    Evolve K s0 (State.supervise s p tst) := by
  unfold State.supervise
  repeat' first
    | with_reducible assumption
    | (intro x; refine cut_evo (k := K) (s0 := s0) (x := x) ?_ ?_; rotate_left; intro hx; clear_value x; rotate_left; subst x)
    | (intro x; refine cutSnd_evo (k := K) (s0 := s0) (x := x) ?_ ?_; rotate_left; intro hx; clear_value x; rotate_left; subst x)
    | (intro x; clear_value x)
    | lift_lets
    | with_reducible refine ite_evo (fun _ => ?_) (fun _ => ?_)
    | with_reducible refine State.bump_evo ?_
    | (with_reducible refine State.onlyIf_evo ?_ (fun s h => ?_))
    | with_reducible refine State.raise_evo ?_
    | with_reducible refine State.modPort_evo ?_
    | with_reducible refine State.injAbort_evo ?_
    | with_reducible refine State.fbShow_evo ?_
    | with_reducible refine State.dtFallbackPort_evo ?_
    | (with_reducible refine foldl_evo ?_ (fun s i h => ?_))
    | (with_reducible refine foldlFst_evo ?_ (fun a x h => ?_))
    | (dsimp only; with_reducible assumption)
    | (with_reducible refine foldlSnd_evo ?_ (fun a x h => ?_))
    | (dsimp only; with_reducible assumption)
    | (with_reducible refine upd_evo ?_; with_reducible assumption)
    | (with_reducible refine upd_evo ?_; with_reducible refine upd_evo ?_; with_reducible assumption)

theorem State.takeVals_evo {K : Kinds} {s0 s : State} {p : Nat} {ws : List (Nat × Word)} (h : Evolve K s0 s) :
    Evolve K s0 (State.takeVals s p ws) := by
  unfold State.takeVals
  repeat' first
    | with_reducible assumption
    | (intro x; refine cut_evo (k := K) (s0 := s0) (x := x) ?_ ?_; rotate_left; intro hx; clear_value x; rotate_left; subst x)
    | (intro x; clear_value x)
    | lift_lets
    | with_reducible refine ite_evo (fun _ => ?_) (fun _ => ?_)
    | with_reducible refine State.modPort_evo ?_
    | (with_reducible refine upd_evo ?_; with_reducible assumption)
    | (with_reducible refine upd_evo ?_; with_reducible refine upd_evo ?_; with_reducible assumption)

theorem State.seqCheck_evo {K : Kinds} {s0 s : State} {p : Nat} {ws : List (Nat × Word)} (h : Evolve K s0 s) :
    Evolve K s0 (State.seqCheck s p ws) := by
  unfold State.seqCheck
  repeat' first
    | with_reducible assumption
    | (intro x; refine cut_evo (k := K) (s0 := s0) (x := x) ?_ ?_; rotate_left; intro hx; clear_value x; rotate_left; subst x)
    | (intro x; refine cutSnd_evo (k := K) (s0 := s0) (x := x) ?_ ?_; rotate_left; intro hx; clear_value x; rotate_left; subst x)
    | (intro x; clear_value x)
    | lift_lets
    | with_reducible refine ite_evo (fun _ => ?_) (fun _ => ?_)
    | with_reducible refine State.bumpBy_evo ?_
    | (with_reducible refine State.each_evo ?_ (fun s i h => ?_))
    | with_reducible refine State.raise_evo ?_
    | (with_reducible refine upd_evo ?_; with_reducible assumption)
    | (with_reducible refine upd_evo ?_; with_reducible refine upd_evo ?_; with_reducible assumption)
    | split

theorem State.pushSmp_evo {K : Kinds} {s0 s : State} {p : Nat} {e : SmpEntry} (h : Evolve K s0 s) :
    Evolve K s0 (State.pushSmp s p e) := by
  unfold State.pushSmp
  repeat' first
    | with_reducible assumption
    | split
    | (intro x; refine cut_evo (k := K) (s0 := s0) (x := x) ?_ ?_; rotate_left; intro hx; clear_value x; rotate_left; subst x)
    | (intro x; clear_value x)
    | lift_lets
    | with_reducible refine State.highWater_evo ?_
    | with_reducible refine State.qLost_evo ?_
    | with_reducible refine State.raise_evo ?_
    | with_reducible refine State.modPort_evo ?_
    | (with_reducible refine upd_evo ?_; with_reducible assumption)
    | (with_reducible refine upd_evo ?_; with_reducible refine upd_evo ?_; with_reducible assumption)
    | split

theorem State.sendWords_evo {K : Kinds} {s0 s : State} {cs : List (Nat × Int × Bool)} (h : Evolve K s0 s) :
    Evolve K s0 (State.sendWords s cs).2 := by
  unfold State.sendWords
  repeat' first
    | with_reducible assumption
    | (intro x; refine cut_evo (k := K) (s0 := s0) (x := x) ?_ ?_; rotate_left; intro hx; clear_value x; rotate_left; subst x)
    | (intro x; refine cutSnd_evo (k := K) (s0 := s0) (x := x) ?_ ?_; rotate_left; intro hx; clear_value x; rotate_left; subst x)
    | (intro x; clear_value x)
    | lift_lets
    | with_reducible refine ite_evo (fun _ => ?_) (fun _ => ?_)
    | with_reducible refine State.setW_evo ?_
    | with_reducible refine State.convWord_evo ?_
    | (with_reducible refine foldl_evo ?_ (fun s i h => ?_))
    | (with_reducible refine iteSnd_evo (fun _ => ?_) (fun _ => ?_))
    | (with_reducible refine foldlSnd_evo ?_ (fun a x h => ?_))
    | (with_reducible refine foldlFst_evo ?_ (fun a x h => ?_))
    | (dsimp only; with_reducible assumption)
    | (with_reducible refine foldlSnd_evo ?_ (fun a x h => ?_))
    | (dsimp only; with_reducible assumption)
    | (refine snd_evo (by assumption) ?_)
    | (refine fst_evo (by assumption) ?_)
    | split
    | dsimp only

theorem State.judgeEntry_evo {K : Kinds} {s0 s : State} {p : Nat} {ws : List (Nat × Word)} (h : Evolve K s0 s) :
    Evolve K s0 (State.judgeEntry s p ws) := by
  unfold State.judgeEntry
  repeat' first
    | with_reducible assumption
    | (intro x; refine cut_evo (k := K) (s0 := s0) (x := x) ?_ ?_; rotate_left; intro hx; clear_value x; rotate_left; subst x)
    | (intro x; clear_value x)
    | lift_lets
    | (with_reducible refine State.onlyIf_evo ?_ (fun s h => ?_))
    | with_reducible refine State.modPort_evo ?_
    | with_reducible refine State.supervise_evo ?_
    | with_reducible refine State.takeVals_evo ?_
    | (with_reducible refine upd_evo ?_; with_reducible assumption)
    | (with_reducible refine upd_evo ?_; with_reducible refine upd_evo ?_; with_reducible assumption)

theorem execSampleEntry_evo {K : Kinds} {t : Nat} {p : Nat} {samples : List Int} {frozen : List Bool} {s0 s : State} (h : Evolve K s0 s) :
    ∃ s', (execSampleEntry t p samples frozen s) = .next s' ∧ Evolve K s0 s' := by
  unfold execSampleEntry
  refine ⟨_, rfl, ?_⟩
  replace h := State.advance_evo (t := t) h
  revert h
  generalize State.advance s t = s
  intro h
  repeat' first
    | with_reducible assumption
    | (intro x; refine cutRep_evo (K := K) (s0 := s0) (x := x) ?_ ?_; rotate_left; intro hx; clear_value x; rotate_left; subst x)
    | (intro x; refine cut_evo (k := K) (s0 := s0) (x := x) ?_ ?_; rotate_left; intro hx; clear_value x; rotate_left; subst x)
    | (intro x; refine cutSnd_evo (k := K) (s0 := s0) (x := x) ?_ ?_; rotate_left; intro hx; clear_value x; rotate_left; subst x)
    | (intro x; clear_value x)
    | lift_lets
    | with_reducible refine ite_evo (fun _ => ?_) (fun _ => ?_)
    | with_reducible refine iteRep_evo (fun _ => ?_) (fun _ => ?_)
    | (with_reducible refine EvoRep.st ?_)
    | (with_reducible refine State.onlyIf_evo ?_ (fun s h => ?_))
    | with_reducible refine State.advance_evo ?_
    | with_reducible refine State.rangeStep_evo ?_
    | with_reducible refine State.stuckStep_evo ?_
    | with_reducible refine State.seqCheck_evo ?_
    | with_reducible refine State.pushSmp_evo ?_
    | with_reducible refine State.sendWords_evo ?_
    | with_reducible refine State.judgeEntry_evo ?_
    | (with_reducible refine foldl_evo ?_ (fun s i h => ?_))
    | (with_reducible refine foldlFst_evo ?_ (fun a x h => ?_))
    | (dsimp only; with_reducible assumption)
    | (with_reducible refine foldlSnd_evo ?_ (fun a x h => ?_))
    | (dsimp only; with_reducible assumption)
    | (refine snd_evo (by assumption) ?_)
    | (refine fst_evo (by assumption) ?_)

theorem execFeedbackLost_evo {K : Kinds} {t : Nat} {p role elem : Nat} {s0 s : State} (h : Evolve K s0 s) :
    ∃ s', (execFeedbackLost t p role elem s) = .next s' ∧ Evolve K s0 s' := by
  unfold execFeedbackLost
  refine ⟨_, rfl, ?_⟩
  replace h := State.advance_evo (t := t) h
  revert h
  generalize State.advance s t = s
  intro h
  repeat' first
    | with_reducible assumption
    | (intro x; refine cut_evo (k := K) (s0 := s0) (x := x) ?_ ?_; rotate_left; intro hx; clear_value x; rotate_left; subst x)
    | (intro x; clear_value x)
    | lift_lets
    | with_reducible refine ite_evo (fun _ => ?_) (fun _ => ?_)
    | with_reducible refine State.bump_evo ?_
    | with_reducible refine State.advance_evo ?_
    | with_reducible refine State.raise_evo ?_
    | with_reducible refine State.modPort_evo ?_
    | with_reducible refine State.fbShow_evo ?_
    | with_reducible refine State.faultPend_evo ?_
    | (with_reducible refine upd_evo ?_; with_reducible assumption)
    | (with_reducible refine upd_evo ?_; with_reducible refine upd_evo ?_; with_reducible assumption)
    | split

theorem execFeedbackRecover_evo {K : Kinds} {t : Nat} {p role : Nat} {s0 s : State} (h : Evolve K s0 s) :
    ∃ s', (execFeedbackRecover t p role s) = .next s' ∧ Evolve K s0 s' := by
  unfold execFeedbackRecover
  refine ⟨_, rfl, ?_⟩
  replace h := State.advance_evo (t := t) h
  revert h
  generalize State.advance s t = s
  intro h
  repeat' first
    | with_reducible assumption
    | (intro x; refine cut_evo (k := K) (s0 := s0) (x := x) ?_ ?_; rotate_left; intro hx; clear_value x; rotate_left; subst x)
    | (intro x; clear_value x)
    | lift_lets
    | with_reducible refine ite_evo (fun _ => ?_) (fun _ => ?_)
    | with_reducible refine State.advance_evo ?_
    | with_reducible refine State.raise_evo ?_
    | with_reducible refine State.modPort_evo ?_
    | with_reducible refine State.fbShow_evo ?_
    | (with_reducible refine upd_evo ?_; with_reducible assumption)
    | (with_reducible refine upd_evo ?_; with_reducible refine upd_evo ?_; with_reducible assumption)
    | split

theorem execWindowComparatorFire_evo {K : Kinds} {t : Nat} {ch : Nat} {upper : Bool} {s0 s : State} (h : Evolve K s0 s) :
    ∃ s', (execWindowComparatorFire t ch upper s) = .next s' ∧ Evolve K s0 s' := by
  unfold execWindowComparatorFire
  refine ⟨_, rfl, ?_⟩
  replace h := State.advance_evo (t := t) h
  revert h
  generalize State.advance s t = s
  intro h
  repeat' first
    | with_reducible assumption
    | (intro x; refine cut_evo (k := K) (s0 := s0) (x := x) ?_ ?_; rotate_left; intro hx; clear_value x; rotate_left; subst x)
    | (intro x; clear_value x)
    | lift_lets
    | with_reducible refine ite_evo (fun _ => ?_) (fun _ => ?_)
    | with_reducible refine State.bump_evo ?_
    | with_reducible refine State.setBit_evo ?_
    | with_reducible refine State.advance_evo ?_
    | with_reducible refine State.raise_evo ?_
    | with_reducible refine State.protSources_evo ?_
    | with_reducible refine State.legFaults_evo ?_
    | (with_reducible refine upd_evo ?_; with_reducible assumption)
    | (with_reducible refine upd_evo ?_; with_reducible refine upd_evo ?_; with_reducible assumption)
    | split

theorem execWindowComparatorRelease_evo {K : Kinds} {t : Nat} {ch : Nat} {s0 s : State} (h : Evolve K s0 s) :
    ∃ s', (execWindowComparatorRelease t ch s) = .next s' ∧ Evolve K s0 s' := by
  unfold execWindowComparatorRelease
  refine ⟨_, rfl, ?_⟩
  replace h := State.advance_evo (t := t) h
  revert h
  generalize State.advance s t = s
  intro h
  repeat' first
    | with_reducible assumption
    | (intro x; refine cut_evo (k := K) (s0 := s0) (x := x) ?_ ?_; rotate_left; intro hx; clear_value x; rotate_left; subst x)
    | (intro x; clear_value x)
    | lift_lets
    | with_reducible refine State.setBit_evo ?_
    | with_reducible refine State.advance_evo ?_
    | with_reducible refine State.protSources_evo ?_
    | (with_reducible refine upd_evo ?_; with_reducible assumption)
    | (with_reducible refine upd_evo ?_; with_reducible refine upd_evo ?_; with_reducible assumption)
    | split

theorem State.doFaClear_evo {K : Kinds} {s0 s : State} {ch : Nat} (h : Evolve K s0 s) :
    Evolve K s0 (State.doFaClear s ch) := by
  unfold State.doFaClear
  repeat' first
    | with_reducible assumption
    | with_reducible refine State.setBit_evo ?_

theorem execFaClear_evo {K : Kinds} {t : Nat} {role : Role} {ch : Nat} {v : Word} {s0 s : State} (h : Evolve K s0 s) :
    ∃ s', (execFaClear t role ch v s) = .next s' ∧ Evolve K s0 s' := by
  unfold execFaClear
  refine ⟨_, rfl, ?_⟩
  replace h := State.advance_evo (t := t) h
  revert h
  generalize State.advance s t = s
  intro h
  repeat' first
    | with_reducible assumption
    | (intro x; refine cut_evo (k := K) (s0 := s0) (x := x) ?_ ?_; rotate_left; intro hx; clear_value x; rotate_left; subst x)
    | (intro x; clear_value x)
    | lift_lets
    | with_reducible refine State.advance_evo ?_
    | with_reducible refine State.cmdRow_evo ?_ ?_
    | with_reducible refine State.doFaClear_evo ?_

theorem State.modSmod_evo {K : Kinds} {s0 s : State} {m : Nat} {f : ModSt → ModSt} (h : Evolve K s0 s) :
    Evolve K s0 (State.modSmod s m f) := by
  exact .free h rfl (by simp [State.modSmod, State.lens]) (.inr rfl) (.inr rfl) (.inr rfl) (.inr rfl) (.inr rfl)

theorem State.modSch_evo {K : Kinds} {s0 s : State} {ch : Nat} {f : SlowSt → SlowSt} (h : Evolve K s0 s) :
    Evolve K s0 (State.modSch s ch f) := by
  exact .free h rfl (by simp [State.modSch, State.lens]) (.inr rfl) (.inr rfl) (.inr rfl) (.inr rfl) (.inr rfl)

theorem State.nextSlow_evo {K : Kinds} {s0 s : State} {m ch : Nat} (h : Evolve K s0 s) :
    Evolve K s0 (State.nextSlow s m ch) := by
  unfold State.nextSlow
  repeat' first
    | with_reducible assumption
    | split
    | (intro x; refine cut_evo (k := K) (s0 := s0) (x := x) ?_ ?_; rotate_left; intro hx; clear_value x; rotate_left; subst x)
    | (intro x; clear_value x)
    | lift_lets
    | with_reducible refine State.setN_evo ?_
    | with_reducible refine State.modSmod_evo ?_
    | (with_reducible refine upd_evo ?_; with_reducible assumption)
    | (with_reducible refine upd_evo ?_; with_reducible refine upd_evo ?_; with_reducible assumption)
    | split

theorem State.slowResult_evo {K : Kinds} {s0 s : State} {ch : Nat} {code : Int} {ovr : Bool} (h : Evolve K s0 s) :
    Evolve K s0 (State.slowResult s ch code ovr) := by
  unfold State.slowResult
  repeat' first
    | with_reducible assumption
    | (intro x; refine cut_evo (k := K) (s0 := s0) (x := x) ?_ ?_; rotate_left; intro hx; clear_value x; rotate_left; subst x)
    | (intro x; clear_value x)
    | lift_lets
    | with_reducible refine ite_evo (fun _ => ?_) (fun _ => ?_)
    | with_reducible refine State.setW_evo ?_
    | with_reducible refine State.setZ_evo ?_
    | with_reducible refine State.bump_evo ?_
    | with_reducible refine State.setBit_evo ?_
    | (with_reducible refine State.onlyIf_evo ?_ (fun s h => ?_))
    | with_reducible refine State.raise_evo ?_
    | with_reducible refine State.modSch_evo ?_
    | (with_reducible refine upd_evo ?_; with_reducible assumption)
    | (with_reducible refine upd_evo ?_; with_reducible refine upd_evo ?_; with_reducible assumption)
    | split

theorem State.slowOver_evo {K : Kinds} {s0 s : State} {ch : Nat} {high : Bool} (h : Evolve K s0 s) :
    Evolve K s0 (State.slowOver s ch high) := by
  unfold State.slowOver
  repeat' first
    | with_reducible assumption
    | (intro x; refine cut_evo (k := K) (s0 := s0) (x := x) ?_ ?_; rotate_left; intro hx; clear_value x; rotate_left; subst x)
    | (intro x; clear_value x)
    | lift_lets
    | with_reducible refine ite_evo (fun _ => ?_) (fun _ => ?_)
    | with_reducible refine State.bump_evo ?_
    | with_reducible refine State.raise_evo ?_
    | with_reducible refine State.nextSlow_evo ?_
    | with_reducible refine State.slowResult_evo ?_

theorem execSlowScanStart_evo {K : Kinds} {t : Nat} {m : Nat} {s0 s : State} (h : Evolve K s0 s) :
    ∃ s', (execSlowScanStart t m s) = .next s' ∧ Evolve K s0 s' := by
  unfold execSlowScanStart
  refine ⟨_, rfl, ?_⟩
  replace h := State.advance_evo (t := t) h
  revert h
  generalize State.advance s t = s
  intro h
  repeat' first
    | with_reducible assumption
    | (intro x; refine cut_evo (k := K) (s0 := s0) (x := x) ?_ ?_; rotate_left; intro hx; clear_value x; rotate_left; subst x)
    | (intro x; clear_value x)
    | lift_lets
    | with_reducible refine ite_evo (fun _ => ?_) (fun _ => ?_)
    | with_reducible refine State.advance_evo ?_
    | with_reducible refine State.modSmod_evo ?_
    | (with_reducible refine upd_evo ?_; with_reducible assumption)
    | (with_reducible refine upd_evo ?_; with_reducible refine upd_evo ?_; with_reducible assumption)
    | split

theorem execSlowConversionDone_evo {K : Kinds} {t : Nat} {ch : Nat} {code : Int} {s0 s : State} (h : Evolve K s0 s) :
    ∃ s', (execSlowConversionDone t ch code s) = .next s' ∧ Evolve K s0 s' := by
  unfold execSlowConversionDone
  refine ⟨_, rfl, ?_⟩
  replace h := State.advance_evo (t := t) h
  revert h
  generalize State.advance s t = s
  intro h
  repeat' first
    | with_reducible assumption
    | (intro x; refine cut_evo (k := K) (s0 := s0) (x := x) ?_ ?_; rotate_left; intro hx; clear_value x; rotate_left; subst x)
    | (intro x; clear_value x)
    | lift_lets
    | with_reducible refine ite_evo (fun _ => ?_) (fun _ => ?_)
    | with_reducible refine State.advance_evo ?_
    | with_reducible refine State.nextSlow_evo ?_
    | with_reducible refine State.slowResult_evo ?_
    | with_reducible refine State.slowOver_evo ?_

theorem execSlowOverRange_evo {K : Kinds} {t : Nat} {ch : Nat} {high : Bool} {s0 s : State} (h : Evolve K s0 s) :
    ∃ s', (execSlowOverRange t ch high s) = .next s' ∧ Evolve K s0 s' := by
  unfold execSlowOverRange
  refine ⟨_, rfl, ?_⟩
  replace h := State.advance_evo (t := t) h
  revert h
  generalize State.advance s t = s
  intro h
  repeat' first
    | with_reducible assumption
    | (intro x; refine cut_evo (k := K) (s0 := s0) (x := x) ?_ ?_; rotate_left; intro hx; clear_value x; rotate_left; subst x)
    | (intro x; clear_value x)
    | lift_lets
    | with_reducible refine ite_evo (fun _ => ?_) (fun _ => ?_)
    | with_reducible refine State.advance_evo ?_
    | with_reducible refine State.slowOver_evo ?_

theorem execSlowResultStale_evo {K : Kinds} {t : Nat} {ch : Nat} {s0 s : State} (h : Evolve K s0 s) :
    ∃ s', (execSlowResultStale t ch s) = .next s' ∧ Evolve K s0 s' := by
  unfold execSlowResultStale
  refine ⟨_, rfl, ?_⟩
  replace h := State.advance_evo (t := t) h
  revert h
  generalize State.advance s t = s
  intro h
  repeat' first
    | with_reducible assumption
    | (intro x; refine cut_evo (k := K) (s0 := s0) (x := x) ?_ ?_; rotate_left; intro hx; clear_value x; rotate_left; subst x)
    | (intro x; clear_value x)
    | lift_lets
    | with_reducible refine ite_evo (fun _ => ?_) (fun _ => ?_)
    | with_reducible refine State.setBit_evo ?_
    | with_reducible refine State.advance_evo ?_
    | with_reducible refine State.raise_evo ?_
    | with_reducible refine State.modSch_evo ?_
    | (with_reducible refine upd_evo ?_; with_reducible assumption)
    | (with_reducible refine upd_evo ?_; with_reducible refine upd_evo ?_; with_reducible assumption)
    | split

end Sys2Proof.Machine
end

