-- ==== Sys2Proof/Laws/KeptGraph.lean ====
section
/-! SUPPORT. What the functions of Machine/Graph.lean keep: each stays within `Evolve`. -/

set_option Elab.async false
set_option linter.unusedVariables false
set_option linter.unreachableTactic false
set_option linter.unusedTactic false
set_option linter.unusedSimpArgs false

namespace Sys2Proof.Machine

theorem State.setGraphs_evo {K : Kinds} {s0 s : State} {gs : List Graph} (h : Evolve K s0 s) (hk_img : K.img = true) :
    Evolve K s0 (State.setGraphs s gs) := by
  unfold State.setGraphs
  repeat' first
    | with_reducible assumption
    | (intro x; refine cut_evo (k := K) (s0 := s0) (x := x) ?_ ?_; rotate_left; intro hx; clear_value x; rotate_left; subst x)
    | (intro x; clear_value x)
    | lift_lets
    | with_reducible refine ite_evo (fun _ => ?_) (fun _ => ?_)
    | (with_reducible refine updImg_evo hk_img ?_; with_reducible assumption)
    | (with_reducible refine upd_evo ?_; with_reducible assumption)
    | (with_reducible refine upd_evo ?_; with_reducible refine upd_evo ?_; with_reducible assumption)

theorem State.keepPart_evo {K : Kinds} {s0 s : State} {p : Nat} {outer : Bool} {x : PartSt} (h : Evolve K s0 s) :
    Evolve K s0 (State.keepPart s p outer x) := by
  unfold State.keepPart
  repeat' first
    | with_reducible assumption
    | with_reducible refine ite_evo (fun _ => ?_) (fun _ => ?_)
    | with_reducible refine State.modPort_evo ?_
    | (with_reducible refine upd_evo ?_; with_reducible assumption)
    | (with_reducible refine upd_evo ?_; with_reducible refine upd_evo ?_; with_reducible assumption)

theorem State.carryGraphs_evo {K : Kinds} {s0 old s : State} (h : Evolve K s0 s) : Evolve K s0 (old.carryGraphs s) :=
  State.each_evo h fun _ _ h => State.keepPart_evo (State.keepPart_evo h)

end Sys2Proof.Machine
end

