-- ==== Sys2Proof/Laws/KeptIsland.lean ====
section
/-! SUPPORT. What the functions of Machine/Island.lean keep: each stays within `Evolve`. -/

set_option Elab.async false
set_option linter.unusedVariables false
set_option linter.unreachableTactic false
set_option linter.unusedTactic false
set_option linter.unusedSimpArgs false

namespace Sys2Proof.Machine

theorem State.showSw_evo {K : Kinds} {s0 s : State} {i : Nat} (h : Evolve K s0 s) :
    Evolve K s0 (State.showSw s i) := by
  unfold State.showSw
  repeat' first
    | with_reducible assumption
    | with_reducible refine State.showLeg_evo ?_
    | with_reducible refine State.protSources_evo ?_

theorem State.dropTurnOn_evo {K : Kinds} {s0 s : State} {i : Nat} (h : Evolve K s0 s) :
    Evolve K s0 (State.dropTurnOn s i) := by
  unfold State.dropTurnOn
  repeat' first
    | with_reducible assumption
    | (intro x; refine cut_evo (k := K) (s0 := s0) (x := x) ?_ ?_; rotate_left; intro hx; clear_value x; rotate_left; subst x)
    | (intro x; clear_value x)
    | lift_lets
    | with_reducible refine State.bump_evo ?_
    | (with_reducible refine State.onlyIf_evo ?_ (fun s h => ?_))
    | with_reducible refine State.raise_evo ?_
    | with_reducible refine State.modLeg_evo ?_
    | with_reducible refine State.chgIsl_evo ?_
    | with_reducible refine State.legFault_evo ?_
    | with_reducible refine State.showSw_evo ?_
    | (with_reducible refine upd_evo ?_; with_reducible assumption)
    | (with_reducible refine upd_evo ?_; with_reducible refine upd_evo ?_; with_reducible assumption)

theorem State.tryOn_evo {K : Kinds} {s0 s : State} {i : Nat} (h : Evolve K s0 s) :
    Evolve K s0 (State.tryOn s i) := by
  unfold State.tryOn
  repeat' first
    | with_reducible assumption
    | with_reducible refine ite_evo (fun _ => ?_) (fun _ => ?_)
    | with_reducible refine State.chgIsl_evo ?_
    | with_reducible refine State.showSw_evo ?_
    | with_reducible refine State.dropTurnOn_evo ?_
    | (with_reducible refine upd_evo ?_; with_reducible assumption)
    | (with_reducible refine upd_evo ?_; with_reducible refine upd_evo ?_; with_reducible assumption)

theorem State.legConflict_evo {K : Kinds} {s0 s : State} {i : Nat} (h : Evolve K s0 s) :
    Evolve K s0 (State.legConflict s i) := by
  unfold State.legConflict
  repeat' first
    | with_reducible assumption
    | (intro x; refine cut_evo (k := K) (s0 := s0) (x := x) ?_ ?_; rotate_left; intro hx; clear_value x; rotate_left; subst x)
    | (intro x; clear_value x)
    | lift_lets
    | with_reducible refine ite_evo (fun _ => ?_) (fun _ => ?_)
    | with_reducible refine State.modLeg_evo ?_
    | with_reducible refine State.legFault_evo ?_
    | (with_reducible refine upd_evo ?_; with_reducible assumption)
    | (with_reducible refine upd_evo ?_; with_reducible refine upd_evo ?_; with_reducible assumption)

theorem State.conflictAt_evo {K : Kinds} {s0 s : State} {i kind : Nat} (h : Evolve K s0 s) :
    Evolve K s0 (State.conflictAt s i kind) := by
  unfold State.conflictAt
  repeat' first
    | with_reducible assumption
    | with_reducible refine State.bump_evo ?_
    | with_reducible refine State.raise_evo ?_

theorem State.wdExpire_evo {K : Kinds} {s0 s : State} {i : Nat} (h : Evolve K s0 s) :
    Evolve K s0 (State.wdExpire s i) := by
  unfold State.wdExpire
  repeat' first
    | with_reducible assumption
    | with_reducible refine State.bump_evo ?_
    | with_reducible refine State.chgIsl_evo ?_
    | with_reducible refine State.islDown_evo ?_
    | with_reducible refine State.showSw_evo ?_
    | (with_reducible refine upd_evo ?_; with_reducible assumption)
    | (with_reducible refine upd_evo ?_; with_reducible refine upd_evo ?_; with_reducible assumption)

theorem State.keepIsl_evo {K : Kinds} {s0 s : State} {i : Nat} (h : Evolve K s0 s) :
    Evolve K s0 (State.keepIsl s i) := by
  unfold State.keepIsl
  repeat' first
    | with_reducible assumption
    | (with_reducible refine State.onlyIf_evo ?_ (fun s h => ?_))
    | with_reducible refine State.modIsl_evo ?_
    | with_reducible refine State.wdExpire_evo ?_
    | (with_reducible refine upd_evo ?_; with_reducible assumption)
    | (with_reducible refine upd_evo ?_; with_reducible refine upd_evo ?_; with_reducible assumption)

theorem State.onCommand_evo {K : Kinds} {s0 s : State} {i len : Nat} (h : Evolve K s0 s) :
    Evolve K s0 (State.onCommand s i len) := by
  unfold State.onCommand
  repeat' first
    | with_reducible assumption
    | (intro x; refine cut_evo (k := K) (s0 := s0) (x := x) ?_ ?_; rotate_left; intro hx; clear_value x; rotate_left; subst x)
    | (intro x; clear_value x)
    | lift_lets
    | with_reducible refine ite_evo (fun _ => ?_) (fun _ => ?_)
    | with_reducible refine State.chgIsl_evo ?_
    | with_reducible refine State.showSw_evo ?_
    | with_reducible refine State.tryOn_evo ?_
    | with_reducible refine State.legConflict_evo ?_
    | with_reducible refine State.conflictAt_evo ?_
    | with_reducible refine State.keepIsl_evo ?_
    | (with_reducible refine upd_evo ?_; with_reducible assumption)
    | (with_reducible refine upd_evo ?_; with_reducible refine upd_evo ?_; with_reducible assumption)

theorem execKeepAliveSend_evo {K : Kinds} {t : Nat} {s0 s : State} (h : Evolve K s0 s) :
    ∃ s', (execKeepAliveSend t s) = .next s' ∧ Evolve K s0 s' := by
  unfold execKeepAliveSend
  refine ⟨_, rfl, ?_⟩
  replace h := State.advance_evo (t := t) h
  revert h
  generalize State.advance s t = s
  intro h
  repeat' first
    | with_reducible assumption
    | (intro x; refine cut_evo (k := K) (s0 := s0) (x := x) ?_ ?_; rotate_left; intro hx; clear_value x; rotate_left; subst x)
    | (intro x; clear_value x)
    | lift_lets
    | with_reducible refine ite_evo (fun _ => ?_) (fun _ => ?_)
    | (with_reducible refine State.each_evo ?_ (fun s i h => ?_))
    | with_reducible refine State.advance_evo ?_
    | with_reducible refine State.showIsl_evo ?_
    | with_reducible refine State.keepIsl_evo ?_
    | (with_reducible refine upd_evo ?_; with_reducible assumption)
    | (with_reducible refine upd_evo ?_; with_reducible refine upd_evo ?_; with_reducible assumption)
    | split

theorem execIslandOnCommand_evo {K : Kinds} {t : Nat} {i : Nat} {s0 s : State} (h : Evolve K s0 s) (hk_unit : K.unit = true) :
    ∃ s', (execIslandOnCommand t i s) = .next s' ∧ Evolve K s0 s' := by
  unfold execIslandOnCommand
  refine ⟨_, rfl, ?_⟩
  replace h := State.advance_evo (t := t) h
  revert h
  generalize State.advance s t = s
  intro h
  repeat' first
    | with_reducible assumption
    | (intro x; refine cut_evo (k := K) (s0 := s0) (x := x) ?_ ?_; rotate_left; intro hx; clear_value x; rotate_left; subst x)
    | (intro x; clear_value x)
    | lift_lets
    | with_reducible refine ite_evo (fun _ => ?_) (fun _ => ?_)
    | with_reducible refine State.advance_evo ?_
    | with_reducible refine State.modIsl_evo ?_
    | with_reducible refine State.innerEnables_evo ?_ hk_unit
    | with_reducible refine State.showSw_evo ?_
    | with_reducible refine State.onCommand_evo ?_
    | (with_reducible refine upd_evo ?_; with_reducible assumption)
    | (with_reducible refine upd_evo ?_; with_reducible refine upd_evo ?_; with_reducible assumption)

theorem State.innerOffAt_evo {K : Kinds} {s0 s : State} {i : Nat} (h : Evolve K s0 s) :
    Evolve K s0 (State.innerOffAt s i) := by
  unfold State.innerOffAt
  repeat' first
    | with_reducible assumption
    | (intro x; refine cut_evo (k := K) (s0 := s0) (x := x) ?_ ?_; rotate_left; intro hx; clear_value x; rotate_left; subst x)
    | (intro x; clear_value x)
    | lift_lets
    | with_reducible refine ite_evo (fun _ => ?_) (fun _ => ?_)
    | (with_reducible refine State.onlyIf_evo ?_ (fun s h => ?_))
    | with_reducible refine State.modLeg_evo ?_
    | with_reducible refine State.islOff_evo ?_
    | with_reducible refine State.showSw_evo ?_
    | (with_reducible refine upd_evo ?_; with_reducible assumption)
    | (with_reducible refine upd_evo ?_; with_reducible refine upd_evo ?_; with_reducible assumption)
    | split

theorem execIslandOffCommand_evo {K : Kinds} {t : Nat} {i : Nat} {s0 s : State} (h : Evolve K s0 s) (hk_unit : K.unit = true) :
    ∃ s', (execIslandOffCommand t i s) = .next s' ∧ Evolve K s0 s' := by
  unfold execIslandOffCommand
  refine ⟨_, rfl, ?_⟩
  replace h := State.advance_evo (t := t) h
  revert h
  generalize State.advance s t = s
  intro h
  repeat' first
    | with_reducible assumption
    | (intro x; refine cut_evo (k := K) (s0 := s0) (x := x) ?_ ?_; rotate_left; intro hx; clear_value x; rotate_left; subst x)
    | (intro x; clear_value x)
    | lift_lets
    | with_reducible refine ite_evo (fun _ => ?_) (fun _ => ?_)
    | with_reducible refine State.advance_evo ?_
    | with_reducible refine State.modIsl_evo ?_
    | with_reducible refine State.islOff_evo ?_
    | with_reducible refine State.innerEnables_evo ?_ hk_unit
    | with_reducible refine State.showSw_evo ?_
    | with_reducible refine State.legConflict_evo ?_
    | with_reducible refine State.conflictAt_evo ?_
    | with_reducible refine State.keepIsl_evo ?_
    | with_reducible refine State.innerOffAt_evo ?_
    | (with_reducible refine upd_evo ?_; with_reducible assumption)
    | (with_reducible refine upd_evo ?_; with_reducible refine upd_evo ?_; with_reducible assumption)

theorem State.gateNotOff_evo {K : Kinds} {s0 s : State} {i : Nat} (h : Evolve K s0 s) :
    Evolve K s0 (State.gateNotOff s i) := by
  unfold State.gateNotOff
  repeat' first
    | with_reducible assumption
    | (intro x; refine cut_evo (k := K) (s0 := s0) (x := x) ?_ ?_; rotate_left; intro hx; clear_value x; rotate_left; subst x)
    | (intro x; clear_value x)
    | lift_lets
    | with_reducible refine ite_evo (fun _ => ?_) (fun _ => ?_)
    | with_reducible refine State.chgIsl_evo ?_
    | with_reducible refine State.legFault_evo ?_
    | with_reducible refine State.showSw_evo ?_
    | (with_reducible refine upd_evo ?_; with_reducible assumption)
    | (with_reducible refine upd_evo ?_; with_reducible refine upd_evo ?_; with_reducible assumption)

theorem execOffConfirm_evo {K : Kinds} {t : Nat} {i : Nat} {s0 s : State} (h : Evolve K s0 s) :
    ∃ s', (execOffConfirm t i s) = .next s' ∧ Evolve K s0 s' := by
  unfold execOffConfirm
  refine ⟨_, rfl, ?_⟩
  replace h := State.advance_evo (t := t) h
  revert h
  generalize State.advance s t = s
  intro h
  repeat' first
    | with_reducible assumption
    | (intro x; refine cut_evo (k := K) (s0 := s0) (x := x) ?_ ?_; rotate_left; intro hx; clear_value x; rotate_left; subst x)
    | (intro x; clear_value x)
    | lift_lets
    | with_reducible refine ite_evo (fun _ => ?_) (fun _ => ?_)
    | with_reducible refine State.setN_evo ?_
    | (with_reducible refine State.onlyIf_evo ?_ (fun s h => ?_))
    | with_reducible refine State.advance_evo ?_
    | with_reducible refine State.modLeg_evo ?_
    | with_reducible refine State.chgIsl_evo ?_
    | with_reducible refine State.showSw_evo ?_
    | with_reducible refine State.tryOn_evo ?_
    | with_reducible refine State.gateNotOff_evo ?_
    | (with_reducible refine upd_evo ?_; with_reducible assumption)
    | (with_reducible refine upd_evo ?_; with_reducible refine upd_evo ?_; with_reducible assumption)
    | split

theorem execIlMinTimeElapsed_evo {K : Kinds} {t : Nat} {i : Nat} {s0 s : State} (h : Evolve K s0 s) :
    ∃ s', (execIlMinTimeElapsed t i s) = .next s' ∧ Evolve K s0 s' := by
  unfold execIlMinTimeElapsed
  refine ⟨_, rfl, ?_⟩
  replace h := State.advance_evo (t := t) h
  revert h
  generalize State.advance s t = s
  intro h
  repeat' first
    | with_reducible assumption
    | (intro x; refine cut_evo (k := K) (s0 := s0) (x := x) ?_ ?_; rotate_left; intro hx; clear_value x; rotate_left; subst x)
    | (intro x; clear_value x)
    | lift_lets
    | with_reducible refine State.advance_evo ?_
    | with_reducible refine State.tryOn_evo ?_

theorem execGateAbovePlateau_evo {K : Kinds} {t : Nat} {i : Nat} {s0 s : State} (h : Evolve K s0 s) :
    ∃ s', (execGateAbovePlateau t i s) = .next s' ∧ Evolve K s0 s' := by
  unfold execGateAbovePlateau
  refine ⟨_, rfl, ?_⟩
  replace h := State.advance_evo (t := t) h
  revert h
  generalize State.advance s t = s
  intro h
  repeat' first
    | with_reducible assumption
    | (intro x; refine cut_evo (k := K) (s0 := s0) (x := x) ?_ ?_; rotate_left; intro hx; clear_value x; rotate_left; subst x)
    | (intro x; clear_value x)
    | lift_lets
    | with_reducible refine ite_evo (fun _ => ?_) (fun _ => ?_)
    | (with_reducible refine State.onlyIf_evo ?_ (fun s h => ?_))
    | with_reducible refine State.advance_evo ?_
    | with_reducible refine State.chgIsl_evo ?_
    | with_reducible refine State.showSw_evo ?_
    | with_reducible refine State.tryOn_evo ?_
    | (with_reducible refine upd_evo ?_; with_reducible assumption)
    | (with_reducible refine upd_evo ?_; with_reducible refine upd_evo ?_; with_reducible assumption)

theorem execTurnOnTimeout_evo {K : Kinds} {t : Nat} {i : Nat} {s0 s : State} (h : Evolve K s0 s) :
    ∃ s', (execTurnOnTimeout t i s) = .next s' ∧ Evolve K s0 s' := by
  unfold execTurnOnTimeout
  refine ⟨_, rfl, ?_⟩
  replace h := State.advance_evo (t := t) h
  revert h
  generalize State.advance s t = s
  intro h
  repeat' first
    | with_reducible assumption
    | (intro x; refine cut_evo (k := K) (s0 := s0) (x := x) ?_ ?_; rotate_left; intro hx; clear_value x; rotate_left; subst x)
    | (intro x; clear_value x)
    | lift_lets
    | with_reducible refine ite_evo (fun _ => ?_) (fun _ => ?_)
    | with_reducible refine State.advance_evo ?_
    | with_reducible refine State.dropTurnOn_evo ?_

theorem execGateNotOff_evo {K : Kinds} {t : Nat} {i : Nat} {s0 s : State} (h : Evolve K s0 s) :
    ∃ s', (execGateNotOff t i s) = .next s' ∧ Evolve K s0 s' := by
  unfold execGateNotOff
  refine ⟨_, rfl, ?_⟩
  replace h := State.advance_evo (t := t) h
  revert h
  generalize State.advance s t = s
  intro h
  repeat' first
    | with_reducible assumption
    | (intro x; refine cut_evo (k := K) (s0 := s0) (x := x) ?_ ?_; rotate_left; intro hx; clear_value x; rotate_left; subst x)
    | (intro x; clear_value x)
    | lift_lets
    | with_reducible refine State.advance_evo ?_
    | with_reducible refine State.gateNotOff_evo ?_

theorem execIslandWatchdogExpiry_evo {K : Kinds} {t : Nat} {i : Nat} {s0 s : State} (h : Evolve K s0 s) :
    ∃ s', (execIslandWatchdogExpiry t i s) = .next s' ∧ Evolve K s0 s' := by
  unfold execIslandWatchdogExpiry
  refine ⟨_, rfl, ?_⟩
  replace h := State.advance_evo (t := t) h
  revert h
  generalize State.advance s t = s
  intro h
  repeat' first
    | with_reducible assumption
    | (intro x; refine cut_evo (k := K) (s0 := s0) (x := x) ?_ ?_; rotate_left; intro hx; clear_value x; rotate_left; subst x)
    | (intro x; clear_value x)
    | lift_lets
    | with_reducible refine ite_evo (fun _ => ?_) (fun _ => ?_)
    | with_reducible refine State.advance_evo ?_
    | with_reducible refine State.wdExpire_evo ?_

theorem execIslandLost_evo {K : Kinds} {t : Nat} {i : Nat} {s0 s : State} (h : Evolve K s0 s) :
    ∃ s', (execIslandLost t i s) = .next s' ∧ Evolve K s0 s' := by
  unfold execIslandLost
  refine ⟨_, rfl, ?_⟩
  replace h := State.advance_evo (t := t) h
  revert h
  generalize State.advance s t = s
  intro h
  repeat' first
    | with_reducible assumption
    | (intro x; refine cut_evo (k := K) (s0 := s0) (x := x) ?_ ?_; rotate_left; intro hx; clear_value x; rotate_left; subst x)
    | (intro x; clear_value x)
    | lift_lets
    | with_reducible refine ite_evo (fun _ => ?_) (fun _ => ?_)
    | with_reducible refine State.advance_evo ?_
    | with_reducible refine State.chgIsl_evo ?_
    | with_reducible refine State.legFault_evo ?_
    | with_reducible refine State.showSw_evo ?_
    | (with_reducible refine upd_evo ?_; with_reducible assumption)
    | (with_reducible refine upd_evo ?_; with_reducible refine upd_evo ?_; with_reducible assumption)

theorem State.detect_evo {K : Kinds} {s0 s : State} {i k : Nat} (h : Evolve K s0 s) :
    Evolve K s0 (State.detect s i k) := by
  unfold State.detect
  repeat' first
    | with_reducible assumption
    | with_reducible refine ite_evo (fun _ => ?_) (fun _ => ?_)
    | with_reducible refine State.chgIsl_evo ?_
    | (with_reducible refine upd_evo ?_; with_reducible assumption)
    | (with_reducible refine upd_evo ?_; with_reducible refine upd_evo ?_; with_reducible assumption)

theorem execDesaturation_evo {K : Kinds} {t : Nat} {i : Nat} {s0 s : State} (h : Evolve K s0 s) :
    ∃ s', (execDesaturation t i s) = .next s' ∧ Evolve K s0 s' := by
  unfold execDesaturation
  refine ⟨_, rfl, ?_⟩
  replace h := State.advance_evo (t := t) h
  revert h
  generalize State.advance s t = s
  intro h
  repeat' first
    | with_reducible assumption
    | (intro x; refine cut_evo (k := K) (s0 := s0) (x := x) ?_ ?_; rotate_left; intro hx; clear_value x; rotate_left; subst x)
    | (intro x; clear_value x)
    | lift_lets
    | with_reducible refine ite_evo (fun _ => ?_) (fun _ => ?_)
    | with_reducible refine State.bump_evo ?_
    | with_reducible refine State.advance_evo ?_
    | with_reducible refine State.legFault_evo ?_
    | with_reducible refine State.showSw_evo ?_
    | with_reducible refine State.detect_evo ?_

theorem execGatePlateauMissing_evo {K : Kinds} {t : Nat} {i : Nat} {s0 s : State} (h : Evolve K s0 s) :
    ∃ s', (execGatePlateauMissing t i s) = .next s' ∧ Evolve K s0 s' := by
  unfold execGatePlateauMissing
  refine ⟨_, rfl, ?_⟩
  replace h := State.advance_evo (t := t) h
  revert h
  generalize State.advance s t = s
  intro h
  repeat' first
    | with_reducible assumption
    | (intro x; refine cut_evo (k := K) (s0 := s0) (x := x) ?_ ?_; rotate_left; intro hx; clear_value x; rotate_left; subst x)
    | (intro x; clear_value x)
    | lift_lets
    | with_reducible refine ite_evo (fun _ => ?_) (fun _ => ?_)
    | with_reducible refine State.bump_evo ?_
    | with_reducible refine State.advance_evo ?_
    | with_reducible refine State.legFault_evo ?_
    | with_reducible refine State.showSw_evo ?_
    | with_reducible refine State.detect_evo ?_

theorem execGateNotOn_evo {K : Kinds} {t : Nat} {i : Nat} {s0 s : State} (h : Evolve K s0 s) :
    ∃ s', (execGateNotOn t i s) = .next s' ∧ Evolve K s0 s' := by
  unfold execGateNotOn
  refine ⟨_, rfl, ?_⟩
  replace h := State.advance_evo (t := t) h
  revert h
  generalize State.advance s t = s
  intro h
  repeat' first
    | with_reducible assumption
    | (intro x; refine cut_evo (k := K) (s0 := s0) (x := x) ?_ ?_; rotate_left; intro hx; clear_value x; rotate_left; subst x)
    | (intro x; clear_value x)
    | lift_lets
    | with_reducible refine ite_evo (fun _ => ?_) (fun _ => ?_)
    | with_reducible refine State.bump_evo ?_
    | with_reducible refine State.advance_evo ?_
    | with_reducible refine State.legFault_evo ?_
    | with_reducible refine State.showSw_evo ?_
    | with_reducible refine State.detect_evo ?_

theorem execIslandUndervoltage_evo {K : Kinds} {t : Nat} {i : Nat} {vpLow vnLow : Bool} {s0 s : State} (h : Evolve K s0 s) :
    ∃ s', (execIslandUndervoltage t i vpLow vnLow s) = .next s' ∧ Evolve K s0 s' := by
  unfold execIslandUndervoltage
  refine ⟨_, rfl, ?_⟩
  replace h := State.advance_evo (t := t) h
  revert h
  generalize State.advance s t = s
  intro h
  repeat' first
    | with_reducible assumption
    | (intro x; refine cut_evo (k := K) (s0 := s0) (x := x) ?_ ?_; rotate_left; intro hx; clear_value x; rotate_left; subst x)
    | (intro x; clear_value x)
    | lift_lets
    | with_reducible refine ite_evo (fun _ => ?_) (fun _ => ?_)
    | with_reducible refine State.bump_evo ?_
    | (with_reducible refine State.each_evo ?_ (fun s i h => ?_))
    | with_reducible refine State.advance_evo ?_
    | with_reducible refine State.raise_evo ?_
    | with_reducible refine State.modIsl_evo ?_
    | with_reducible refine State.islDown_evo ?_
    | with_reducible refine State.legFaults_evo ?_
    | with_reducible refine State.showSw_evo ?_
    | (with_reducible refine upd_evo ?_; with_reducible assumption)
    | (with_reducible refine upd_evo ?_; with_reducible refine upd_evo ?_; with_reducible assumption)

theorem execIslandSupplyRecover_evo {K : Kinds} {t : Nat} {i : Nat} {s0 s : State} (h : Evolve K s0 s) :
    ∃ s', (execIslandSupplyRecover t i s) = .next s' ∧ Evolve K s0 s' := by
  unfold execIslandSupplyRecover
  refine ⟨_, rfl, ?_⟩
  replace h := State.advance_evo (t := t) h
  revert h
  generalize State.advance s t = s
  intro h
  repeat' first
    | with_reducible assumption
    | (intro x; refine cut_evo (k := K) (s0 := s0) (x := x) ?_ ?_; rotate_left; intro hx; clear_value x; rotate_left; subst x)
    | (intro x; clear_value x)
    | lift_lets
    | (with_reducible refine State.each_evo ?_ (fun s i h => ?_))
    | with_reducible refine State.advance_evo ?_
    | with_reducible refine State.chgIsl_evo ?_
    | with_reducible refine State.showSw_evo ?_
    | (with_reducible refine upd_evo ?_; with_reducible assumption)
    | (with_reducible refine upd_evo ?_; with_reducible refine upd_evo ?_; with_reducible assumption)

theorem execSoftOffFullStrength_evo {K : Kinds} {t : Nat} {i : Nat} {s0 s : State} (h : Evolve K s0 s) :
    ∃ s', (execSoftOffFullStrength t i s) = .next s' ∧ Evolve K s0 s' := by
  unfold execSoftOffFullStrength
  refine ⟨_, rfl, ?_⟩
  replace h := State.advance_evo (t := t) h
  revert h
  generalize State.advance s t = s
  intro h
  repeat' first
    | with_reducible assumption
    | (intro x; refine cut_evo (k := K) (s0 := s0) (x := x) ?_ ?_; rotate_left; intro hx; clear_value x; rotate_left; subst x)
    | (intro x; clear_value x)
    | lift_lets
    | with_reducible refine ite_evo (fun _ => ?_) (fun _ => ?_)
    | with_reducible refine State.advance_evo ?_
    | with_reducible refine State.modIsl_evo ?_
    | (with_reducible refine upd_evo ?_; with_reducible assumption)
    | (with_reducible refine upd_evo ?_; with_reducible refine upd_evo ?_; with_reducible assumption)
    | split

theorem execLegFaultRunEnd_evo {K : Kinds} {t : Nat} {p : Nat} {s0 s : State} (h : Evolve K s0 s) :
    ∃ s', (execLegFaultRunEnd t p s) = .next s' ∧ Evolve K s0 s' := by
  unfold execLegFaultRunEnd
  refine ⟨_, rfl, ?_⟩
  replace h := State.advance_evo (t := t) h
  revert h
  generalize State.advance s t = s
  intro h
  repeat' first
    | with_reducible assumption
    | (intro x; refine cut_evo (k := K) (s0 := s0) (x := x) ?_ ?_; rotate_left; intro hx; clear_value x; rotate_left; subst x)
    | (intro x; clear_value x)
    | lift_lets
    | with_reducible refine ite_evo (fun _ => ?_) (fun _ => ?_)
    | with_reducible refine State.advance_evo ?_
    | with_reducible refine State.legDecision_evo ?_
    | (with_reducible refine upd_evo ?_; with_reducible assumption)
    | (with_reducible refine upd_evo ?_; with_reducible refine upd_evo ?_; with_reducible assumption)
    | split

theorem State.doPulse_evo {K : Kinds} {s0 s : State} {i : Nat} {v : Word} (h : Evolve K s0 s) :
    Evolve K s0 (State.doPulse s i v) := by
  unfold State.doPulse
  repeat' first
    | with_reducible assumption
    | with_reducible refine State.onCommand_evo ?_

theorem execIslPulse_evo {K : Kinds} {t : Nat} {role : Role} {i : Nat} {v : Word} {s0 s : State} (h : Evolve K s0 s) :
    ∃ s', (execIslPulse t role i v s) = .next s' ∧ Evolve K s0 s' := by
  unfold execIslPulse
  refine ⟨_, rfl, ?_⟩
  replace h := State.advance_evo (t := t) h
  revert h
  generalize State.advance s t = s
  intro h
  repeat' first
    | with_reducible assumption
    | (intro x; refine cut_evo (k := K) (s0 := s0) (x := x) ?_ ?_; rotate_left; intro hx; clear_value x; rotate_left; subst x)
    | (intro x; clear_value x)
    | lift_lets
    | with_reducible refine State.advance_evo ?_
    | with_reducible refine State.cmdRow_evo ?_ ?_
    | with_reducible refine State.doPulse_evo ?_

theorem execIslPulseEnd_evo {K : Kinds} {t : Nat} {i : Nat} {s0 s : State} (h : Evolve K s0 s) :
    ∃ s', (execIslPulseEnd t i s) = .next s' ∧ Evolve K s0 s' := by
  unfold execIslPulseEnd
  refine ⟨_, rfl, ?_⟩
  replace h := State.advance_evo (t := t) h
  revert h
  generalize State.advance s t = s
  intro h
  repeat' first
    | with_reducible assumption
    | (intro x; refine cut_evo (k := K) (s0 := s0) (x := x) ?_ ?_; rotate_left; intro hx; clear_value x; rotate_left; subst x)
    | (intro x; clear_value x)
    | lift_lets
    | with_reducible refine ite_evo (fun _ => ?_) (fun _ => ?_)
    | with_reducible refine State.advance_evo ?_
    | with_reducible refine State.islOff_evo ?_
    | with_reducible refine State.showSw_evo ?_
    | with_reducible refine State.legConflict_evo ?_
    | with_reducible refine State.conflictAt_evo ?_
    | (with_reducible refine upd_evo ?_; with_reducible assumption)
    | (with_reducible refine upd_evo ?_; with_reducible refine upd_evo ?_; with_reducible assumption)
    | split

end Sys2Proof.Machine
end

