-- ==== Sys2Proof/Laws/KeptProtect.lean ====
section
/-! SUPPORT. What the functions of Machine/Protect.lean keep: each stays within `Evolve`. -/

set_option Elab.async false
set_option linter.unusedVariables false
set_option linter.unreachableTactic false
set_option linter.unusedTactic false
set_option linter.unusedSimpArgs false

namespace Sys2Proof.Machine

theorem execTripInputAssert_evo {K : Kinds} {t : Nat} {n : Nat} {s0 s : State} (h : Evolve K s0 s) :
    ∃ s', (execTripInputAssert t n s) = .next s' ∧ Evolve K s0 s' := by
  unfold execTripInputAssert
  refine ⟨_, rfl, ?_⟩
  replace h := State.advance_evo (t := t) h
  revert h
  generalize State.advance s t = s
  intro h
  repeat' first
    | with_reducible assumption
    | (intro x; refine cut_evo (k := K) (s0 := s0) (x := x) ?_ ?_; rotate_left; intro hx; clear_value x; rotate_left; subst x)
    | (intro x; clear_value x)
    | lift_lets
    | with_reducible refine ite_evo (fun _ => ?_) (fun _ => ?_)
    | with_reducible refine State.setN_evo ?_
    | with_reducible refine State.bump_evo ?_
    | (with_reducible refine State.each_evo ?_ (fun s i h => ?_))
    | with_reducible refine State.advance_evo ?_
    | with_reducible refine State.raise_evo ?_
    | with_reducible refine State.recordPhases_evo ?_
    | with_reducible refine State.protStop_evo ?_
    | with_reducible refine State.protSources_evo ?_

theorem execTripInputRelease_evo {K : Kinds} {t : Nat} {n : Nat} {s0 s : State} (h : Evolve K s0 s) :
    ∃ s', (execTripInputRelease t n s) = .next s' ∧ Evolve K s0 s' := by
  unfold execTripInputRelease
  refine ⟨_, rfl, ?_⟩
  replace h := State.advance_evo (t := t) h
  revert h
  generalize State.advance s t = s
  intro h
  repeat' first
    | with_reducible assumption
    | (intro x; refine cut_evo (k := K) (s0 := s0) (x := x) ?_ ?_; rotate_left; intro hx; clear_value x; rotate_left; subst x)
    | (intro x; clear_value x)
    | lift_lets
    | with_reducible refine ite_evo (fun _ => ?_) (fun _ => ?_)
    | with_reducible refine State.setN_evo ?_
    | (with_reducible refine State.each_evo ?_ (fun s i h => ?_))
    | with_reducible refine State.advance_evo ?_
    | with_reducible refine State.protSources_evo ?_

theorem State.unlatch_evo {K : Kinds} {s0 s : State} {i : Nat} (h : Evolve K s0 s) :
    Evolve K s0 (State.unlatch s i) := by
  unfold State.unlatch
  repeat' first
    | with_reducible assumption
    | with_reducible refine State.chgIsl_evo ?_
    | (with_reducible refine upd_evo ?_; with_reducible assumption)
    | (with_reducible refine upd_evo ?_; with_reducible refine upd_evo ?_; with_reducible assumption)

theorem State.clearLeg_evo {K : Kinds} {s0 s : State} {p l : Nat} (h : Evolve K s0 s) :
    Evolve K s0 (State.clearLeg s p l) := by
  unfold State.clearLeg
  repeat' first
    | with_reducible assumption
    | (intro x; refine cut_evo (k := K) (s0 := s0) (x := x) ?_ ?_; rotate_left; intro hx; clear_value x; rotate_left; subst x)
    | (intro x; clear_value x)
    | lift_lets
    | with_reducible refine ite_evo (fun _ => ?_) (fun _ => ?_)
    | with_reducible refine State.setN_evo ?_
    | with_reducible refine State.setBit_evo ?_
    | with_reducible refine State.modLeg_evo ?_
    | with_reducible refine State.unlatch_evo ?_
    | (with_reducible refine upd_evo ?_; with_reducible assumption)
    | (with_reducible refine upd_evo ?_; with_reducible refine upd_evo ?_; with_reducible assumption)

theorem State.acceptClear_evo {K : Kinds} {s0 s : State} {p kind : Nat} (h : Evolve K s0 s) (hk_unit : K.unit = true) :
    Evolve K s0 (State.acceptClear s p kind) := by
  unfold State.acceptClear
  repeat' first
    | with_reducible assumption
    | (intro x; refine cut_evo (k := K) (s0 := s0) (x := x) ?_ ?_; rotate_left; intro hx; clear_value x; rotate_left; subst x)
    | (intro x; clear_value x)
    | lift_lets
    | with_reducible refine State.setN_evo ?_
    | with_reducible refine State.setZ_evo ?_
    | with_reducible refine State.setBit_evo ?_
    | (with_reducible refine State.each_evo ?_ (fun s i h => ?_))
    | (with_reducible refine State.onlyIf_evo ?_ (fun s h => ?_))
    | with_reducible refine State.raise_evo ?_
    | with_reducible refine State.modPort_evo ?_
    | with_reducible refine State.setPort_evo ?_ hk_unit
    | with_reducible refine State.protSources_evo ?_
    | with_reducible refine State.clearLeg_evo ?_
    | (with_reducible refine upd_evo ?_; with_reducible assumption)
    | (with_reducible refine upd_evo ?_; with_reducible refine upd_evo ?_; with_reducible assumption)

theorem State.refuseClear_evo {K : Kinds} {s0 s : State} {r : Requester} {p code : Nat} (h : Evolve K s0 s) :
    Evolve K s0 (State.refuseClear s r p code) := by
  unfold State.refuseClear
  repeat' first
    | with_reducible assumption
    | (intro x; refine cut_evo (k := K) (s0 := s0) (x := x) ?_ ?_; rotate_left; intro hx; clear_value x; rotate_left; subst x)
    | (intro x; clear_value x)
    | lift_lets
    | with_reducible refine State.setN_evo ?_
    | with_reducible refine State.bump_evo ?_
    | with_reducible refine State.raise_evo ?_
    | with_reducible refine State.modPort_evo ?_
    | (with_reducible refine upd_evo ?_; with_reducible assumption)
    | (with_reducible refine upd_evo ?_; with_reducible refine upd_evo ?_; with_reducible assumption)

theorem State.doClear_evo {K : Kinds} {s0 s : State} {r : Requester} {p : Nat} {v : Word} (h : Evolve K s0 s) (hk_unit : K.unit = true) :
    Evolve K s0 (State.doClear s r p v) := by
  unfold State.doClear
  repeat' first
    | with_reducible assumption
    | (intro x; refine cut_evo (k := K) (s0 := s0) (x := x) ?_ ?_; rotate_left; intro hx; clear_value x; rotate_left; subst x)
    | (intro x; clear_value x)
    | lift_lets
    | with_reducible refine ite_evo (fun _ => ?_) (fun _ => ?_)
    | with_reducible refine State.acceptClear_evo ?_ hk_unit
    | with_reducible refine State.refuseClear_evo ?_

theorem execProtClear_evo {K : Kinds} {t : Nat} {req : Requester} {p : Nat} {v : Word} {s0 s : State} (h : Evolve K s0 s) (hk_unit : K.unit = true) :
    ∃ s', (execProtClear t req p v s) = .next s' ∧ Evolve K s0 s' := by
  unfold execProtClear
  refine ⟨_, rfl, ?_⟩
  replace h := State.advance_evo (t := t) h
  revert h
  generalize State.advance s t = s
  intro h
  repeat' first
    | with_reducible assumption
    | (intro x; refine cut_evo (k := K) (s0 := s0) (x := x) ?_ ?_; rotate_left; intro hx; clear_value x; rotate_left; subst x)
    | (intro x; clear_value x)
    | lift_lets
    | with_reducible refine ite_evo (fun _ => ?_) (fun _ => ?_)
    | with_reducible refine State.advance_evo ?_
    | with_reducible refine State.reqRow_evo ?_ ?_
    | with_reducible refine State.doClear_evo ?_ hk_unit

theorem execAutoClear_evo {K : Kinds} {t : Nat} {p : Nat} {s0 s : State} (h : Evolve K s0 s) (hk_unit : K.unit = true) :
    ∃ s', (execAutoClear t p s) = .next s' ∧ Evolve K s0 s' := by
  unfold execAutoClear
  refine ⟨_, rfl, ?_⟩
  replace h := State.advance_evo (t := t) h
  revert h
  generalize State.advance s t = s
  intro h
  repeat' first
    | with_reducible assumption
    | (intro x; refine cut_evo (k := K) (s0 := s0) (x := x) ?_ ?_; rotate_left; intro hx; clear_value x; rotate_left; subst x)
    | (intro x; clear_value x)
    | lift_lets
    | with_reducible refine ite_evo (fun _ => ?_) (fun _ => ?_)
    | with_reducible refine State.advance_evo ?_
    | with_reducible refine State.modPort_evo ?_
    | with_reducible refine State.autoPrune_evo ?_
    | with_reducible refine State.autoArm_evo ?_
    | with_reducible refine State.doClear_evo ?_ hk_unit
    | (with_reducible refine upd_evo ?_; with_reducible assumption)
    | (with_reducible refine upd_evo ?_; with_reducible refine upd_evo ?_; with_reducible assumption)
    | split

theorem execAutoWindowAgeOut_evo {K : Kinds} {t : Nat} {p : Nat} {s0 s : State} (h : Evolve K s0 s) :
    ∃ s', (execAutoWindowAgeOut t p s) = .next s' ∧ Evolve K s0 s' := by
  unfold execAutoWindowAgeOut
  refine ⟨_, rfl, ?_⟩
  replace h := State.advance_evo (t := t) h
  revert h
  generalize State.advance s t = s
  intro h
  repeat' first
    | with_reducible assumption
    | (intro x; refine cut_evo (k := K) (s0 := s0) (x := x) ?_ ?_; rotate_left; intro hx; clear_value x; rotate_left; subst x)
    | (intro x; clear_value x)
    | lift_lets
    | with_reducible refine ite_evo (fun _ => ?_) (fun _ => ?_)
    | with_reducible refine State.advance_evo ?_
    | with_reducible refine State.autoPrune_evo ?_

theorem State.istFault_evo {K : Kinds} {s0 s : State} {i : Nat} (h : Evolve K s0 s) :
    Evolve K s0 (State.istFault s i) := by
  unfold State.istFault
  repeat' first
    | with_reducible assumption
    | (intro x; refine cut_evo (k := K) (s0 := s0) (x := x) ?_ ?_; rotate_left; intro hx; clear_value x; rotate_left; subst x)
    | (intro x; clear_value x)
    | lift_lets
    | with_reducible refine State.setN_evo ?_
    | with_reducible refine State.bump_evo ?_
    | with_reducible refine State.setBit_evo ?_
    | (with_reducible refine State.onlyIf_evo ?_ (fun s h => ?_))
    | with_reducible refine State.raise_evo ?_
    | with_reducible refine State.chgIsl_evo ?_
    | with_reducible refine State.legFault_evo ?_
    | (with_reducible refine upd_evo ?_; with_reducible assumption)
    | (with_reducible refine upd_evo ?_; with_reducible refine upd_evo ?_; with_reducible assumption)

theorem State.istJudge_evo {K : Kinds} {s0 s : State} {i bits : Nat} (h : Evolve K s0 s) :
    Evolve K s0 (State.istJudge s i bits) := by
  unfold State.istJudge
  repeat' first
    | with_reducible assumption
    | (intro x; refine cut_evo (k := K) (s0 := s0) (x := x) ?_ ?_; rotate_left; intro hx; clear_value x; rotate_left; subst x)
    | (intro x; clear_value x)
    | lift_lets
    | with_reducible refine ite_evo (fun _ => ?_) (fun _ => ?_)
    | with_reducible refine State.setN_evo ?_
    | with_reducible refine State.setBit_evo ?_
    | (with_reducible refine State.onlyIf_evo ?_ (fun s h => ?_))
    | with_reducible refine State.raise_evo ?_
    | with_reducible refine State.chgIsl_evo ?_
    | with_reducible refine State.dtFallback_evo ?_
    | with_reducible refine State.istFault_evo ?_
    | (with_reducible refine upd_evo ?_; with_reducible assumption)
    | (with_reducible refine upd_evo ?_; with_reducible refine upd_evo ?_; with_reducible assumption)
    | split

theorem State.doIst_evo {K : Kinds} {s0 s : State} {i : Nat} (h : Evolve K s0 s) :
    Evolve K s0 (State.doIst s i) := by
  unfold State.doIst
  repeat' first
    | with_reducible assumption
    | with_reducible refine State.setN_evo ?_
    | with_reducible refine State.modIsl_evo ?_
    | (with_reducible refine upd_evo ?_; with_reducible assumption)
    | (with_reducible refine upd_evo ?_; with_reducible refine upd_evo ?_; with_reducible assumption)

theorem execIstCmd_evo {K : Kinds} {t : Nat} {role : Role} {i : Nat} {v : Word} {s0 s : State} (h : Evolve K s0 s) :
    ∃ s', (execIstCmd t role i v s) = .next s' ∧ Evolve K s0 s' := by
  unfold execIstCmd
  refine ⟨_, rfl, ?_⟩
  replace h := State.advance_evo (t := t) h
  revert h
  generalize State.advance s t = s
  intro h
  repeat' first
    | with_reducible assumption
    | (intro x; refine cut_evo (k := K) (s0 := s0) (x := x) ?_ ?_; rotate_left; intro hx; clear_value x; rotate_left; subst x)
    | (intro x; clear_value x)
    | lift_lets
    | with_reducible refine State.advance_evo ?_
    | with_reducible refine State.cmdRow_evo ?_ ?_
    | with_reducible refine State.doIst_evo ?_

theorem execIstComplete_evo {K : Kinds} {t : Nat} {i bits : Nat} {s0 s : State} (h : Evolve K s0 s) :
    ∃ s', (execIstComplete t i bits s) = .next s' ∧ Evolve K s0 s' := by
  unfold execIstComplete
  refine ⟨_, rfl, ?_⟩
  replace h := State.advance_evo (t := t) h
  revert h
  generalize State.advance s t = s
  intro h
  repeat' first
    | with_reducible assumption
    | (intro x; refine cut_evo (k := K) (s0 := s0) (x := x) ?_ ?_; rotate_left; intro hx; clear_value x; rotate_left; subst x)
    | (intro x; clear_value x)
    | lift_lets
    | with_reducible refine ite_evo (fun _ => ?_) (fun _ => ?_)
    | with_reducible refine State.advance_evo ?_
    | with_reducible refine State.modIsl_evo ?_
    | with_reducible refine State.showSw_evo ?_
    | with_reducible refine State.istJudge_evo ?_
    | (with_reducible refine upd_evo ?_; with_reducible assumption)
    | (with_reducible refine upd_evo ?_; with_reducible refine upd_evo ?_; with_reducible assumption)

end Sys2Proof.Machine
end

