-- ==== Sys2Proof/Laws/KeptCapture.lean ====
section
/-! SUPPORT. What the functions of Machine/Capture.lean keep: each stays within `Evolve`. -/

set_option Elab.async false
set_option linter.unusedVariables false
set_option linter.unreachableTactic false
set_option linter.unusedTactic false
set_option linter.unusedSimpArgs false

namespace Sys2Proof.Machine

theorem State.modCap_evo {K : Kinds} {s0 s : State} {f : CapSt → CapSt} (h : Evolve K s0 s) :
    Evolve K s0 (State.modCap s f) := by
  unfold State.modCap
  repeat' first
    | with_reducible assumption
    | (with_reducible refine upd_evo ?_; with_reducible assumption)
    | (with_reducible refine upd_evo ?_; with_reducible refine upd_evo ?_; with_reducible assumption)

theorem State.modFn_evo {K : Kinds} {s0 s : State} {i : Nat} {f : CapFn → CapFn} (h : Evolve K s0 s) :
    Evolve K s0 (State.modFn s i f) := by
  unfold State.modFn
  repeat' first
    | with_reducible assumption
    | with_reducible refine State.modCap_evo ?_
    | (with_reducible refine upd_evo ?_; with_reducible assumption)
    | (with_reducible refine upd_evo ?_; with_reducible refine upd_evo ?_; with_reducible assumption)

theorem State.modCrumb_evo {K : Kinds} {s0 s : State} {no : Nat} {f : Crumb → Crumb} (h : Evolve K s0 s) :
    Evolve K s0 (State.modCrumb s no f) := by
  unfold State.modCrumb
  repeat' first
    | with_reducible assumption
    | with_reducible refine ite_evo (fun _ => ?_) (fun _ => ?_)
    | with_reducible refine State.modCap_evo ?_
    | (with_reducible refine upd_evo ?_; with_reducible assumption)
    | (with_reducible refine upd_evo ?_; with_reducible refine upd_evo ?_; with_reducible assumption)

theorem State.preempt_evo {K : Kinds} {s0 s : State} (h : Evolve K s0 s) :
    Evolve K s0 (State.preempt s) := by
  unfold State.preempt
  repeat' first
    | with_reducible assumption
    | split
    | (intro x; refine cut_evo (k := K) (s0 := s0) (x := x) ?_ ?_; rotate_left; intro hx; clear_value x; rotate_left; subst x)
    | (intro x; clear_value x)
    | lift_lets
    | with_reducible refine State.setN_evo ?_
    | (with_reducible refine State.onlyIf_evo ?_ (fun s h => ?_))
    | with_reducible refine State.raise_evo ?_
    | with_reducible refine State.injAbort_evo ?_
    | with_reducible refine State.modCap_evo ?_
    | with_reducible refine State.modFn_evo ?_
    | (with_reducible refine upd_evo ?_; with_reducible assumption)
    | (with_reducible refine upd_evo ?_; with_reducible refine upd_evo ?_; with_reducible assumption)
    | split

theorem State.freeUntil_evo {K : Kinds} {s0 s : State} {need : Nat} {cs : List Crumb} (h : Evolve K s0 s) : Evolve K s0 (s.freeUntil need cs) := by
  induction cs generalizing s with
  | nil => exact h
  | cons c cs ih =>
    unfold State.freeUntil
    exact ite_evo (fun _ => h) fun _ => ite_evo (fun _ => ih (State.preempt_evo h)) fun _ => ih (State.modCap_evo h)

theorem State.capMakeRoom_evo {K : Kinds} {s0 s : State} {i : Nat} (h : Evolve K s0 s) :
    Evolve K s0 (State.capMakeRoom s i) := by
  unfold State.capMakeRoom
  repeat' first
    | with_reducible assumption
    | (intro x; refine cut_evo (k := K) (s0 := s0) (x := x) ?_ ?_; rotate_left; intro hx; clear_value x; rotate_left; subst x)
    | (intro x; clear_value x)
    | lift_lets
    | (with_reducible refine State.onlyIf_evo ?_ (fun s h => ?_))
    | with_reducible refine State.freeUntil_evo ?_

theorem State.capTake_evo {K : Kinds} {s0 s : State} {i : Nat} (h : Evolve K s0 s) :
    Evolve K s0 (State.capTake s i).2 := by
  unfold State.capTake
  repeat' first
    | with_reducible assumption
    | with_reducible refine ite_evo (fun _ => ?_) (fun _ => ?_)
    | with_reducible refine State.modFn_evo ?_
    | (with_reducible refine iteSnd_evo (fun _ => ?_) (fun _ => ?_))
    | (with_reducible refine foldlSnd_evo ?_ (fun a x h => ?_))
    | (with_reducible refine upd_evo ?_; with_reducible assumption)
    | (with_reducible refine upd_evo ?_; with_reducible refine upd_evo ?_; with_reducible assumption)
    | dsimp only

theorem State.capReserve_evo {K : Kinds} {s0 s : State} {i : Nat} (h : Evolve K s0 s) :
    Evolve K s0 (State.capReserve s i).2 := by
  unfold State.capReserve
  repeat' first
    | with_reducible assumption
    | with_reducible refine State.capMakeRoom_evo ?_
    | with_reducible refine State.capTake_evo ?_
    | (with_reducible refine iteSnd_evo (fun _ => ?_) (fun _ => ?_))
    | (with_reducible refine foldlSnd_evo ?_ (fun a x h => ?_))
    | (refine snd_evo (by assumption) ?_)
    | (refine fst_evo (by assumption) ?_)
    | dsimp only

theorem State.capArmed_evo {K : Kinds} {s0 s : State} {i : Nat} (h : Evolve K s0 s) :
    Evolve K s0 (State.capArmed s i) := by
  unfold State.capArmed
  repeat' first
    | with_reducible assumption
    | (intro x; refine cut_evo (k := K) (s0 := s0) (x := x) ?_ ?_; rotate_left; intro hx; clear_value x; rotate_left; subst x)
    | (intro x; clear_value x)
    | lift_lets
    | with_reducible refine State.setN_evo ?_
    | with_reducible refine State.modCap_evo ?_
    | with_reducible refine State.modFn_evo ?_
    | (with_reducible refine upd_evo ?_; with_reducible assumption)
    | (with_reducible refine upd_evo ?_; with_reducible refine upd_evo ?_; with_reducible assumption)
    | split

theorem State.capShort_evo {K : Kinds} {s0 s : State} {i : Nat} (h : Evolve K s0 s) :
    Evolve K s0 (State.capShort s i) := by
  unfold State.capShort
  repeat' first
    | with_reducible assumption
    | with_reducible refine ite_evo (fun _ => ?_) (fun _ => ?_)
    | with_reducible refine State.setN_evo ?_
    | with_reducible refine State.raise_evo ?_
    | with_reducible refine State.modFn_evo ?_
    | (with_reducible refine upd_evo ?_; with_reducible assumption)
    | (with_reducible refine upd_evo ?_; with_reducible refine upd_evo ?_; with_reducible assumption)

theorem State.capArm_evo {K : Kinds} {s0 s : State} {i : Nat} (h : Evolve K s0 s) :
    Evolve K s0 (State.capArm s i) := by
  exact ite_evo (fun _ => State.capArmed_evo (State.capReserve_evo h)) fun _ => State.capShort_evo (State.capReserve_evo h)

theorem State.doCrArm_evo {K : Kinds} {s0 s : State} {i : Nat} {v : Word} (h : Evolve K s0 s) :
    Evolve K s0 (State.doCrArm s i v) := by
  unfold State.doCrArm
  repeat' first
    | with_reducible assumption
    | with_reducible refine ite_evo (fun _ => ?_) (fun _ => ?_)
    | with_reducible refine State.setN_evo ?_
    | with_reducible refine State.modFn_evo ?_
    | with_reducible refine State.capArm_evo ?_
    | (with_reducible refine upd_evo ?_; with_reducible assumption)
    | (with_reducible refine upd_evo ?_; with_reducible refine upd_evo ?_; with_reducible assumption)

theorem execCrArm_evo {K : Kinds} {t : Nat} {role : Role} {f : Nat} {s0 s : State} (h : Evolve K s0 s) :
    ∃ s', (execCrArm t role f s) = .next s' ∧ Evolve K s0 s' := by
  unfold execCrArm
  refine ⟨_, rfl, ?_⟩
  replace h := State.advance_evo (t := t) h
  revert h
  generalize State.advance s t = s
  intro h
  repeat' first
    | with_reducible assumption
    | (intro x; refine cut_evo (k := K) (s0 := s0) (x := x) ?_ ?_; rotate_left; intro hx; clear_value x; rotate_left; subst x)
    | (intro x; clear_value x)
    | lift_lets
    | with_reducible refine State.advance_evo ?_
    | with_reducible refine State.cmdRow_evo ?_ ?_
    | with_reducible refine State.doCrArm_evo ?_

theorem execCrDisarm_evo {K : Kinds} {t : Nat} {role : Role} {f : Nat} {s0 s : State} (h : Evolve K s0 s) :
    ∃ s', (execCrDisarm t role f s) = .next s' ∧ Evolve K s0 s' := by
  unfold execCrDisarm
  refine ⟨_, rfl, ?_⟩
  replace h := State.advance_evo (t := t) h
  revert h
  generalize State.advance s t = s
  intro h
  repeat' first
    | with_reducible assumption
    | (intro x; refine cut_evo (k := K) (s0 := s0) (x := x) ?_ ?_; rotate_left; intro hx; clear_value x; rotate_left; subst x)
    | (intro x; clear_value x)
    | lift_lets
    | with_reducible refine State.advance_evo ?_
    | with_reducible refine State.cmdRow_evo ?_ ?_
    | with_reducible refine State.doCrArm_evo ?_

theorem State.crumbBegin_evo {K : Kinds} {s0 s : State} {i kind source : Nat} {stamp : Word} {rowNs : Nat} {chans : List (List Byte)} {width : Nat} (h : Evolve K s0 s) :
    Evolve K s0 (State.crumbBegin s i kind source stamp rowNs chans width) := by
  unfold State.crumbBegin
  repeat' first
    | with_reducible assumption
    | (intro x; refine cut_evo (k := K) (s0 := s0) (x := x) ?_ ?_; rotate_left; intro hx; clear_value x; rotate_left; subst x)
    | (intro x; clear_value x)
    | lift_lets
    | with_reducible refine ite_evo (fun _ => ?_) (fun _ => ?_)
    | with_reducible refine State.setN_evo ?_
    | with_reducible refine State.bump_evo ?_
    | (with_reducible refine State.onlyIf_evo ?_ (fun s h => ?_))
    | with_reducible refine State.raise_evo ?_
    | with_reducible refine State.modCap_evo ?_
    | with_reducible refine State.modFn_evo ?_
    | (with_reducible refine foldl_evo ?_ (fun s i h => ?_))
    | (with_reducible refine upd_evo ?_; with_reducible assumption)
    | (with_reducible refine upd_evo ?_; with_reducible refine upd_evo ?_; with_reducible assumption)

theorem State.capClose_evo {K : Kinds} {s0 s : State} {i : Nat} (h : Evolve K s0 s) :
    Evolve K s0 (State.capClose s i) := by
  unfold State.capClose
  repeat' first
    | with_reducible assumption
    | split
    | (intro x; refine cut_evo (k := K) (s0 := s0) (x := x) ?_ ?_; rotate_left; intro hx; clear_value x; rotate_left; subst x)
    | (intro x; clear_value x)
    | lift_lets
    | with_reducible refine ite_evo (fun _ => ?_) (fun _ => ?_)
    | with_reducible refine State.setN_evo ?_
    | with_reducible refine State.modFn_evo ?_
    | with_reducible refine State.modCrumb_evo ?_
    | (with_reducible refine upd_evo ?_; with_reducible assumption)
    | (with_reducible refine upd_evo ?_; with_reducible refine upd_evo ?_; with_reducible assumption)
    | split

theorem State.capEnd_evo {K : Kinds} {s0 s : State} {i code : Nat} (h : Evolve K s0 s) :
    Evolve K s0 (State.capEnd s i code) := by
  unfold State.capEnd
  repeat' first
    | with_reducible assumption
    | split
    | (intro x; refine cut_evo (k := K) (s0 := s0) (x := x) ?_ ?_; rotate_left; intro hx; clear_value x; rotate_left; subst x)
    | (intro x; clear_value x)
    | lift_lets
    | with_reducible refine State.raise_evo ?_
    | with_reducible refine State.modCrumb_evo ?_
    | with_reducible refine State.capClose_evo ?_
    | (with_reducible refine upd_evo ?_; with_reducible assumption)
    | (with_reducible refine upd_evo ?_; with_reducible refine upd_evo ?_; with_reducible assumption)
    | split

theorem State.capEndAll_evo {K : Kinds} {s0 s : State} {code : Nat} (h : Evolve K s0 s) :
    Evolve K s0 (State.capEndAll s code) := by
  unfold State.capEndAll
  repeat' first
    | with_reducible assumption
    | (with_reducible refine State.each_evo ?_ (fun s i h => ?_))
    | with_reducible refine State.capEnd_evo ?_

theorem State.capEnter_evo {K : Kinds} {s0 s : State} {i : Nat} {r : CapRow} (h : Evolve K s0 s) :
    Evolve K s0 (State.capEnter s i r) := by
  unfold State.capEnter
  repeat' first
    | with_reducible assumption
    | (intro x; refine cut_evo (k := K) (s0 := s0) (x := x) ?_ ?_; rotate_left; intro hx; clear_value x; rotate_left; subst x)
    | (intro x; clear_value x)
    | lift_lets
    | with_reducible refine ite_evo (fun _ => ?_) (fun _ => ?_)
    | with_reducible refine State.highWater_evo ?_
    | with_reducible refine State.qLost_evo ?_
    | with_reducible refine State.modCap_evo ?_
    | (with_reducible refine upd_evo ?_; with_reducible assumption)
    | (with_reducible refine upd_evo ?_; with_reducible refine upd_evo ?_; with_reducible assumption)

theorem State.capRecord_evo {K : Kinds} {s0 s : State} {i no : Nat} {r : Option CapRow} (h : Evolve K s0 s) :
    Evolve K s0 (State.capRecord s i no r) := by
  unfold State.capRecord
  repeat' first
    | with_reducible assumption
    | (intro x; refine cut_evo (k := K) (s0 := s0) (x := x) ?_ ?_; rotate_left; intro hx; clear_value x; rotate_left; subst x)
    | (intro x; clear_value x)
    | lift_lets
    | with_reducible refine ite_evo (fun _ => ?_) (fun _ => ?_)
    | with_reducible refine State.bump_evo ?_
    | (with_reducible refine State.onlyIf_evo ?_ (fun s h => ?_))
    | with_reducible refine State.raise_evo ?_
    | with_reducible refine State.modFn_evo ?_
    | with_reducible refine State.modCrumb_evo ?_
    | with_reducible refine State.capEnd_evo ?_
    | (with_reducible refine upd_evo ?_; with_reducible assumption)
    | (with_reducible refine upd_evo ?_; with_reducible refine upd_evo ?_; with_reducible assumption)
    | split

theorem State.capKeep_evo {K : Kinds} {s0 s : State} {i : Nat} {r : Option CapRow} (h : Evolve K s0 s) :
    Evolve K s0 (State.capKeep s i r) := by
  unfold State.capKeep
  repeat' first
    | with_reducible assumption
    | with_reducible refine State.modFn_evo ?_
    | (with_reducible refine upd_evo ?_; with_reducible assumption)
    | (with_reducible refine upd_evo ?_; with_reducible refine upd_evo ?_; with_reducible assumption)

theorem State.capTick_evo {K : Kinds} {s0 s : State} {i : Nat} {boundary : Bool} (h : Evolve K s0 s) :
    Evolve K s0 (State.capTick s i boundary) := by
  unfold State.capTick
  repeat' first
    | with_reducible assumption
    | (intro x; refine cut_evo (k := K) (s0 := s0) (x := x) ?_ ?_; rotate_left; intro hx; clear_value x; rotate_left; subst x)
    | (intro x; clear_value x)
    | lift_lets
    | with_reducible refine ite_evo (fun _ => ?_) (fun _ => ?_)
    | (with_reducible refine State.onlyIf_evo ?_ (fun s h => ?_))
    | with_reducible refine State.modFn_evo ?_
    | with_reducible refine State.capArm_evo ?_
    | with_reducible refine State.capEnter_evo ?_
    | (with_reducible refine upd_evo ?_; with_reducible assumption)
    | (with_reducible refine upd_evo ?_; with_reducible refine upd_evo ?_; with_reducible assumption)

theorem State.capTake1_evo {K : Kinds} {s0 s : State} {e : Nat × Option CapRow} (h : Evolve K s0 s) :
    Evolve K s0 (State.capTake1 s e) := by
  unfold State.capTake1
  repeat' first
    | with_reducible assumption
    | (intro x; refine cut_evo (k := K) (s0 := s0) (x := x) ?_ ?_; rotate_left; intro hx; clear_value x; rotate_left; subst x)
    | (intro x; refine cutSnd_evo (k := K) (s0 := s0) (x := x) ?_ ?_; rotate_left; intro hx; clear_value x; rotate_left; subst x)
    | (intro x; clear_value x)
    | lift_lets
    | with_reducible refine ite_evo (fun _ => ?_) (fun _ => ?_)
    | with_reducible refine State.modFn_evo ?_
    | with_reducible refine State.crumbBegin_evo ?_
    | with_reducible refine State.capRecord_evo ?_
    | with_reducible refine State.capKeep_evo ?_
    | (with_reducible refine upd_evo ?_; with_reducible assumption)
    | (with_reducible refine upd_evo ?_; with_reducible refine upd_evo ?_; with_reducible assumption)
    | split

theorem State.capDrain_evo {K : Kinds} {s0 s : State} (h : Evolve K s0 s) :
    Evolve K s0 (State.capDrain s) := by
  unfold State.capDrain
  repeat' first
    | with_reducible assumption
    | with_reducible refine State.modCap_evo ?_
    | with_reducible refine State.capTake1_evo ?_
    | (with_reducible refine foldl_evo ?_ (fun s i h => ?_))
    | (with_reducible refine upd_evo ?_; with_reducible assumption)
    | (with_reducible refine upd_evo ?_; with_reducible refine upd_evo ?_; with_reducible assumption)

theorem State.capPeriod_evo {K : Kinds} {s0 s : State} {boundary : Bool} {lags : List Bool} (h : Evolve K s0 s) :
    Evolve K s0 (State.capPeriod s boundary lags) := by
  unfold State.capPeriod
  repeat' first
    | with_reducible assumption
    | (intro x; refine cut_evo (k := K) (s0 := s0) (x := x) ?_ ?_; rotate_left; intro hx; clear_value x; rotate_left; subst x)
    | (intro x; clear_value x)
    | lift_lets
    | with_reducible refine ite_evo (fun _ => ?_) (fun _ => ?_)
    | (with_reducible refine State.each_evo ?_ (fun s i h => ?_))
    | with_reducible refine State.capTick_evo ?_
    | with_reducible refine State.capDrain_evo ?_

theorem State.trigMissed_evo {K : Kinds} {s0 s : State} {i : Nat} (h : Evolve K s0 s) :
    Evolve K s0 (State.trigMissed s i) := by
  unfold State.trigMissed
  repeat' first
    | with_reducible assumption
    | (intro x; refine cut_evo (k := K) (s0 := s0) (x := x) ?_ ?_; rotate_left; intro hx; clear_value x; rotate_left; subst x)
    | (intro x; clear_value x)
    | lift_lets
    | with_reducible refine ite_evo (fun _ => ?_) (fun _ => ?_)
    | with_reducible refine State.bump_evo ?_
    | (with_reducible refine State.onlyIf_evo ?_ (fun s h => ?_))
    | with_reducible refine State.raise_evo ?_
    | with_reducible refine State.modFn_evo ?_
    | (with_reducible refine upd_evo ?_; with_reducible assumption)
    | (with_reducible refine upd_evo ?_; with_reducible refine upd_evo ?_; with_reducible assumption)

theorem State.syncDrive_evo {K : Kinds} {s0 s : State} {i code : Nat} (h : Evolve K s0 s) :
    Evolve K s0 (State.syncDrive s i code) := by
  unfold State.syncDrive
  repeat' first
    | with_reducible assumption
    | (with_reducible refine State.onlyIf_evo ?_ (fun s h => ?_))
    | with_reducible refine State.modCap_evo ?_
    | (with_reducible refine upd_evo ?_; with_reducible assumption)
    | (with_reducible refine upd_evo ?_; with_reducible refine upd_evo ?_; with_reducible assumption)

theorem State.trigger_evo {K : Kinds} {s0 s : State} {i code : Nat} (h : Evolve K s0 s) :
    Evolve K s0 (State.trigger s i code) := by
  unfold State.trigger
  repeat' first
    | with_reducible assumption
    | (intro x; refine cut_evo (k := K) (s0 := s0) (x := x) ?_ ?_; rotate_left; intro hx; clear_value x; rotate_left; subst x)
    | (intro x; clear_value x)
    | lift_lets
    | with_reducible refine ite_evo (fun _ => ?_) (fun _ => ?_)
    | with_reducible refine State.modFn_evo ?_
    | with_reducible refine State.modCrumb_evo ?_
    | with_reducible refine State.trigMissed_evo ?_
    | with_reducible refine State.syncDrive_evo ?_
    | (with_reducible refine upd_evo ?_; with_reducible assumption)
    | (with_reducible refine upd_evo ?_; with_reducible refine upd_evo ?_; with_reducible assumption)
    | split

theorem execCaptureTrigger_evo {K : Kinds} {t : Nat} {f line : Nat} {s0 s : State} (h : Evolve K s0 s) :
    ∃ s', (execCaptureTrigger t f line s) = .next s' ∧ Evolve K s0 s' := by
  unfold execCaptureTrigger
  refine ⟨_, rfl, ?_⟩
  replace h := State.advance_evo (t := t) h
  revert h
  generalize State.advance s t = s
  intro h
  repeat' first
    | with_reducible assumption
    | (intro x; refine cut_evo (k := K) (s0 := s0) (x := x) ?_ ?_; rotate_left; intro hx; clear_value x; rotate_left; subst x)
    | (intro x; clear_value x)
    | lift_lets
    | with_reducible refine ite_evo (fun _ => ?_) (fun _ => ?_)
    | (with_reducible refine State.onlyIf_evo ?_ (fun s h => ?_))
    | with_reducible refine State.advance_evo ?_
    | with_reducible refine State.modCap_evo ?_
    | with_reducible refine State.trigger_evo ?_
    | (with_reducible refine upd_evo ?_; with_reducible assumption)
    | (with_reducible refine upd_evo ?_; with_reducible refine upd_evo ?_; with_reducible assumption)
    | split

theorem execCrForce_evo {K : Kinds} {t : Nat} {role : Role} {f : Nat} {v : Word} {s0 s : State} (h : Evolve K s0 s) :
    ∃ s', (execCrForce t role f v s) = .next s' ∧ Evolve K s0 s' := by
  unfold execCrForce
  refine ⟨_, rfl, ?_⟩
  replace h := State.advance_evo (t := t) h
  revert h
  generalize State.advance s t = s
  intro h
  repeat' first
    | with_reducible assumption
    | (intro x; refine cut_evo (k := K) (s0 := s0) (x := x) ?_ ?_; rotate_left; intro hx; clear_value x; rotate_left; subst x)
    | (intro x; clear_value x)
    | lift_lets
    | with_reducible refine State.advance_evo ?_
    | with_reducible refine State.cmdRow_evo ?_ ?_
    | with_reducible refine State.trigger_evo ?_

theorem execCrumbComplete_evo {K : Kinds} {t : Nat} {f : Nat} {s0 s : State} (h : Evolve K s0 s) :
    ∃ s', (execCrumbComplete t f s) = .next s' ∧ Evolve K s0 s' := by
  unfold execCrumbComplete
  refine ⟨_, rfl, ?_⟩
  replace h := State.advance_evo (t := t) h
  revert h
  generalize State.advance s t = s
  intro h
  repeat' first
    | with_reducible assumption
    | (intro x; refine cut_evo (k := K) (s0 := s0) (x := x) ?_ ?_; rotate_left; intro hx; clear_value x; rotate_left; subst x)
    | (intro x; clear_value x)
    | lift_lets
    | with_reducible refine ite_evo (fun _ => ?_) (fun _ => ?_)
    | with_reducible refine State.advance_evo ?_
    | with_reducible refine State.raise_evo ?_
    | with_reducible refine State.modCrumb_evo ?_
    | with_reducible refine State.capClose_evo ?_
    | with_reducible refine State.capEnd_evo ?_
    | (with_reducible refine upd_evo ?_; with_reducible assumption)
    | (with_reducible refine upd_evo ?_; with_reducible refine upd_evo ?_; with_reducible assumption)
    | split

theorem execCaptureRearm_evo {K : Kinds} {t : Nat} {f : Nat} {s0 s : State} (h : Evolve K s0 s) :
    ∃ s', (execCaptureRearm t f s) = .next s' ∧ Evolve K s0 s' := by
  unfold execCaptureRearm
  refine ⟨_, rfl, ?_⟩
  replace h := State.advance_evo (t := t) h
  revert h
  generalize State.advance s t = s
  intro h
  repeat' first
    | with_reducible assumption
    | (intro x; refine cut_evo (k := K) (s0 := s0) (x := x) ?_ ?_; rotate_left; intro hx; clear_value x; rotate_left; subst x)
    | (intro x; clear_value x)
    | lift_lets
    | with_reducible refine ite_evo (fun _ => ?_) (fun _ => ?_)
    | with_reducible refine State.advance_evo ?_
    | with_reducible refine State.capArm_evo ?_

theorem execCrumbLockExpiry_evo {K : Kinds} {t : Nat} {s0 s : State} (h : Evolve K s0 s) :
    ∃ s', (execCrumbLockExpiry t s) = .next s' ∧ Evolve K s0 s' := by
  unfold execCrumbLockExpiry
  refine ⟨_, rfl, ?_⟩
  replace h := State.advance_evo (t := t) h
  revert h
  generalize State.advance s t = s
  intro h
  repeat' first
    | with_reducible assumption
    | (intro x; refine cut_evo (k := K) (s0 := s0) (x := x) ?_ ?_; rotate_left; intro hx; clear_value x; rotate_left; subst x)
    | (intro x; clear_value x)
    | lift_lets
    | with_reducible refine ite_evo (fun _ => ?_) (fun _ => ?_)
    | with_reducible refine State.advance_evo ?_
    | with_reducible refine State.modLink_evo ?_
    | (with_reducible refine upd_evo ?_; with_reducible assumption)
    | (with_reducible refine upd_evo ?_; with_reducible refine upd_evo ?_; with_reducible assumption)
    | split

end Sys2Proof.Machine
end

