-- ==== Sys2Proof/Laws/KeptProofer.lean ====
section
/-! SUPPORT. What the functions of Machine/Proofer.lean keep: each stays within `Evolve`. -/

set_option Elab.async false
set_option linter.unusedVariables false
set_option linter.unreachableTactic false
set_option linter.unusedTactic false
set_option linter.unusedSimpArgs false

namespace Sys2Proof.Machine

theorem State.rungEntry_evo {K : Kinds} {s0 s : State} {rung detail : Nat} (h : Evolve K s0 s) (hk_fram : K.fram = true) :
    Evolve K s0 (State.rungEntry s rung detail) := by
  unfold State.rungEntry
  repeat' first
    | with_reducible assumption
    | (intro x; refine cut_evo (k := K) (s0 := s0) (x := x) ?_ ?_; rotate_left; intro hx; clear_value x; rotate_left; subst x)
    | (intro x; clear_value x)
    | lift_lets
    | (with_reducible refine updFram_evo hk_fram ?_; with_reducible assumption)
    | (with_reducible refine upd_evo ?_; with_reducible assumption)
    | (with_reducible refine upd_evo ?_; with_reducible refine upd_evo ?_; with_reducible assumption)

theorem State.setRail_evo {K : Kinds} {s0 s : State} {uV : Nat} (h : Evolve K s0 s) (hk_fram : K.fram = true) :
    Evolve K s0 (State.setRail s uV) := by
  unfold State.setRail
  repeat' first
    | with_reducible assumption
    | (intro x; refine cut_evo (k := K) (s0 := s0) (x := x) ?_ ?_; rotate_left; intro hx; clear_value x; rotate_left; subst x)
    | (intro x; clear_value x)
    | lift_lets
    | with_reducible refine ite_evo (fun _ => ?_) (fun _ => ?_)
    | with_reducible refine State.setN_evo ?_
    | with_reducible refine State.raise_evo ?_
    | with_reducible refine State.rungEntry_evo ?_ hk_fram
    | (with_reducible refine upd_evo ?_; with_reducible assumption)
    | (with_reducible refine upd_evo ?_; with_reducible refine upd_evo ?_; with_reducible assumption)

theorem State.slackTake_evo {K : Kinds} {s0 s : State} {S : Int} (h : Evolve K s0 s) (hk_fram : K.fram = true) (hk_unit : K.unit = true) :
    Evolve K s0 (State.slackTake s S) := by
  unfold State.slackTake
  repeat' first
    | with_reducible assumption
    | (intro x; refine cut_evo (k := K) (s0 := s0) (x := x) ?_ ?_; rotate_left; intro hx; clear_value x; rotate_left; subst x)
    | (intro x; clear_value x)
    | lift_lets
    | with_reducible refine ite_evo (fun _ => ?_) (fun _ => ?_)
    | with_reducible refine State.setZ_evo ?_
    | with_reducible refine State.bump_evo ?_
    | (with_reducible refine State.onlyIf_evo ?_ (fun s h => ?_))
    | with_reducible refine State.raise_evo ?_
    | with_reducible refine State.setRail_evo ?_ hk_fram
    | (with_reducible refine upd_evo ?_; with_reducible assumption)
    | (with_reducible refine upd_evo ?_; with_reducible refine upd_evo ?_; with_reducible assumption)
    | split

theorem State.windowJudge_evo {K : Kinds} {s0 s : State} {w : Int} {emergency : Bool} (h : Evolve K s0 s) (hk_fram : K.fram = true) :
    Evolve K s0 (State.windowJudge s w emergency) := by
  unfold State.windowJudge
  repeat' first
    | with_reducible assumption
    | (intro x; refine cut_evo (k := K) (s0 := s0) (x := x) ?_ ?_; rotate_left; intro hx; clear_value x; rotate_left; subst x)
    | (intro x; clear_value x)
    | lift_lets
    | with_reducible refine ite_evo (fun _ => ?_) (fun _ => ?_)
    | with_reducible refine State.bump_evo ?_
    | with_reducible refine State.setRail_evo ?_ hk_fram
    | (with_reducible refine upd_evo ?_; with_reducible assumption)
    | (with_reducible refine upd_evo ?_; with_reducible refine upd_evo ?_; with_reducible assumption)

theorem execRailWindowEnd_evo {K : Kinds} {t : Nat} {s0 s : State} (h : Evolve K s0 s) (hk_fram : K.fram = true) :
    ∃ s', (execRailWindowEnd t s) = .next s' ∧ Evolve K s0 s' := by
  unfold execRailWindowEnd
  refine ⟨_, rfl, ?_⟩
  replace h := State.advance_evo (t := t) h
  revert h
  generalize State.advance s t = s
  intro h
  repeat' first
    | with_reducible assumption
    | (intro x; refine cut_evo (k := K) (s0 := s0) (x := x) ?_ ?_; rotate_left; intro hx; clear_value x; rotate_left; subst x)
    | (intro x; clear_value x)
    | lift_lets
    | with_reducible refine ite_evo (fun _ => ?_) (fun _ => ?_)
    | with_reducible refine State.advance_evo ?_
    | with_reducible refine State.windowJudge_evo ?_ hk_fram
    | (with_reducible refine upd_evo ?_; with_reducible assumption)
    | (with_reducible refine upd_evo ?_; with_reducible refine upd_evo ?_; with_reducible assumption)
    | split

theorem State.railSteps_evo {K : Kinds} {s0 s : State} {S : Int} {rest : List Int} {n : Nat} (h : Evolve K s0 s) (hk_fram : K.fram = true) :
    Evolve K s0 (s.railSteps S rest n).2 := by
  induction n generalizing s S rest with
  | zero => exact h
  | succ n ih =>
    unfold State.railSteps
    exact iteSnd_evo (fun _ => h) fun _ => ih (State.setRail_evo h hk_fram)

theorem State.railSearch_evo {K : Kinds} {s0 s : State} {l : List Int} (h : Evolve K s0 s) (hk_fram : K.fram = true) :
    Evolve K s0 (s.railSearch l).2 := by
  unfold State.railSearch
  split
  · exact h
  · exact State.railSteps_evo h hk_fram

theorem execRailReadbackFault_evo {K : Kinds} {t : Nat} {uV : Nat} {s0 s : State} (h : Evolve K s0 s) (hk_unit : K.unit = true) :
    ∃ s', (execRailReadbackFault t uV s) = .next s' ∧ Evolve K s0 s' := by
  unfold execRailReadbackFault
  refine ⟨_, rfl, ?_⟩
  replace h := State.advance_evo (t := t) h
  revert h
  generalize State.advance s t = s
  intro h
  repeat' first
    | with_reducible assumption
    | (intro x; refine cut_evo (k := K) (s0 := s0) (x := x) ?_ ?_; rotate_left; intro hx; clear_value x; rotate_left; subst x)
    | (intro x; clear_value x)
    | lift_lets
    | with_reducible refine ite_evo (fun _ => ?_) (fun _ => ?_)
    | with_reducible refine State.advance_evo ?_
    | with_reducible refine State.raise_evo ?_
    | with_reducible refine State.enterFaultHold_evo ?_ hk_unit

theorem State.showOps_evo {K : Kinds} {s0 s : State} (h : Evolve K s0 s) :
    Evolve K s0 (State.showOps s) := by
  unfold State.showOps
  repeat' first
    | with_reducible assumption
    | with_reducible refine ite_evo (fun _ => ?_) (fun _ => ?_)
    | with_reducible refine State.setN_evo ?_
    | (with_reducible refine foldl_evo ?_ (fun s i h => ?_))

theorem State.ladderSave_evo {K : Kinds} {s0 s : State} {set : Nat} (h : Evolve K s0 s) (hk_fram : K.fram = true) :
    Evolve K s0 (State.ladderSave s set) := by
  unfold State.ladderSave
  repeat' first
    | with_reducible assumption
    | (intro x; refine cut_evo (k := K) (s0 := s0) (x := x) ?_ ?_; rotate_left; intro hx; clear_value x; rotate_left; subst x)
    | (intro x; clear_value x)
    | lift_lets
    | with_reducible refine ite_evo (fun _ => ?_) (fun _ => ?_)
    | (with_reducible refine updFram_evo hk_fram ?_; with_reducible assumption)
    | (with_reducible refine upd_evo ?_; with_reducible assumption)
    | (with_reducible refine upd_evo ?_; with_reducible refine upd_evo ?_; with_reducible assumption)

theorem State.ringRestart_evo {K : Kinds} {s0 s : State} (h : Evolve K s0 s) :
    Evolve K s0 (State.ringRestart s) := by
  unfold State.ringRestart
  repeat' first
    | with_reducible assumption
    | (intro x; refine cut_evo (k := K) (s0 := s0) (x := x) ?_ ?_; rotate_left; intro hx; clear_value x; rotate_left; subst x)
    | (intro x; clear_value x)
    | lift_lets
    | with_reducible refine State.setN_evo ?_
    | (with_reducible refine upd_evo ?_; with_reducible assumption)
    | (with_reducible refine upd_evo ?_; with_reducible refine upd_evo ?_; with_reducible assumption)

theorem State.rungTaken_evo {K : Kinds} {s0 s : State} {rung detail set : Nat} (h : Evolve K s0 s) (hk_fram : K.fram = true) :
    Evolve K s0 (State.rungTaken s rung detail set) := by
  unfold State.rungTaken
  repeat' first
    | with_reducible assumption
    | (intro x; refine cut_evo (k := K) (s0 := s0) (x := x) ?_ ?_; rotate_left; intro hx; clear_value x; rotate_left; subst x)
    | (intro x; clear_value x)
    | lift_lets
    | with_reducible refine State.setN_evo ?_
    | with_reducible refine State.rungEntry_evo ?_ hk_fram
    | with_reducible refine State.ladderSave_evo ?_ hk_fram
    | with_reducible refine State.ringRestart_evo ?_
    | (with_reducible refine upd_evo ?_; with_reducible assumption)
    | (with_reducible refine upd_evo ?_; with_reducible refine upd_evo ?_; with_reducible assumption)

theorem State.dropBlocks_evo {K : Kinds} {s0 s : State} {rank : Nat} {res : Bool} (h : Evolve K s0 s) (hk_img : K.img = true) :
    Evolve K s0 (State.dropBlocks s rank res).1 := by
  unfold State.dropBlocks
  repeat' first
    | with_reducible assumption
    | (intro x; refine cut_evo (k := K) (s0 := s0) (x := x) ?_ ?_; rotate_left; intro hx; clear_value x; rotate_left; subst x)
    | (intro x; clear_value x)
    | lift_lets
    | with_reducible refine ite_evo (fun _ => ?_) (fun _ => ?_)
    | with_reducible refine State.setN_evo ?_
    | with_reducible refine State.setGraphs_evo ?_ hk_img
    | with_reducible refine State.showOps_evo ?_
    | (with_reducible refine iteFst_evo (fun _ => ?_) (fun _ => ?_))
    | (with_reducible refine foldlFst_evo ?_ (fun a x h => ?_))
    | (with_reducible refine upd_evo ?_; with_reducible assumption)
    | (with_reducible refine upd_evo ?_; with_reducible refine upd_evo ?_; with_reducible assumption)
    | dsimp only

theorem State.realignAll_evo {K : Kinds} {s0 s : State} (h : Evolve K s0 s) :
    Evolve K s0 (State.realignAll s) := by
  unfold State.realignAll
  repeat' first
    | with_reducible assumption
    | (with_reducible refine State.each_evo ?_ (fun s i h => ?_))
    | with_reducible refine State.modPort_evo ?_
    | (with_reducible refine upd_evo ?_; with_reducible assumption)
    | (with_reducible refine upd_evo ?_; with_reducible refine upd_evo ?_; with_reducible assumption)

theorem State.passOver_evo {K : Kinds} {s0 s : State} {rung why : Nat} (h : Evolve K s0 s) :
    Evolve K s0 (State.passOver s rung why) := by
  unfold State.passOver
  repeat' first
    | with_reducible assumption
    | (intro x; refine cut_evo (k := K) (s0 := s0) (x := x) ?_ ?_; rotate_left; intro hx; clear_value x; rotate_left; subst x)
    | (intro x; clear_value x)
    | lift_lets
    | with_reducible refine ite_evo (fun _ => ?_) (fun _ => ?_)
    | with_reducible refine State.raise_evo ?_
    | (with_reducible refine upd_evo ?_; with_reducible assumption)
    | (with_reducible refine upd_evo ?_; with_reducible refine upd_evo ?_; with_reducible assumption)

theorem State.askRung_evo {K : Kinds} {s0 s : State} {rung : Nat} (h : Evolve K s0 s) :
    Evolve K s0 (State.askRung s rung) := by
  unfold State.askRung
  repeat' first
    | with_reducible assumption
    | with_reducible refine ite_evo (fun _ => ?_) (fun _ => ?_)
    | with_reducible refine State.setBit_evo ?_
    | with_reducible refine State.raise_evo ?_

theorem State.tryAlt_evo {K : Kinds} {s0 s : State} {rs : List Nat} (h : Evolve K s0 s) : Evolve K s0 (s.tryAlt rs).2 := by
  induction rs generalizing s with
  | nil => exact h
  | cons r rs ih =>
    unfold State.tryAlt
    exact iteSnd_evo (fun _ => ih h) fun _ => iteSnd_evo (fun _ => ih (State.passOver_evo h)) fun _ =>
      iteSnd_evo (fun _ => ih (State.askRung_evo h)) fun _ => h

theorem State.datedWarning_evo {K : Kinds} {s0 s : State} (h : Evolve K s0 s) :
    Evolve K s0 (State.datedWarning s) := by
  unfold State.datedWarning
  repeat' first
    | with_reducible assumption
    | (intro x; refine cut_evo (k := K) (s0 := s0) (x := x) ?_ ?_; rotate_left; intro hx; clear_value x; rotate_left; subst x)
    | (intro x; clear_value x)
    | lift_lets
    | with_reducible refine State.raise_evo ?_
    | (with_reducible refine upd_evo ?_; with_reducible assumption)
    | (with_reducible refine upd_evo ?_; with_reducible refine upd_evo ?_; with_reducible assumption)

theorem State.takeFive_evo {K : Kinds} {s0 s : State} (h : Evolve K s0 s) (hk_fram : K.fram = true) :
    Evolve K s0 (State.takeFive s) := by
  unfold State.takeFive
  repeat' first
    | with_reducible assumption
    | with_reducible refine State.setN_evo ?_
    | with_reducible refine State.rungEntry_evo ?_ hk_fram
    | with_reducible refine State.datedWarning_evo ?_

theorem State.pendRungIn_evo {K : Kinds} {s0 s : State} {n : Nat} {r : Rung} (h : Evolve K s0 s) :
    Evolve K s0 (State.pendRungIn s n r) := by
  unfold State.pendRungIn
  repeat' first
    | with_reducible assumption
    | (intro x; refine cut_evo (k := K) (s0 := s0) (x := x) ?_ ?_; rotate_left; intro hx; clear_value x; rotate_left; subst x)
    | (intro x; clear_value x)
    | lift_lets
    | with_reducible refine ite_evo (fun _ => ?_) (fun _ => ?_)
    | (with_reducible refine upd_evo ?_; with_reducible assumption)
    | (with_reducible refine upd_evo ?_; with_reducible refine upd_evo ?_; with_reducible assumption)

theorem State.pendRung_evo {K : Kinds} {s0 s : State} {r : Rung} (h : Evolve K s0 s) :
    Evolve K s0 (State.pendRung s r) := by
  unfold State.pendRung
  repeat' first
    | with_reducible assumption
    | with_reducible refine ite_evo (fun _ => ?_) (fun _ => ?_)
    | with_reducible refine State.pendRungIn_evo ?_

theorem State.ladderEval_evo {K : Kinds} {s0 s : State} (h : Evolve K s0 s) (hk_fram : K.fram = true) :
    Evolve K s0 (State.ladderEval s) := by
  unfold State.ladderEval
  repeat' first
    | with_reducible assumption
    | (intro x; refine cut_evo (k := K) (s0 := s0) (x := x) ?_ ?_; rotate_left; intro hx; clear_value x; rotate_left; subst x)
    | (intro x; clear_value x)
    | lift_lets
    | with_reducible refine ite_evo (fun _ => ?_) (fun _ => ?_)
    | with_reducible refine State.passOver_evo ?_
    | with_reducible refine State.tryAlt_evo ?_
    | with_reducible refine State.takeFive_evo ?_ hk_fram
    | with_reducible refine State.pendRung_evo ?_
    | (refine snd_evo (by assumption) ?_)
    | (refine fst_evo (by assumption) ?_)
    | (with_reducible refine upd_evo ?_; with_reducible assumption)
    | (with_reducible refine upd_evo ?_; with_reducible refine upd_evo ?_; with_reducible assumption)
    | split

theorem State.plannedSurrender_evo {K : Kinds} {s0 s : State} (h : Evolve K s0 s) (hk_unit : K.unit = true) :
    Evolve K s0 (State.plannedSurrender s) := by
  unfold State.plannedSurrender
  repeat' first
    | with_reducible assumption
    | (intro x; refine cut_evo (k := K) (s0 := s0) (x := x) ?_ ?_; rotate_left; intro hx; clear_value x; rotate_left; subst x)
    | (intro x; clear_value x)
    | lift_lets
    | with_reducible refine ite_evo (fun _ => ?_) (fun _ => ?_)
    | with_reducible refine State.raise_evo ?_
    | with_reducible refine State.announceGiveUp_evo ?_
    | with_reducible refine State.doStopUnit_evo ?_ hk_unit
    | (with_reducible refine updUnit_evo hk_unit ?_; with_reducible assumption)
    | (with_reducible refine upd_evo ?_; with_reducible assumption)
    | (with_reducible refine upd_evo ?_; with_reducible refine upd_evo ?_; with_reducible assumption)

theorem State.secondClose_evo {K : Kinds} {s0 s : State} (h : Evolve K s0 s) :
    Evolve K s0 (State.secondClose s) := by
  unfold State.secondClose
  repeat' first
    | with_reducible assumption
    | (intro x; refine cut_evo (k := K) (s0 := s0) (x := x) ?_ ?_; rotate_left; intro hx; clear_value x; rotate_left; subst x)
    | (intro x; clear_value x)
    | lift_lets
    | (with_reducible refine upd_evo ?_; with_reducible assumption)
    | (with_reducible refine upd_evo ?_; with_reducible refine upd_evo ?_; with_reducible assumption)

theorem State.secondCount_evo {K : Kinds} {s0 s : State} {m : Int} (h : Evolve K s0 s) :
    Evolve K s0 (State.secondCount s m) := by
  unfold State.secondCount
  repeat' first
    | with_reducible assumption
    | (intro x; refine cut_evo (k := K) (s0 := s0) (x := x) ?_ ?_; rotate_left; intro hx; clear_value x; rotate_left; subst x)
    | (intro x; clear_value x)
    | lift_lets
    | with_reducible refine ite_evo (fun _ => ?_) (fun _ => ?_)
    | (with_reducible refine upd_evo ?_; with_reducible assumption)
    | (with_reducible refine upd_evo ?_; with_reducible refine upd_evo ?_; with_reducible assumption)

theorem State.secondJudge_evo {K : Kinds} {s0 s : State} {m : Int} (h : Evolve K s0 s) (hk_fram : K.fram = true) (hk_unit : K.unit = true) :
    Evolve K s0 (State.secondJudge s m) := by
  unfold State.secondJudge
  repeat' first
    | with_reducible assumption
    | (intro x; refine cut_evo (k := K) (s0 := s0) (x := x) ?_ ?_; rotate_left; intro hx; clear_value x; rotate_left; subst x)
    | (intro x; clear_value x)
    | lift_lets
    | with_reducible refine State.setZ_evo ?_
    | (with_reducible refine State.onlyIf_evo ?_ (fun s h => ?_))
    | with_reducible refine State.raise_evo ?_
    | with_reducible refine State.setUnfit_evo ?_
    | with_reducible refine State.ladderEval_evo ?_ hk_fram
    | with_reducible refine State.plannedSurrender_evo ?_ hk_unit
    | with_reducible refine State.secondCount_evo ?_

theorem State.secondReport_evo {K : Kinds} {s0 s : State} (h : Evolve K s0 s) :
    Evolve K s0 (State.secondReport s) := by
  unfold State.secondReport
  repeat' first
    | with_reducible assumption
    | (intro x; refine cut_evo (k := K) (s0 := s0) (x := x) ?_ ?_; rotate_left; intro hx; clear_value x; rotate_left; subst x)
    | (intro x; clear_value x)
    | lift_lets
    | (with_reducible refine upd_evo ?_; with_reducible assumption)
    | (with_reducible refine upd_evo ?_; with_reducible refine upd_evo ?_; with_reducible assumption)

theorem execProoferSecond_evo {K : Kinds} {t : Nat} {s0 s : State} (h : Evolve K s0 s) (hk_fram : K.fram = true) (hk_unit : K.unit = true) :
    ∃ s', (execProoferSecond t s) = .next s' ∧ Evolve K s0 s' := by
  unfold execProoferSecond
  refine ⟨_, rfl, ?_⟩
  replace h := State.advance_evo (t := t) h
  revert h
  generalize State.advance s t = s
  intro h
  repeat' first
    | with_reducible assumption
    | (intro x; refine cut_evo (k := K) (s0 := s0) (x := x) ?_ ?_; rotate_left; intro hx; clear_value x; rotate_left; subst x)
    | (intro x; clear_value x)
    | lift_lets
    | with_reducible refine ite_evo (fun _ => ?_) (fun _ => ?_)
    | with_reducible refine State.advance_evo ?_
    | with_reducible refine State.secondClose_evo ?_
    | with_reducible refine State.secondJudge_evo ?_ hk_fram hk_unit
    | with_reducible refine State.secondReport_evo ?_
    | (with_reducible refine upd_evo ?_; with_reducible assumption)
    | (with_reducible refine upd_evo ?_; with_reducible refine upd_evo ?_; with_reducible assumption)
    | split

theorem State.periodChanged_evo {K : Kinds} {s0 s : State} (h : Evolve K s0 s) :
    Evolve K s0 (State.periodChanged s) := by
  unfold State.periodChanged
  repeat' first
    | with_reducible assumption
    | with_reducible refine State.setN_evo ?_
    | (with_reducible refine State.onlyIf_evo ?_ (fun s h => ?_))
    | with_reducible refine State.capEndAll_evo ?_
    | with_reducible refine State.realignAll_evo ?_

theorem State.takeTwo_evo {K : Kinds} {s0 s : State} (h : Evolve K s0 s) (hk_fram : K.fram = true) (hk_img : K.img = true) :
    Evolve K s0 (State.takeTwo s) := by
  unfold State.takeTwo
  split
  · exact h
  · exact State.raise_evo (State.rungTaken_evo (State.dropBlocks_evo h hk_img) hk_fram)

theorem State.takeThree_evo {K : Kinds} {s0 s : State} {cmd : Bool} (h : Evolve K s0 s) (hk_fram : K.fram = true) :
    Evolve K s0 (State.takeThree s cmd) := by
  unfold State.takeThree
  repeat' first
    | with_reducible assumption
    | (intro x; refine cut_evo (k := K) (s0 := s0) (x := x) ?_ ?_; rotate_left; intro hx; clear_value x; rotate_left; subst x)
    | (intro x; clear_value x)
    | lift_lets
    | with_reducible refine ite_evo (fun _ => ?_) (fun _ => ?_)
    | with_reducible refine State.setN_evo ?_
    | with_reducible refine State.setBit_evo ?_
    | with_reducible refine State.raise_evo ?_
    | with_reducible refine State.rungTaken_evo ?_ hk_fram
    | with_reducible refine State.passOver_evo ?_

theorem State.takeFour_evo {K : Kinds} {s0 s : State} {cmd : Bool} (h : Evolve K s0 s) (hk_fram : K.fram = true) :
    Evolve K s0 (State.takeFour s cmd) := by
  unfold State.takeFour
  repeat' first
    | with_reducible assumption
    | (intro x; refine cut_evo (k := K) (s0 := s0) (x := x) ?_ ?_; rotate_left; intro hx; clear_value x; rotate_left; subst x)
    | (intro x; clear_value x)
    | lift_lets
    | with_reducible refine ite_evo (fun _ => ?_) (fun _ => ?_)
    | with_reducible refine State.setN_evo ?_
    | with_reducible refine State.raise_evo ?_
    | with_reducible refine State.carryGraphs_evo ?_
    | with_reducible refine State.showOps_evo ?_
    | with_reducible refine State.rungTaken_evo ?_ hk_fram
    | with_reducible refine State.passOver_evo ?_
    | with_reducible refine State.periodChanged_evo ?_

theorem State.ladderForget_evo {K : Kinds} {s0 s : State} (h : Evolve K s0 s) (hk_fram : K.fram = true) (hk_img : K.img = true) :
    Evolve K s0 (State.ladderForget s) := by
  unfold State.ladderForget
  repeat' first
    | with_reducible assumption
    | (intro x; refine cut_evo (k := K) (s0 := s0) (x := x) ?_ ?_; rotate_left; intro hx; clear_value x; rotate_left; subst x)
    | (intro x; clear_value x)
    | lift_lets
    | (with_reducible refine updFram_evo hk_fram ?_; with_reducible assumption)
    | (with_reducible refine updImg_evo hk_img ?_; with_reducible assumption)
    | (with_reducible refine updBoth_evo hk_fram hk_img ?_; with_reducible assumption)
    | (with_reducible refine upd_evo ?_; with_reducible assumption)
    | (with_reducible refine upd_evo ?_; with_reducible refine upd_evo ?_; with_reducible assumption)

theorem State.ladderRestore_evo {K : Kinds} {s0 s : State} (h : Evolve K s0 s) (hk_fram : K.fram = true) (hk_img : K.img = true) :
    Evolve K s0 (State.ladderRestore s) := by
  unfold State.ladderRestore
  repeat' first
    | with_reducible assumption
    | (intro x; refine cut_evo (k := K) (s0 := s0) (x := x) ?_ ?_; rotate_left; intro hx; clear_value x; rotate_left; subst x)
    | (intro x; clear_value x)
    | lift_lets
    | with_reducible refine State.setN_evo ?_
    | (with_reducible refine State.onlyIf_evo ?_ (fun s h => ?_))
    | with_reducible refine State.raise_evo ?_
    | with_reducible refine State.carryGraphs_evo ?_
    | with_reducible refine State.rungEntry_evo ?_ hk_fram
    | with_reducible refine State.showOps_evo ?_
    | with_reducible refine State.ringRestart_evo ?_
    | with_reducible refine State.periodChanged_evo ?_
    | with_reducible refine State.ladderForget_evo ?_ hk_fram hk_img

theorem State.takeRung_evo {K : Kinds} {s0 s : State} {r : Rung} (h : Evolve K s0 s) (hk_fram : K.fram = true) (hk_img : K.img = true) :
    Evolve K s0 (State.takeRung s r) := by
  unfold State.takeRung
  repeat' first
    | with_reducible assumption
    | split
    | with_reducible refine State.takeTwo_evo ?_ hk_fram hk_img
    | with_reducible refine State.takeThree_evo ?_ hk_fram
    | with_reducible refine State.takeFour_evo ?_ hk_fram
    | with_reducible refine State.ladderRestore_evo ?_ hk_fram hk_img
    | (with_reducible refine upd_evo ?_; with_reducible assumption)
    | (with_reducible refine upd_evo ?_; with_reducible refine upd_evo ?_; with_reducible assumption)
    | split

theorem execLadderChange_evo {K : Kinds} {t : Nat} {s0 s : State} (h : Evolve K s0 s) (hk_fram : K.fram = true) (hk_img : K.img = true) :
    ∃ s', (execLadderChange t s) = .next s' ∧ Evolve K s0 s' := by
  unfold execLadderChange
  refine ⟨_, rfl, ?_⟩
  replace h := State.advance_evo (t := t) h
  revert h
  generalize State.advance s t = s
  intro h
  repeat' first
    | with_reducible assumption
    | (intro x; refine cut_evo (k := K) (s0 := s0) (x := x) ?_ ?_; rotate_left; intro hx; clear_value x; rotate_left; subst x)
    | (intro x; refine cutSnd_evo (k := K) (s0 := s0) (x := x) ?_ ?_; rotate_left; intro hx; clear_value x; rotate_left; subst x)
    | (intro x; clear_value x)
    | lift_lets
    | with_reducible refine ite_evo (fun _ => ?_) (fun _ => ?_)
    | with_reducible refine State.advance_evo ?_
    | with_reducible refine State.takeRung_evo ?_ hk_fram hk_img
    | (with_reducible refine foldl_evo ?_ (fun s i h => ?_))
    | (with_reducible refine foldlFst_evo ?_ (fun a x h => ?_))
    | (dsimp only; with_reducible assumption)
    | (with_reducible refine foldlSnd_evo ?_ (fun a x h => ?_))
    | (dsimp only; with_reducible assumption)
    | (with_reducible refine upd_evo ?_; with_reducible assumption)
    | (with_reducible refine upd_evo ?_; with_reducible refine upd_evo ?_; with_reducible assumption)

theorem State.doLadderCmd_evo {K : Kinds} {s0 s : State} {v : Word} (h : Evolve K s0 s) :
    Evolve K s0 (State.doLadderCmd s v) := by
  unfold State.doLadderCmd
  repeat' first
    | with_reducible assumption
    | with_reducible refine ite_evo (fun _ => ?_) (fun _ => ?_)
    | with_reducible refine State.pendRung_evo ?_

theorem execLadderCmdRung_evo {K : Kinds} {t : Nat} {role : Role} {v : Word} {s0 s : State} (h : Evolve K s0 s) :
    ∃ s', (execLadderCmdRung t role v s) = .next s' ∧ Evolve K s0 s' := by
  unfold execLadderCmdRung
  refine ⟨_, rfl, ?_⟩
  replace h := State.advance_evo (t := t) h
  revert h
  generalize State.advance s t = s
  intro h
  repeat' first
    | with_reducible assumption
    | (intro x; refine cut_evo (k := K) (s0 := s0) (x := x) ?_ ?_; rotate_left; intro hx; clear_value x; rotate_left; subst x)
    | (intro x; clear_value x)
    | lift_lets
    | with_reducible refine State.advance_evo ?_
    | with_reducible refine State.cmdRow_evo ?_ ?_
    | with_reducible refine State.doLadderCmd_evo ?_

theorem State.doRestore_evo {K : Kinds} {s0 s : State} (h : Evolve K s0 s) :
    Evolve K s0 (State.doRestore s) := by
  unfold State.doRestore
  repeat' first
    | with_reducible assumption
    | with_reducible refine State.pendRung_evo ?_

theorem execLadderRestore_evo {K : Kinds} {t : Nat} {role : Role} {s0 s : State} (h : Evolve K s0 s) :
    ∃ s', (execLadderRestore t role s) = .next s' ∧ Evolve K s0 s' := by
  unfold execLadderRestore
  refine ⟨_, rfl, ?_⟩
  replace h := State.advance_evo (t := t) h
  revert h
  generalize State.advance s t = s
  intro h
  repeat' first
    | with_reducible assumption
    | (intro x; refine cut_evo (k := K) (s0 := s0) (x := x) ?_ ?_; rotate_left; intro hx; clear_value x; rotate_left; subst x)
    | (intro x; clear_value x)
    | lift_lets
    | with_reducible refine State.advance_evo ?_
    | with_reducible refine State.cmdRow_evo ?_ ?_
    | with_reducible refine State.doRestore_evo ?_

theorem execDatedWarningRepeat_evo {K : Kinds} {t : Nat} {s0 s : State} (h : Evolve K s0 s) :
    ∃ s', (execDatedWarningRepeat t s) = .next s' ∧ Evolve K s0 s' := by
  unfold execDatedWarningRepeat
  refine ⟨_, rfl, ?_⟩
  replace h := State.advance_evo (t := t) h
  revert h
  generalize State.advance s t = s
  intro h
  repeat' first
    | with_reducible assumption
    | (intro x; refine cut_evo (k := K) (s0 := s0) (x := x) ?_ ?_; rotate_left; intro hx; clear_value x; rotate_left; subst x)
    | (intro x; clear_value x)
    | lift_lets
    | with_reducible refine ite_evo (fun _ => ?_) (fun _ => ?_)
    | with_reducible refine State.advance_evo ?_
    | with_reducible refine State.datedWarning_evo ?_
    | (with_reducible refine upd_evo ?_; with_reducible assumption)
    | (with_reducible refine upd_evo ?_; with_reducible refine upd_evo ?_; with_reducible assumption)
    | split

theorem State.forecast_evo {K : Kinds} {s0 s : State} (h : Evolve K s0 s) :
    Evolve K s0 (State.forecast s) := by
  unfold State.forecast
  repeat' first
    | with_reducible assumption
    | (intro x; refine cut_evo (k := K) (s0 := s0) (x := x) ?_ ?_; rotate_left; intro hx; clear_value x; rotate_left; subst x)
    | (intro x; refine cutSnd_evo (k := K) (s0 := s0) (x := x) ?_ ?_; rotate_left; intro hx; clear_value x; rotate_left; subst x)
    | (intro x; clear_value x)
    | lift_lets
    | with_reducible refine ite_evo (fun _ => ?_) (fun _ => ?_)
    | with_reducible refine State.setN_evo ?_

theorem State.modVce_evo {K : Kinds} {s0 s : State} {sw : Nat} {f : VceSt → VceSt} (h : Evolve K s0 s) :
    Evolve K s0 (State.modVce s sw f) := by
  unfold State.modVce
  repeat' first
    | with_reducible assumption
    | (intro x; refine cut_evo (k := K) (s0 := s0) (x := x) ?_ ?_; rotate_left; intro hx; clear_value x; rotate_left; subst x)
    | (intro x; clear_value x)
    | lift_lets
    | (with_reducible refine upd_evo ?_; with_reducible assumption)
    | (with_reducible refine upd_evo ?_; with_reducible refine upd_evo ?_; with_reducible assumption)

theorem execVceMeasurement_evo {K : Kinds} {t : Nat} {sw : Nat} {raw : Nat} {i : Int} {s0 s : State} (h : Evolve K s0 s) :
    ∃ s', (execVceMeasurement t sw raw i s) = .next s' ∧ Evolve K s0 s' := by
  unfold execVceMeasurement
  refine ⟨_, rfl, ?_⟩
  replace h := State.advance_evo (t := t) h
  revert h
  generalize State.advance s t = s
  intro h
  repeat' first
    | with_reducible assumption
    | (intro x; refine cut_evo (k := K) (s0 := s0) (x := x) ?_ ?_; rotate_left; intro hx; clear_value x; rotate_left; subst x)
    | (intro x; clear_value x)
    | lift_lets
    | with_reducible refine ite_evo (fun _ => ?_) (fun _ => ?_)
    | with_reducible refine State.setN_evo ?_
    | with_reducible refine State.bump_evo ?_
    | with_reducible refine State.advance_evo ?_
    | with_reducible refine State.modVce_evo ?_
    | (with_reducible refine upd_evo ?_; with_reducible assumption)
    | (with_reducible refine upd_evo ?_; with_reducible refine upd_evo ?_; with_reducible assumption)
    | split

theorem State.vceAlarm_evo {K : Kinds} {s0 s : State} {sw : Nat} (h : Evolve K s0 s) :
    Evolve K s0 (State.vceAlarm s sw) := by
  unfold State.vceAlarm
  repeat' first
    | with_reducible assumption
    | (with_reducible refine State.onlyIf_evo ?_ (fun s h => ?_))
    | with_reducible refine State.raise_evo ?_

theorem State.vceHour_evo {K : Kinds} {s0 s : State} {sw : Nat} (h : Evolve K s0 s) :
    Evolve K s0 (State.vceHour s sw) := by
  unfold State.vceHour
  repeat' first
    | with_reducible assumption
    | (intro x; refine cut_evo (k := K) (s0 := s0) (x := x) ?_ ?_; rotate_left; intro hx; clear_value x; rotate_left; subst x)
    | (intro x; clear_value x)
    | lift_lets
    | with_reducible refine ite_evo (fun _ => ?_) (fun _ => ?_)
    | with_reducible refine State.setN_evo ?_
    | with_reducible refine State.setZ_evo ?_
    | (with_reducible refine State.onlyIf_evo ?_ (fun s h => ?_))
    | with_reducible refine State.modVce_evo ?_
    | with_reducible refine State.vceAlarm_evo ?_
    | (with_reducible refine upd_evo ?_; with_reducible assumption)
    | (with_reducible refine upd_evo ?_; with_reducible refine upd_evo ?_; with_reducible assumption)

theorem State.derateHour_evo {K : Kinds} {s0 s : State} {p : Nat} (h : Evolve K s0 s) :
    Evolve K s0 (State.derateHour s p) := by
  unfold State.derateHour
  repeat' first
    | with_reducible assumption
    | (intro x; refine cut_evo (k := K) (s0 := s0) (x := x) ?_ ?_; rotate_left; intro hx; clear_value x; rotate_left; subst x)
    | (intro x; clear_value x)
    | lift_lets
    | with_reducible refine ite_evo (fun _ => ?_) (fun _ => ?_)
    | with_reducible refine State.setZ_evo ?_
    | with_reducible refine State.bump_evo ?_
    | with_reducible refine State.raise_evo ?_
    | (with_reducible refine foldl_evo ?_ (fun s i h => ?_))
    | (with_reducible refine upd_evo ?_; with_reducible assumption)
    | (with_reducible refine upd_evo ?_; with_reducible refine upd_evo ?_; with_reducible assumption)
    | split

theorem State.hourRing_evo {K : Kinds} {s0 s : State} (h : Evolve K s0 s) :
    Evolve K s0 (State.hourRing s) := by
  unfold State.hourRing
  repeat' first
    | with_reducible assumption
    | split
    | (intro x; refine cut_evo (k := K) (s0 := s0) (x := x) ?_ ?_; rotate_left; intro hx; clear_value x; rotate_left; subst x)
    | (intro x; clear_value x)
    | lift_lets
    | (with_reducible refine upd_evo ?_; with_reducible assumption)
    | (with_reducible refine upd_evo ?_; with_reducible refine upd_evo ?_; with_reducible assumption)
    | split

theorem execProoferHour_evo {K : Kinds} {t : Nat} {s0 s : State} (h : Evolve K s0 s) :
    ∃ s', (execProoferHour t s) = .next s' ∧ Evolve K s0 s' := by
  unfold execProoferHour
  refine ⟨_, rfl, ?_⟩
  replace h := State.advance_evo (t := t) h
  revert h
  generalize State.advance s t = s
  intro h
  repeat' first
    | with_reducible assumption
    | (intro x; refine cut_evo (k := K) (s0 := s0) (x := x) ?_ ?_; rotate_left; intro hx; clear_value x; rotate_left; subst x)
    | (intro x; clear_value x)
    | lift_lets
    | with_reducible refine ite_evo (fun _ => ?_) (fun _ => ?_)
    | with_reducible refine State.setN_evo ?_
    | (with_reducible refine State.each_evo ?_ (fun s i h => ?_))
    | with_reducible refine State.advance_evo ?_
    | with_reducible refine State.forecast_evo ?_
    | with_reducible refine State.vceHour_evo ?_
    | with_reducible refine State.derateHour_evo ?_
    | with_reducible refine State.hourRing_evo ?_
    | (with_reducible refine upd_evo ?_; with_reducible assumption)
    | (with_reducible refine upd_evo ?_; with_reducible refine upd_evo ?_; with_reducible assumption)

theorem State.doRebase_evo {K : Kinds} {s0 s : State} {p : Nat} (h : Evolve K s0 s) :
    Evolve K s0 (State.doRebase s p) := by
  unfold State.doRebase
  repeat' first
    | with_reducible assumption
    | (intro x; refine cut_evo (k := K) (s0 := s0) (x := x) ?_ ?_; rotate_left; intro hx; clear_value x; rotate_left; subst x)
    | (intro x; clear_value x)
    | lift_lets
    | with_reducible refine State.setN_evo ?_
    | with_reducible refine State.setZ_evo ?_
    | (with_reducible refine State.each_evo ?_ (fun s i h => ?_))
    | (with_reducible refine upd_evo ?_; with_reducible assumption)
    | (with_reducible refine upd_evo ?_; with_reducible refine upd_evo ?_; with_reducible assumption)

theorem execVceRebase_evo {K : Kinds} {t : Nat} {role : Role} {p : Nat} {v : Word} {s0 s : State} (h : Evolve K s0 s) :
    ∃ s', (execVceRebase t role p v s) = .next s' ∧ Evolve K s0 s' := by
  unfold execVceRebase
  refine ⟨_, rfl, ?_⟩
  replace h := State.advance_evo (t := t) h
  revert h
  generalize State.advance s t = s
  intro h
  repeat' first
    | with_reducible assumption
    | (intro x; refine cut_evo (k := K) (s0 := s0) (x := x) ?_ ?_; rotate_left; intro hx; clear_value x; rotate_left; subst x)
    | (intro x; clear_value x)
    | lift_lets
    | with_reducible refine State.advance_evo ?_
    | with_reducible refine State.cmdRow_evo ?_ ?_
    | with_reducible refine State.doRebase_evo ?_

end Sys2Proof.Machine
end

