-- ==== Sys2Proof/Laws/KeptSafetyFn.lean ====
section
/-! SUPPORT. What the functions of Machine/SafetyFn.lean keep: each stays within `Evolve`. -/

set_option Elab.async false
set_option linter.unusedVariables false
set_option linter.unreachableTactic false
set_option linter.unusedTactic false
set_option linter.unusedSimpArgs false

namespace Sys2Proof.Machine

theorem State.modSin_evo {K : Kinds} {s0 s : State} {n : Nat} {f : SinSt → SinSt} (h : Evolve K s0 s) :
    Evolve K s0 (State.modSin s n f) := by
  unfold State.modSin
  repeat' first
    | with_reducible assumption
    | (intro x; refine cut_evo (k := K) (s0 := s0) (x := x) ?_ ?_; rotate_left; intro hx; clear_value x; rotate_left; subst x)
    | (intro x; clear_value x)
    | lift_lets
    | with_reducible refine State.setN_evo ?_
    | with_reducible refine State.modSaf_evo ?_
    | (with_reducible refine upd_evo ?_; with_reducible assumption)
    | (with_reducible refine upd_evo ?_; with_reducible refine upd_evo ?_; with_reducible assumption)

theorem State.modSout_evo {K : Kinds} {s0 s : State} {k : Nat} {f : SoutSt → SoutSt} (h : Evolve K s0 s) :
    Evolve K s0 (State.modSout s k f) := by
  unfold State.modSout
  repeat' first
    | with_reducible assumption
    | (intro x; refine cut_evo (k := K) (s0 := s0) (x := x) ?_ ?_; rotate_left; intro hx; clear_value x; rotate_left; subst x)
    | (intro x; clear_value x)
    | lift_lets
    | with_reducible refine State.setN_evo ?_
    | with_reducible refine State.modSaf_evo ?_
    | (with_reducible refine upd_evo ?_; with_reducible assumption)
    | (with_reducible refine upd_evo ?_; with_reducible refine upd_evo ?_; with_reducible assumption)

theorem State.holdAbort_evo {K : Kinds} {s0 s : State} {why : Nat} (h : Evolve K s0 s) :
    Evolve K s0 (State.holdAbort s why) := by
  unfold State.holdAbort
  repeat' first
    | with_reducible assumption
    | with_reducible refine ite_evo (fun _ => ?_) (fun _ => ?_)
    | with_reducible refine State.setN_evo ?_
    | with_reducible refine State.raise_evo ?_
    | with_reducible refine State.modSaf_evo ?_
    | (with_reducible refine upd_evo ?_; with_reducible assumption)
    | (with_reducible refine upd_evo ?_; with_reducible refine upd_evo ?_; with_reducible assumption)

theorem State.holdFail_evo {K : Kinds} {s0 s : State} {n : Nat} (h : Evolve K s0 s) (hk_unit : K.unit = true) :
    Evolve K s0 (State.holdFail s n) := by
  unfold State.holdFail
  repeat' first
    | with_reducible assumption
    | (intro x; refine cut_evo (k := K) (s0 := s0) (x := x) ?_ ?_; rotate_left; intro hx; clear_value x; rotate_left; subst x)
    | (intro x; clear_value x)
    | lift_lets
    | with_reducible refine ite_evo (fun _ => ?_) (fun _ => ?_)
    | with_reducible refine State.setN_evo ?_
    | with_reducible refine State.raise_evo ?_
    | with_reducible refine State.modSaf_evo ?_
    | with_reducible refine State.safFaults_evo ?_ hk_unit
    | (with_reducible refine upd_evo ?_; with_reducible assumption)
    | (with_reducible refine upd_evo ?_; with_reducible refine upd_evo ?_; with_reducible assumption)

theorem State.holdStart_evo {K : Kinds} {s0 s : State} (h : Evolve K s0 s) :
    Evolve K s0 (State.holdStart s) := by
  unfold State.holdStart
  repeat' first
    | with_reducible assumption
    | (intro x; refine cut_evo (k := K) (s0 := s0) (x := x) ?_ ?_; rotate_left; intro hx; clear_value x; rotate_left; subst x)
    | (intro x; clear_value x)
    | lift_lets
    | with_reducible refine ite_evo (fun _ => ?_) (fun _ => ?_)
    | with_reducible refine State.bump_evo ?_
    | with_reducible refine State.modSaf_evo ?_
    | (with_reducible refine upd_evo ?_; with_reducible assumption)
    | (with_reducible refine upd_evo ?_; with_reducible refine upd_evo ?_; with_reducible assumption)

theorem execHoldingTestEnd_evo {K : Kinds} {t : Nat} {s0 s : State} (h : Evolve K s0 s) (hk_unit : K.unit = true) :
    ∃ s', (execHoldingTestEnd t s) = .next s' ∧ Evolve K s0 s' := by
  unfold execHoldingTestEnd
  refine ⟨_, rfl, ?_⟩
  replace h := State.advance_evo (t := t) h
  revert h
  generalize State.advance s t = s
  intro h
  repeat' first
    | with_reducible assumption
    | (intro x; refine cut_evo (k := K) (s0 := s0) (x := x) ?_ ?_; rotate_left; intro hx; clear_value x; rotate_left; subst x)
    | (intro x; clear_value x)
    | lift_lets
    | with_reducible refine ite_evo (fun _ => ?_) (fun _ => ?_)
    | with_reducible refine State.setN_evo ?_
    | with_reducible refine State.advance_evo ?_
    | with_reducible refine State.raise_evo ?_
    | with_reducible refine State.modSaf_evo ?_
    | with_reducible refine State.safApply_evo ?_ hk_unit
    | (with_reducible refine upd_evo ?_; with_reducible assumption)
    | (with_reducible refine upd_evo ?_; with_reducible refine upd_evo ?_; with_reducible assumption)
    | split

theorem State.inputFault_evo {K : Kinds} {s0 s : State} {n : Nat} (h : Evolve K s0 s) (hk_unit : K.unit = true) :
    Evolve K s0 (State.inputFault s n) := by
  unfold State.inputFault
  repeat' first
    | with_reducible assumption
    | (intro x; refine cut_evo (k := K) (s0 := s0) (x := x) ?_ ?_; rotate_left; intro hx; clear_value x; rotate_left; subst x)
    | (intro x; clear_value x)
    | lift_lets
    | with_reducible refine State.bump_evo ?_
    | (with_reducible refine State.onlyIf_evo ?_ (fun s h => ?_))
    | with_reducible refine State.safFaults_evo ?_ hk_unit
    | with_reducible refine State.holdAbort_evo ?_

theorem State.discrepant_evo {K : Kinds} {s0 s : State} {n tie : Nat} (h : Evolve K s0 s) (hk_unit : K.unit = true) :
    Evolve K s0 (State.discrepant s n tie) := by
  unfold State.discrepant
  repeat' first
    | with_reducible assumption
    | (intro x; refine cut_evo (k := K) (s0 := s0) (x := x) ?_ ?_; rotate_left; intro hx; clear_value x; rotate_left; subst x)
    | (intro x; clear_value x)
    | lift_lets
    | with_reducible refine ite_evo (fun _ => ?_) (fun _ => ?_)
    | with_reducible refine State.safDemands_evo ?_ hk_unit
    | with_reducible refine State.modSin_evo ?_
    | with_reducible refine State.inputFault_evo ?_ hk_unit
    | (with_reducible refine upd_evo ?_; with_reducible assumption)
    | (with_reducible refine upd_evo ?_; with_reducible refine upd_evo ?_; with_reducible assumption)

theorem execSafeInputChange_evo {K : Kinds} {t : Nat} {n : Nat} {a b : Bool} {s0 s : State} (h : Evolve K s0 s) (hk_unit : K.unit = true) :
    ∃ s', (execSafeInputChange t n a b s) = .next s' ∧ Evolve K s0 s' := by
  unfold execSafeInputChange
  refine ⟨_, rfl, ?_⟩
  replace h := State.advance_evo (t := t) h
  revert h
  generalize State.advance s t = s
  intro h
  repeat' first
    | with_reducible assumption
    | (intro x; refine cut_evo (k := K) (s0 := s0) (x := x) ?_ ?_; rotate_left; intro hx; clear_value x; rotate_left; subst x)
    | (intro x; clear_value x)
    | lift_lets
    | with_reducible refine ite_evo (fun _ => ?_) (fun _ => ?_)
    | (with_reducible refine State.onlyIf_evo ?_ (fun s h => ?_))
    | with_reducible refine State.advance_evo ?_
    | with_reducible refine State.modSaf_evo ?_
    | with_reducible refine State.safApply_evo ?_ hk_unit
    | with_reducible refine State.safDemands_evo ?_ hk_unit
    | with_reducible refine State.modSin_evo ?_
    | with_reducible refine State.holdFail_evo ?_ hk_unit
    | with_reducible refine State.discrepant_evo ?_ hk_unit
    | (with_reducible refine upd_evo ?_; with_reducible assumption)
    | (with_reducible refine upd_evo ?_; with_reducible refine upd_evo ?_; with_reducible assumption)
    | split

theorem execInputDiscrepancy_evo {K : Kinds} {t : Nat} {n : Nat} {s0 s : State} (h : Evolve K s0 s) (hk_unit : K.unit = true) :
    ∃ s', (execInputDiscrepancy t n s) = .next s' ∧ Evolve K s0 s' := by
  unfold execInputDiscrepancy
  refine ⟨_, rfl, ?_⟩
  replace h := State.advance_evo (t := t) h
  revert h
  generalize State.advance s t = s
  intro h
  repeat' first
    | with_reducible assumption
    | (intro x; refine cut_evo (k := K) (s0 := s0) (x := x) ?_ ?_; rotate_left; intro hx; clear_value x; rotate_left; subst x)
    | (intro x; clear_value x)
    | lift_lets
    | with_reducible refine State.advance_evo ?_
    | with_reducible refine State.discrepant_evo ?_ hk_unit

theorem execInputTestPulse_evo {K : Kinds} {t : Nat} {n : Nat} {chB passed : Bool} {s0 s : State} (h : Evolve K s0 s) (hk_unit : K.unit = true) :
    ∃ s', (execInputTestPulse t n chB passed s) = .next s' ∧ Evolve K s0 s' := by
  unfold execInputTestPulse
  refine ⟨_, rfl, ?_⟩
  replace h := State.advance_evo (t := t) h
  revert h
  generalize State.advance s t = s
  intro h
  repeat' first
    | with_reducible assumption
    | (intro x; refine cut_evo (k := K) (s0 := s0) (x := x) ?_ ?_; rotate_left; intro hx; clear_value x; rotate_left; subst x)
    | (intro x; clear_value x)
    | lift_lets
    | with_reducible refine ite_evo (fun _ => ?_) (fun _ => ?_)
    | (with_reducible refine State.onlyIf_evo ?_ (fun s h => ?_))
    | with_reducible refine State.advance_evo ?_
    | (with_reducible refine State.recur_evo ?_ (fun s h => ?_))
    | with_reducible refine State.modSin_evo ?_
    | with_reducible refine State.inputFault_evo ?_ hk_unit
    | (with_reducible refine upd_evo ?_; with_reducible assumption)
    | (with_reducible refine upd_evo ?_; with_reducible refine upd_evo ?_; with_reducible assumption)

theorem State.outFault_evo {K : Kinds} {s0 s : State} {k : Nat} {f : SoutSt → SoutSt} (h : Evolve K s0 s) (hk_unit : K.unit = true) :
    Evolve K s0 (State.outFault s k f) := by
  unfold State.outFault
  repeat' first
    | with_reducible assumption
    | with_reducible refine State.bump_evo ?_
    | with_reducible refine State.safFaults_evo ?_ hk_unit
    | with_reducible refine State.modSout_evo ?_
    | (with_reducible refine upd_evo ?_; with_reducible assumption)
    | (with_reducible refine upd_evo ?_; with_reducible refine upd_evo ?_; with_reducible assumption)

theorem execOutputOffPulse_evo {K : Kinds} {t : Nat} {k : Nat} {low : Bool} {s0 s : State} (h : Evolve K s0 s) (hk_unit : K.unit = true) :
    ∃ s', (execOutputOffPulse t k low s) = .next s' ∧ Evolve K s0 s' := by
  unfold execOutputOffPulse
  refine ⟨_, rfl, ?_⟩
  replace h := State.advance_evo (t := t) h
  revert h
  generalize State.advance s t = s
  intro h
  repeat' first
    | with_reducible assumption
    | (intro x; refine cut_evo (k := K) (s0 := s0) (x := x) ?_ ?_; rotate_left; intro hx; clear_value x; rotate_left; subst x)
    | (intro x; clear_value x)
    | lift_lets
    | with_reducible refine ite_evo (fun _ => ?_) (fun _ => ?_)
    | with_reducible refine State.advance_evo ?_
    | (with_reducible refine State.recur_evo ?_ (fun s h => ?_))
    | with_reducible refine State.modSout_evo ?_
    | with_reducible refine State.outFault_evo ?_ hk_unit
    | (with_reducible refine upd_evo ?_; with_reducible assumption)
    | (with_reducible refine upd_evo ?_; with_reducible refine upd_evo ?_; with_reducible assumption)

theorem execOutputReadbackFault_evo {K : Kinds} {t : Nat} {k : Nat} {s0 s : State} (h : Evolve K s0 s) (hk_unit : K.unit = true) :
    ∃ s', (execOutputReadbackFault t k s) = .next s' ∧ Evolve K s0 s' := by
  unfold execOutputReadbackFault
  refine ⟨_, rfl, ?_⟩
  replace h := State.advance_evo (t := t) h
  revert h
  generalize State.advance s t = s
  intro h
  repeat' first
    | with_reducible assumption
    | (intro x; refine cut_evo (k := K) (s0 := s0) (x := x) ?_ ?_; rotate_left; intro hx; clear_value x; rotate_left; subst x)
    | (intro x; clear_value x)
    | lift_lets
    | with_reducible refine ite_evo (fun _ => ?_) (fun _ => ?_)
    | with_reducible refine State.advance_evo ?_
    | with_reducible refine State.outFault_evo ?_ hk_unit
    | (with_reducible refine upd_evo ?_; with_reducible assumption)
    | (with_reducible refine upd_evo ?_; with_reducible refine upd_evo ?_; with_reducible assumption)

theorem execVsoUndervoltage_evo {K : Kinds} {t : Nat} {s0 s : State} (h : Evolve K s0 s) (hk_unit : K.unit = true) :
    ∃ s', (execVsoUndervoltage t s) = .next s' ∧ Evolve K s0 s' := by
  unfold execVsoUndervoltage
  refine ⟨_, rfl, ?_⟩
  replace h := State.advance_evo (t := t) h
  revert h
  generalize State.advance s t = s
  intro h
  repeat' first
    | with_reducible assumption
    | (intro x; refine cut_evo (k := K) (s0 := s0) (x := x) ?_ ?_; rotate_left; intro hx; clear_value x; rotate_left; subst x)
    | (intro x; clear_value x)
    | lift_lets
    | with_reducible refine State.advance_evo ?_
    | with_reducible refine State.outFault_evo ?_ hk_unit
    | (with_reducible refine upd_evo ?_; with_reducible assumption)
    | (with_reducible refine upd_evo ?_; with_reducible refine upd_evo ?_; with_reducible assumption)
    | split

theorem execCoilCheck_evo {K : Kinds} {t : Nat} {k i1 i2 i3 : Nat} {s0 s : State} (h : Evolve K s0 s) (hk_unit : K.unit = true) :
    ∃ s', (execCoilCheck t k i1 i2 i3 s) = .next s' ∧ Evolve K s0 s' := by
  unfold execCoilCheck
  refine ⟨_, rfl, ?_⟩
  replace h := State.advance_evo (t := t) h
  revert h
  generalize State.advance s t = s
  intro h
  repeat' first
    | with_reducible assumption
    | (intro x; refine cut_evo (k := K) (s0 := s0) (x := x) ?_ ?_; rotate_left; intro hx; clear_value x; rotate_left; subst x)
    | (intro x; clear_value x)
    | lift_lets
    | with_reducible refine ite_evo (fun _ => ?_) (fun _ => ?_)
    | (with_reducible refine State.onlyIf_evo ?_ (fun s h => ?_))
    | with_reducible refine State.advance_evo ?_
    | (with_reducible refine State.recur_evo ?_ (fun s h => ?_))
    | with_reducible refine State.modSaf_evo ?_
    | with_reducible refine State.safFaults_evo ?_ hk_unit
    | (with_reducible refine upd_evo ?_; with_reducible assumption)
    | (with_reducible refine upd_evo ?_; with_reducible refine upd_evo ?_; with_reducible assumption)

theorem State.sccAnew_evo {K : Kinds} {s0 s : State} (h : Evolve K s0 s) :
    Evolve K s0 (State.sccAnew s) := by
  unfold State.sccAnew
  repeat' first
    | with_reducible assumption
    | with_reducible refine State.modSaf_evo ?_
    | (with_reducible refine upd_evo ?_; with_reducible assumption)
    | (with_reducible refine upd_evo ?_; with_reducible refine upd_evo ?_; with_reducible assumption)

theorem State.sccSet_evo {K : Kinds} {s0 s : State} {on : Bool} (h : Evolve K s0 s) (hk_unit : K.unit = true) :
    Evolve K s0 (State.sccSet s on) := by
  unfold State.sccSet
  repeat' first
    | with_reducible assumption
    | (intro x; refine cut_evo (k := K) (s0 := s0) (x := x) ?_ ?_; rotate_left; intro hx; clear_value x; rotate_left; subst x)
    | (intro x; clear_value x)
    | lift_lets
    | (with_reducible refine State.onlyIf_evo ?_ (fun s h => ?_))
    | with_reducible refine State.modSaf_evo ?_
    | with_reducible refine State.safApply_evo ?_ hk_unit
    | with_reducible refine State.sccAnew_evo ?_
    | (with_reducible refine upd_evo ?_; with_reducible assumption)
    | (with_reducible refine upd_evo ?_; with_reducible refine upd_evo ?_; with_reducible assumption)

theorem State.sccFailed_evo {K : Kinds} {s0 s : State} {reason : Nat} (h : Evolve K s0 s) (hk_unit : K.unit = true) :
    Evolve K s0 (State.sccFailed s reason) := by
  unfold State.sccFailed
  repeat' first
    | with_reducible assumption
    | with_reducible refine State.raise_evo ?_
    | with_reducible refine State.modSaf_evo ?_
    | with_reducible refine State.sccSet_evo ?_ hk_unit
    | (with_reducible refine upd_evo ?_; with_reducible assumption)
    | (with_reducible refine upd_evo ?_; with_reducible refine upd_evo ?_; with_reducible assumption)

theorem State.mirrorFaults_evo {K : Kinds} {s0 s : State} (h : Evolve K s0 s) :
    Evolve K s0 (State.mirrorFaults s).2 := by
  unfold State.mirrorFaults
  repeat' first
    | with_reducible assumption
    | (intro x; refine cut_evo (k := K) (s0 := s0) (x := x) ?_ ?_; rotate_left; intro hx; clear_value x; rotate_left; subst x)
    | (intro x; refine cutSnd_evo (k := K) (s0 := s0) (x := x) ?_ ?_; rotate_left; intro hx; clear_value x; rotate_left; subst x)
    | (intro x; clear_value x)
    | lift_lets
    | with_reducible refine ite_evo (fun _ => ?_) (fun _ => ?_)
    | with_reducible refine State.raise_evo ?_
    | with_reducible refine State.modSaf_evo ?_
    | (with_reducible refine foldl_evo ?_ (fun s i h => ?_))
    | (with_reducible refine iteSnd_evo (fun _ => ?_) (fun _ => ?_))
    | (with_reducible refine foldlSnd_evo ?_ (fun a x h => ?_))
    | (with_reducible refine foldlFst_evo ?_ (fun a x h => ?_))
    | (dsimp only; with_reducible assumption)
    | (with_reducible refine foldlSnd_evo ?_ (fun a x h => ?_))
    | (dsimp only; with_reducible assumption)
    | (with_reducible refine upd_evo ?_; with_reducible assumption)
    | (with_reducible refine upd_evo ?_; with_reducible refine upd_evo ?_; with_reducible assumption)
    | dsimp only

theorem State.mirrorsClosed_evo {K : Kinds} {s0 s : State} (h : Evolve K s0 s) (hk_unit : K.unit = true) :
    Evolve K s0 (State.mirrorsClosed s) := by
  unfold State.mirrorsClosed
  repeat' first
    | with_reducible assumption
    | (intro x; refine cut_evo (k := K) (s0 := s0) (x := x) ?_ ?_; rotate_left; intro hx; clear_value x; rotate_left; subst x)
    | (intro x; clear_value x)
    | lift_lets
    | with_reducible refine ite_evo (fun _ => ?_) (fun _ => ?_)
    | with_reducible refine State.modSaf_evo ?_
    | with_reducible refine State.safApply_evo ?_ hk_unit
    | with_reducible refine State.sccFailed_evo ?_ hk_unit
    | (with_reducible refine upd_evo ?_; with_reducible assumption)
    | (with_reducible refine upd_evo ?_; with_reducible refine upd_evo ?_; with_reducible assumption)

theorem State.closeRefused_evo {K : Kinds} {s0 s : State} {code : Nat} (h : Evolve K s0 s) :
    Evolve K s0 (State.closeRefused s code) := by
  unfold State.closeRefused
  repeat' first
    | with_reducible assumption
    | with_reducible refine State.setN_evo ?_
    | with_reducible refine State.bump_evo ?_
    | with_reducible refine State.raise_evo ?_

theorem State.sccEval_evo {K : Kinds} {s0 s : State} (h : Evolve K s0 s) (hk_unit : K.unit = true) :
    Evolve K s0 (State.sccEval s) := by
  unfold State.sccEval
  repeat' first
    | with_reducible assumption
    | (intro x; refine cut_evo (k := K) (s0 := s0) (x := x) ?_ ?_; rotate_left; intro hx; clear_value x; rotate_left; subst x)
    | (intro x; clear_value x)
    | lift_lets
    | with_reducible refine ite_evo (fun _ => ?_) (fun _ => ?_)
    | with_reducible refine State.modSaf_evo ?_
    | with_reducible refine State.sccSet_evo ?_ hk_unit
    | with_reducible refine State.mirrorsClosed_evo ?_ hk_unit
    | with_reducible refine State.closeRefused_evo ?_
    | (with_reducible refine upd_evo ?_; with_reducible assumption)
    | (with_reducible refine upd_evo ?_; with_reducible refine upd_evo ?_; with_reducible assumption)

theorem State.sccRequest_evo {K : Kinds} {s0 s : State} {p : Nat} {on : Bool} (h : Evolve K s0 s) :
    Evolve K s0 (State.sccRequest s p on) := by
  unfold State.sccRequest
  repeat' first
    | with_reducible assumption
    | (intro x; refine cut_evo (k := K) (s0 := s0) (x := x) ?_ ?_; rotate_left; intro hx; clear_value x; rotate_left; subst x)
    | (intro x; clear_value x)
    | lift_lets
    | with_reducible refine ite_evo (fun _ => ?_) (fun _ => ?_)
    | (with_reducible refine State.onlyIf_evo ?_ (fun s h => ?_))
    | with_reducible refine State.modSaf_evo ?_
    | with_reducible refine State.closeRefused_evo ?_
    | (with_reducible refine upd_evo ?_; with_reducible assumption)
    | (with_reducible refine upd_evo ?_; with_reducible refine upd_evo ?_; with_reducible assumption)

theorem execMirrorTimeExpiry_evo {K : Kinds} {t : Nat} {s0 s : State} (h : Evolve K s0 s) (hk_unit : K.unit = true) :
    ∃ s', (execMirrorTimeExpiry t s) = .next s' ∧ Evolve K s0 s' := by
  unfold execMirrorTimeExpiry
  refine ⟨_, rfl, ?_⟩
  replace h := State.advance_evo (t := t) h
  revert h
  generalize State.advance s t = s
  intro h
  repeat' first
    | with_reducible assumption
    | (intro x; refine cut_evo (k := K) (s0 := s0) (x := x) ?_ ?_; rotate_left; intro hx; clear_value x; rotate_left; subst x)
    | (intro x; clear_value x)
    | lift_lets
    | with_reducible refine ite_evo (fun _ => ?_) (fun _ => ?_)
    | (with_reducible refine State.each_evo ?_ (fun s i h => ?_))
    | with_reducible refine State.advance_evo ?_
    | with_reducible refine State.raise_evo ?_
    | with_reducible refine State.modSaf_evo ?_
    | with_reducible refine State.safFaults_evo ?_ hk_unit
    | with_reducible refine State.sccFailed_evo ?_ hk_unit
    | (with_reducible refine upd_evo ?_; with_reducible assumption)
    | (with_reducible refine upd_evo ?_; with_reducible refine upd_evo ?_; with_reducible assumption)

theorem State.sbcEval_evo {K : Kinds} {s0 s : State} (h : Evolve K s0 s) (hk_unit : K.unit = true) :
    Evolve K s0 (State.sbcEval s) := by
  unfold State.sbcEval
  repeat' first
    | with_reducible assumption
    | (intro x; refine cut_evo (k := K) (s0 := s0) (x := x) ?_ ?_; rotate_left; intro hx; clear_value x; rotate_left; subst x)
    | (intro x; clear_value x)
    | lift_lets
    | with_reducible refine ite_evo (fun _ => ?_) (fun _ => ?_)
    | with_reducible refine State.setN_evo ?_
    | with_reducible refine State.bump_evo ?_
    | with_reducible refine State.raise_evo ?_
    | with_reducible refine State.modSaf_evo ?_
    | with_reducible refine State.safApply_evo ?_ hk_unit
    | (with_reducible refine upd_evo ?_; with_reducible assumption)
    | (with_reducible refine upd_evo ?_; with_reducible refine upd_evo ?_; with_reducible assumption)

theorem State.readOutputs_evo {K : Kinds} {s0 s : State} {outs : List (Bool × Nat)} (h : Evolve K s0 s) :
    Evolve K s0 (State.readOutputs s outs) := by
  unfold State.readOutputs
  repeat' first
    | with_reducible assumption
    | (intro x; refine cut_evo (k := K) (s0 := s0) (x := x) ?_ ?_; rotate_left; intro hx; clear_value x; rotate_left; subst x)
    | (intro x; clear_value x)
    | lift_lets
    | with_reducible refine ite_evo (fun _ => ?_) (fun _ => ?_)
    | with_reducible refine State.setN_evo ?_
    | with_reducible refine State.modSout_evo ?_
    | (with_reducible refine foldl_evo ?_ (fun s i h => ?_))
    | (with_reducible refine upd_evo ?_; with_reducible assumption)
    | (with_reducible refine upd_evo ?_; with_reducible refine upd_evo ?_; with_reducible assumption)
    | split

theorem execSafetyEvaluation_evo {K : Kinds} {t : Nat} {differ : Bool} {outs : List (Bool × Nat)} {s0 s : State} (h : Evolve K s0 s) (hk_unit : K.unit = true) :
    ∃ s', (execSafetyEvaluation t differ outs s) = .next s' ∧ Evolve K s0 s' := by
  unfold execSafetyEvaluation
  refine ⟨_, rfl, ?_⟩
  replace h := State.advance_evo (t := t) h
  revert h
  generalize State.advance s t = s
  intro h
  repeat' first
    | with_reducible assumption
    | (intro x; refine cut_evo (k := K) (s0 := s0) (x := x) ?_ ?_; rotate_left; intro hx; clear_value x; rotate_left; subst x)
    | (intro x; refine cutSnd_evo (k := K) (s0 := s0) (x := x) ?_ ?_; rotate_left; intro hx; clear_value x; rotate_left; subst x)
    | (intro x; clear_value x)
    | lift_lets
    | with_reducible refine ite_evo (fun _ => ?_) (fun _ => ?_)
    | with_reducible refine State.setN_evo ?_
    | with_reducible refine State.advance_evo ?_
    | (with_reducible refine State.recur_evo ?_ (fun s h => ?_))
    | with_reducible refine State.innerEnables_evo ?_ hk_unit
    | with_reducible refine State.modSaf_evo ?_
    | with_reducible refine State.safApply_evo ?_ hk_unit
    | with_reducible refine State.safRecognise_evo ?_ hk_unit
    | with_reducible refine State.mirrorFaults_evo ?_
    | with_reducible refine State.sccEval_evo ?_ hk_unit
    | with_reducible refine State.sbcEval_evo ?_ hk_unit
    | with_reducible refine State.readOutputs_evo ?_
    | (refine snd_evo (by assumption) ?_)
    | (refine fst_evo (by assumption) ?_)
    | (with_reducible refine upd_evo ?_; with_reducible assumption)
    | (with_reducible refine upd_evo ?_; with_reducible refine upd_evo ?_; with_reducible assumption)
    | split

theorem execSgoDemand_evo {K : Kinds} {t : Nat} {cause input : Nat} {s0 s : State} (h : Evolve K s0 s) (hk_unit : K.unit = true) :
    ∃ s', (execSgoDemand t cause input s) = .next s' ∧ Evolve K s0 s' := by
  unfold execSgoDemand
  refine ⟨_, rfl, ?_⟩
  replace h := State.advance_evo (t := t) h
  revert h
  generalize State.advance s t = s
  intro h
  repeat' first
    | with_reducible assumption
    | (intro x; refine cut_evo (k := K) (s0 := s0) (x := x) ?_ ?_; rotate_left; intro hx; clear_value x; rotate_left; subst x)
    | (intro x; clear_value x)
    | lift_lets
    | with_reducible refine ite_evo (fun _ => ?_) (fun _ => ?_)
    | (with_reducible refine State.onlyIf_evo ?_ (fun s h => ?_))
    | with_reducible refine State.advance_evo ?_
    | with_reducible refine State.modSaf_evo ?_
    | with_reducible refine State.safApply_evo ?_ hk_unit
    | with_reducible refine State.safOnset_evo ?_ hk_unit
    | (with_reducible refine upd_evo ?_; with_reducible assumption)
    | (with_reducible refine upd_evo ?_; with_reducible refine upd_evo ?_; with_reducible assumption)

theorem State.setCmd_evo {K : Kinds} {s0 s : State} {bits path : Nat} {timeout : Bool} (h : Evolve K s0 s) (hk_unit : K.unit = true) :
    Evolve K s0 (State.setCmd s bits path timeout) := by
  unfold State.setCmd
  repeat' first
    | with_reducible assumption
    | (intro x; refine cut_evo (k := K) (s0 := s0) (x := x) ?_ ?_; rotate_left; intro hx; clear_value x; rotate_left; subst x)
    | (intro x; clear_value x)
    | lift_lets
    | with_reducible refine ite_evo (fun _ => ?_) (fun _ => ?_)
    | with_reducible refine State.setN_evo ?_
    | (with_reducible refine State.onlyIf_evo ?_ (fun s h => ?_))
    | with_reducible refine State.modSaf_evo ?_
    | with_reducible refine State.safRecognise_evo ?_ hk_unit
    | with_reducible refine State.holdAbort_evo ?_
    | with_reducible refine State.holdStart_evo ?_
    | with_reducible refine State.sccSet_evo ?_ hk_unit
    | (with_reducible refine upd_evo ?_; with_reducible assumption)
    | (with_reducible refine upd_evo ?_; with_reducible refine upd_evo ?_; with_reducible assumption)

theorem State.packetTimedOut_evo {K : Kinds} {s0 s : State} (h : Evolve K s0 s) (hk_unit : K.unit = true) :
    Evolve K s0 (State.packetTimedOut s) := by
  unfold State.packetTimedOut
  repeat' first
    | with_reducible assumption
    | (intro x; refine cut_evo (k := K) (s0 := s0) (x := x) ?_ ?_; rotate_left; intro hx; clear_value x; rotate_left; subst x)
    | (intro x; clear_value x)
    | lift_lets
    | with_reducible refine ite_evo (fun _ => ?_) (fun _ => ?_)
    | with_reducible refine State.bump_evo ?_
    | with_reducible refine State.raise_evo ?_
    | with_reducible refine State.modSaf_evo ?_
    | with_reducible refine State.safFaults_evo ?_ hk_unit
    | with_reducible refine State.holdAbort_evo ?_
    | with_reducible refine State.setCmd_evo ?_ hk_unit
    | (with_reducible refine upd_evo ?_; with_reducible assumption)
    | (with_reducible refine upd_evo ?_; with_reducible refine upd_evo ?_; with_reducible assumption)

theorem execPacketTimeout_evo {K : Kinds} {t : Nat} {s0 s : State} (h : Evolve K s0 s) (hk_unit : K.unit = true) :
    ∃ s', (execPacketTimeout t s) = .next s' ∧ Evolve K s0 s' := by
  unfold execPacketTimeout
  refine ⟨_, rfl, ?_⟩
  replace h := State.advance_evo (t := t) h
  revert h
  generalize State.advance s t = s
  intro h
  repeat' first
    | with_reducible assumption
    | (intro x; refine cut_evo (k := K) (s0 := s0) (x := x) ?_ ?_; rotate_left; intro hx; clear_value x; rotate_left; subst x)
    | (intro x; clear_value x)
    | lift_lets
    | with_reducible refine ite_evo (fun _ => ?_) (fun _ => ?_)
    | with_reducible refine State.advance_evo ?_
    | with_reducible refine State.packetTimedOut_evo ?_ hk_unit

theorem State.setSingle_evo {K : Kinds} {s0 s : State} {on : Bool} (h : Evolve K s0 s) :
    Evolve K s0 (State.setSingle s on) := by
  unfold State.setSingle
  repeat' first
    | with_reducible assumption
    | with_reducible refine State.setN_evo ?_
    | with_reducible refine State.modSaf_evo ?_
    | (with_reducible refine upd_evo ?_; with_reducible assumption)
    | (with_reducible refine upd_evo ?_; with_reducible refine upd_evo ?_; with_reducible assumption)

theorem State.acceptPacket_evo {K : Kinds} {s0 s : State} {seq bits first : Nat} {path : Option Nat} (h : Evolve K s0 s) (hk_unit : K.unit = true) :
    Evolve K s0 (State.acceptPacket s seq bits first path) := by
  unfold State.acceptPacket
  repeat' first
    | with_reducible assumption
    | (intro x; refine cut_evo (k := K) (s0 := s0) (x := x) ?_ ?_; rotate_left; intro hx; clear_value x; rotate_left; subst x)
    | (intro x; clear_value x)
    | lift_lets
    | with_reducible refine State.bump_evo ?_
    | (with_reducible refine State.onlyIf_evo ?_ (fun s h => ?_))
    | with_reducible refine State.raise_evo ?_
    | with_reducible refine State.modSaf_evo ?_
    | with_reducible refine State.setCmd_evo ?_ hk_unit
    | (with_reducible refine upd_evo ?_; with_reducible assumption)
    | (with_reducible refine upd_evo ?_; with_reducible refine upd_evo ?_; with_reducible assumption)
    | split

theorem State.windowClose_evo {K : Kinds} {s0 s : State} (h : Evolve K s0 s) (hk_unit : K.unit = true) :
    Evolve K s0 (State.windowClose s) := by
  unfold State.windowClose
  repeat' first
    | with_reducible assumption
    | split
    | (intro x; refine cut_evo (k := K) (s0 := s0) (x := x) ?_ ?_; rotate_left; intro hx; clear_value x; rotate_left; subst x)
    | (intro x; refine cutSnd_evo (k := K) (s0 := s0) (x := x) ?_ ?_; rotate_left; intro hx; clear_value x; rotate_left; subst x)
    | (intro x; clear_value x)
    | lift_lets
    | with_reducible refine ite_evo (fun _ => ?_) (fun _ => ?_)
    | with_reducible refine State.setN_evo ?_
    | with_reducible refine State.bump_evo ?_
    | (with_reducible refine State.each_evo ?_ (fun s i h => ?_))
    | (with_reducible refine State.onlyIf_evo ?_ (fun s h => ?_))
    | with_reducible refine State.raise_evo ?_
    | with_reducible refine State.modSaf_evo ?_
    | with_reducible refine State.safFaults_evo ?_ hk_unit
    | with_reducible refine State.packetTimedOut_evo ?_ hk_unit
    | with_reducible refine State.acceptPacket_evo ?_ hk_unit
    | (with_reducible refine upd_evo ?_; with_reducible assumption)
    | (with_reducible refine upd_evo ?_; with_reducible refine upd_evo ?_; with_reducible assumption)
    | split

theorem State.packetCopy_evo {K : Kinds} {s0 s : State} {q : Nat} {bs : List Byte} (h : Evolve K s0 s) (hk_unit : K.unit = true) :
    Evolve K s0 (State.packetCopy s q bs) := by
  unfold State.packetCopy
  repeat' first
    | with_reducible assumption
    | (intro x; refine cut_evo (k := K) (s0 := s0) (x := x) ?_ ?_; rotate_left; intro hx; clear_value x; rotate_left; subst x)
    | (intro x; clear_value x)
    | lift_lets
    | with_reducible refine ite_evo (fun _ => ?_) (fun _ => ?_)
    | with_reducible refine State.bump_evo ?_
    | (with_reducible refine State.onlyIf_evo ?_ (fun s h => ?_))
    | with_reducible refine State.modSaf_evo ?_
    | with_reducible refine State.setCmd_evo ?_ hk_unit
    | with_reducible refine State.windowClose_evo ?_ hk_unit
    | (with_reducible refine upd_evo ?_; with_reducible assumption)
    | (with_reducible refine upd_evo ?_; with_reducible refine upd_evo ?_; with_reducible assumption)
    | split

theorem execSafetyPacketCopy_evo {K : Kinds} {t : Nat} {path : Nat} {bytes : List Byte} {s0 s : State} (h : Evolve K s0 s) (hk_unit : K.unit = true) :
    ∃ s', (execSafetyPacketCopy t path bytes s) = .next s' ∧ Evolve K s0 s' := by
  unfold execSafetyPacketCopy
  refine ⟨_, rfl, ?_⟩
  replace h := State.advance_evo (t := t) h
  revert h
  generalize State.advance s t = s
  intro h
  repeat' first
    | with_reducible assumption
    | (intro x; refine cut_evo (k := K) (s0 := s0) (x := x) ?_ ?_; rotate_left; intro hx; clear_value x; rotate_left; subst x)
    | (intro x; clear_value x)
    | lift_lets
    | with_reducible refine State.advance_evo ?_
    | with_reducible refine State.packetCopy_evo ?_ hk_unit

theorem execSafetyWindowClose_evo {K : Kinds} {t : Nat} {s0 s : State} (h : Evolve K s0 s) (hk_unit : K.unit = true) :
    ∃ s', (execSafetyWindowClose t s) = .next s' ∧ Evolve K s0 s' := by
  unfold execSafetyWindowClose
  refine ⟨_, rfl, ?_⟩
  replace h := State.advance_evo (t := t) h
  revert h
  generalize State.advance s t = s
  intro h
  repeat' first
    | with_reducible assumption
    | (intro x; refine cut_evo (k := K) (s0 := s0) (x := x) ?_ ?_; rotate_left; intro hx; clear_value x; rotate_left; subst x)
    | (intro x; clear_value x)
    | lift_lets
    | with_reducible refine ite_evo (fun _ => ?_) (fun _ => ?_)
    | with_reducible refine State.advance_evo ?_
    | with_reducible refine State.windowClose_evo ?_ hk_unit

theorem execStatusPacketSend_evo {K : Kinds} {t : Nat} {s0 s : State} (h : Evolve K s0 s) :
    ∃ s', (execStatusPacketSend t s) = .next s' ∧ Evolve K s0 s' := by
  unfold execStatusPacketSend
  refine ⟨_, rfl, ?_⟩
  replace h := State.advance_evo (t := t) h
  revert h
  generalize State.advance s t = s
  intro h
  repeat' first
    | with_reducible assumption
    | (intro x; refine cut_evo (k := K) (s0 := s0) (x := x) ?_ ?_; rotate_left; intro hx; clear_value x; rotate_left; subst x)
    | (intro x; clear_value x)
    | lift_lets
    | with_reducible refine ite_evo (fun _ => ?_) (fun _ => ?_)
    | with_reducible refine State.setN_evo ?_
    | (with_reducible refine State.each_evo ?_ (fun s i h => ?_))
    | with_reducible refine State.advance_evo ?_
    | (with_reducible refine State.recur_evo ?_ (fun s h => ?_))
    | with_reducible refine State.modSaf_evo ?_
    | with_reducible refine State.canSubmit_evo ?_
    | with_reducible refine State.udpSend_evo ?_
    | (refine snd_evo (by assumption) ?_)
    | (refine fst_evo (by assumption) ?_)
    | (with_reducible refine upd_evo ?_; with_reducible assumption)
    | (with_reducible refine upd_evo ?_; with_reducible refine upd_evo ?_; with_reducible assumption)

theorem State.hwFailed_evo {K : Kinds} {s0 s : State} (h : Evolve K s0 s) :
    Evolve K s0 (State.hwFailed s) := by
  unfold State.hwFailed
  repeat' first
    | with_reducible assumption
    | with_reducible refine State.modSaf_evo ?_
    | (with_reducible refine upd_evo ?_; with_reducible assumption)
    | (with_reducible refine upd_evo ?_; with_reducible refine upd_evo ?_; with_reducible assumption)

theorem State.adoptProfile_evo {K : Kinds} {s0 s : State} (h : Evolve K s0 s) (hk_unit : K.unit = true) :
    Evolve K s0 (State.adoptProfile s) := by
  unfold State.adoptProfile
  repeat' first
    | with_reducible assumption
    | (intro x; refine cut_evo (k := K) (s0 := s0) (x := x) ?_ ?_; rotate_left; intro hx; clear_value x; rotate_left; subst x)
    | (intro x; clear_value x)
    | lift_lets
    | with_reducible refine ite_evo (fun _ => ?_) (fun _ => ?_)
    | with_reducible refine State.setN_evo ?_
    | (with_reducible refine State.each_evo ?_ (fun s i h => ?_))
    | with_reducible refine State.modSaf_evo ?_
    | with_reducible refine State.safApply_evo ?_ hk_unit
    | with_reducible refine State.modSin_evo ?_
    | (with_reducible refine upd_evo ?_; with_reducible assumption)
    | (with_reducible refine upd_evo ?_; with_reducible refine upd_evo ?_; with_reducible assumption)
    | split

theorem execStrapRead_evo {K : Kinds} {t : Nat} {pattern faulty : Nat} {s0 s : State} (h : Evolve K s0 s) (hk_unit : K.unit = true) :
    ∃ s', (execStrapRead t pattern faulty s) = .next s' ∧ Evolve K s0 s' := by
  unfold execStrapRead
  refine ⟨_, rfl, ?_⟩
  replace h := State.advance_evo (t := t) h
  revert h
  generalize State.advance s t = s
  intro h
  repeat' first
    | with_reducible assumption
    | (intro x; refine cut_evo (k := K) (s0 := s0) (x := x) ?_ ?_; rotate_left; intro hx; clear_value x; rotate_left; subst x)
    | (intro x; clear_value x)
    | lift_lets
    | with_reducible refine ite_evo (fun _ => ?_) (fun _ => ?_)
    | with_reducible refine State.setN_evo ?_
    | (with_reducible refine State.onlyIf_evo ?_ (fun s h => ?_))
    | with_reducible refine State.advance_evo ?_
    | (with_reducible refine State.recur_evo ?_ (fun s h => ?_))
    | with_reducible refine State.modSaf_evo ?_
    | with_reducible refine State.safFaults_evo ?_ hk_unit
    | with_reducible refine State.adoptProfile_evo ?_ hk_unit
    | (with_reducible refine upd_evo ?_; with_reducible assumption)
    | (with_reducible refine upd_evo ?_; with_reducible refine upd_evo ?_; with_reducible assumption)
    | split

theorem State.doCommit_evo {K : Kinds} {s0 s : State} {readbackOk : Bool} (h : Evolve K s0 s) (hk_fram : K.fram = true) (hk_unit : K.unit = true) :
    Evolve K s0 (State.doCommit s readbackOk) := by
  unfold State.doCommit
  repeat' first
    | with_reducible assumption
    | (intro x; refine cut_evo (k := K) (s0 := s0) (x := x) ?_ ?_; rotate_left; intro hx; clear_value x; rotate_left; subst x)
    | (intro x; clear_value x)
    | lift_lets
    | with_reducible refine ite_evo (fun _ => ?_) (fun _ => ?_)
    | with_reducible refine State.setN_evo ?_
    | with_reducible refine State.raise_evo ?_
    | with_reducible refine State.adoptProfile_evo ?_ hk_unit
    | (with_reducible refine updFram_evo hk_fram ?_; with_reducible assumption)
    | (with_reducible refine upd_evo ?_; with_reducible assumption)
    | (with_reducible refine upd_evo ?_; with_reducible refine upd_evo ?_; with_reducible assumption)

theorem State.commitAsked_evo {K : Kinds} {s0 s : State} {v : Word} {readbackOk : Bool} (h : Evolve K s0 s) (hk_fram : K.fram = true) (hk_unit : K.unit = true) :
    Evolve K s0 (State.commitAsked s v readbackOk) := by
  unfold State.commitAsked
  repeat' first
    | with_reducible assumption
    | with_reducible refine ite_evo (fun _ => ?_) (fun _ => ?_)
    | with_reducible refine State.fresh_evo ?_
    | with_reducible refine State.raise_evo ?_
    | with_reducible refine State.doCommit_evo ?_ hk_fram hk_unit
    | (refine snd_evo (by assumption) ?_)
    | (refine fst_evo (by assumption) ?_)

theorem execSafetyCommit_evo {K : Kinds} {t : Nat} {role : Role} {v : Word} {readbackOk : Bool} {s0 s : State} (h : Evolve K s0 s) (hk_fram : K.fram = true) (hk_unit : K.unit = true) :
    ∃ s', (execSafetyCommit t role v readbackOk s) = .next s' ∧ Evolve K s0 s' := by
  unfold execSafetyCommit
  refine ⟨_, rfl, ?_⟩
  replace h := State.advance_evo (t := t) h
  revert h
  generalize State.advance s t = s
  intro h
  repeat' first
    | with_reducible assumption
    | (intro x; refine cut_evo (k := K) (s0 := s0) (x := x) ?_ ?_; rotate_left; intro hx; clear_value x; rotate_left; subst x)
    | (intro x; clear_value x)
    | lift_lets
    | with_reducible refine State.advance_evo ?_
    | with_reducible refine State.roleRow_evo ?_ ?_
    | with_reducible refine State.commitAsked_evo ?_ hk_fram hk_unit

theorem State.doReset_evo {K : Kinds} {s0 s : State} {source : Nat} (h : Evolve K s0 s) (hk_unit : K.unit = true) :
    Evolve K s0 (State.doReset s source) := by
  unfold State.doReset
  repeat' first
    | with_reducible assumption
    | (intro x; refine cut_evo (k := K) (s0 := s0) (x := x) ?_ ?_; rotate_left; intro hx; clear_value x; rotate_left; subst x)
    | (intro x; clear_value x)
    | lift_lets
    | with_reducible refine ite_evo (fun _ => ?_) (fun _ => ?_)
    | with_reducible refine State.setN_evo ?_
    | (with_reducible refine State.each_evo ?_ (fun s i h => ?_))
    | (with_reducible refine State.onlyIf_evo ?_ (fun s h => ?_))
    | with_reducible refine State.raise_evo ?_
    | with_reducible refine State.factoryNet_evo ?_
    | with_reducible refine State.gotoUnit_evo ?_ hk_unit
    | with_reducible refine State.modSaf_evo ?_
    | with_reducible refine State.safApply_evo ?_ hk_unit
    | with_reducible refine State.adoptProfile_evo ?_ hk_unit
    | (with_reducible refine upd_evo ?_; with_reducible assumption)
    | (with_reducible refine upd_evo ?_; with_reducible refine upd_evo ?_; with_reducible assumption)

theorem execSafetyReset_evo {K : Kinds} {t : Nat} {source : Nat} {s0 s : State} (h : Evolve K s0 s) (hk_unit : K.unit = true) :
    ∃ s', (execSafetyReset t source s) = .next s' ∧ Evolve K s0 s' := by
  unfold execSafetyReset
  refine ⟨_, rfl, ?_⟩
  replace h := State.advance_evo (t := t) h
  revert h
  generalize State.advance s t = s
  intro h
  repeat' first
    | with_reducible assumption
    | (intro x; refine cut_evo (k := K) (s0 := s0) (x := x) ?_ ?_; rotate_left; intro hx; clear_value x; rotate_left; subst x)
    | (intro x; clear_value x)
    | lift_lets
    | with_reducible refine ite_evo (fun _ => ?_) (fun _ => ?_)
    | with_reducible refine State.setN_evo ?_
    | with_reducible refine State.advance_evo ?_
    | with_reducible refine State.raise_evo ?_
    | with_reducible refine State.modSaf_evo ?_
    | with_reducible refine State.doReset_evo ?_ hk_unit
    | (with_reducible refine upd_evo ?_; with_reducible assumption)
    | (with_reducible refine upd_evo ?_; with_reducible refine upd_evo ?_; with_reducible assumption)

end Sys2Proof.Machine
end

