-- ==== Sys2Proof/Laws/KeptPair.lean ====
section
/-! SUPPORT. What the functions of Machine/Pair.lean keep: each stays within `Evolve`. -/

set_option Elab.async false
set_option linter.unusedVariables false
set_option linter.unreachableTactic false
set_option linter.unusedTactic false
set_option linter.unusedSimpArgs false

namespace Sys2Proof.Machine

theorem State.modPair_evo {K : Kinds} {s0 s : State} {f : PairSt → PairSt} (h : Evolve K s0 s) :
    Evolve K s0 (State.modPair s f) := by
  unfold State.modPair
  repeat' first
    | with_reducible assumption
    | (with_reducible refine upd_evo ?_; with_reducible assumption)
    | (with_reducible refine upd_evo ?_; with_reducible refine upd_evo ?_; with_reducible assumption)

theorem State.reportStart_evo {K : Kinds} {s0 s : State} (h : Evolve K s0 s) :
    Evolve K s0 (State.reportStart s) := by
  unfold State.reportStart
  repeat' first
    | with_reducible assumption
    | (with_reducible refine State.onlyIf_evo ?_ (fun s h => ?_))
    | with_reducible refine State.modPair_evo ?_
    | (with_reducible refine upd_evo ?_; with_reducible assumption)
    | (with_reducible refine upd_evo ?_; with_reducible refine upd_evo ?_; with_reducible assumption)

theorem State.sendFrame_evo {K : Kinds} {s0 s : State} (h : Evolve K s0 s) :
    Evolve K s0 (State.sendFrame s) := by
  unfold State.sendFrame
  repeat' first
    | with_reducible assumption
    | (intro x; refine cut_evo (k := K) (s0 := s0) (x := x) ?_ ?_; rotate_left; intro hx; clear_value x; rotate_left; subst x)
    | (intro x; clear_value x)
    | lift_lets
    | with_reducible refine ite_evo (fun _ => ?_) (fun _ => ?_)
    | with_reducible refine State.modPair_evo ?_
    | with_reducible refine State.reportStart_evo ?_
    | (with_reducible refine upd_evo ?_; with_reducible assumption)
    | (with_reducible refine upd_evo ?_; with_reducible refine upd_evo ?_; with_reducible assumption)

theorem State.imageTake_evo {K : Kinds} {s0 s : State} (h : Evolve K s0 s) :
    Evolve K s0 (State.imageTake s) := by
  unfold State.imageTake
  repeat' first
    | with_reducible assumption
    | (with_reducible refine State.onlyIf_evo ?_ (fun s h => ?_))
    | with_reducible refine State.modPair_evo ?_
    | (with_reducible refine upd_evo ?_; with_reducible assumption)
    | (with_reducible refine upd_evo ?_; with_reducible refine upd_evo ?_; with_reducible assumption)

theorem execPairAnnounce_evo {K : Kinds} {t : Nat} {s0 s : State} (h : Evolve K s0 s) :
    ∃ s', (execPairAnnounce t s) = .next s' ∧ Evolve K s0 s' := by
  unfold execPairAnnounce
  refine ⟨_, rfl, ?_⟩
  replace h := State.advance_evo (t := t) h
  revert h
  generalize State.advance s t = s
  intro h
  repeat' first
    | with_reducible assumption
    | (intro x; refine cut_evo (k := K) (s0 := s0) (x := x) ?_ ?_; rotate_left; intro hx; clear_value x; rotate_left; subst x)
    | (intro x; clear_value x)
    | lift_lets
    | with_reducible refine ite_evo (fun _ => ?_) (fun _ => ?_)
    | with_reducible refine State.advance_evo ?_
    | (with_reducible refine State.recur_evo ?_ (fun s h => ?_))
    | with_reducible refine State.modPair_evo ?_
    | (with_reducible refine upd_evo ?_; with_reducible assumption)
    | (with_reducible refine upd_evo ?_; with_reducible refine upd_evo ?_; with_reducible assumption)

theorem State.pairMismatch_evo {K : Kinds} {s0 s : State} {code : Nat} (h : Evolve K s0 s) :
    Evolve K s0 (State.pairMismatch s code) := by
  unfold State.pairMismatch
  repeat' first
    | with_reducible assumption
    | with_reducible refine ite_evo (fun _ => ?_) (fun _ => ?_)
    | with_reducible refine State.setN_evo ?_
    | with_reducible refine State.raise_evo ?_
    | with_reducible refine State.modPair_evo ?_
    | (with_reducible refine upd_evo ?_; with_reducible assumption)
    | (with_reducible refine upd_evo ?_; with_reducible refine upd_evo ?_; with_reducible assumption)
    | split

theorem State.pairForm_evo {K : Kinds} {s0 s : State} {holder : Bool} {serial seq : Nat} (h : Evolve K s0 s) (hk_reset : K.reset = true) (hk_fram : K.fram = true) (hk_unit : K.unit = true) :
    Evolve K s0 (State.pairForm s holder serial seq) := by
  unfold State.pairForm
  repeat' first
    | with_reducible assumption
    | (intro x; refine cut_evo (k := K) (s0 := s0) (x := x) ?_ ?_; rotate_left; intro hx; clear_value x; rotate_left; subst x)
    | (intro x; clear_value x)
    | lift_lets
    | with_reducible refine ite_evo (fun _ => ?_) (fun _ => ?_)
    | with_reducible refine State.setN_evo ?_
    | (with_reducible refine State.onlyIf_evo ?_ (fun s h => ?_))
    | with_reducible refine State.raise_evo ?_
    | with_reducible refine State.gotoUnit_evo ?_ hk_unit
    | with_reducible refine State.showFit_evo ?_
    | with_reducible refine State.realignAll_evo ?_
    | with_reducible refine State.modPair_evo ?_
    | (with_reducible refine upd_evo ?_; with_reducible assumption)
    | (with_reducible refine upd_evo ?_; with_reducible refine upd_evo ?_; with_reducible assumption)
    | split

theorem State.mismatchOver_evo {K : Kinds} {s0 s : State} (h : Evolve K s0 s) :
    Evolve K s0 (State.mismatchOver s) := by
  unfold State.mismatchOver
  repeat' first
    | with_reducible assumption
    | with_reducible refine State.setN_evo ?_
    | (with_reducible refine State.onlyIf_evo ?_ (fun s h => ?_))
    | with_reducible refine State.modPair_evo ?_
    | (with_reducible refine upd_evo ?_; with_reducible assumption)
    | (with_reducible refine upd_evo ?_; with_reducible refine upd_evo ?_; with_reducible assumption)
    | split

theorem State.partnerLeft_evo {K : Kinds} {s0 s : State} {st : Nat} (h : Evolve K s0 s) :
    Evolve K s0 (State.partnerLeft s st) := by
  unfold State.partnerLeft
  repeat' first
    | with_reducible assumption
    | with_reducible refine State.setN_evo ?_
    | with_reducible refine State.raise_evo ?_
    | with_reducible refine State.modPair_evo ?_
    | (with_reducible refine upd_evo ?_; with_reducible assumption)
    | (with_reducible refine upd_evo ?_; with_reducible refine upd_evo ?_; with_reducible assumption)

theorem State.announceIn_evo {K : Kinds} {s0 s : State} {bs : List Byte} (h : Evolve K s0 s) (hk_reset : K.reset = true) (hk_fram : K.fram = true) (hk_unit : K.unit = true) :
    Evolve K s0 (State.announceIn s bs) := by
  unfold State.announceIn
  repeat' first
    | with_reducible assumption
    | (intro x; refine cut_evo (k := K) (s0 := s0) (x := x) ?_ ?_; rotate_left; intro hx; clear_value x; rotate_left; subst x)
    | (intro x; clear_value x)
    | lift_lets
    | with_reducible refine ite_evo (fun _ => ?_) (fun _ => ?_)
    | with_reducible refine State.again_evo ?_
    | with_reducible refine State.announceGiveUp_evo ?_
    | with_reducible refine State.modPair_evo ?_
    | with_reducible refine State.pairMismatch_evo ?_
    | with_reducible refine State.pairForm_evo ?_ hk_reset hk_fram hk_unit
    | with_reducible refine State.mismatchOver_evo ?_
    | with_reducible refine State.partnerLeft_evo ?_
    | (with_reducible refine upd_evo ?_; with_reducible assumption)
    | (with_reducible refine upd_evo ?_; with_reducible refine upd_evo ?_; with_reducible assumption)
    | split

theorem execMismatchRepeat_evo {K : Kinds} {t : Nat} {s0 s : State} (h : Evolve K s0 s) :
    ∃ s', (execMismatchRepeat t s) = .next s' ∧ Evolve K s0 s' := by
  unfold execMismatchRepeat
  refine ⟨_, rfl, ?_⟩
  replace h := State.advance_evo (t := t) h
  revert h
  generalize State.advance s t = s
  intro h
  repeat' first
    | with_reducible assumption
    | (intro x; refine cut_evo (k := K) (s0 := s0) (x := x) ?_ ?_; rotate_left; intro hx; clear_value x; rotate_left; subst x)
    | (intro x; clear_value x)
    | lift_lets
    | with_reducible refine ite_evo (fun _ => ?_) (fun _ => ?_)
    | with_reducible refine State.advance_evo ?_
    | with_reducible refine State.raise_evo ?_
    | with_reducible refine State.modPair_evo ?_
    | with_reducible refine State.mismatchOver_evo ?_
    | (with_reducible refine upd_evo ?_; with_reducible assumption)
    | (with_reducible refine upd_evo ?_; with_reducible refine upd_evo ?_; with_reducible assumption)
    | split

theorem State.doSolo_evo {K : Kinds} {s0 s : State} (h : Evolve K s0 s) :
    Evolve K s0 (State.doSolo s) := by
  unfold State.doSolo
  repeat' first
    | with_reducible assumption
    | with_reducible refine State.setN_evo ?_
    | with_reducible refine State.modPair_evo ?_
    | (with_reducible refine upd_evo ?_; with_reducible assumption)
    | (with_reducible refine upd_evo ?_; with_reducible refine upd_evo ?_; with_reducible assumption)
    | split

theorem execPairSolo_evo {K : Kinds} {t : Nat} {role : Role} {v : Word} {s0 s : State} (h : Evolve K s0 s) :
    ∃ s', (execPairSolo t role v s) = .next s' ∧ Evolve K s0 s' := by
  unfold execPairSolo
  refine ⟨_, rfl, ?_⟩
  replace h := State.advance_evo (t := t) h
  revert h
  generalize State.advance s t = s
  intro h
  repeat' first
    | with_reducible assumption
    | (intro x; refine cut_evo (k := K) (s0 := s0) (x := x) ?_ ?_; rotate_left; intro hx; clear_value x; rotate_left; subst x)
    | (intro x; clear_value x)
    | lift_lets
    | with_reducible refine State.advance_evo ?_
    | with_reducible refine State.cmdRow_evo ?_ ?_
    | with_reducible refine State.doSolo_evo ?_

theorem State.renewed_evo {K : Kinds} {s0 s : State} {seq : Nat} (h : Evolve K s0 s) :
    Evolve K s0 (State.renewed s seq) := by
  unfold State.renewed
  repeat' first
    | with_reducible assumption
    | with_reducible refine ite_evo (fun _ => ?_) (fun _ => ?_)
    | with_reducible refine State.setN_evo ?_

theorem State.sccFollow_evo {K : Kinds} {s0 s : State} {on : Bool} (h : Evolve K s0 s) :
    Evolve K s0 (State.sccFollow s on) := by
  unfold State.sccFollow
  repeat' first
    | with_reducible assumption
    | (intro x; refine cut_evo (k := K) (s0 := s0) (x := x) ?_ ?_; rotate_left; intro hx; clear_value x; rotate_left; subst x)
    | (intro x; clear_value x)
    | lift_lets
    | (with_reducible refine State.onlyIf_evo ?_ (fun s h => ?_))
    | with_reducible refine State.modSaf_evo ?_
    | with_reducible refine State.sccAnew_evo ?_
    | (with_reducible refine upd_evo ?_; with_reducible assumption)
    | (with_reducible refine upd_evo ?_; with_reducible refine upd_evo ?_; with_reducible assumption)

theorem State.itemIn_evo {K : Kinds} {s0 s : State} {e : Nat × Word × Nat} (h : Evolve K s0 s) (hk_reset : K.reset = true) (hk_fram : K.fram = true) (hk_unit : K.unit = true) :
    Evolve K s0 (State.itemIn s e) := by
  unfold State.itemIn
  repeat' first
    | with_reducible assumption
    | with_reducible refine ite_evo (fun _ => ?_) (fun _ => ?_)
    | (with_reducible refine State.onlyIf_evo ?_ (fun s h => ?_))
    | with_reducible refine State.setFarUnfit_evo ?_
    | with_reducible refine State.modPair_evo ?_
    | (with_reducible refine upd_evo ?_; with_reducible assumption)
    | (with_reducible refine upd_evo ?_; with_reducible refine upd_evo ?_; with_reducible assumption)

theorem State.holderIn_evo {K : Kinds} {s0 s : State} {bs : List Byte} {image : List OuterImage} {forwarded : List (Nat × Word × Nat)} (h : Evolve K s0 s) (hk_reset : K.reset = true) (hk_fram : K.fram = true) (hk_unit : K.unit = true) :
    Evolve K s0 (State.holderIn s bs image forwarded) := by
  unfold State.holderIn
  repeat' first
    | with_reducible assumption
    | (intro x; refine cut_evo (k := K) (s0 := s0) (x := x) ?_ ?_; rotate_left; intro hx; clear_value x; rotate_left; subst x)
    | (intro x; clear_value x)
    | lift_lets
    | with_reducible refine ite_evo (fun _ => ?_) (fun _ => ?_)
    | (with_reducible refine State.onlyIf_evo ?_ (fun s h => ?_))
    | with_reducible refine State.pendRungIn_evo ?_
    | with_reducible refine State.modPair_evo ?_
    | with_reducible refine State.renewed_evo ?_
    | with_reducible refine State.sccFollow_evo ?_
    | with_reducible refine State.itemIn_evo ?_ hk_reset hk_fram hk_unit
    | (with_reducible refine foldl_evo ?_ (fun s i h => ?_))
    | (with_reducible refine upd_evo ?_; with_reducible assumption)
    | (with_reducible refine upd_evo ?_; with_reducible refine upd_evo ?_; with_reducible assumption)

theorem State.standbyIn_evo {K : Kinds} {s0 s : State} {bs : List Byte} (h : Evolve K s0 s) :
    Evolve K s0 (State.standbyIn s bs) := by
  unfold State.standbyIn
  repeat' first
    | with_reducible assumption
    | (intro x; refine cut_evo (k := K) (s0 := s0) (x := x) ?_ ?_; rotate_left; intro hx; clear_value x; rotate_left; subst x)
    | (intro x; clear_value x)
    | lift_lets
    | with_reducible refine ite_evo (fun _ => ?_) (fun _ => ?_)
    | with_reducible refine State.setUnfit_evo ?_
    | with_reducible refine State.modPair_evo ?_
    | with_reducible refine State.partnerLeft_evo ?_
    | (with_reducible refine upd_evo ?_; with_reducible assumption)
    | (with_reducible refine upd_evo ?_; with_reducible refine upd_evo ?_; with_reducible assumption)

theorem State.pairHeard_evo {K : Kinds} {s0 s : State} (h : Evolve K s0 s) :
    Evolve K s0 (State.pairHeard s) := by
  unfold State.pairHeard
  repeat' first
    | with_reducible assumption
    | with_reducible refine State.modPair_evo ?_
    | (with_reducible refine upd_evo ?_; with_reducible assumption)
    | (with_reducible refine upd_evo ?_; with_reducible refine upd_evo ?_; with_reducible assumption)

theorem execPairFrameReceive_evo {K : Kinds} {t : Nat} {bytes : List Byte} {image : List OuterImage} {forwarded : List (Nat × Word × Nat)} {s0 s : State} (h : Evolve K s0 s) (hk_reset : K.reset = true) (hk_fram : K.fram = true) (hk_unit : K.unit = true) :
    ∃ s', (execPairFrameReceive t bytes image forwarded s) = .next s' ∧ Evolve K s0 s' := by
  unfold execPairFrameReceive
  refine ⟨_, rfl, ?_⟩
  replace h := State.advance_evo (t := t) h
  revert h
  generalize State.advance s t = s
  intro h
  repeat' first
    | with_reducible assumption
    | (intro x; refine cut_evo (k := K) (s0 := s0) (x := x) ?_ ?_; rotate_left; intro hx; clear_value x; rotate_left; subst x)
    | (intro x; clear_value x)
    | lift_lets
    | with_reducible refine ite_evo (fun _ => ?_) (fun _ => ?_)
    | with_reducible refine State.bump_evo ?_
    | (with_reducible refine State.onlyIf_evo ?_ (fun s h => ?_))
    | with_reducible refine State.advance_evo ?_
    | with_reducible refine State.modPair_evo ?_
    | with_reducible refine State.announceIn_evo ?_ hk_reset hk_fram hk_unit
    | with_reducible refine State.itemIn_evo ?_ hk_reset hk_fram hk_unit
    | with_reducible refine State.holderIn_evo ?_ hk_reset hk_fram hk_unit
    | with_reducible refine State.standbyIn_evo ?_
    | with_reducible refine State.pairHeard_evo ?_
    | (with_reducible refine foldl_evo ?_ (fun s i h => ?_))
    | (with_reducible refine upd_evo ?_; with_reducible assumption)
    | (with_reducible refine upd_evo ?_; with_reducible refine upd_evo ?_; with_reducible assumption)
    | split

theorem State.markOf_evo {K : Kinds} {s0 s : State} {errPs : Int} (h : Evolve K s0 s) :
    Evolve K s0 (State.markOf s errPs) := by
  unfold State.markOf
  repeat' first
    | with_reducible assumption
    | (intro x; refine cut_evo (k := K) (s0 := s0) (x := x) ?_ ?_; rotate_left; intro hx; clear_value x; rotate_left; subst x)
    | (intro x; clear_value x)
    | lift_lets
    | with_reducible refine State.setZ_evo ?_
    | with_reducible refine State.renewed_evo ?_
    | (with_reducible refine upd_evo ?_; with_reducible assumption)
    | (with_reducible refine upd_evo ?_; with_reducible refine upd_evo ?_; with_reducible assumption)

theorem execLeaseMarkReceive_evo {K : Kinds} {t : Nat} {errPs : Int} {s0 s : State} (h : Evolve K s0 s) :
    ∃ s', (execLeaseMarkReceive t errPs s) = .next s' ∧ Evolve K s0 s' := by
  unfold execLeaseMarkReceive
  refine ⟨_, rfl, ?_⟩
  replace h := State.advance_evo (t := t) h
  revert h
  generalize State.advance s t = s
  intro h
  repeat' first
    | with_reducible assumption
    | (intro x; refine cut_evo (k := K) (s0 := s0) (x := x) ?_ ?_; rotate_left; intro hx; clear_value x; rotate_left; subst x)
    | (intro x; clear_value x)
    | lift_lets
    | with_reducible refine ite_evo (fun _ => ?_) (fun _ => ?_)
    | with_reducible refine State.advance_evo ?_
    | with_reducible refine State.modPair_evo ?_
    | with_reducible refine State.pairHeard_evo ?_
    | with_reducible refine State.markOf_evo ?_
    | (with_reducible refine upd_evo ?_; with_reducible assumption)
    | (with_reducible refine upd_evo ?_; with_reducible refine upd_evo ?_; with_reducible assumption)

theorem execRenewalUnconfirmedLimit_evo {K : Kinds} {t : Nat} {s0 s : State} (h : Evolve K s0 s) (hk_unit : K.unit = true) :
    ∃ s', (execRenewalUnconfirmedLimit t s) = .next s' ∧ Evolve K s0 s' := by
  unfold execRenewalUnconfirmedLimit
  refine ⟨_, rfl, ?_⟩
  replace h := State.advance_evo (t := t) h
  revert h
  generalize State.advance s t = s
  intro h
  repeat' first
    | with_reducible assumption
    | (intro x; refine cut_evo (k := K) (s0 := s0) (x := x) ?_ ?_; rotate_left; intro hx; clear_value x; rotate_left; subst x)
    | (intro x; clear_value x)
    | lift_lets
    | with_reducible refine ite_evo (fun _ => ?_) (fun _ => ?_)
    | with_reducible refine State.advance_evo ?_
    | with_reducible refine State.dropBiscuit_evo ?_
    | with_reducible refine State.holdNow_evo ?_ hk_unit

theorem State.takeLeg_evo {K : Kinds} {s0 s : State} {p l : Nat} (h : Evolve K s0 s) :
    Evolve K s0 (State.takeLeg s p l) := by
  unfold State.takeLeg
  repeat' first
    | with_reducible assumption
    | (intro x; refine cut_evo (k := K) (s0 := s0) (x := x) ?_ ?_; rotate_left; intro hx; clear_value x; rotate_left; subst x)
    | (intro x; clear_value x)
    | lift_lets
    | with_reducible refine ite_evo (fun _ => ?_) (fun _ => ?_)
    | with_reducible refine State.setBit_evo ?_
    | with_reducible refine State.modLeg_evo ?_
    | with_reducible refine State.dtReset_evo ?_
    | (with_reducible refine upd_evo ?_; with_reducible assumption)
    | (with_reducible refine upd_evo ?_; with_reducible refine upd_evo ?_; with_reducible assumption)

theorem State.takeBiscuit_evo {K : Kinds} {s0 s : State} {gapPeriods : Nat} (h : Evolve K s0 s) (hk_reset : K.reset = true) (hk_fram : K.fram = true) (hk_unit : K.unit = true) :
    Evolve K s0 (State.takeBiscuit s gapPeriods) := by
  unfold State.takeBiscuit
  repeat' first
    | with_reducible assumption
    | (intro x; refine cut_evo (k := K) (s0 := s0) (x := x) ?_ ?_; rotate_left; intro hx; clear_value x; rotate_left; subst x)
    | (intro x; clear_value x)
    | lift_lets
    | with_reducible refine State.setN_evo ?_
    | with_reducible refine State.bump_evo ?_
    | (with_reducible refine State.each_evo ?_ (fun s i h => ?_))
    | with_reducible refine State.raise_evo ?_
    | with_reducible refine State.gotoUnit_evo ?_ hk_unit
    | with_reducible refine State.recompute_evo ?_ hk_unit
    | with_reducible refine State.setPort_evo ?_ hk_unit
    | with_reducible refine State.leaveStopping_evo ?_ hk_unit
    | with_reducible refine State.modPair_evo ?_
    | with_reducible refine State.takeLeg_evo ?_
    | (with_reducible refine upd_evo ?_; with_reducible assumption)
    | (with_reducible refine upd_evo ?_; with_reducible refine upd_evo ?_; with_reducible assumption)
    | split

theorem execLeaseExpiryTakeover_evo {K : Kinds} {t : Nat} {s0 s : State} (h : Evolve K s0 s) (hk_reset : K.reset = true) (hk_fram : K.fram = true) (hk_unit : K.unit = true) :
    ∃ s', (execLeaseExpiryTakeover t s) = .next s' ∧ Evolve K s0 s' := by
  unfold execLeaseExpiryTakeover
  refine ⟨_, rfl, ?_⟩
  replace h := State.advance_evo (t := t) h
  revert h
  generalize State.advance s t = s
  intro h
  repeat' first
    | with_reducible assumption
    | (intro x; refine cut_evo (k := K) (s0 := s0) (x := x) ?_ ?_; rotate_left; intro hx; clear_value x; rotate_left; subst x)
    | (intro x; clear_value x)
    | lift_lets
    | with_reducible refine ite_evo (fun _ => ?_) (fun _ => ?_)
    | with_reducible refine State.advance_evo ?_
    | with_reducible refine State.takeBiscuit_evo ?_ hk_reset hk_fram hk_unit

theorem execBiscuitTake_evo {K : Kinds} {t : Nat} {s0 s : State} (h : Evolve K s0 s) (hk_reset : K.reset = true) (hk_fram : K.fram = true) (hk_unit : K.unit = true) :
    ∃ s', (execBiscuitTake t s) = .next s' ∧ Evolve K s0 s' := by
  unfold execBiscuitTake
  refine ⟨_, rfl, ?_⟩
  replace h := State.advance_evo (t := t) h
  revert h
  generalize State.advance s t = s
  intro h
  repeat' first
    | with_reducible assumption
    | (intro x; refine cut_evo (k := K) (s0 := s0) (x := x) ?_ ?_; rotate_left; intro hx; clear_value x; rotate_left; subst x)
    | (intro x; clear_value x)
    | lift_lets
    | with_reducible refine ite_evo (fun _ => ?_) (fun _ => ?_)
    | with_reducible refine State.advance_evo ?_
    | with_reducible refine State.takeBiscuit_evo ?_ hk_reset hk_fram hk_unit
    | (with_reducible refine upd_evo ?_; with_reducible assumption)
    | (with_reducible refine upd_evo ?_; with_reducible refine upd_evo ?_; with_reducible assumption)
    | split

theorem execPairHandover_evo {K : Kinds} {t : Nat} {role : Role} {v : Word} {s0 s : State} (h : Evolve K s0 s) :
    ∃ s', (execPairHandover t role v s) = .next s' ∧ Evolve K s0 s' := by
  unfold execPairHandover
  refine ⟨_, rfl, ?_⟩
  replace h := State.advance_evo (t := t) h
  revert h
  generalize State.advance s t = s
  intro h
  repeat' first
    | with_reducible assumption
    | (intro x; refine cut_evo (k := K) (s0 := s0) (x := x) ?_ ?_; rotate_left; intro hx; clear_value x; rotate_left; subst x)
    | (intro x; clear_value x)
    | lift_lets
    | with_reducible refine State.advance_evo ?_
    | with_reducible refine State.announceGiveUp_evo ?_
    | with_reducible refine State.cmdRow_evo ?_ ?_

theorem execStandbyIslandTest_evo {K : Kinds} {t : Nat} {bits : Nat} {s0 s : State} (h : Evolve K s0 s) :
    ∃ s', (execStandbyIslandTest t bits s) = .next s' ∧ Evolve K s0 s' := by
  unfold execStandbyIslandTest
  refine ⟨_, rfl, ?_⟩
  replace h := State.advance_evo (t := t) h
  revert h
  generalize State.advance s t = s
  intro h
  repeat' first
    | with_reducible assumption
    | (intro x; refine cut_evo (k := K) (s0 := s0) (x := x) ?_ ?_; rotate_left; intro hx; clear_value x; rotate_left; subst x)
    | (intro x; clear_value x)
    | lift_lets
    | with_reducible refine ite_evo (fun _ => ?_) (fun _ => ?_)
    | (with_reducible refine State.onlyIf_evo ?_ (fun s h => ?_))
    | with_reducible refine State.advance_evo ?_
    | (with_reducible refine State.recur_evo ?_ (fun s h => ?_))
    | with_reducible refine State.setUnfit_evo ?_
    | with_reducible refine State.showSw_evo ?_
    | with_reducible refine State.istJudge_evo ?_
    | with_reducible refine State.modPair_evo ?_
    | (with_reducible refine upd_evo ?_; with_reducible assumption)
    | (with_reducible refine upd_evo ?_; with_reducible refine upd_evo ?_; with_reducible assumption)

theorem execStandbyHealthTimeout_evo {K : Kinds} {t : Nat} {s0 s : State} (h : Evolve K s0 s) :
    ∃ s', (execStandbyHealthTimeout t s) = .next s' ∧ Evolve K s0 s' := by
  unfold execStandbyHealthTimeout
  refine ⟨_, rfl, ?_⟩
  replace h := State.advance_evo (t := t) h
  revert h
  generalize State.advance s t = s
  intro h
  repeat' first
    | with_reducible assumption
    | (intro x; refine cut_evo (k := K) (s0 := s0) (x := x) ?_ ?_; rotate_left; intro hx; clear_value x; rotate_left; subst x)
    | (intro x; clear_value x)
    | lift_lets
    | with_reducible refine ite_evo (fun _ => ?_) (fun _ => ?_)
    | with_reducible refine State.advance_evo ?_
    | with_reducible refine State.setUnfit_evo ?_

theorem execPairFrameSilence_evo {K : Kinds} {t : Nat} {s0 s : State} (h : Evolve K s0 s) :
    ∃ s', (execPairFrameSilence t s) = .next s' ∧ Evolve K s0 s' := by
  unfold execPairFrameSilence
  refine ⟨_, rfl, ?_⟩
  replace h := State.advance_evo (t := t) h
  revert h
  generalize State.advance s t = s
  intro h
  repeat' first
    | with_reducible assumption
    | (intro x; refine cut_evo (k := K) (s0 := s0) (x := x) ?_ ?_; rotate_left; intro hx; clear_value x; rotate_left; subst x)
    | (intro x; clear_value x)
    | lift_lets
    | with_reducible refine ite_evo (fun _ => ?_) (fun _ => ?_)
    | with_reducible refine State.advance_evo ?_
    | with_reducible refine State.raise_evo ?_
    | with_reducible refine State.modPair_evo ?_
    | (with_reducible refine upd_evo ?_; with_reducible assumption)
    | (with_reducible refine upd_evo ?_; with_reducible refine upd_evo ?_; with_reducible assumption)

theorem State.pairPeriod_evo {K : Kinds} {s0 s : State} {markBack frameSent : Bool} (h : Evolve K s0 s) :
    Evolve K s0 (State.pairPeriod s markBack frameSent) := by
  unfold State.pairPeriod
  repeat' first
    | with_reducible assumption
    | (intro x; refine cut_evo (k := K) (s0 := s0) (x := x) ?_ ?_; rotate_left; intro hx; clear_value x; rotate_left; subst x)
    | (intro x; clear_value x)
    | lift_lets
    | with_reducible refine ite_evo (fun _ => ?_) (fun _ => ?_)
    | with_reducible refine State.setN_evo ?_
    | with_reducible refine State.bump_evo ?_
    | (with_reducible refine State.onlyIf_evo ?_ (fun s h => ?_))
    | with_reducible refine State.setUnfit_evo ?_
    | with_reducible refine State.modPair_evo ?_
    | with_reducible refine State.renewed_evo ?_
    | with_reducible refine State.markOf_evo ?_
    | (with_reducible refine upd_evo ?_; with_reducible assumption)
    | (with_reducible refine upd_evo ?_; with_reducible refine upd_evo ?_; with_reducible assumption)
    | split

theorem State.trackStep_evo {K : Kinds} {s0 s : State} (h : Evolve K s0 s) :
    Evolve K s0 (State.trackStep s) := by
  unfold State.trackStep
  repeat' first
    | with_reducible assumption
    | (intro x; refine cut_evo (k := K) (s0 := s0) (x := x) ?_ ?_; rotate_left; intro hx; clear_value x; rotate_left; subst x)
    | (intro x; clear_value x)
    | lift_lets
    | with_reducible refine ite_evo (fun _ => ?_) (fun _ => ?_)
    | with_reducible refine State.setUnfit_evo ?_
    | with_reducible refine State.modPair_evo ?_
    | (with_reducible refine upd_evo ?_; with_reducible assumption)
    | (with_reducible refine upd_evo ?_; with_reducible refine upd_evo ?_; with_reducible assumption)

theorem State.adoptImage_evo {K : Kinds} {s0 s : State} {o : OuterImage} (h : Evolve K s0 s) :
    Evolve K s0 (State.adoptImage s o) := by
  unfold State.adoptImage
  repeat' first
    | with_reducible assumption
    | (intro x; refine cut_evo (k := K) (s0 := s0) (x := x) ?_ ?_; rotate_left; intro hx; clear_value x; rotate_left; subst x)
    | (intro x; refine cutSnd_evo (k := K) (s0 := s0) (x := x) ?_ ?_; rotate_left; intro hx; clear_value x; rotate_left; subst x)
    | (intro x; clear_value x)
    | lift_lets
    | with_reducible refine State.setW_evo ?_
    | with_reducible refine State.setZ_evo ?_
    | with_reducible refine State.modPort_evo ?_
    | (with_reducible refine upd_evo ?_; with_reducible assumption)
    | (with_reducible refine upd_evo ?_; with_reducible refine upd_evo ?_; with_reducible assumption)

theorem State.adoptPort_evo {K : Kinds} {s0 s : State} {p code : Nat} (h : Evolve K s0 s) (hk_unit : K.unit = true) :
    Evolve K s0 (State.adoptPort s p code) := by
  unfold State.adoptPort
  repeat' first
    | with_reducible assumption
    | split
    | (intro x; refine cut_evo (k := K) (s0 := s0) (x := x) ?_ ?_; rotate_left; intro hx; clear_value x; rotate_left; subst x)
    | (intro x; clear_value x)
    | lift_lets
    | with_reducible refine State.setN_evo ?_
    | (with_reducible refine State.onlyIf_evo ?_ (fun s h => ?_))
    | with_reducible refine State.modPort_evo ?_
    | with_reducible refine State.setPort_evo ?_ hk_unit
    | (with_reducible refine upd_evo ?_; with_reducible assumption)
    | (with_reducible refine upd_evo ?_; with_reducible refine upd_evo ?_; with_reducible assumption)
    | split

theorem State.pairBoundary_evo {K : Kinds} {s0 s : State} (h : Evolve K s0 s) (hk_unit : K.unit = true) :
    Evolve K s0 (State.pairBoundary s) := by
  unfold State.pairBoundary
  repeat' first
    | with_reducible assumption
    | (intro x; refine cut_evo (k := K) (s0 := s0) (x := x) ?_ ?_; rotate_left; intro hx; clear_value x; rotate_left; subst x)
    | (intro x; clear_value x)
    | lift_lets
    | with_reducible refine ite_evo (fun _ => ?_) (fun _ => ?_)
    | (with_reducible refine State.each_evo ?_ (fun s i h => ?_))
    | with_reducible refine State.modPair_evo ?_
    | with_reducible refine State.trackStep_evo ?_
    | with_reducible refine State.adoptImage_evo ?_
    | with_reducible refine State.adoptPort_evo ?_ hk_unit
    | (with_reducible refine foldl_evo ?_ (fun s i h => ?_))
    | (with_reducible refine upd_evo ?_; with_reducible assumption)
    | (with_reducible refine upd_evo ?_; with_reducible refine upd_evo ?_; with_reducible assumption)
    | split

end Sys2Proof.Machine
end

