-- ==== Sys2Proof/Laws/KeptLattice.lean ====
section
/-! SUPPORT. What the functions of Machine/Lattice.lean keep: each stays within `Evolve`. -/

set_option Elab.async false
set_option linter.unusedVariables false
set_option linter.unreachableTactic false
set_option linter.unusedTactic false
set_option linter.unusedSimpArgs false

namespace Sys2Proof.Machine

theorem State.latInit_evo {K : Kinds} {s0 s : State} {g : LatProg} (h : Evolve K s0 s) :
    Evolve K s0 (State.latInit s g) := by
  unfold State.latInit
  repeat' first
    | with_reducible assumption
    | with_reducible refine State.setN_evo ?_
    | with_reducible refine State.modLat_evo ?_
    | (with_reducible refine upd_evo ?_; with_reducible assumption)
    | (with_reducible refine upd_evo ?_; with_reducible refine upd_evo ?_; with_reducible assumption)

theorem State.unforce_evo {K : Kinds} {s0 s : State} {area idx : Nat} (h : Evolve K s0 s) :
    Evolve K s0 (State.unforce s area idx) := by
  unfold State.unforce
  repeat' first
    | with_reducible assumption
    | (intro x; refine cut_evo (k := K) (s0 := s0) (x := x) ?_ ?_; rotate_left; intro hx; clear_value x; rotate_left; subst x)
    | (intro x; refine cutSnd_evo (k := K) (s0 := s0) (x := x) ?_ ?_; rotate_left; intro hx; clear_value x; rotate_left; subst x)
    | (intro x; clear_value x)
    | lift_lets
    | with_reducible refine ite_evo (fun _ => ?_) (fun _ => ?_)
    | with_reducible refine State.setN_evo ?_
    | with_reducible refine State.raise_evo ?_
    | with_reducible refine State.modLat_evo ?_
    | (with_reducible refine upd_evo ?_; with_reducible assumption)
    | (with_reducible refine upd_evo ?_; with_reducible refine upd_evo ?_; with_reducible assumption)

theorem State.force_evo {K : Kinds} {s0 s : State} {area idx : Nat} (h : Evolve K s0 s) :
    Evolve K s0 (State.force s area idx) := by
  unfold State.force
  repeat' first
    | with_reducible assumption
    | (intro x; refine cut_evo (k := K) (s0 := s0) (x := x) ?_ ?_; rotate_left; intro hx; clear_value x; rotate_left; subst x)
    | (intro x; refine cutSnd_evo (k := K) (s0 := s0) (x := x) ?_ ?_; rotate_left; intro hx; clear_value x; rotate_left; subst x)
    | (intro x; clear_value x)
    | lift_lets
    | with_reducible refine State.setN_evo ?_
    | with_reducible refine State.raise_evo ?_
    | with_reducible refine State.modLat_evo ?_
    | (with_reducible refine upd_evo ?_; with_reducible assumption)
    | (with_reducible refine upd_evo ?_; with_reducible refine upd_evo ?_; with_reducible assumption)

theorem State.doLatForce_evo {K : Kinds} {s0 s : State} {v : Word} (h : Evolve K s0 s) :
    Evolve K s0 (State.doLatForce s v) := by
  unfold State.doLatForce
  repeat' first
    | with_reducible assumption
    | (intro x; refine cut_evo (k := K) (s0 := s0) (x := x) ?_ ?_; rotate_left; intro hx; clear_value x; rotate_left; subst x)
    | (intro x; clear_value x)
    | lift_lets
    | with_reducible refine ite_evo (fun _ => ?_) (fun _ => ?_)
    | with_reducible refine State.unforce_evo ?_
    | with_reducible refine State.force_evo ?_

theorem execLatticeForce_evo {K : Kinds} {t : Nat} {role : Role} {v : Word} {s0 s : State} (h : Evolve K s0 s) :
    ∃ s', (execLatticeForce t role v s) = .next s' ∧ Evolve K s0 s' := by
  unfold execLatticeForce
  refine ⟨_, rfl, ?_⟩
  replace h := State.advance_evo (t := t) h
  revert h
  generalize State.advance s t = s
  intro h
  repeat' first
    | with_reducible assumption
    | (intro x; refine cut_evo (k := K) (s0 := s0) (x := x) ?_ ?_; rotate_left; intro hx; clear_value x; rotate_left; subst x)
    | (intro x; clear_value x)
    | lift_lets
    | with_reducible refine State.advance_evo ?_
    | with_reducible refine State.cmdRow_evo ?_ ?_
    | with_reducible refine State.doLatForce_evo ?_

theorem execLatticeUnforce_evo {K : Kinds} {t : Nat} {role : Role} {v : Word} {s0 s : State} (h : Evolve K s0 s) :
    ∃ s', (execLatticeUnforce t role v s) = .next s' ∧ Evolve K s0 s' := by
  unfold execLatticeUnforce
  refine ⟨_, rfl, ?_⟩
  replace h := State.advance_evo (t := t) h
  revert h
  generalize State.advance s t = s
  intro h
  repeat' first
    | with_reducible assumption
    | (intro x; refine cut_evo (k := K) (s0 := s0) (x := x) ?_ ?_; rotate_left; intro hx; clear_value x; rotate_left; subst x)
    | (intro x; clear_value x)
    | lift_lets
    | with_reducible refine State.advance_evo ?_
    | with_reducible refine State.cmdRow_evo ?_ ?_
    | with_reducible refine State.doLatForce_evo ?_

theorem execLatFlagsClear_evo {K : Kinds} {t : Nat} {role : Role} {v : Word} {s0 s : State} (h : Evolve K s0 s) :
    ∃ s', (execLatFlagsClear t role v s) = .next s' ∧ Evolve K s0 s' := by
  unfold execLatFlagsClear
  refine ⟨_, rfl, ?_⟩
  replace h := State.advance_evo (t := t) h
  revert h
  generalize State.advance s t = s
  intro h
  repeat' first
    | with_reducible assumption
    | (intro x; refine cut_evo (k := K) (s0 := s0) (x := x) ?_ ?_; rotate_left; intro hx; clear_value x; rotate_left; subst x)
    | (intro x; clear_value x)
    | lift_lets
    | with_reducible refine ite_evo (fun _ => ?_) (fun _ => ?_)
    | with_reducible refine State.setN_evo ?_
    | with_reducible refine State.advance_evo ?_
    | with_reducible refine State.audited_evo ?_ ?_

theorem State.stationRead_evo {K : Kinds} {s0 s : State} {k : Nat} (h : Evolve K s0 s) :
    Evolve K s0 (State.stationRead s k) := by
  unfold State.stationRead
  repeat' first
    | with_reducible assumption
    | (intro x; refine cut_evo (k := K) (s0 := s0) (x := x) ?_ ?_; rotate_left; intro hx; clear_value x; rotate_left; subst x)
    | (intro x; clear_value x)
    | lift_lets
    | with_reducible refine ite_evo (fun _ => ?_) (fun _ => ?_)
    | with_reducible refine State.setN_evo ?_
    | (with_reducible refine State.onlyIf_evo ?_ (fun s h => ?_))
    | with_reducible refine State.modStation_evo ?_
    | (with_reducible refine upd_evo ?_; with_reducible assumption)
    | (with_reducible refine upd_evo ?_; with_reducible refine upd_evo ?_; with_reducible assumption)

theorem State.stationsBegin_evo {K : Kinds} {s0 s : State} (h : Evolve K s0 s) :
    Evolve K s0 (State.stationsBegin s) := by
  unfold State.stationsBegin
  repeat' first
    | with_reducible assumption
    | (intro x; refine cut_evo (k := K) (s0 := s0) (x := x) ?_ ?_; rotate_left; intro hx; clear_value x; rotate_left; subst x)
    | (intro x; clear_value x)
    | lift_lets
    | with_reducible refine State.setN_evo ?_
    | (with_reducible refine State.each_evo ?_ (fun s i h => ?_))
    | (with_reducible refine State.onlyIf_evo ?_ (fun s h => ?_))
    | with_reducible refine State.modStation_evo ?_
    | with_reducible refine State.stationLost_evo ?_
    | (with_reducible refine upd_evo ?_; with_reducible assumption)
    | (with_reducible refine upd_evo ?_; with_reducible refine upd_evo ?_; with_reducible assumption)

theorem State.inputRead_evo {K : Kinds} {s0 s : State} {di : Nat} (h : Evolve K s0 s) :
    Evolve K s0 (State.inputRead s di) := by
  unfold State.inputRead
  repeat' first
    | with_reducible assumption
    | (intro x; refine cut_evo (k := K) (s0 := s0) (x := x) ?_ ?_; rotate_left; intro hx; clear_value x; rotate_left; subst x)
    | (intro x; clear_value x)
    | lift_lets
    | (with_reducible refine State.each_evo ?_ (fun s i h => ?_))
    | with_reducible refine State.highWater_evo ?_
    | with_reducible refine State.modPort_evo ?_
    | with_reducible refine State.modLat_evo ?_
    | with_reducible refine State.stationRead_evo ?_
    | (with_reducible refine upd_evo ?_; with_reducible assumption)
    | (with_reducible refine upd_evo ?_; with_reducible refine upd_evo ?_; with_reducible assumption)

theorem State.latStart_evo {K : Kinds} {s0 s : State} {di : Nat} (h : Evolve K s0 s) :
    Evolve K s0 (State.latStart s di) := by
  unfold State.latStart
  repeat' first
    | with_reducible assumption
    | (intro x; refine cut_evo (k := K) (s0 := s0) (x := x) ?_ ?_; rotate_left; intro hx; clear_value x; rotate_left; subst x)
    | (intro x; clear_value x)
    | lift_lets
    | (with_reducible refine State.onlyIf_evo ?_ (fun s h => ?_))
    | with_reducible refine State.advance_evo ?_
    | with_reducible refine State.modLat_evo ?_
    | with_reducible refine State.stationsBegin_evo ?_
    | with_reducible refine State.inputRead_evo ?_
    | (with_reducible refine upd_evo ?_; with_reducible assumption)
    | (with_reducible refine upd_evo ?_; with_reducible refine upd_evo ?_; with_reducible assumption)
    | split

theorem execLatticeCycleStart_evo {K : Kinds} {t : Nat} {di : Nat} {s0 s : State} (h : Evolve K s0 s) :
    ∃ s', (execLatticeCycleStart t di s) = .next s' ∧ Evolve K s0 s' := by
  unfold execLatticeCycleStart
  refine ⟨_, rfl, ?_⟩
  replace h := State.advance_evo (t := t) h
  revert h
  generalize State.advance s t = s
  intro h
  repeat' first
    | with_reducible assumption
    | (intro x; refine cut_evo (k := K) (s0 := s0) (x := x) ?_ ?_; rotate_left; intro hx; clear_value x; rotate_left; subst x)
    | (intro x; clear_value x)
    | lift_lets
    | with_reducible refine ite_evo (fun _ => ?_) (fun _ => ?_)
    | with_reducible refine State.setN_evo ?_
    | with_reducible refine State.bump_evo ?_
    | with_reducible refine State.advance_evo ?_
    | (with_reducible refine State.recur_evo ?_ (fun s h => ?_))
    | with_reducible refine State.qLost_evo ?_
    | with_reducible refine State.raise_evo ?_
    | with_reducible refine State.modLat_evo ?_
    | with_reducible refine State.latStart_evo ?_
    | (with_reducible refine upd_evo ?_; with_reducible assumption)
    | (with_reducible refine upd_evo ?_; with_reducible refine upd_evo ?_; with_reducible assumption)

theorem State.latCalls_evo {K : Kinds} {s0 s : State} {cs : List LatCall} (h : Evolve K s0 s) :
    Evolve K s0 (State.latCalls s cs) := by
  unfold State.latCalls
  repeat' first
    | with_reducible assumption
    | with_reducible refine ite_evo (fun _ => ?_) (fun _ => ?_)
    | with_reducible refine State.modLat_evo ?_
    | (with_reducible refine foldl_evo ?_ (fun s i h => ?_))
    | (with_reducible refine upd_evo ?_; with_reducible assumption)
    | (with_reducible refine upd_evo ?_; with_reducible refine upd_evo ?_; with_reducible assumption)

theorem State.latArith_evo {K : Kinds} {s0 s : State} {c : LatArith} (h : Evolve K s0 s) :
    Evolve K s0 (State.latArith s c) := by
  unfold State.latArith
  repeat' first
    | with_reducible assumption
    | (intro x; refine cut_evo (k := K) (s0 := s0) (x := x) ?_ ?_; rotate_left; intro hx; clear_value x; rotate_left; subst x)
    | (intro x; clear_value x)
    | lift_lets
    | with_reducible refine ite_evo (fun _ => ?_) (fun _ => ?_)
    | with_reducible refine State.bump_evo ?_
    | with_reducible refine State.setBit_evo ?_
    | (with_reducible refine State.onlyIf_evo ?_ (fun s h => ?_))
    | with_reducible refine State.raise_evo ?_
    | with_reducible refine State.modLat_evo ?_
    | (with_reducible refine upd_evo ?_; with_reducible assumption)
    | (with_reducible refine upd_evo ?_; with_reducible refine upd_evo ?_; with_reducible assumption)

theorem State.applyWord_evo {K : Kinds} {s0 s : State} {p old w : Nat} (h : Evolve K s0 s) (hk_unit : K.unit = true) :
    Evolve K s0 (State.applyWord s p old w) := by
  unfold State.applyWord
  repeat' first
    | with_reducible assumption
    | (intro x; refine cut_evo (k := K) (s0 := s0) (x := x) ?_ ?_; rotate_left; intro hx; clear_value x; rotate_left; subst x)
    | (intro x; clear_value x)
    | lift_lets
    | with_reducible refine ite_evo (fun _ => ?_) (fun _ => ?_)
    | with_reducible refine State.bump_evo ?_
    | (with_reducible refine State.onlyIf_evo ?_ (fun s h => ?_))
    | with_reducible refine State.modPort_evo ?_
    | with_reducible refine State.inStep_evo ?_ ?_
    | with_reducible refine State.doEnergise_evo ?_ hk_unit
    | with_reducible refine State.doStop_evo ?_
    | with_reducible refine State.doStopUnit_evo ?_ hk_unit
    | with_reducible refine State.doClear_evo ?_ hk_unit
    | with_reducible refine State.sccRequest_evo ?_
    | (with_reducible refine upd_evo ?_; with_reducible assumption)
    | (with_reducible refine upd_evo ?_; with_reducible refine upd_evo ?_; with_reducible assumption)

theorem State.rpdo_evo {K : Kinds} {s0 s : State} {k which : Nat} {data : List Byte} (h : Evolve K s0 s) :
    Evolve K s0 (State.rpdo s k which data) := by
  unfold State.rpdo
  repeat' first
    | with_reducible assumption
    | split
    | with_reducible refine State.bump_evo ?_
    | with_reducible refine State.raise_evo ?_
    | with_reducible refine State.canSubmit_evo ?_
    | (refine snd_evo (by assumption) ?_)
    | (refine fst_evo (by assumption) ?_)
    | (with_reducible refine upd_evo ?_; with_reducible assumption)
    | (with_reducible refine upd_evo ?_; with_reducible refine upd_evo ?_; with_reducible assumption)
    | split

theorem State.stationWrite_evo {K : Kinds} {s0 s : State} {k : Nat} (h : Evolve K s0 s) :
    Evolve K s0 (State.stationWrite s k) := by
  unfold State.stationWrite
  repeat' first
    | with_reducible assumption
    | (intro x; refine cut_evo (k := K) (s0 := s0) (x := x) ?_ ?_; rotate_left; intro hx; clear_value x; rotate_left; subst x)
    | (intro x; clear_value x)
    | lift_lets
    | with_reducible refine ite_evo (fun _ => ?_) (fun _ => ?_)
    | (with_reducible refine State.onlyIf_evo ?_ (fun s h => ?_))
    | with_reducible refine State.rpdo_evo ?_

theorem State.outputWrite_evo {K : Kinds} {s0 s : State} {o : LatOut} (h : Evolve K s0 s) (hk_dout : K.dout = true) (hk_unit : K.unit = true) :
    Evolve K s0 (State.outputWrite s o) := by
  unfold State.outputWrite
  repeat' first
    | with_reducible assumption
    | (intro x; refine cut_evo (k := K) (s0 := s0) (x := x) ?_ ?_; rotate_left; intro hx; clear_value x; rotate_left; subst x)
    | (intro x; clear_value x)
    | lift_lets
    | (with_reducible refine State.each_evo ?_ (fun s i h => ?_))
    | (with_reducible refine State.onlyIf_evo ?_ (fun s h => ?_))
    | with_reducible refine State.modLat_evo ?_
    | with_reducible refine State.applyWord_evo ?_ hk_unit
    | with_reducible refine State.stationWrite_evo ?_
    | (with_reducible refine douts_evo hk_dout (by simp [bitsOf]) ?_; with_reducible assumption)
    | (with_reducible refine upd_evo ?_; with_reducible assumption)
    | (with_reducible refine upd_evo ?_; with_reducible refine upd_evo ?_; with_reducible assumption)
    | split

theorem State.unforceAll_evo {K : Kinds} {s0 s : State} (h : Evolve K s0 s) :
    Evolve K s0 (State.unforceAll s) := by
  unfold State.unforceAll
  repeat' first
    | with_reducible assumption
    | with_reducible refine State.unforce_evo ?_
    | (with_reducible refine foldl_evo ?_ (fun s i h => ?_))
    | (with_reducible refine foldlFst_evo ?_ (fun a x h => ?_))
    | (dsimp only; with_reducible assumption)
    | (with_reducible refine foldlSnd_evo ?_ (fun a x h => ?_))
    | (dsimp only; with_reducible assumption)

theorem State.latStop_evo {K : Kinds} {s0 s : State} (h : Evolve K s0 s) (hk_dout : K.dout = true) (hk_unit : K.unit = true) :
    Evolve K s0 (State.latStop s) := by
  unfold State.latStop
  repeat' first
    | with_reducible assumption
    | (intro x; refine cut_evo (k := K) (s0 := s0) (x := x) ?_ ?_; rotate_left; intro hx; clear_value x; rotate_left; subst x)
    | (intro x; clear_value x)
    | lift_lets
    | with_reducible refine State.setN_evo ?_
    | (with_reducible refine State.each_evo ?_ (fun s i h => ?_))
    | with_reducible refine State.raise_evo ?_
    | with_reducible refine State.modPort_evo ?_
    | with_reducible refine State.modLat_evo ?_
    | with_reducible refine State.enterFaultHold_evo ?_ hk_unit
    | with_reducible refine State.sccRequest_evo ?_
    | with_reducible refine State.unforceAll_evo ?_
    | (with_reducible refine douts_evo hk_dout (by simp [bitsOf]) ?_; with_reducible assumption)
    | (with_reducible refine upd_evo ?_; with_reducible assumption)
    | (with_reducible refine upd_evo ?_; with_reducible refine upd_evo ?_; with_reducible assumption)

theorem execLatticeExecutionEnd_evo {K : Kinds} {t : Nat} {out : LatOut} {s0 s : State} (h : Evolve K s0 s) (hk_dout : K.dout = true) (hk_unit : K.unit = true) :
    ∃ s', (execLatticeExecutionEnd t out s) = .next s' ∧ Evolve K s0 s' := by
  unfold execLatticeExecutionEnd
  refine ⟨_, rfl, ?_⟩
  replace h := State.advance_evo (t := t) h
  revert h
  generalize State.advance s t = s
  intro h
  repeat' first
    | with_reducible assumption
    | (intro x; refine cut_evo (k := K) (s0 := s0) (x := x) ?_ ?_; rotate_left; intro hx; clear_value x; rotate_left; subst x)
    | (intro x; clear_value x)
    | lift_lets
    | with_reducible refine ite_evo (fun _ => ?_) (fun _ => ?_)
    | with_reducible refine State.setN_evo ?_
    | with_reducible refine State.advance_evo ?_
    | with_reducible refine State.modLat_evo ?_
    | with_reducible refine State.latCalls_evo ?_
    | with_reducible refine State.latArith_evo ?_
    | with_reducible refine State.outputWrite_evo ?_ hk_dout hk_unit
    | with_reducible refine State.latStop_evo ?_ hk_dout hk_unit
    | (with_reducible refine foldl_evo ?_ (fun s i h => ?_))
    | (with_reducible refine foldlFst_evo ?_ (fun a x h => ?_))
    | (dsimp only; with_reducible assumption)
    | (with_reducible refine foldlSnd_evo ?_ (fun a x h => ?_))
    | (dsimp only; with_reducible assumption)
    | (with_reducible refine upd_evo ?_; with_reducible assumption)
    | (with_reducible refine upd_evo ?_; with_reducible refine upd_evo ?_; with_reducible assumption)

theorem execLatticeWatchdog_evo {K : Kinds} {t : Nat} {s0 s : State} (h : Evolve K s0 s) (hk_dout : K.dout = true) (hk_unit : K.unit = true) :
    ∃ s', (execLatticeWatchdog t s) = .next s' ∧ Evolve K s0 s' := by
  unfold execLatticeWatchdog
  refine ⟨_, rfl, ?_⟩
  replace h := State.advance_evo (t := t) h
  revert h
  generalize State.advance s t = s
  intro h
  repeat' first
    | with_reducible assumption
    | (intro x; refine cut_evo (k := K) (s0 := s0) (x := x) ?_ ?_; rotate_left; intro hx; clear_value x; rotate_left; subst x)
    | (intro x; clear_value x)
    | lift_lets
    | with_reducible refine ite_evo (fun _ => ?_) (fun _ => ?_)
    | with_reducible refine State.advance_evo ?_
    | with_reducible refine State.latStop_evo ?_ hk_dout hk_unit

theorem State.activateRefuse_evo {K : Kinds} {s0 s : State} {code : Nat} (h : Evolve K s0 s) :
    Evolve K s0 (State.activateRefuse s code) := by
  unfold State.activateRefuse
  repeat' first
    | with_reducible assumption
    | with_reducible refine State.setN_evo ?_
    | with_reducible refine State.raise_evo ?_

theorem State.doActivate_evo {K : Kinds} {s0 s : State} (h : Evolve K s0 s) :
    Evolve K s0 (State.doActivate s) := by
  unfold State.doActivate
  repeat' first
    | with_reducible assumption
    | (intro x; refine cut_evo (k := K) (s0 := s0) (x := x) ?_ ?_; rotate_left; intro hx; clear_value x; rotate_left; subst x)
    | (intro x; clear_value x)
    | lift_lets
    | with_reducible refine ite_evo (fun _ => ?_) (fun _ => ?_)
    | with_reducible refine State.modLat_evo ?_
    | with_reducible refine State.activateRefuse_evo ?_
    | (with_reducible refine upd_evo ?_; with_reducible assumption)
    | (with_reducible refine upd_evo ?_; with_reducible refine upd_evo ?_; with_reducible assumption)

theorem execLatActivate_evo {K : Kinds} {t : Nat} {role : Role} {v : Word} {s0 s : State} (h : Evolve K s0 s) :
    ∃ s', (execLatActivate t role v s) = .next s' ∧ Evolve K s0 s' := by
  unfold execLatActivate
  refine ⟨_, rfl, ?_⟩
  replace h := State.advance_evo (t := t) h
  revert h
  generalize State.advance s t = s
  intro h
  repeat' first
    | with_reducible assumption
    | (intro x; refine cut_evo (k := K) (s0 := s0) (x := x) ?_ ?_; rotate_left; intro hx; clear_value x; rotate_left; subst x)
    | (intro x; clear_value x)
    | lift_lets
    | with_reducible refine ite_evo (fun _ => ?_) (fun _ => ?_)
    | with_reducible refine State.advance_evo ?_
    | with_reducible refine State.roleRow_evo ?_ ?_
    | with_reducible refine State.doActivate_evo ?_

theorem State.exchange_evo {K : Kinds} {s0 s : State} {g : LatProg} (h : Evolve K s0 s) :
    Evolve K s0 (State.exchange s g) := by
  unfold State.exchange
  repeat' first
    | with_reducible assumption
    | (intro x; refine cut_evo (k := K) (s0 := s0) (x := x) ?_ ?_; rotate_left; intro hx; clear_value x; rotate_left; subst x)
    | (intro x; refine cutSnd_evo (k := K) (s0 := s0) (x := x) ?_ ?_; rotate_left; intro hx; clear_value x; rotate_left; subst x)
    | (intro x; clear_value x)
    | lift_lets
    | with_reducible refine ite_evo (fun _ => ?_) (fun _ => ?_)
    | with_reducible refine State.setN_evo ?_
    | with_reducible refine State.bump_evo ?_
    | with_reducible refine State.raise_evo ?_
    | with_reducible refine State.modLat_evo ?_
    | (with_reducible refine upd_evo ?_; with_reducible assumption)
    | (with_reducible refine upd_evo ?_; with_reducible refine upd_evo ?_; with_reducible assumption)

theorem execProgramExchange_evo {K : Kinds} {t : Nat} {crcOk : Bool} {s0 s : State} (h : Evolve K s0 s) :
    ∃ s', (execProgramExchange t crcOk s) = .next s' ∧ Evolve K s0 s' := by
  unfold execProgramExchange
  refine ⟨_, rfl, ?_⟩
  replace h := State.advance_evo (t := t) h
  revert h
  generalize State.advance s t = s
  intro h
  repeat' first
    | with_reducible assumption
    | (intro x; refine cut_evo (k := K) (s0 := s0) (x := x) ?_ ?_; rotate_left; intro hx; clear_value x; rotate_left; subst x)
    | (intro x; clear_value x)
    | lift_lets
    | with_reducible refine ite_evo (fun _ => ?_) (fun _ => ?_)
    | with_reducible refine State.advance_evo ?_
    | with_reducible refine State.modLat_evo ?_
    | with_reducible refine State.activateRefuse_evo ?_
    | with_reducible refine State.exchange_evo ?_
    | (with_reducible refine upd_evo ?_; with_reducible assumption)
    | (with_reducible refine upd_evo ?_; with_reducible refine upd_evo ?_; with_reducible assumption)
    | split

theorem State.heartbeat_evo {K : Kinds} {s0 s : State} {k state : Nat} (h : Evolve K s0 s) :
    Evolve K s0 (State.heartbeat s k state) := by
  unfold State.heartbeat
  repeat' first
    | with_reducible assumption
    | (intro x; refine cut_evo (k := K) (s0 := s0) (x := x) ?_ ?_; rotate_left; intro hx; clear_value x; rotate_left; subst x)
    | (intro x; clear_value x)
    | lift_lets
    | with_reducible refine ite_evo (fun _ => ?_) (fun _ => ?_)
    | (with_reducible refine State.onlyIf_evo ?_ (fun s h => ?_))
    | with_reducible refine State.raise_evo ?_
    | with_reducible refine State.modStation_evo ?_
    | with_reducible refine State.stationLost_evo ?_
    | with_reducible refine State.canSubmit_evo ?_
    | (refine snd_evo (by assumption) ?_)
    | (refine fst_evo (by assumption) ?_)
    | (with_reducible refine upd_evo ?_; with_reducible assumption)
    | (with_reducible refine upd_evo ?_; with_reducible refine upd_evo ?_; with_reducible assumption)

theorem execHeartbeatReceive_evo {K : Kinds} {t : Nat} {st : Nat} {state : Nat} {s0 s : State} (h : Evolve K s0 s) :
    ∃ s', (execHeartbeatReceive t st state s) = .next s' ∧ Evolve K s0 s' := by
  unfold execHeartbeatReceive
  refine ⟨_, rfl, ?_⟩
  replace h := State.advance_evo (t := t) h
  revert h
  generalize State.advance s t = s
  intro h
  repeat' first
    | with_reducible assumption
    | with_reducible refine State.advance_evo ?_
    | with_reducible refine State.heartbeat_evo ?_

theorem execHeartbeatTimeout_evo {K : Kinds} {t : Nat} {st : Nat} {s0 s : State} (h : Evolve K s0 s) :
    ∃ s', (execHeartbeatTimeout t st s) = .next s' ∧ Evolve K s0 s' := by
  unfold execHeartbeatTimeout
  refine ⟨_, rfl, ?_⟩
  replace h := State.advance_evo (t := t) h
  revert h
  generalize State.advance s t = s
  intro h
  repeat' first
    | with_reducible assumption
    | (intro x; refine cut_evo (k := K) (s0 := s0) (x := x) ?_ ?_; rotate_left; intro hx; clear_value x; rotate_left; subst x)
    | (intro x; clear_value x)
    | lift_lets
    | with_reducible refine ite_evo (fun _ => ?_) (fun _ => ?_)
    | with_reducible refine State.advance_evo ?_
    | with_reducible refine State.stationLost_evo ?_

theorem State.tpdo_evo {K : Kinds} {s0 s : State} {k n : Nat} {bs : List Byte} (h : Evolve K s0 s) :
    Evolve K s0 (State.tpdo s k n bs) := by
  unfold State.tpdo
  repeat' first
    | with_reducible assumption
    | (intro x; refine cut_evo (k := K) (s0 := s0) (x := x) ?_ ?_; rotate_left; intro hx; clear_value x; rotate_left; subst x)
    | (intro x; clear_value x)
    | lift_lets
    | with_reducible refine ite_evo (fun _ => ?_) (fun _ => ?_)
    | with_reducible refine State.bump_evo ?_
    | with_reducible refine State.modStation_evo ?_
    | (with_reducible refine upd_evo ?_; with_reducible assumption)
    | (with_reducible refine upd_evo ?_; with_reducible refine upd_evo ?_; with_reducible assumption)
    | split

theorem execTpdoReceive_evo {K : Kinds} {t : Nat} {st n : Nat} {bytes : List Byte} {s0 s : State} (h : Evolve K s0 s) :
    ∃ s', (execTpdoReceive t st n bytes s) = .next s' ∧ Evolve K s0 s' := by
  unfold execTpdoReceive
  refine ⟨_, rfl, ?_⟩
  replace h := State.advance_evo (t := t) h
  revert h
  generalize State.advance s t = s
  intro h
  repeat' first
    | with_reducible assumption
    | (intro x; refine cut_evo (k := K) (s0 := s0) (x := x) ?_ ?_; rotate_left; intro hx; clear_value x; rotate_left; subst x)
    | (intro x; clear_value x)
    | lift_lets
    | with_reducible refine ite_evo (fun _ => ?_) (fun _ => ?_)
    | with_reducible refine State.advance_evo ?_
    | with_reducible refine State.tpdo_evo ?_

end Sys2Proof.Machine
end

