-- ==== Sys2Proof/Laws/KeptInject.lean ====
section
/-! SUPPORT. What the functions of Machine/Inject.lean keep: each stays within `Evolve`. -/

set_option Elab.async false
set_option linter.unusedVariables false
set_option linter.unreachableTactic false
set_option linter.unusedTactic false
set_option linter.unusedSimpArgs false

namespace Sys2Proof.Machine

theorem State.injBegin_evo {K : Kinds} {s0 s : State} (h : Evolve K s0 s) :
    Evolve K s0 (State.injBegin s) := by
  unfold State.injBegin
  repeat' first
    | with_reducible assumption
    | (intro x; refine cut_evo (k := K) (s0 := s0) (x := x) ?_ ?_; rotate_left; intro hx; clear_value x; rotate_left; subst x)
    | (intro x; clear_value x)
    | lift_lets
    | with_reducible refine State.setN_evo ?_
    | with_reducible refine State.bump_evo ?_
    | (with_reducible refine State.onlyIf_evo ?_ (fun s h => ?_))
    | with_reducible refine State.raise_evo ?_
    | with_reducible refine State.injAbort_evo ?_
    | with_reducible refine State.modFn_evo ?_
    | with_reducible refine State.crumbBegin_evo ?_
    | (with_reducible refine upd_evo ?_; with_reducible assumption)
    | (with_reducible refine upd_evo ?_; with_reducible refine upd_evo ?_; with_reducible assumption)

theorem State.doInjStart_evo {K : Kinds} {s0 s : State} (h : Evolve K s0 s) :
    Evolve K s0 (State.doInjStart s) := by
  unfold State.doInjStart
  repeat' first
    | with_reducible assumption
    | (intro x; refine cut_evo (k := K) (s0 := s0) (x := x) ?_ ?_; rotate_left; intro hx; clear_value x; rotate_left; subst x)
    | (intro x; clear_value x)
    | lift_lets
    | with_reducible refine ite_evo (fun _ => ?_) (fun _ => ?_)
    | with_reducible refine State.fresh_evo ?_
    | with_reducible refine State.raise_evo ?_
    | with_reducible refine State.injBegin_evo ?_
    | (refine snd_evo (by assumption) ?_)
    | (refine fst_evo (by assumption) ?_)
    | split

theorem State.doInjCmd_evo {K : Kinds} {s0 s : State} {v : Word} (h : Evolve K s0 s) :
    Evolve K s0 (State.doInjCmd s v) := by
  unfold State.doInjCmd
  repeat' first
    | with_reducible assumption
    | with_reducible refine ite_evo (fun _ => ?_) (fun _ => ?_)
    | with_reducible refine State.injAbort_evo ?_
    | with_reducible refine State.doInjStart_evo ?_

theorem execInjStart_evo {K : Kinds} {t : Nat} {role : Role} {s0 s : State} (h : Evolve K s0 s) :
    ∃ s', (execInjStart t role s) = .next s' ∧ Evolve K s0 s' := by
  unfold execInjStart
  refine ⟨_, rfl, ?_⟩
  replace h := State.advance_evo (t := t) h
  revert h
  generalize State.advance s t = s
  intro h
  repeat' first
    | with_reducible assumption
    | (intro x; refine cut_evo (k := K) (s0 := s0) (x := x) ?_ ?_; rotate_left; intro hx; clear_value x; rotate_left; subst x)
    | (intro x; clear_value x)
    | lift_lets
    | with_reducible refine State.advance_evo ?_
    | with_reducible refine State.roleRow_evo ?_ ?_
    | with_reducible refine State.doInjCmd_evo ?_

theorem execInjStop_evo {K : Kinds} {t : Nat} {role : Role} {s0 s : State} (h : Evolve K s0 s) :
    ∃ s', (execInjStop t role s) = .next s' ∧ Evolve K s0 s' := by
  unfold execInjStop
  refine ⟨_, rfl, ?_⟩
  replace h := State.advance_evo (t := t) h
  revert h
  generalize State.advance s t = s
  intro h
  repeat' first
    | with_reducible assumption
    | (intro x; refine cut_evo (k := K) (s0 := s0) (x := x) ?_ ?_; rotate_left; intro hx; clear_value x; rotate_left; subst x)
    | (intro x; clear_value x)
    | lift_lets
    | with_reducible refine State.advance_evo ?_
    | with_reducible refine State.roleRow_evo ?_ ?_
    | with_reducible refine State.doInjCmd_evo ?_

theorem State.injRead_evo {K : Kinds} {s0 s : State} (h : Evolve K s0 s) :
    Evolve K s0 (State.injRead s) := by
  unfold State.injRead
  repeat' first
    | with_reducible assumption
    | (intro x; refine cut_evo (k := K) (s0 := s0) (x := x) ?_ ?_; rotate_left; intro hx; clear_value x; rotate_left; subst x)
    | (intro x; clear_value x)
    | lift_lets
    | with_reducible refine ite_evo (fun _ => ?_) (fun _ => ?_)
    | (with_reducible refine upd_evo ?_; with_reducible assumption)
    | (with_reducible refine upd_evo ?_; with_reducible refine upd_evo ?_; with_reducible assumption)

theorem State.ssTake_evo {K : Kinds} {s0 s : State} (h : Evolve K s0 s) :
    Evolve K s0 (State.ssTake s) := by
  unfold State.ssTake
  repeat' first
    | with_reducible assumption
    | (intro x; refine cut_evo (k := K) (s0 := s0) (x := x) ?_ ?_; rotate_left; intro hx; clear_value x; rotate_left; subst x)
    | (intro x; clear_value x)
    | lift_lets
    | with_reducible refine ite_evo (fun _ => ?_) (fun _ => ?_)
    | (with_reducible refine upd_evo ?_; with_reducible assumption)
    | (with_reducible refine upd_evo ?_; with_reducible refine upd_evo ?_; with_reducible assumption)

theorem State.ssNext_evo {K : Kinds} {s0 s : State} (h : Evolve K s0 s) :
    Evolve K s0 (State.ssNext s) := by
  unfold State.ssNext
  repeat' first
    | with_reducible assumption
    | (intro x; refine cut_evo (k := K) (s0 := s0) (x := x) ?_ ?_; rotate_left; intro hx; clear_value x; rotate_left; subst x)
    | (intro x; clear_value x)
    | lift_lets
    | (with_reducible refine upd_evo ?_; with_reducible assumption)
    | (with_reducible refine upd_evo ?_; with_reducible refine upd_evo ?_; with_reducible assumption)

theorem State.injTake_evo {K : Kinds} {s0 s : State} {boundary : Bool} (h : Evolve K s0 s) :
    Evolve K s0 (State.injTake s boundary) := by
  unfold State.injTake
  repeat' first
    | with_reducible assumption
    | (intro x; refine cut_evo (k := K) (s0 := s0) (x := x) ?_ ?_; rotate_left; intro hx; clear_value x; rotate_left; subst x)
    | (intro x; clear_value x)
    | lift_lets
    | with_reducible refine ite_evo (fun _ => ?_) (fun _ => ?_)
    | (with_reducible refine State.onlyIf_evo ?_ (fun s h => ?_))
    | with_reducible refine State.injRead_evo ?_
    | with_reducible refine State.ssTake_evo ?_
    | with_reducible refine State.ssNext_evo ?_

theorem State.injPeriod_evo {K : Kinds} {s0 s : State} {boundary : Bool} (h : Evolve K s0 s) :
    Evolve K s0 (State.injPeriod s boundary) := by
  unfold State.injPeriod
  repeat' first
    | with_reducible assumption
    | (intro x; refine cut_evo (k := K) (s0 := s0) (x := x) ?_ ?_; rotate_left; intro hx; clear_value x; rotate_left; subst x)
    | (intro x; clear_value x)
    | lift_lets
    | with_reducible refine ite_evo (fun _ => ?_) (fun _ => ?_)
    | (with_reducible refine State.onlyIf_evo ?_ (fun s h => ?_))
    | (with_reducible refine upd_evo ?_; with_reducible assumption)
    | (with_reducible refine upd_evo ?_; with_reducible refine upd_evo ?_; with_reducible assumption)

theorem fresh2_evo {K : Kinds} {s0 s : State} (h : Evolve K s0 s) : Evolve K s0 s.fresh.2.fresh.2 := State.fresh_evo (State.fresh_evo h)

theorem State.frPair_evo {K : Kinds} {s0 s : State} (h : Evolve K s0 s) : Evolve K s0 s.frPair.2 := by
  unfold State.frPair
  generalize magOf s.inj.sumA s.ssN = m
  generalize normSq s.inj.sumB = n
  generalize u32z (gainOf s.inj.sumA s.inj.sumB) = g
  generalize u32z (phaseOf s.inj.sumA s.inj.sumB) = f
  exact iteSnd_evo (fun _ => h) fun _ => iteSnd_evo (fun _ => fresh2_evo h) fun _ => h

theorem execFrPointComplete_evo {K : Kinds} {t : Nat} {_freq _gain _phase _magA : Unit} {s0 s : State} (h : Evolve K s0 s) :
    ∃ s', (execFrPointComplete t _freq _gain _phase _magA s) = .next s' ∧ Evolve K s0 s' := by
  unfold execFrPointComplete
  refine ⟨_, rfl, ?_⟩
  replace h := State.advance_evo (t := t) h
  revert h
  generalize State.advance s t = s
  intro h
  have hp := State.frPair_evo h
  generalize s.frPair = e at hp ⊢
  generalize leBytes 4 (magOf s.inj.sumA s.ssN) = m
  exact ite_evo (fun _ => State.bump_evo (State.ssNext_evo (upd_evo hp))) fun _ => h

theorem execInjectionComplete_evo {K : Kinds} {t : Nat} {s0 s : State} (h : Evolve K s0 s) :
    ∃ s', (execInjectionComplete t s) = .next s' ∧ Evolve K s0 s' := by
  unfold execInjectionComplete
  refine ⟨_, rfl, ?_⟩
  replace h := State.advance_evo (t := t) h
  revert h
  generalize State.advance s t = s
  intro h
  repeat' first
    | with_reducible assumption
    | (intro x; refine cut_evo (k := K) (s0 := s0) (x := x) ?_ ?_; rotate_left; intro hx; clear_value x; rotate_left; subst x)
    | (intro x; clear_value x)
    | lift_lets
    | with_reducible refine ite_evo (fun _ => ?_) (fun _ => ?_)
    | with_reducible refine State.setN_evo ?_
    | with_reducible refine State.advance_evo ?_
    | with_reducible refine State.raise_evo ?_

end Sys2Proof.Machine
end

