-- ==== Sys2Proof/Laws/KeptFlash.lean ====
section
/-! SUPPORT. What the functions of Machine/Flash.lean keep: each stays within `Evolve`. -/

set_option Elab.async false
set_option linter.unusedVariables false
set_option linter.unreachableTactic false
set_option linter.unusedTactic false
set_option linter.unusedSimpArgs false

namespace Sys2Proof.Machine

theorem State.flashWrite_evo {K : Kinds} {s0 s : State} {a : Nat} {bs : List Byte} (h : Evolve K s0 s) (hk_flash : K.flash = true) :
    Evolve K s0 (State.flashWrite s a bs) := by
  exact .flash a bs hk_flash h

theorem State.flashErase_evo {K : Kinds} {s0 s : State} {a n : Nat} (h : Evolve K s0 s) (hk_flash : K.flash = true) :
    Evolve K s0 (State.flashErase s a n) := by
  exact .erase a n hk_flash h

end Sys2Proof.Machine
end

