-- ==== Sys2Proof/Laws/KeptBoot.lean ====
section
/-! SUPPORT. What the functions of Machine/Boot.lean keep: each stays within `Evolve`. -/

set_option Elab.async false
set_option linter.unusedVariables false
set_option linter.unreachableTactic false
set_option linter.unusedTactic false
set_option linter.unusedSimpArgs false

namespace Sys2Proof.Machine

theorem State.resetAll_evo {K : Kinds} {s0 s : State} (h : Evolve K s0 s) (hk_reset : K.reset = true) :
    Evolve K s0 (State.resetAll s) := by
  exact State.setN_evo (.reset (fun e => keptId e.1) hk_reset h rfl rfl)

theorem State.toReset_evo {K : Kinds} {s0 s : State} {cause : Nat} {uv : Bool} (h : Evolve K s0 s) (hk_reset : K.reset = true) (hk_unit : K.unit = true) :
    Evolve K s0 (State.toReset s cause uv) := by
  unfold State.toReset
  repeat' first
    | with_reducible assumption
    | (intro x; refine cut_evo (k := K) (s0 := s0) (x := x) ?_ ?_; rotate_left; intro hx; clear_value x; rotate_left; subst x)
    | (intro x; refine cutSnd_evo (k := K) (s0 := s0) (x := x) ?_ ?_; rotate_left; intro hx; clear_value x; rotate_left; subst x)
    | (intro x; clear_value x)
    | lift_lets
    | with_reducible refine State.setN_evo ?_
    | with_reducible refine State.raise_evo ?_
    | with_reducible refine State.resetAll_evo ?_ hk_reset
    | (with_reducible refine foldl_evo ?_ (fun s i h => ?_))
    | (with_reducible refine foldlFst_evo ?_ (fun a x h => ?_))
    | (dsimp only; with_reducible assumption)
    | (with_reducible refine foldlSnd_evo ?_ (fun a x h => ?_))
    | (dsimp only; with_reducible assumption)
    | (with_reducible refine updUnit_evo hk_unit ?_; with_reducible assumption)
    | (with_reducible refine upd_evo ?_; with_reducible assumption)
    | (with_reducible refine upd_evo ?_; with_reducible refine upd_evo ?_; with_reducible assumption)

theorem execVinRise_evo {K : Kinds} {t : Nat} {s0 s : State} (h : Evolve K s0 s) (hk_reset : K.reset = true) (hk_unit : K.unit = true) :
    ∃ s', (execVinRise t s) = .next s' ∧ Evolve K s0 s' := by
  unfold execVinRise
  refine ⟨_, rfl, ?_⟩
  replace h := State.advance_evo (t := t) h
  revert h
  generalize State.advance s t = s
  intro h
  repeat' first
    | with_reducible assumption
    | (intro x; refine cut_evo (k := K) (s0 := s0) (x := x) ?_ ?_; rotate_left; intro hx; clear_value x; rotate_left; subst x)
    | (intro x; clear_value x)
    | lift_lets
    | with_reducible refine ite_evo (fun _ => ?_) (fun _ => ?_)
    | with_reducible refine State.advance_evo ?_
    | with_reducible refine State.toReset_evo ?_ hk_reset hk_unit
    | (with_reducible refine updUnit_evo hk_unit ?_; with_reducible assumption)
    | (with_reducible refine upd_evo ?_; with_reducible assumption)
    | (with_reducible refine upd_evo ?_; with_reducible refine upd_evo ?_; with_reducible assumption)

theorem execVinUndervoltage_evo {K : Kinds} {t : Nat} {s0 s : State} (h : Evolve K s0 s) (hk_reset : K.reset = true) (hk_unit : K.unit = true) :
    ∃ s', (execVinUndervoltage t s) = .next s' ∧ Evolve K s0 s' := by
  unfold execVinUndervoltage
  refine ⟨_, rfl, ?_⟩
  replace h := State.advance_evo (t := t) h
  revert h
  generalize State.advance s t = s
  intro h
  repeat' first
    | with_reducible assumption
    | (intro x; refine cut_evo (k := K) (s0 := s0) (x := x) ?_ ?_; rotate_left; intro hx; clear_value x; rotate_left; subst x)
    | (intro x; clear_value x)
    | lift_lets
    | with_reducible refine ite_evo (fun _ => ?_) (fun _ => ?_)
    | with_reducible refine State.advance_evo ?_
    | with_reducible refine State.toReset_evo ?_ hk_reset hk_unit

theorem execControlSupplyLost_evo {K : Kinds} {t : Nat} {s0 s : State} (h : Evolve K s0 s) (hk_reset : K.reset = true) (hk_unit : K.unit = true) :
    ∃ s', (execControlSupplyLost t s) = .next s' ∧ Evolve K s0 s' := by
  unfold execControlSupplyLost
  refine ⟨_, rfl, ?_⟩
  replace h := State.advance_evo (t := t) h
  revert h
  generalize State.advance s t = s
  intro h
  repeat' first
    | with_reducible assumption
    | (intro x; refine cut_evo (k := K) (s0 := s0) (x := x) ?_ ?_; rotate_left; intro hx; clear_value x; rotate_left; subst x)
    | (intro x; clear_value x)
    | lift_lets
    | with_reducible refine State.setN_evo ?_
    | with_reducible refine State.advance_evo ?_
    | with_reducible refine State.resetAll_evo ?_ hk_reset
    | (with_reducible refine updUnit_evo hk_unit ?_; with_reducible refine State.resetAll_evo ?_ hk_reset)
    | (with_reducible refine updUnit_evo hk_unit ?_; with_reducible assumption)
    | (with_reducible refine upd_evo ?_; with_reducible assumption)
    | (with_reducible refine upd_evo ?_; with_reducible refine upd_evo ?_; with_reducible assumption)

theorem execShellWatchdogExpiry_evo {K : Kinds} {t : Nat} {s0 s : State} (h : Evolve K s0 s) (hk_reset : K.reset = true) (hk_unit : K.unit = true) :
    ∃ s', (execShellWatchdogExpiry t s) = .next s' ∧ Evolve K s0 s' := by
  unfold execShellWatchdogExpiry
  refine ⟨_, rfl, ?_⟩
  replace h := State.advance_evo (t := t) h
  revert h
  generalize State.advance s t = s
  intro h
  repeat' first
    | with_reducible assumption
    | (intro x; refine cut_evo (k := K) (s0 := s0) (x := x) ?_ ?_; rotate_left; intro hx; clear_value x; rotate_left; subst x)
    | (intro x; clear_value x)
    | lift_lets
    | with_reducible refine ite_evo (fun _ => ?_) (fun _ => ?_)
    | with_reducible refine State.advance_evo ?_
    | with_reducible refine State.toReset_evo ?_ hk_reset hk_unit

theorem State.doRestart_evo {K : Kinds} {s0 s : State} (h : Evolve K s0 s) (hk_reset : K.reset = true) (hk_unit : K.unit = true) :
    Evolve K s0 (State.doRestart s) := by
  unfold State.doRestart
  repeat' first
    | with_reducible assumption
    | with_reducible refine State.toReset_evo ?_ hk_reset hk_unit

theorem execRestart_evo {K : Kinds} {t : Nat} {role : Role} {v : Word} {s0 s : State} (h : Evolve K s0 s) (hk_reset : K.reset = true) (hk_unit : K.unit = true) :
    ∃ s', (execRestart t role v s) = .next s' ∧ Evolve K s0 s' := by
  unfold execRestart
  refine ⟨_, rfl, ?_⟩
  replace h := State.advance_evo (t := t) h
  revert h
  generalize State.advance s t = s
  intro h
  repeat' first
    | with_reducible assumption
    | (intro x; refine cut_evo (k := K) (s0 := s0) (x := x) ?_ ?_; rotate_left; intro hx; clear_value x; rotate_left; subst x)
    | (intro x; clear_value x)
    | lift_lets
    | with_reducible refine State.advance_evo ?_
    | with_reducible refine State.cmdRow_evo ?_ ?_
    | with_reducible refine State.doRestart_evo ?_ hk_reset hk_unit

theorem execResetComplete_evo {K : Kinds} {t : Nat} {s0 s : State} (h : Evolve K s0 s) (hk_unit : K.unit = true) :
    ∃ s', (execResetComplete t s) = .next s' ∧ Evolve K s0 s' := by
  unfold execResetComplete
  refine ⟨_, rfl, ?_⟩
  replace h := State.advance_evo (t := t) h
  revert h
  generalize State.advance s t = s
  intro h
  repeat' first
    | with_reducible assumption
    | (intro x; refine cut_evo (k := K) (s0 := s0) (x := x) ?_ ?_; rotate_left; intro hx; clear_value x; rotate_left; subst x)
    | (intro x; clear_value x)
    | lift_lets
    | with_reducible refine ite_evo (fun _ => ?_) (fun _ => ?_)
    | with_reducible refine State.advance_evo ?_
    | with_reducible refine State.gotoUnit_evo ?_ hk_unit
    | (with_reducible refine updUnit_evo hk_unit ?_; with_reducible assumption)
    | (with_reducible refine upd_evo ?_; with_reducible assumption)
    | (with_reducible refine upd_evo ?_; with_reducible refine upd_evo ?_; with_reducible assumption)

theorem State.modRef_evo {K : Kinds} {s0 s : State} {f : RefSt → RefSt} (h : Evolve K s0 s) :
    Evolve K s0 (State.modRef s f) := by
  unfold State.modRef
  repeat' first
    | with_reducible assumption
    | (with_reducible refine upd_evo ?_; with_reducible assumption)
    | (with_reducible refine upd_evo ?_; with_reducible refine upd_evo ?_; with_reducible assumption)

theorem State.attemptOn_evo {K : Kinds} {s0 s : State} {target : RefSrc} {kind : AttemptKind} (h : Evolve K s0 s) :
    Evolve K s0 (State.attemptOn s target kind) := by
  unfold State.attemptOn
  repeat' first
    | with_reducible assumption
    | with_reducible refine State.setN_evo ?_
    | with_reducible refine State.modRef_evo ?_
    | (with_reducible refine upd_evo ?_; with_reducible assumption)
    | (with_reducible refine upd_evo ?_; with_reducible refine upd_evo ?_; with_reducible assumption)

theorem State.relockExhausted_evo {K : Kinds} {s0 s : State} (h : Evolve K s0 s) (hk_unit : K.unit = true) :
    Evolve K s0 (State.relockExhausted s) := by
  unfold State.relockExhausted
  repeat' first
    | with_reducible assumption
    | (intro x; refine cut_evo (k := K) (s0 := s0) (x := x) ?_ ?_; rotate_left; intro hx; clear_value x; rotate_left; subst x)
    | (intro x; clear_value x)
    | lift_lets
    | with_reducible refine State.raise_evo ?_
    | with_reducible refine State.enterFaultHold_evo ?_ hk_unit
    | with_reducible refine State.modRef_evo ?_
    | (with_reducible refine upd_evo ?_; with_reducible assumption)
    | (with_reducible refine upd_evo ?_; with_reducible refine upd_evo ?_; with_reducible assumption)

theorem State.onFallback_evo {K : Kinds} {s0 s : State} (h : Evolve K s0 s) :
    Evolve K s0 (State.onFallback s) := by
  unfold State.onFallback
  repeat' first
    | with_reducible assumption
    | with_reducible refine State.setTimeState_evo ?_
    | with_reducible refine State.attemptOn_evo ?_

theorem State.attemptLost_evo {K : Kinds} {s0 s : State} (h : Evolve K s0 s) (hk_unit : K.unit = true) :
    Evolve K s0 (State.attemptLost s) := by
  unfold State.attemptLost
  repeat' first
    | with_reducible assumption
    | (intro x; refine cut_evo (k := K) (s0 := s0) (x := x) ?_ ?_; rotate_left; intro hx; clear_value x; rotate_left; subst x)
    | (intro x; clear_value x)
    | lift_lets
    | with_reducible refine ite_evo (fun _ => ?_) (fun _ => ?_)
    | with_reducible refine State.setN_evo ?_
    | (with_reducible refine State.onlyIf_evo ?_ (fun s h => ?_))
    | with_reducible refine State.modRef_evo ?_
    | with_reducible refine State.attemptOn_evo ?_
    | with_reducible refine State.relockExhausted_evo ?_ hk_unit
    | with_reducible refine State.onFallback_evo ?_
    | (with_reducible refine upd_evo ?_; with_reducible assumption)
    | (with_reducible refine upd_evo ?_; with_reducible refine upd_evo ?_; with_reducible assumption)
    | split

theorem State.countAttempt_evo {K : Kinds} {s0 s : State} (h : Evolve K s0 s) :
    Evolve K s0 (State.countAttempt s) := by
  unfold State.countAttempt
  repeat' first
    | with_reducible assumption
    | with_reducible refine State.setN_evo ?_
    | with_reducible refine State.modRef_evo ?_
    | (with_reducible refine upd_evo ?_; with_reducible assumption)
    | (with_reducible refine upd_evo ?_; with_reducible refine upd_evo ?_; with_reducible assumption)

theorem State.attemptFailed_evo {K : Kinds} {s0 s : State} {a : Attempt} (h : Evolve K s0 s) (hk_unit : K.unit = true) :
    Evolve K s0 (State.attemptFailed s a) := by
  unfold State.attemptFailed
  repeat' first
    | with_reducible assumption
    | (intro x; refine cut_evo (k := K) (s0 := s0) (x := x) ?_ ?_; rotate_left; intro hx; clear_value x; rotate_left; subst x)
    | (intro x; clear_value x)
    | lift_lets
    | with_reducible refine ite_evo (fun _ => ?_) (fun _ => ?_)
    | with_reducible refine State.modRef_evo ?_
    | with_reducible refine State.attemptOn_evo ?_
    | with_reducible refine State.attemptLost_evo ?_ hk_unit
    | with_reducible refine State.countAttempt_evo ?_
    | (with_reducible refine upd_evo ?_; with_reducible assumption)
    | (with_reducible refine upd_evo ?_; with_reducible refine upd_evo ?_; with_reducible assumption)
    | split

theorem execBootReferenceSelect_evo {K : Kinds} {t : Nat} {crystal : Bool} {refInKHz : Nat} {s0 s : State} (h : Evolve K s0 s) (hk_unit : K.unit = true) :
    ∃ s', (execBootReferenceSelect t crystal refInKHz s) = .next s' ∧ Evolve K s0 s' := by
  unfold execBootReferenceSelect
  refine ⟨_, rfl, ?_⟩
  replace h := State.advance_evo (t := t) h
  revert h
  generalize State.advance s t = s
  intro h
  repeat' first
    | with_reducible assumption
    | (intro x; refine cut_evo (k := K) (s0 := s0) (x := x) ?_ ?_; rotate_left; intro hx; clear_value x; rotate_left; subst x)
    | (intro x; clear_value x)
    | lift_lets
    | with_reducible refine ite_evo (fun _ => ?_) (fun _ => ?_)
    | with_reducible refine State.advance_evo ?_
    | with_reducible refine State.raise_evo ?_
    | with_reducible refine State.enterFaultHold_evo ?_ hk_unit
    | with_reducible refine State.modRef_evo ?_
    | with_reducible refine State.attemptOn_evo ?_
    | with_reducible refine State.onFallback_evo ?_
    | (with_reducible refine foldl_evo ?_ (fun s i h => ?_))
    | (with_reducible refine upd_evo ?_; with_reducible assumption)
    | (with_reducible refine upd_evo ?_; with_reducible refine upd_evo ?_; with_reducible assumption)

theorem State.timeResume_evo {K : Kinds} {s0 s : State} (h : Evolve K s0 s) :
    Evolve K s0 (State.timeResume s) := by
  unfold State.timeResume
  repeat' first
    | with_reducible assumption
    | (intro x; refine cut_evo (k := K) (s0 := s0) (x := x) ?_ ?_; rotate_left; intro hx; clear_value x; rotate_left; subst x)
    | (intro x; clear_value x)
    | lift_lets
    | with_reducible refine State.raise_evo ?_
    | with_reducible refine State.setTimeState_evo ?_
    | with_reducible refine State.modRef_evo ?_
    | (with_reducible refine upd_evo ?_; with_reducible assumption)
    | (with_reducible refine upd_evo ?_; with_reducible refine upd_evo ?_; with_reducible assumption)
    | split

theorem State.domainsRestart_evo {K : Kinds} {s0 s : State} (h : Evolve K s0 s) :
    Evolve K s0 (State.domainsRestart s) := by
  unfold State.domainsRestart
  repeat' first
    | with_reducible assumption
    | (intro x; refine cut_evo (k := K) (s0 := s0) (x := x) ?_ ?_; rotate_left; intro hx; clear_value x; rotate_left; subst x)
    | (intro x; clear_value x)
    | lift_lets
    | (with_reducible refine State.each_evo ?_ (fun s i h => ?_))
    | (with_reducible refine State.onlyIf_evo ?_ (fun s h => ?_))
    | with_reducible refine State.modCan_evo ?_
    | with_reducible refine State.canShow_evo ?_
    | with_reducible refine State.ethShow_evo ?_
    | with_reducible refine State.canCounters_evo ?_
    | with_reducible refine State.timeResume_evo ?_
    | (with_reducible refine upd_evo ?_; with_reducible assumption)
    | (with_reducible refine upd_evo ?_; with_reducible refine upd_evo ?_; with_reducible assumption)

theorem State.lockStep_evo {K : Kinds} {s0 s : State} (h : Evolve K s0 s) (hk_unit : K.unit = true) :
    Evolve K s0 (State.lockStep s) := by
  unfold State.lockStep
  repeat' first
    | with_reducible assumption
    | split
    | with_reducible refine ite_evo (fun _ => ?_) (fun _ => ?_)
    | with_reducible refine State.gotoUnit_evo ?_ hk_unit
    | with_reducible refine State.leaveStopping_evo ?_ hk_unit
    | with_reducible refine State.modRef_evo ?_
    | (with_reducible refine upd_evo ?_; with_reducible assumption)
    | (with_reducible refine upd_evo ?_; with_reducible refine upd_evo ?_; with_reducible assumption)
    | split

theorem execLockDeclared_evo {K : Kinds} {t : Nat} {band : Nat} {s0 s : State} (h : Evolve K s0 s) (hk_unit : K.unit = true) :
    ∃ s', (execLockDeclared t band s) = .next s' ∧ Evolve K s0 s' := by
  unfold execLockDeclared
  refine ⟨_, rfl, ?_⟩
  replace h := State.advance_evo (t := t) h
  revert h
  generalize State.advance s t = s
  intro h
  repeat' first
    | with_reducible assumption
    | (intro x; refine cut_evo (k := K) (s0 := s0) (x := x) ?_ ?_; rotate_left; intro hx; clear_value x; rotate_left; subst x)
    | (intro x; clear_value x)
    | lift_lets
    | with_reducible refine ite_evo (fun _ => ?_) (fun _ => ?_)
    | with_reducible refine State.setN_evo ?_
    | with_reducible refine State.advance_evo ?_
    | with_reducible refine State.raise_evo ?_
    | with_reducible refine State.modRef_evo ?_
    | with_reducible refine State.domainsRestart_evo ?_
    | with_reducible refine State.lockStep_evo ?_ hk_unit
    | (with_reducible refine upd_evo ?_; with_reducible assumption)
    | (with_reducible refine upd_evo ?_; with_reducible refine upd_evo ?_; with_reducible assumption)
    | split

theorem execLockAttemptTimeout_evo {K : Kinds} {t : Nat} {s0 s : State} (h : Evolve K s0 s) (hk_unit : K.unit = true) :
    ∃ s', (execLockAttemptTimeout t s) = .next s' ∧ Evolve K s0 s' := by
  unfold execLockAttemptTimeout
  refine ⟨_, rfl, ?_⟩
  replace h := State.advance_evo (t := t) h
  revert h
  generalize State.advance s t = s
  intro h
  repeat' first
    | with_reducible assumption
    | (intro x; refine cut_evo (k := K) (s0 := s0) (x := x) ?_ ?_; rotate_left; intro hx; clear_value x; rotate_left; subst x)
    | (intro x; clear_value x)
    | lift_lets
    | with_reducible refine ite_evo (fun _ => ?_) (fun _ => ?_)
    | with_reducible refine State.advance_evo ?_
    | with_reducible refine State.attemptFailed_evo ?_ hk_unit
    | (with_reducible refine upd_evo ?_; with_reducible assumption)
    | (with_reducible refine upd_evo ?_; with_reducible refine upd_evo ?_; with_reducible assumption)
    | split

theorem execRelockAttempt_evo {K : Kinds} {t : Nat} {refValid : Bool} {s0 s : State} (h : Evolve K s0 s) (hk_unit : K.unit = true) :
    ∃ s', (execRelockAttempt t refValid s) = .next s' ∧ Evolve K s0 s' := by
  unfold execRelockAttempt
  refine ⟨_, rfl, ?_⟩
  replace h := State.advance_evo (t := t) h
  revert h
  generalize State.advance s t = s
  intro h
  repeat' first
    | with_reducible assumption
    | (intro x; refine cut_evo (k := K) (s0 := s0) (x := x) ?_ ?_; rotate_left; intro hx; clear_value x; rotate_left; subst x)
    | (intro x; clear_value x)
    | lift_lets
    | with_reducible refine ite_evo (fun _ => ?_) (fun _ => ?_)
    | with_reducible refine State.advance_evo ?_
    | with_reducible refine State.modRef_evo ?_
    | with_reducible refine State.attemptOn_evo ?_
    | with_reducible refine State.attemptLost_evo ?_ hk_unit
    | with_reducible refine State.countAttempt_evo ?_
    | (with_reducible refine upd_evo ?_; with_reducible assumption)
    | (with_reducible refine upd_evo ?_; with_reducible refine upd_evo ?_; with_reducible assumption)
    | split

theorem execAttemptCountReset_evo {K : Kinds} {t : Nat} {s0 s : State} (h : Evolve K s0 s) :
    ∃ s', (execAttemptCountReset t s) = .next s' ∧ Evolve K s0 s' := by
  unfold execAttemptCountReset
  refine ⟨_, rfl, ?_⟩
  replace h := State.advance_evo (t := t) h
  revert h
  generalize State.advance s t = s
  intro h
  repeat' first
    | with_reducible assumption
    | (intro x; refine cut_evo (k := K) (s0 := s0) (x := x) ?_ ?_; rotate_left; intro hx; clear_value x; rotate_left; subst x)
    | (intro x; clear_value x)
    | lift_lets
    | with_reducible refine ite_evo (fun _ => ?_) (fun _ => ?_)
    | with_reducible refine State.setN_evo ?_
    | with_reducible refine State.advance_evo ?_
    | with_reducible refine State.modRef_evo ?_
    | (with_reducible refine upd_evo ?_; with_reducible assumption)
    | (with_reducible refine upd_evo ?_; with_reducible refine upd_evo ?_; with_reducible assumption)

theorem State.lossPwm_evo {K : Kinds} {s0 s : State} (h : Evolve K s0 s) (hk_unit : K.unit = true) :
    Evolve K s0 (State.lossPwm s) := by
  exact State.each_evo (State.each_evo (State.each_evo (.isl (State.each_evo h fun s p h => State.portFault_evo h hk_unit) h)
    fun s l h => State.showLeg_evo (State.showIsl_evo (State.showIsl_evo h))) fun s l h => State.modLeg_evo h)
    fun s p h => State.modPort_evo (State.setN_evo h)

theorem State.lossAdc_evo {K : Kinds} {s0 s : State} {discards : List Nat} (h : Evolve K s0 s) :
    Evolve K s0 (State.lossAdc s discards) := by
  unfold State.lossAdc
  repeat' first
    | with_reducible assumption
    | (intro x; refine cut_evo (k := K) (s0 := s0) (x := x) ?_ ?_; rotate_left; intro hx; clear_value x; rotate_left; subst x)
    | (intro x; clear_value x)
    | lift_lets
    | with_reducible refine State.bumpBy_evo ?_
    | (with_reducible refine State.each_evo ?_ (fun s i h => ?_))
    | with_reducible refine State.raise_evo ?_
    | with_reducible refine adcMap_evo ?_
    | (with_reducible refine upd_evo ?_; with_reducible assumption)
    | (with_reducible refine upd_evo ?_; with_reducible refine upd_evo ?_; with_reducible assumption)

theorem State.lossDomains_evo {K : Kinds} {s0 s : State} (h : Evolve K s0 s) :
    Evolve K s0 (State.lossDomains s) := by
  unfold State.lossDomains
  repeat' first
    | with_reducible assumption
    | (intro x; refine cut_evo (k := K) (s0 := s0) (x := x) ?_ ?_; rotate_left; intro hx; clear_value x; rotate_left; subst x)
    | (intro x; clear_value x)
    | lift_lets
    | with_reducible refine ite_evo (fun _ => ?_) (fun _ => ?_)
    | with_reducible refine State.setN_evo ?_
    | (with_reducible refine State.each_evo ?_ (fun s i h => ?_))
    | (with_reducible refine State.onlyIf_evo ?_ (fun s h => ?_))
    | with_reducible refine State.fresh_evo ?_
    | with_reducible refine State.modCan_evo ?_
    | with_reducible refine State.canShow_evo ?_
    | with_reducible refine State.modTime_evo ?_
    | with_reducible refine State.setTimeState_evo ?_
    | with_reducible refine State.bulkAbort_evo ?_
    | with_reducible refine State.ethDown_evo ?_
    | (refine snd_evo (by assumption) ?_)
    | (refine fst_evo (by assumption) ?_)
    | (with_reducible refine upd_evo ?_; with_reducible assumption)
    | (with_reducible refine upd_evo ?_; with_reducible refine upd_evo ?_; with_reducible assumption)
    | split

theorem State.lossEngine_evo {K : Kinds} {s0 s : State} (h : Evolve K s0 s) :
    Evolve K s0 (State.lossEngine s) := by
  unfold State.lossEngine
  repeat' first
    | with_reducible assumption
    | (intro x; refine cut_evo (k := K) (s0 := s0) (x := x) ?_ ?_; rotate_left; intro hx; clear_value x; rotate_left; subst x)
    | (intro x; clear_value x)
    | lift_lets
    | with_reducible refine State.setN_evo ?_
    | (with_reducible refine State.onlyIf_evo ?_ (fun s h => ?_))
    | with_reducible refine State.capEndAll_evo ?_
    | (with_reducible refine upd_evo ?_; with_reducible assumption)
    | (with_reducible refine upd_evo ?_; with_reducible refine upd_evo ?_; with_reducible assumption)

theorem State.imageDrop_evo {K : Kinds} {s0 s : State} (h : Evolve K s0 s) (hk_img : K.img = true) :
    Evolve K s0 (State.imageDrop s) := by
  unfold State.imageDrop
  repeat' first
    | with_reducible assumption
    | (intro x; refine cut_evo (k := K) (s0 := s0) (x := x) ?_ ?_; rotate_left; intro hx; clear_value x; rotate_left; subst x)
    | (intro x; clear_value x)
    | lift_lets
    | with_reducible refine State.setN_evo ?_
    | (with_reducible refine State.each_evo ?_ (fun s i h => ?_))
    | with_reducible refine noPorts_evo hk_img ?_
    | (with_reducible refine updImg_evo hk_img ?_; with_reducible assumption)
    | (with_reducible refine upd_evo ?_; with_reducible assumption)
    | (with_reducible refine upd_evo ?_; with_reducible refine upd_evo ?_; with_reducible assumption)

theorem State.lossUnit_evo {K : Kinds} {s0 s : State} (h : Evolve K s0 s) (hk_img : K.img = true) (hk_unit : K.unit = true) :
    Evolve K s0 (State.lossUnit s) := by
  unfold State.lossUnit
  repeat' first
    | with_reducible assumption
    | split
    | with_reducible refine State.gotoUnit_evo ?_ hk_unit
    | with_reducible refine State.imageDrop_evo ?_ hk_img
    | (with_reducible refine upd_evo ?_; with_reducible assumption)
    | (with_reducible refine upd_evo ?_; with_reducible refine upd_evo ?_; with_reducible assumption)
    | split

theorem State.lockLoss_evo {K : Kinds} {s0 s : State} {src : RefSrc} {cause : Nat} {discards : List Nat} (h : Evolve K s0 s) (hk_img : K.img = true) (hk_unit : K.unit = true) :
    Evolve K s0 (State.lockLoss s src cause discards) := by
  unfold State.lockLoss
  repeat' first
    | with_reducible assumption
    | (intro x; refine cut_evo (k := K) (s0 := s0) (x := x) ?_ ?_; rotate_left; intro hx; clear_value x; rotate_left; subst x)
    | (intro x; clear_value x)
    | lift_lets
    | with_reducible refine ite_evo (fun _ => ?_) (fun _ => ?_)
    | with_reducible refine State.setN_evo ?_
    | with_reducible refine State.bump_evo ?_
    | with_reducible refine State.raise_evo ?_
    | with_reducible refine State.dropBiscuit_evo ?_
    | with_reducible refine State.modRef_evo ?_
    | with_reducible refine State.attemptOn_evo ?_
    | with_reducible refine State.countAttempt_evo ?_
    | with_reducible refine State.lossPwm_evo ?_ hk_unit
    | with_reducible refine State.lossAdc_evo ?_
    | with_reducible refine State.lossDomains_evo ?_
    | with_reducible refine State.lossEngine_evo ?_
    | with_reducible refine State.lossUnit_evo ?_ hk_img hk_unit
    | (with_reducible refine upd_evo ?_; with_reducible assumption)
    | (with_reducible refine upd_evo ?_; with_reducible refine upd_evo ?_; with_reducible assumption)

theorem State.refLost_evo {K : Kinds} {s0 s : State} {cause : Nat} {discards : List Nat} (h : Evolve K s0 s) (hk_img : K.img = true) (hk_unit : K.unit = true) :
    Evolve K s0 (State.refLost s cause discards) := by
  unfold State.refLost
  repeat' first
    | with_reducible assumption
    | split
    | with_reducible refine ite_evo (fun _ => ?_) (fun _ => ?_)
    | with_reducible refine State.attemptFailed_evo ?_ hk_unit
    | with_reducible refine State.lockLoss_evo ?_ hk_img hk_unit
    | (with_reducible refine upd_evo ?_; with_reducible assumption)
    | (with_reducible refine upd_evo ?_; with_reducible refine upd_evo ?_; with_reducible assumption)
    | split

theorem execReferenceLoss_evo {K : Kinds} {t : Nat} {discards : List Nat} {s0 s : State} (h : Evolve K s0 s) (hk_img : K.img = true) (hk_unit : K.unit = true) :
    ∃ s', (execReferenceLoss t discards s) = .next s' ∧ Evolve K s0 s' := by
  unfold execReferenceLoss
  refine ⟨_, rfl, ?_⟩
  replace h := State.advance_evo (t := t) h
  revert h
  generalize State.advance s t = s
  intro h
  repeat' first
    | with_reducible assumption
    | (intro x; refine cut_evo (k := K) (s0 := s0) (x := x) ?_ ?_; rotate_left; intro hx; clear_value x; rotate_left; subst x)
    | (intro x; clear_value x)
    | lift_lets
    | with_reducible refine State.advance_evo ?_
    | with_reducible refine State.refLost_evo ?_ hk_img hk_unit

theorem execPhaseWindowLoss_evo {K : Kinds} {t : Nat} {discards : List Nat} {s0 s : State} (h : Evolve K s0 s) (hk_img : K.img = true) (hk_unit : K.unit = true) :
    ∃ s', (execPhaseWindowLoss t discards s) = .next s' ∧ Evolve K s0 s' := by
  unfold execPhaseWindowLoss
  refine ⟨_, rfl, ?_⟩
  replace h := State.advance_evo (t := t) h
  revert h
  generalize State.advance s t = s
  intro h
  repeat' first
    | with_reducible assumption
    | (intro x; refine cut_evo (k := K) (s0 := s0) (x := x) ?_ ?_; rotate_left; intro hx; clear_value x; rotate_left; subst x)
    | (intro x; clear_value x)
    | lift_lets
    | with_reducible refine State.advance_evo ?_
    | with_reducible refine State.refLost_evo ?_ hk_img hk_unit

theorem execSafeCrossMonitor_evo {K : Kinds} {t : Nat} {s0 s : State} (h : Evolve K s0 s) (hk_unit : K.unit = true) :
    ∃ s', (execSafeCrossMonitor t s) = .next s' ∧ Evolve K s0 s' := by
  unfold execSafeCrossMonitor
  refine ⟨_, rfl, ?_⟩
  replace h := State.advance_evo (t := t) h
  revert h
  generalize State.advance s t = s
  intro h
  repeat' first
    | with_reducible assumption
    | (intro x; refine cut_evo (k := K) (s0 := s0) (x := x) ?_ ?_; rotate_left; intro hx; clear_value x; rotate_left; subst x)
    | (intro x; clear_value x)
    | lift_lets
    | with_reducible refine State.advance_evo ?_
    | with_reducible refine State.modSaf_evo ?_
    | with_reducible refine State.safFaults_evo ?_ hk_unit
    | (with_reducible refine upd_evo ?_; with_reducible assumption)
    | (with_reducible refine upd_evo ?_; with_reducible refine upd_evo ?_; with_reducible assumption)

end Sys2Proof.Machine
end

