-- ==== Sys2Proof/Laws/KeptLive.lean ====
section
/-! SUPPORT. What the functions of Machine/Live.lean keep: each stays within `Evolve`. -/

set_option Elab.async false
set_option linter.unusedVariables false
set_option linter.unreachableTactic false
set_option linter.unusedTactic false
set_option linter.unusedSimpArgs false

namespace Sys2Proof.Machine

theorem State.doNextSlot_evo {K : Kinds} {s0 s : State} {v : Word} (h : Evolve K s0 s) (hk_fram : K.fram = true) :
    Evolve K s0 (State.doNextSlot s v) := by
  unfold State.doNextSlot
  repeat' first
    | with_reducible assumption
    | (intro x; refine cut_evo (k := K) (s0 := s0) (x := x) ?_ ?_; rotate_left; intro hx; clear_value x; rotate_left; subst x)
    | (intro x; clear_value x)
    | lift_lets
    | with_reducible refine State.setW_evo ?_
    | (with_reducible refine updFram_evo hk_fram ?_; with_reducible assumption)
    | (with_reducible refine upd_evo ?_; with_reducible assumption)
    | (with_reducible refine upd_evo ?_; with_reducible refine upd_evo ?_; with_reducible assumption)

theorem State.doShadow_evo {K : Kinds} {s0 s : State} {id : Nat} {v : Word} (h : Evolve K s0 s) :
    Evolve K s0 (State.doShadow s id v) := by
  unfold State.doShadow
  repeat' first
    | with_reducible assumption
    | (intro x; refine cut_evo (k := K) (s0 := s0) (x := x) ?_ ?_; rotate_left; intro hx; clear_value x; rotate_left; subst x)
    | (intro x; clear_value x)
    | lift_lets
    | with_reducible refine ite_evo (fun _ => ?_) (fun _ => ?_)
    | with_reducible refine State.setW_evo ?_
    | with_reducible refine State.setN_evo ?_
    | with_reducible refine State.modPort_evo ?_
    | (with_reducible refine upd_evo ?_; with_reducible assumption)
    | (with_reducible refine upd_evo ?_; with_reducible refine upd_evo ?_; with_reducible assumption)

theorem State.doLive_evo {K : Kinds} {s0 s : State} {r : ParamRow} {id : Nat} {v : Word} (h : Evolve K s0 s) (hk_fram : K.fram = true) :
    Evolve K s0 (State.doLive s r id v) := by
  unfold State.doLive
  repeat' first
    | with_reducible assumption
    | (intro x; refine cut_evo (k := K) (s0 := s0) (x := x) ?_ ?_; rotate_left; intro hx; clear_value x; rotate_left; subst x)
    | (intro x; clear_value x)
    | lift_lets
    | with_reducible refine ite_evo (fun _ => ?_) (fun _ => ?_)
    | with_reducible refine State.setW_evo ?_
    | (with_reducible refine State.onlyIf_evo ?_ (fun s h => ?_))
    | with_reducible refine State.doTout_evo ?_
    | with_reducible refine State.doNextSlot_evo ?_ hk_fram
    | with_reducible refine State.doShadow_evo ?_
    | (with_reducible refine updFram_evo hk_fram ?_; with_reducible assumption)
    | (with_reducible refine upd_evo ?_; with_reducible assumption)
    | (with_reducible refine upd_evo ?_; with_reducible refine upd_evo ?_; with_reducible assumption)
    | split

theorem execNextSlotWrite_evo {K : Kinds} {t : Nat} {role : Role} {v : Word} {s0 s : State} (h : Evolve K s0 s) (hk_fram : K.fram = true) :
    ∃ s', (execNextSlotWrite t role v s) = .next s' ∧ Evolve K s0 s' := by
  unfold execNextSlotWrite
  refine ⟨_, rfl, ?_⟩
  replace h := State.advance_evo (t := t) h
  revert h
  generalize State.advance s t = s
  intro h
  repeat' first
    | with_reducible assumption
    | (intro x; refine cut_evo (k := K) (s0 := s0) (x := x) ?_ ?_; rotate_left; intro hx; clear_value x; rotate_left; subst x)
    | (intro x; clear_value x)
    | lift_lets
    | with_reducible refine ite_evo (fun _ => ?_) (fun _ => ?_)
    | with_reducible refine State.advance_evo ?_
    | with_reducible refine State.roleRow_evo ?_ ?_
    | with_reducible refine State.doNextSlot_evo ?_ hk_fram

end Sys2Proof.Machine
end

