-- ==== Sys2Proof/Laws/KeptSlots.lean ====
section
/-! SUPPORT. What the functions of Machine/Slots.lean keep: each stays within `Evolve`. -/

set_option Elab.async false
set_option linter.unusedVariables false
set_option linter.unreachableTactic false
set_option linter.unusedTactic false
set_option linter.unusedSimpArgs false

namespace Sys2Proof.Machine

theorem State.showSlot_evo {K : Kinds} {s0 s : State} {k st : Nat} (h : Evolve K s0 s) :
    Evolve K s0 (State.showSlot s k st) := by
  unfold State.showSlot
  repeat' first
    | with_reducible assumption
    | with_reducible refine State.setN_evo ?_
    | (with_reducible refine State.onlyIf_evo ?_ (fun s h => ?_))
    | with_reducible refine State.raise_evo ?_

theorem State.auditCheck_evo {K : Kinds} {s0 s : State} (h : Evolve K s0 s) :
    Evolve K s0 (State.auditCheck s) := by
  unfold State.auditCheck
  repeat' first
    | with_reducible assumption
    | (intro x; refine cut_evo (k := K) (s0 := s0) (x := x) ?_ ?_; rotate_left; intro hx; clear_value x; rotate_left; subst x)
    | (intro x; clear_value x)
    | lift_lets
    | with_reducible refine ite_evo (fun _ => ?_) (fun _ => ?_)
    | with_reducible refine State.setN_evo ?_
    | (with_reducible refine State.onlyIf_evo ?_ (fun s h => ?_))
    | with_reducible refine State.raise_evo ?_
    | with_reducible refine State.modLink_evo ?_
    | (with_reducible refine foldl_evo ?_ (fun s i h => ?_))
    | (with_reducible refine upd_evo ?_; with_reducible assumption)
    | (with_reducible refine upd_evo ?_; with_reducible refine upd_evo ?_; with_reducible assumption)

theorem State.cfgReset_evo {K : Kinds} {s0 s : State} (h : Evolve K s0 s) :
    Evolve K s0 (State.cfgReset s) := by
  unfold State.cfgReset
  repeat' first
    | with_reducible assumption
    | with_reducible refine words_evo ?_
    | (with_reducible refine upd_evo ?_; with_reducible assumption)
    | (with_reducible refine upd_evo ?_; with_reducible refine upd_evo ?_; with_reducible assumption)
    | split

theorem State.refuseImage_evo {K : Kinds} {s0 s : State} {cause : Nat} (h : Evolve K s0 s) (hk_img : K.img = true) (hk_unit : K.unit = true) :
    Evolve K s0 (State.refuseImage s cause) := by
  unfold State.refuseImage
  repeat' first
    | with_reducible assumption
    | with_reducible refine State.gotoUnit_evo ?_ hk_unit
    | with_reducible refine State.cfgReset_evo ?_
    | with_reducible refine noPorts_evo hk_img ?_
    | (with_reducible refine updImg_evo hk_img ?_; with_reducible assumption)
    | (with_reducible refine upd_evo ?_; with_reducible assumption)
    | (with_reducible refine upd_evo ?_; with_reducible refine upd_evo ?_; with_reducible assumption)

theorem execSfdpRead_evo {K : Kinds} {t : Nat} {info : Option Sfdp} {s0 s : State} (h : Evolve K s0 s) (hk_img : K.img = true) (hk_unit : K.unit = true) :
    ∃ s', (execSfdpRead t info s) = .next s' ∧ Evolve K s0 s' := by
  unfold execSfdpRead
  refine ⟨_, rfl, ?_⟩
  replace h := State.advance_evo (t := t) h
  revert h
  generalize State.advance s t = s
  intro h
  repeat' first
    | with_reducible assumption
    | (intro x; refine cut_evo (k := K) (s0 := s0) (x := x) ?_ ?_; rotate_left; intro hx; clear_value x; rotate_left; subst x)
    | (intro x; clear_value x)
    | lift_lets
    | with_reducible refine ite_evo (fun _ => ?_) (fun _ => ?_)
    | with_reducible refine State.setN_evo ?_
    | with_reducible refine State.advance_evo ?_
    | with_reducible refine State.raise_evo ?_
    | with_reducible refine State.auditCheck_evo ?_
    | with_reducible refine State.refuseImage_evo ?_ hk_img hk_unit
    | (with_reducible refine upd_evo ?_; with_reducible assumption)
    | (with_reducible refine upd_evo ?_; with_reducible refine upd_evo ?_; with_reducible assumption)
    | split

theorem State.chooseSlot_evo {K : Kinds} {s0 s : State} {k : Nat} {foreign : Bool} (h : Evolve K s0 s) (hk_img : K.img = true) :
    Evolve K s0 (State.chooseSlot s k foreign) := by
  unfold State.chooseSlot
  repeat' first
    | with_reducible assumption
    | (intro x; refine cut_evo (k := K) (s0 := s0) (x := x) ?_ ?_; rotate_left; intro hx; clear_value x; rotate_left; subst x)
    | (intro x; clear_value x)
    | lift_lets
    | with_reducible refine State.setN_evo ?_
    | (with_reducible refine updImg_evo hk_img ?_; with_reducible assumption)
    | (with_reducible refine upd_evo ?_; with_reducible assumption)
    | (with_reducible refine upd_evo ?_; with_reducible refine upd_evo ?_; with_reducible assumption)

theorem State.slotChoice_evo {K : Kinds} {s0 s : State} {k : Nat} (h : Evolve K s0 s) (hk_img : K.img = true) (hk_unit : K.unit = true) :
    Evolve K s0 (State.slotChoice s k) := by
  unfold State.slotChoice
  repeat' first
    | with_reducible assumption
    | (intro x; refine cut_evo (k := K) (s0 := s0) (x := x) ?_ ?_; rotate_left; intro hx; clear_value x; rotate_left; subst x)
    | (intro x; clear_value x)
    | lift_lets
    | with_reducible refine ite_evo (fun _ => ?_) (fun _ => ?_)
    | (with_reducible refine State.onlyIf_evo ?_ (fun s h => ?_))
    | with_reducible refine State.raise_evo ?_
    | with_reducible refine State.refuseImage_evo ?_ hk_img hk_unit
    | with_reducible refine State.chooseSlot_evo ?_ hk_img
    | (with_reducible refine upd_evo ?_; with_reducible assumption)
    | (with_reducible refine upd_evo ?_; with_reducible refine upd_evo ?_; with_reducible assumption)
    | split

theorem execSlotCheck_evo {K : Kinds} {t : Nat} {slot : Nat} {s0 s : State} (h : Evolve K s0 s) (hk_img : K.img = true) (hk_unit : K.unit = true) :
    ∃ s', (execSlotCheck t slot s) = .next s' ∧ Evolve K s0 s' := by
  unfold execSlotCheck
  refine ⟨_, rfl, ?_⟩
  replace h := State.advance_evo (t := t) h
  revert h
  generalize State.advance s t = s
  intro h
  repeat' first
    | with_reducible assumption
    | (intro x; refine cut_evo (k := K) (s0 := s0) (x := x) ?_ ?_; rotate_left; intro hx; clear_value x; rotate_left; subst x)
    | (intro x; clear_value x)
    | lift_lets
    | with_reducible refine ite_evo (fun _ => ?_) (fun _ => ?_)
    | with_reducible refine State.advance_evo ?_
    | with_reducible refine State.showSlot_evo ?_
    | with_reducible refine State.slotChoice_evo ?_ hk_img hk_unit

end Sys2Proof.Machine
end

