-- ==== Sys2Proof/Laws/KeptStart.lean ====
section
/-! SUPPORT. What the functions of Machine/Start.lean keep: each stays within `Evolve`. -/

set_option Elab.async false
set_option linter.unusedVariables false
set_option linter.unreachableTactic false
set_option linter.unusedTactic false
set_option linter.unusedSimpArgs false

namespace Sys2Proof.Machine

theorem State.showPort_evo {K : Kinds} {s0 s : State} {p : Nat} (h : Evolve K s0 s) :
    Evolve K s0 (State.showPort s p) := by
  unfold State.showPort
  repeat' first
    | with_reducible assumption
    | (intro x; refine cut_evo (k := K) (s0 := s0) (x := x) ?_ ?_; rotate_left; intro hx; clear_value x; rotate_left; subst x)
    | (intro x; clear_value x)
    | lift_lets
    | with_reducible refine State.setN_evo ?_
    | (with_reducible refine State.each_evo ?_ (fun s i h => ?_))
    | (with_reducible refine State.onlyIf_evo ?_ (fun s h => ?_))
    | with_reducible refine State.dtReset_evo ?_
    | with_reducible refine State.glzHold_evo ?_
    | with_reducible refine State.dtFallback_evo ?_

theorem State.dropSteps_evo {K : Kinds} {s0 s : State} {n : Nat} (h : Evolve K s0 s) (hk_img : K.img = true) : Evolve K s0 (State.dropSteps n s) := by
  induction n generalizing s with
  | zero => exact h
  | succ n ih =>
    unfold State.dropSteps
    split
    · exact ih (State.dropBlocks_evo h hk_img)
    · exact h

theorem State.ladderResume_evo {K : Kinds} {s0 s : State} (h : Evolve K s0 s) (hk_fram : K.fram = true) (hk_img : K.img = true) :
    Evolve K s0 (State.ladderResume s) := by
  unfold State.ladderResume
  repeat' first
    | with_reducible assumption
    | (intro x; refine cut_evo (k := K) (s0 := s0) (x := x) ?_ ?_; rotate_left; intro hx; clear_value x; rotate_left; subst x)
    | (intro x; clear_value x)
    | lift_lets
    | with_reducible refine ite_evo (fun _ => ?_) (fun _ => ?_)
    | with_reducible refine State.setN_evo ?_
    | (with_reducible refine State.onlyIf_evo ?_ (fun s h => ?_))
    | with_reducible refine State.showOps_evo ?_
    | with_reducible refine State.dropSteps_evo ?_ hk_img
    | (with_reducible refine updFram_evo hk_fram ?_; with_reducible assumption)
    | (with_reducible refine upd_evo ?_; with_reducible assumption)
    | (with_reducible refine upd_evo ?_; with_reducible refine upd_evo ?_; with_reducible assumption)

theorem State.restoreLive_evo {K : Kinds} {s0 s : State} {e : Nat × Word} (h : Evolve K s0 s) (hk_fram : K.fram = true) :
    Evolve K s0 (State.restoreLive s e) := by
  unfold State.restoreLive
  repeat' first
    | with_reducible assumption
    | (intro x; refine cut_evo (k := K) (s0 := s0) (x := x) ?_ ?_; rotate_left; intro hx; clear_value x; rotate_left; subst x)
    | (intro x; refine cutSnd_evo (k := K) (s0 := s0) (x := x) ?_ ?_; rotate_left; intro hx; clear_value x; rotate_left; subst x)
    | (intro x; clear_value x)
    | lift_lets
    | with_reducible refine ite_evo (fun _ => ?_) (fun _ => ?_)
    | with_reducible refine State.setW_evo ?_
    | with_reducible refine State.raise_evo ?_
    | (with_reducible refine updFram_evo hk_fram ?_; with_reducible assumption)
    | (with_reducible refine upd_evo ?_; with_reducible assumption)
    | (with_reducible refine upd_evo ?_; with_reducible refine upd_evo ?_; with_reducible assumption)

theorem State.liveResume_evo {K : Kinds} {s0 s : State} (h : Evolve K s0 s) (hk_fram : K.fram = true) :
    Evolve K s0 (State.liveResume s) := by
  unfold State.liveResume
  repeat' first
    | with_reducible assumption
    | (intro x; refine cut_evo (k := K) (s0 := s0) (x := x) ?_ ?_; rotate_left; intro hx; clear_value x; rotate_left; subst x)
    | (intro x; clear_value x)
    | lift_lets
    | with_reducible refine ite_evo (fun _ => ?_) (fun _ => ?_)
    | with_reducible refine State.restoreLive_evo ?_ hk_fram
    | (with_reducible refine foldl_evo ?_ (fun s i h => ?_))
    | (with_reducible refine updFram_evo hk_fram ?_; with_reducible assumption)
    | (with_reducible refine upd_evo ?_; with_reducible assumption)
    | (with_reducible refine upd_evo ?_; with_reducible refine upd_evo ?_; with_reducible assumption)

theorem State.takeImage_evo {K : Kinds} {s0 s : State} {base outerImageBytes : Nat} (h : Evolve K s0 s) (hk_img : K.img = true) (hk_dout : K.dout = true) :
    Evolve K s0 (State.takeImage s base outerImageBytes) := by
  unfold State.takeImage
  repeat' first
    | with_reducible assumption
    | (intro x; refine cut_evo (k := K) (s0 := s0) (x := x) ?_ ?_; rotate_left; intro hx; clear_value x; rotate_left; subst x)
    | (intro x; clear_value x)
    | lift_lets
    | with_reducible refine ite_evo (fun _ => ?_) (fun _ => ?_)
    | with_reducible refine State.setN_evo ?_
    | (with_reducible refine State.each_evo ?_ (fun s i h => ?_))
    | (with_reducible refine State.onlyIf_evo ?_ (fun s h => ?_))
    | with_reducible refine State.modLat_evo ?_
    | with_reducible refine State.modSaf_evo ?_
    | with_reducible refine State.modCap_evo ?_
    | with_reducible refine State.setSafety_evo ?_
    | (with_reducible refine douts_evo hk_dout (by simp [bitsOf]) ?_; with_reducible assumption)
    | (with_reducible refine updImg_evo hk_img ?_; with_reducible assumption)
    | (with_reducible refine upd_evo ?_; with_reducible assumption)
    | (with_reducible refine upd_evo ?_; with_reducible refine upd_evo ?_; with_reducible assumption)

theorem State.takeRef_evo {K : Kinds} {s0 s : State} (h : Evolve K s0 s) (hk_unit : K.unit = true) :
    Evolve K s0 (State.takeRef s) := by
  unfold State.takeRef
  repeat' first
    | with_reducible assumption
    | (intro x; refine cut_evo (k := K) (s0 := s0) (x := x) ?_ ?_; rotate_left; intro hx; clear_value x; rotate_left; subst x)
    | (intro x; clear_value x)
    | lift_lets
    | with_reducible refine ite_evo (fun _ => ?_) (fun _ => ?_)
    | with_reducible refine State.gotoUnit_evo ?_ hk_unit
    | with_reducible refine State.modRef_evo ?_
    | with_reducible refine State.attemptOn_evo ?_
    | (with_reducible refine upd_evo ?_; with_reducible assumption)
    | (with_reducible refine upd_evo ?_; with_reducible refine upd_evo ?_; with_reducible assumption)

theorem State.acceptContent_evo {K : Kinds} {s0 s : State} {base outerImageBytes : Nat} (h : Evolve K s0 s) (hk_fram : K.fram = true) (hk_img : K.img = true) (hk_dout : K.dout = true) (hk_unit : K.unit = true) :
    Evolve K s0 (State.acceptContent s base outerImageBytes) := by
  unfold State.acceptContent
  repeat' first
    | with_reducible assumption
    | (intro x; refine cut_evo (k := K) (s0 := s0) (x := x) ?_ ?_; rotate_left; intro hx; clear_value x; rotate_left; subst x)
    | (intro x; clear_value x)
    | lift_lets
    | with_reducible refine State.setZ_evo ?_
    | (with_reducible refine State.each_evo ?_ (fun s i h => ?_))
    | (with_reducible refine State.onlyIf_evo ?_ (fun s h => ?_))
    | with_reducible refine State.lawStart_evo ?_
    | with_reducible refine State.showPort_evo ?_
    | with_reducible refine State.ladderResume_evo ?_ hk_fram hk_img
    | with_reducible refine State.liveResume_evo ?_ hk_fram
    | with_reducible refine State.takeImage_evo ?_ hk_img hk_dout
    | with_reducible refine State.takeRef_evo ?_ hk_unit

theorem State.contentRefused_evo {K : Kinds} {s0 s : State} {cause : Nat} (h : Evolve K s0 s) (hk_img : K.img = true) (hk_unit : K.unit = true) :
    Evolve K s0 (State.contentRefused s cause) := by
  unfold State.contentRefused
  repeat' first
    | with_reducible assumption
    | with_reducible refine State.setN_evo ?_
    | with_reducible refine State.refuseImage_evo ?_ hk_img hk_unit

theorem State.refuseBad_evo {K : Kinds} {s0 s : State} {b : Bad} (h : Evolve K s0 s) (hk_img : K.img = true) (hk_unit : K.unit = true) :
    Evolve K s0 (State.refuseBad s b) := by
  unfold State.refuseBad
  repeat' first
    | with_reducible assumption
    | with_reducible refine State.raise_evo ?_
    | with_reducible refine State.contentRefused_evo ?_ hk_img hk_unit

theorem State.contentTail_evo {K : Kinds} {s0 s k : State} {base : Nat} {c : ContentIn} (h : Evolve K s0 s) (hk : Evolve K s0 k)
    (hk_fram : K.fram = true) (hk_img : K.img = true) (hk_dout : K.dout = true) (hk_unit : K.unit = true) :
    Evolve K s0 (s.contentTail k base c) := by
  unfold State.contentTail
  refine ite_evo (fun _ => State.refuseBad_evo h hk_img hk_unit) fun _ => ite_evo (fun _ => ?_) fun _ => ?_
  · exact State.contentRefused_evo (foldl_evo h fun s i h => State.raise_evo h) hk_img hk_unit
  · split
    · exact State.refuseBad_evo h hk_img hk_unit
    · exact State.acceptContent_evo hk hk_fram hk_img hk_dout hk_unit

theorem execContentCheck_evo {K : Kinds} {t : Nat} {c : ContentIn} {s0 s : State} (h : Evolve K s0 s) (hk_fram : K.fram = true) (hk_img : K.img = true) (hk_dout : K.dout = true) (hk_unit : K.unit = true) :
    ∃ s', (execContentCheck t c s) = .next s' ∧ Evolve K s0 s' := by
  unfold execContentCheck
  refine ⟨_, rfl, ?_⟩
  replace h := State.advance_evo (t := t) h
  revert h
  generalize State.advance s t = s
  intro h
  repeat' first
    | with_reducible assumption
    | (intro x; refine cut_evo (k := K) (s0 := s0) (x := x) ?_ ?_; rotate_left; intro hx; clear_value x; rotate_left; subst x)
    | (intro x; clear_value x)
    | lift_lets
    | with_reducible refine ite_evo (fun _ => ?_) (fun _ => ?_)
    | with_reducible refine State.advance_evo ?_
    | with_reducible refine State.candidate_evo ?_ hk_img
    | with_reducible refine State.refuseBad_evo ?_ hk_img hk_unit
    | with_reducible refine State.contentTail_evo ?_ hk_fram hk_img hk_dout hk_unit
    | (with_reducible refine State.contentTail_evo ?_ ?_ hk_fram hk_img hk_dout hk_unit)
    | (with_reducible refine upd_evo ?_; with_reducible assumption)
    | (with_reducible refine upd_evo ?_; with_reducible refine upd_evo ?_; with_reducible assumption)
    | split

theorem State.testMarks_evo {K : Kinds} {s0 s : State} {r : SelfTest} (h : Evolve K s0 s) :
    Evolve K s0 (State.testMarks s r) := by
  unfold State.testMarks
  repeat' first
    | with_reducible assumption
    | (intro x; refine cut_evo (k := K) (s0 := s0) (x := x) ?_ ?_; rotate_left; intro hx; clear_value x; rotate_left; subst x)
    | (intro x; refine cutSnd_evo (k := K) (s0 := s0) (x := x) ?_ ?_; rotate_left; intro hx; clear_value x; rotate_left; subst x)
    | (intro x; clear_value x)
    | lift_lets
    | with_reducible refine State.setZ_evo ?_
    | with_reducible refine State.setBit_evo ?_
    | (with_reducible refine State.each_evo ?_ (fun s i h => ?_))
    | with_reducible refine State.istJudge_evo ?_
    | (with_reducible refine foldl_evo ?_ (fun s i h => ?_))
    | (with_reducible refine foldlFst_evo ?_ (fun a x h => ?_))
    | (dsimp only; with_reducible assumption)
    | (with_reducible refine foldlSnd_evo ?_ (fun a x h => ?_))
    | (dsimp only; with_reducible assumption)

theorem State.latticeReady_evo {K : Kinds} {s0 s : State} (h : Evolve K s0 s) :
    Evolve K s0 (State.latticeReady s) := by
  unfold State.latticeReady
  repeat' first
    | with_reducible assumption
    | with_reducible refine ite_evo (fun _ => ?_) (fun _ => ?_)
    | with_reducible refine State.setN_evo ?_
    | with_reducible refine State.modLat_evo ?_
    | with_reducible refine State.latInit_evo ?_
    | (with_reducible refine upd_evo ?_; with_reducible assumption)
    | (with_reducible refine upd_evo ?_; with_reducible refine upd_evo ?_; with_reducible assumption)

theorem State.enterReady_evo {K : Kinds} {s0 s : State} {u : UnitState} (h : Evolve K s0 s) (hk_unit : K.unit = true) :
    Evolve K s0 (State.enterReady s u) := by
  unfold State.enterReady
  repeat' first
    | with_reducible assumption
    | (intro x; refine cut_evo (k := K) (s0 := s0) (x := x) ?_ ?_; rotate_left; intro hx; clear_value x; rotate_left; subst x)
    | (intro x; clear_value x)
    | lift_lets
    | with_reducible refine State.setN_evo ?_
    | (with_reducible refine State.onlyIf_evo ?_ (fun s h => ?_))
    | with_reducible refine State.raise_evo ?_
    | with_reducible refine State.factoryNet_evo ?_
    | with_reducible refine State.gotoUnit_evo ?_ hk_unit

theorem State.testEnd_evo {K : Kinds} {s0 s : State} {bad : Bool} (h : Evolve K s0 s) (hk_unit : K.unit = true) :
    Evolve K s0 (State.testEnd s bad) := by
  unfold State.testEnd
  repeat' first
    | with_reducible assumption
    | with_reducible refine ite_evo (fun _ => ?_) (fun _ => ?_)
    | with_reducible refine State.bump_evo ?_
    | with_reducible refine State.gotoUnit_evo ?_ hk_unit
    | with_reducible refine State.safApply_evo ?_ hk_unit
    | with_reducible refine State.latticeReady_evo ?_
    | with_reducible refine State.enterReady_evo ?_ hk_unit

theorem execSelfTestComplete_evo {K : Kinds} {t : Nat} {r : SelfTest} {s0 s : State} (h : Evolve K s0 s) (hk_fram : K.fram = true) (hk_unit : K.unit = true) :
    ∃ s', (execSelfTestComplete t r s) = .next s' ∧ Evolve K s0 s' := by
  unfold execSelfTestComplete
  refine ⟨_, rfl, ?_⟩
  replace h := State.advance_evo (t := t) h
  revert h
  generalize State.advance s t = s
  intro h
  repeat' first
    | with_reducible assumption
    | (intro x; refine cut_evo (k := K) (s0 := s0) (x := x) ?_ ?_; rotate_left; intro hx; clear_value x; rotate_left; subst x)
    | (intro x; refine cutSnd_evo (k := K) (s0 := s0) (x := x) ?_ ?_; rotate_left; intro hx; clear_value x; rotate_left; subst x)
    | (intro x; clear_value x)
    | lift_lets
    | with_reducible refine ite_evo (fun _ => ?_) (fun _ => ?_)
    | with_reducible refine State.setN_evo ?_
    | (with_reducible refine State.onlyIf_evo ?_ (fun s h => ?_))
    | with_reducible refine State.advance_evo ?_
    | with_reducible refine State.raise_evo ?_
    | with_reducible refine State.modSaf_evo ?_
    | with_reducible refine State.safFaults_evo ?_ hk_unit
    | with_reducible refine State.safDemands_evo ?_ hk_unit
    | with_reducible refine State.enterFaultHold_evo ?_ hk_unit
    | with_reducible refine State.setRail_evo ?_ hk_fram
    | with_reducible refine State.railSearch_evo ?_ hk_fram
    | with_reducible refine State.hwFailed_evo ?_
    | with_reducible refine State.adoptProfile_evo ?_ hk_unit
    | with_reducible refine State.testMarks_evo ?_
    | with_reducible refine State.testEnd_evo ?_ hk_unit
    | (with_reducible refine foldl_evo ?_ (fun s i h => ?_))
    | (with_reducible refine foldlFst_evo ?_ (fun a x h => ?_))
    | (dsimp only; with_reducible assumption)
    | (with_reducible refine foldlSnd_evo ?_ (fun a x h => ?_))
    | (dsimp only; with_reducible assumption)
    | (refine snd_evo (by assumption) ?_)
    | (refine fst_evo (by assumption) ?_)
    | (with_reducible refine upd_evo ?_; with_reducible assumption)
    | (with_reducible refine upd_evo ?_; with_reducible refine upd_evo ?_; with_reducible assumption)

end Sys2Proof.Machine
end

