-- ==== Sys2Proof/Laws/KeptAccess.lean ====
section
/-! SUPPORT. What the functions of Machine/Access.lean keep: each stays within `Evolve`. -/

set_option Elab.async false
set_option linter.unusedVariables false
set_option linter.unreachableTactic false
set_option linter.unusedTactic false
set_option linter.unusedSimpArgs false

namespace Sys2Proof.Machine

/-- `Evolve` of the state of a Write's outcome. -/
def EvoWr (K : Kinds) (s0 : State) (w : Written) : Prop := Evolve K s0 w.st

theorem EvoWr.st {K : Kinds} {s0 : State} {w : Written} (h : EvoWr K s0 w) : Evolve K s0 w.st := h
theorem mkWr_evo {K : Kinds} {s0 s : State} {b : Option (Nat × Nat × Nat)} (h : Evolve K s0 s) : EvoWr K s0 ⟨b, s⟩ := h
theorem cutWr_evo {K : Kinds} {s0 : State} {x : Written} {P : Prop} (h : EvoWr K s0 x) (k : EvoWr K s0 x → P) : P := k h
theorem iteWr_evo {K : Kinds} {s0 : State} {a b : Written} {c : Prop} [Decidable c] (ha : c → EvoWr K s0 a) (hb : ¬c → EvoWr K s0 b) :
    EvoWr K s0 (if c then a else b) := by
  split
  · exact ha ‹_›
  · exact hb ‹_›

theorem State.cmdDo_evo {K : Kinds} {s0 s : State} {role : Role} {rb : Bool} {id : Nat} {v : Word} (h : Evolve K s0 s) (hk_reset : K.reset = true) (hk_fram : K.fram = true) (hk_unit : K.unit = true) :
    Evolve K s0 (State.cmdDo s role rb id v) := by
  unfold State.cmdDo
  repeat' first
    | with_reducible assumption
    | (intro x; refine cut_evo (k := K) (s0 := s0) (x := x) ?_ ?_; rotate_left; intro hx; clear_value x; rotate_left; subst x)
    | (intro x; clear_value x)
    | lift_lets
    | with_reducible refine ite_evo (fun _ => ?_) (fun _ => ?_)
    | with_reducible refine State.announceGiveUp_evo ?_
    | with_reducible refine State.doBusoffCmd_evo ?_
    | with_reducible refine State.doTimeStep_evo ?_
    | with_reducible refine State.doEnergise_evo ?_ hk_unit
    | with_reducible refine State.doStop_evo ?_
    | with_reducible refine State.doStopUnit_evo ?_ hk_unit
    | with_reducible refine State.doModRelease_evo ?_
    | with_reducible refine State.doFaClear_evo ?_
    | with_reducible refine State.doPulse_evo ?_
    | with_reducible refine State.doClear_evo ?_ hk_unit
    | with_reducible refine State.doIst_evo ?_
    | with_reducible refine State.doCrArm_evo ?_
    | with_reducible refine State.trigger_evo ?_
    | with_reducible refine State.doLadderCmd_evo ?_
    | with_reducible refine State.doRestore_evo ?_
    | with_reducible refine State.doRebase_evo ?_
    | with_reducible refine State.doCommit_evo ?_ hk_fram hk_unit
    | with_reducible refine State.doSolo_evo ?_
    | with_reducible refine State.doLatForce_evo ?_
    | with_reducible refine State.doActivate_evo ?_
    | with_reducible refine State.doInjCmd_evo ?_
    | with_reducible refine State.doRestart_evo ?_ hk_reset hk_unit
    | (with_reducible refine upd_evo ?_; with_reducible assumption)
    | (with_reducible refine upd_evo ?_; with_reducible refine upd_evo ?_; with_reducible assumption)
    | split

theorem State.cmdRefuse_evo {K : Kinds} {s0 s : State} {role : Role} {id : Nat} {v : Word} {d : Nat} (h : Evolve K s0 s) (hk_fram : K.fram = true) (hk_unit : K.unit = true) :
    Evolve K s0 (State.cmdRefuse s role id v d) := by
  unfold State.cmdRefuse
  repeat' first
    | with_reducible assumption
    | (intro x; refine cut_evo (k := K) (s0 := s0) (x := x) ?_ ?_; rotate_left; intro hx; clear_value x; rotate_left; subst x)
    | (intro x; refine cutSnd_evo (k := K) (s0 := s0) (x := x) ?_ ?_; rotate_left; intro hx; clear_value x; rotate_left; subst x)
    | (intro x; clear_value x)
    | lift_lets
    | with_reducible refine ite_evo (fun _ => ?_) (fun _ => ?_)
    | with_reducible refine State.fresh_evo ?_
    | with_reducible refine State.raise_evo ?_
    | with_reducible refine State.refuseEnergise_evo ?_
    | with_reducible refine State.refuseClear_evo ?_
    | with_reducible refine State.commitAsked_evo ?_ hk_fram hk_unit
    | with_reducible refine State.activateRefuse_evo ?_
    | (refine snd_evo (by assumption) ?_)
    | (refine fst_evo (by assumption) ?_)
    | (with_reducible refine upd_evo ?_; with_reducible assumption)
    | (with_reducible refine upd_evo ?_; with_reducible refine upd_evo ?_; with_reducible assumption)
    | split

theorem State.itemEvent_evo {K : Kinds} {s0 s : State} {st : Nat} {e : Nat × Word} (h : Evolve K s0 s) :
    Evolve K s0 (State.itemEvent s st e) := by
  unfold State.itemEvent
  repeat' first
    | with_reducible assumption
    | split
    | (intro x; refine cut_evo (k := K) (s0 := s0) (x := x) ?_ ?_; rotate_left; intro hx; clear_value x; rotate_left; subst x)
    | (intro x; refine cutSnd_evo (k := K) (s0 := s0) (x := x) ?_ ?_; rotate_left; intro hx; clear_value x; rotate_left; subst x)
    | (intro x; clear_value x)
    | lift_lets
    | with_reducible refine ite_evo (fun _ => ?_) (fun _ => ?_)
    | with_reducible refine State.fresh_evo ?_
    | with_reducible refine State.raise_evo ?_
    | (refine snd_evo (by assumption) ?_)
    | (refine fst_evo (by assumption) ?_)
    | (with_reducible refine upd_evo ?_; with_reducible assumption)
    | (with_reducible refine upd_evo ?_; with_reducible refine upd_evo ?_; with_reducible assumption)
    | split

theorem State.applyItem_evo {K : Kinds} {s0 s : State} {e : Nat × Word} (h : Evolve K s0 s) (hk_fram : K.fram = true) :
    Evolve K s0 (State.applyItem s e) := by
  unfold State.applyItem
  repeat' first
    | with_reducible assumption
    | split
    | with_reducible refine State.setN_evo ?_
    | with_reducible refine State.doLive_evo ?_ hk_fram
    | (with_reducible refine upd_evo ?_; with_reducible assumption)
    | (with_reducible refine upd_evo ?_; with_reducible refine upd_evo ?_; with_reducible assumption)
    | split

theorem State.applyItems_evo {K : Kinds} {s0 s : State} {items : List (Nat × Word)} (h : Evolve K s0 s) (hk_fram : K.fram = true) :
    Evolve K s0 (State.applyItems s items) := by
  unfold State.applyItems
  repeat' first
    | with_reducible assumption
    | with_reducible refine State.inStep_evo ?_ ?_
    | with_reducible refine State.applyItem_evo ?_ hk_fram
    | (with_reducible refine foldl_evo ?_ (fun s i h => ?_))
    | (with_reducible refine foldlFst_evo ?_ (fun a x h => ?_))
    | (dsimp only; with_reducible assumption)
    | (with_reducible refine foldlSnd_evo ?_ (fun a x h => ?_))
    | (dsimp only; with_reducible assumption)

theorem State.writeAll_evo {K : Kinds} {s0 s : State} {role : Role} {rb : Bool} {items : List (Nat × Word)} (h : Evolve K s0 s) (hk_reset : K.reset = true) (hk_fram : K.fram = true) (hk_unit : K.unit = true) :
    EvoWr K s0 (State.writeAll s role rb items) := by
  unfold State.writeAll
  repeat' first
    | with_reducible assumption
    | split
    | (intro x; refine cut_evo (k := K) (s0 := s0) (x := x) ?_ ?_; rotate_left; intro hx; clear_value x; rotate_left; subst x)
    | (intro x; clear_value x)
    | lift_lets
    | with_reducible refine ite_evo (fun _ => ?_) (fun _ => ?_)
    | with_reducible refine State.inStep_evo ?_ ?_
    | with_reducible refine State.cmdDo_evo ?_ hk_reset hk_fram hk_unit
    | with_reducible refine State.cmdRefuse_evo ?_ hk_fram hk_unit
    | with_reducible refine State.itemEvent_evo ?_
    | with_reducible refine State.applyItem_evo ?_ hk_fram
    | with_reducible refine State.applyItems_evo ?_ hk_fram
    | (with_reducible refine foldl_evo ?_ (fun s i h => ?_))
    | with_reducible refine iteWr_evo (fun _ => ?_) (fun _ => ?_)
    | with_reducible refine mkWr_evo ?_
    | (with_reducible refine upd_evo ?_; with_reducible assumption)
    | (with_reducible refine upd_evo ?_; with_reducible refine upd_evo ?_; with_reducible assumption)
    | split

theorem State.forwarded_evo {K : Kinds} {s0 s : State} {e : Nat × Word} (h : Evolve K s0 s) (hk_reset : K.reset = true) (hk_fram : K.fram = true) (hk_unit : K.unit = true) :
    Evolve K s0 (State.forwarded s e) := by
  unfold State.forwarded
  repeat' first
    | with_reducible assumption
    | split
    | with_reducible refine ite_evo (fun _ => ?_) (fun _ => ?_)
    | with_reducible refine State.cmdDo_evo ?_ hk_reset hk_fram hk_unit
    | with_reducible refine State.applyItem_evo ?_ hk_fram
    | (with_reducible refine upd_evo ?_; with_reducible assumption)
    | (with_reducible refine upd_evo ?_; with_reducible refine upd_evo ?_; with_reducible assumption)
    | split

theorem execParameterWrite_evo {K : Kinds} {t : Nat} {role : Role} {id : Nat} {v : Word} {s0 s : State} (h : Evolve K s0 s) (hk_reset : K.reset = true) (hk_fram : K.fram = true) (hk_unit : K.unit = true) :
    ∃ s', (execParameterWrite t role id v s) = .next s' ∧ Evolve K s0 s' := by
  unfold execParameterWrite
  refine ⟨_, rfl, ?_⟩
  replace h := State.advance_evo (t := t) h
  revert h
  generalize State.advance s t = s
  intro h
  repeat' first
    | with_reducible assumption
    | (intro x; refine cutWr_evo (K := K) (s0 := s0) (x := x) ?_ ?_; rotate_left; intro hx; clear_value x; rotate_left; subst x)
    | (intro x; refine cut_evo (k := K) (s0 := s0) (x := x) ?_ ?_; rotate_left; intro hx; clear_value x; rotate_left; subst x)
    | (intro x; refine cutSnd_evo (k := K) (s0 := s0) (x := x) ?_ ?_; rotate_left; intro hx; clear_value x; rotate_left; subst x)
    | (intro x; clear_value x)
    | lift_lets
    | with_reducible refine ite_evo (fun _ => ?_) (fun _ => ?_)
    | (with_reducible refine EvoWr.st ?_)
    | with_reducible refine State.advance_evo ?_
    | with_reducible refine State.audited_evo ?_ ?_
    | with_reducible refine State.writeAll_evo ?_ hk_reset hk_fram hk_unit
    | (with_reducible refine upd_evo ?_; with_reducible assumption)
    | (with_reducible refine upd_evo ?_; with_reducible refine upd_evo ?_; with_reducible assumption)
    | split

end Sys2Proof.Machine
end

