-- ==== Sys2Proof/Laws/KeptLinkOps.lean ====
section
/-! SUPPORT. What the functions of Machine/LinkOps.lean keep: each stays within `Evolve`. -/

set_option Elab.async false
set_option linter.unusedVariables false
set_option linter.unreachableTactic false
set_option linter.unusedTactic false
set_option linter.unusedSimpArgs false

namespace Sys2Proof.Machine

theorem State.blDrop_evo {K : Kinds} {s0 s : State} (h : Evolve K s0 s) :
    Evolve K s0 (State.blDrop s) := by
  unfold State.blDrop
  repeat' first
    | with_reducible assumption
    | with_reducible refine State.bump_evo ?_

theorem State.cmdIn_evo {K : Kinds} {s0 s : State} {p : CmdPkt} (h : Evolve K s0 s) :
    Evolve K s0 (State.cmdIn s p) := by
  unfold State.cmdIn
  repeat' first
    | with_reducible assumption
    | with_reducible refine ite_evo (fun _ => ?_) (fun _ => ?_)
    | with_reducible refine State.highWater_evo ?_
    | with_reducible refine State.qLost_evo ?_
    | with_reducible refine State.modLink_evo ?_
    | with_reducible refine State.blDrop_evo ?_
    | (with_reducible refine upd_evo ?_; with_reducible assumption)
    | (with_reducible refine upd_evo ?_; with_reducible refine upd_evo ?_; with_reducible assumption)

theorem State.datagramIn_evo {K : Kinds} {s0 s : State} {e ip port : Nat} {bs : List Byte} (h : Evolve K s0 s) :
    Evolve K s0 (State.datagramIn s e ip port bs) := by
  unfold State.datagramIn
  repeat' first
    | with_reducible assumption
    | with_reducible refine ite_evo (fun _ => ?_) (fun _ => ?_)
    | with_reducible refine State.blDrop_evo ?_
    | with_reducible refine State.cmdIn_evo ?_

theorem State.setReasm_evo {K : Kinds} {s0 s : State} {ch : Nat} {r : Option ReasmSt} (h : Evolve K s0 s) :
    Evolve K s0 (State.setReasm s ch r) := by
  unfold State.setReasm
  repeat' first
    | with_reducible assumption
    | with_reducible refine State.modLink_evo ?_
    | (with_reducible refine upd_evo ?_; with_reducible assumption)
    | (with_reducible refine upd_evo ?_; with_reducible refine upd_evo ?_; with_reducible assumption)

theorem State.packetDone_evo {K : Kinds} {s0 s : State} {ch : Nat} {bs : List Byte} {segs : Nat} (h : Evolve K s0 s) :
    Evolve K s0 (State.packetDone s ch bs segs) := by
  unfold State.packetDone
  repeat' first
    | with_reducible assumption
    | (intro x; refine cut_evo (k := K) (s0 := s0) (x := x) ?_ ?_; rotate_left; intro hx; clear_value x; rotate_left; subst x)
    | (intro x; clear_value x)
    | lift_lets
    | with_reducible refine ite_evo (fun _ => ?_) (fun _ => ?_)
    | with_reducible refine State.blDrop_evo ?_
    | with_reducible refine State.cmdIn_evo ?_

theorem State.segmentIn_evo {K : Kinds} {s0 s : State} {ch : Nat} {bs : List Byte} (h : Evolve K s0 s) :
    Evolve K s0 (State.segmentIn s ch bs) := by
  unfold State.segmentIn
  repeat' first
    | with_reducible assumption
    | (intro x; refine cut_evo (k := K) (s0 := s0) (x := x) ?_ ?_; rotate_left; intro hx; clear_value x; rotate_left; subst x)
    | (intro x; clear_value x)
    | lift_lets
    | with_reducible refine ite_evo (fun _ => ?_) (fun _ => ?_)
    | (with_reducible refine State.onlyIf_evo ?_ (fun s h => ?_))
    | with_reducible refine State.blDrop_evo ?_
    | with_reducible refine State.setReasm_evo ?_
    | with_reducible refine State.packetDone_evo ?_
    | (with_reducible refine upd_evo ?_; with_reducible assumption)
    | (with_reducible refine upd_evo ?_; with_reducible refine upd_evo ?_; with_reducible assumption)
    | split

theorem State.canSegments_evo {K : Kinds} {s0 s : State} {ch : Nat} {fs : List CanFrame} (h : Evolve K s0 s) :
    Evolve K s0 (State.canSegments s ch fs) := by
  unfold State.canSegments
  repeat' first
    | with_reducible assumption
    | with_reducible refine State.canSubmit_evo ?_
    | (with_reducible refine foldl_evo ?_ (fun s i h => ?_))
    | (with_reducible refine foldlSnd_evo ?_ (fun a x h => ?_))
    | (dsimp only; with_reducible assumption)
    | (refine snd_evo (by assumption) ?_)
    | (refine fst_evo (by assumption) ?_)

theorem State.sendPkt_evo {K : Kinds} {s0 s : State} {path ip port : Nat} {bs : List Byte} (h : Evolve K s0 s) :
    Evolve K s0 (State.sendPkt s path ip port bs) := by
  unfold State.sendPkt
  repeat' first
    | with_reducible assumption
    | (intro x; refine cut_evo (k := K) (s0 := s0) (x := x) ?_ ?_; rotate_left; intro hx; clear_value x; rotate_left; subst x)
    | (intro x; clear_value x)
    | lift_lets
    | with_reducible refine ite_evo (fun _ => ?_) (fun _ => ?_)
    | with_reducible refine State.bump_evo ?_
    | with_reducible refine State.highWater_evo ?_
    | with_reducible refine State.modLink_evo ?_
    | with_reducible refine State.udpSend_evo ?_
    | with_reducible refine State.canSegments_evo ?_
    | (with_reducible refine upd_evo ?_; with_reducible assumption)
    | (with_reducible refine upd_evo ?_; with_reducible refine upd_evo ?_; with_reducible assumption)

theorem State.modSess_evo {K : Kinds} {s0 s : State} {sid : Nat} {f : SessSt → SessSt} (h : Evolve K s0 s) :
    Evolve K s0 (State.modSess s sid f) := by
  unfold State.modSess
  repeat' first
    | with_reducible assumption
    | with_reducible refine ite_evo (fun _ => ?_) (fun _ => ?_)
    | with_reducible refine State.modLink_evo ?_
    | (with_reducible refine upd_evo ?_; with_reducible assumption)
    | (with_reducible refine upd_evo ?_; with_reducible refine upd_evo ?_; with_reducible assumption)

theorem State.authFail_evo {K : Kinds} {s0 s : State} {path ip : Nat} (h : Evolve K s0 s) :
    Evolve K s0 (State.authFail s path ip) := by
  unfold State.authFail
  repeat' first
    | with_reducible assumption
    | (intro x; refine cut_evo (k := K) (s0 := s0) (x := x) ?_ ?_; rotate_left; intro hx; clear_value x; rotate_left; subst x)
    | (intro x; refine cutSnd_evo (k := K) (s0 := s0) (x := x) ?_ ?_; rotate_left; intro hx; clear_value x; rotate_left; subst x)
    | (intro x; clear_value x)
    | lift_lets
    | with_reducible refine ite_evo (fun _ => ?_) (fun _ => ?_)
    | with_reducible refine State.bump_evo ?_
    | with_reducible refine State.raise_evo ?_
    | with_reducible refine State.modLink_evo ?_
    | (with_reducible refine upd_evo ?_; with_reducible assumption)
    | (with_reducible refine upd_evo ?_; with_reducible refine upd_evo ?_; with_reducible assumption)

theorem State.answer_evo {K : Kinds} {s0 s : State} {x : SessSt} {path ip port cmd seq status : Nat} {payload : List Byte} {tag : Option (BitVec 128)} (h : Evolve K s0 s) :
    Evolve K s0 (State.answer s x path ip port cmd seq status payload tag) := by
  unfold State.answer
  repeat' first
    | with_reducible assumption
    | (intro x; refine cut_evo (k := K) (s0 := s0) (x := x) ?_ ?_; rotate_left; intro hx; clear_value x; rotate_left; subst x)
    | (intro x; clear_value x)
    | lift_lets
    | with_reducible refine State.sendPkt_evo ?_
    | with_reducible refine State.modSess_evo ?_
    | (with_reducible refine upd_evo ?_; with_reducible assumption)
    | (with_reducible refine upd_evo ?_; with_reducible refine upd_evo ?_; with_reducible assumption)
    | split

theorem execBlDatagramReceive_evo {K : Kinds} {t : Nat} {e ip port : Nat} {bytes : List Byte} {s0 s : State} (h : Evolve K s0 s) :
    ∃ s', (execBlDatagramReceive t e ip port bytes s) = .next s' ∧ Evolve K s0 s' := by
  unfold execBlDatagramReceive
  refine ⟨_, rfl, ?_⟩
  replace h := State.advance_evo (t := t) h
  revert h
  generalize State.advance s t = s
  intro h
  repeat' first
    | with_reducible assumption
    | (intro x; refine cut_evo (k := K) (s0 := s0) (x := x) ?_ ?_; rotate_left; intro hx; clear_value x; rotate_left; subst x)
    | (intro x; clear_value x)
    | lift_lets
    | with_reducible refine ite_evo (fun _ => ?_) (fun _ => ?_)
    | with_reducible refine State.advance_evo ?_
    | with_reducible refine State.datagramIn_evo ?_

theorem execBlSegmentReceive_evo {K : Kinds} {t : Nat} {ch : Nat} {bytes : List Byte} {s0 s : State} (h : Evolve K s0 s) :
    ∃ s', (execBlSegmentReceive t ch bytes s) = .next s' ∧ Evolve K s0 s' := by
  unfold execBlSegmentReceive
  refine ⟨_, rfl, ?_⟩
  replace h := State.advance_evo (t := t) h
  revert h
  generalize State.advance s t = s
  intro h
  repeat' first
    | with_reducible assumption
    | (intro x; refine cut_evo (k := K) (s0 := s0) (x := x) ?_ ?_; rotate_left; intro hx; clear_value x; rotate_left; subst x)
    | (intro x; clear_value x)
    | lift_lets
    | with_reducible refine ite_evo (fun _ => ?_) (fun _ => ?_)
    | with_reducible refine State.advance_evo ?_
    | with_reducible refine State.segmentIn_evo ?_

theorem execBlReassemblyTimeout_evo {K : Kinds} {t : Nat} {ch : Nat} {s0 s : State} (h : Evolve K s0 s) :
    ∃ s', (execBlReassemblyTimeout t ch s) = .next s' ∧ Evolve K s0 s' := by
  unfold execBlReassemblyTimeout
  refine ⟨_, rfl, ?_⟩
  replace h := State.advance_evo (t := t) h
  revert h
  generalize State.advance s t = s
  intro h
  repeat' first
    | with_reducible assumption
    | (intro x; refine cut_evo (k := K) (s0 := s0) (x := x) ?_ ?_; rotate_left; intro hx; clear_value x; rotate_left; subst x)
    | (intro x; clear_value x)
    | lift_lets
    | with_reducible refine ite_evo (fun _ => ?_) (fun _ => ?_)
    | with_reducible refine State.advance_evo ?_
    | with_reducible refine State.blDrop_evo ?_
    | with_reducible refine State.setReasm_evo ?_
    | (with_reducible refine upd_evo ?_; with_reducible assumption)
    | (with_reducible refine upd_evo ?_; with_reducible refine upd_evo ?_; with_reducible assumption)
    | split

theorem State.retryOne_evo {K : Kinds} {s0 s : State} {keep : List (Nat × List CanFrame × Nat)} {w : Nat × List CanFrame × Nat} (h : Evolve K s0 s) :
    Evolve K s0 (State.retryOne s keep w).1 := by
  unfold State.retryOne
  repeat' first
    | with_reducible assumption
    | with_reducible refine ite_evo (fun _ => ?_) (fun _ => ?_)
    | with_reducible refine State.bump_evo ?_
    | with_reducible refine State.canSegments_evo ?_
    | (with_reducible refine iteFst_evo (fun _ => ?_) (fun _ => ?_))
    | (with_reducible refine foldlFst_evo ?_ (fun a x h => ?_))
    | dsimp only

theorem State.retryAll_evo {K : Kinds} {s0 s : State} (h : Evolve K s0 s) : Evolve K s0 s.retryAll.1 :=
  foldl_evoFst (a := (s, [])) h fun a x h => show EvoFst K s0 (State.retryOne a.1 a.2 x) from State.retryOne_evo h

theorem execResponseSegmentRetry_evo {K : Kinds} {t : Nat} {s0 s : State} (h : Evolve K s0 s) :
    ∃ s', (execResponseSegmentRetry t s) = .next s' ∧ Evolve K s0 s' := by
  unfold execResponseSegmentRetry
  refine ⟨_, rfl, ?_⟩
  replace h := State.advance_evo (t := t) h
  revert h
  generalize State.advance s t = s
  intro h
  repeat' first
    | with_reducible assumption
    | with_reducible refine State.advance_evo ?_
    | (with_reducible refine State.recur_evo ?_ (fun s h => ?_))
    | with_reducible refine State.modLink_evo ?_
    | with_reducible refine State.retryAll_evo ?_
    | (refine snd_evo (by assumption) ?_)
    | (refine fst_evo (by assumption) ?_)
    | (with_reducible refine upd_evo ?_; with_reducible assumption)
    | (with_reducible refine upd_evo ?_; with_reducible refine upd_evo ?_; with_reducible assumption)

end Sys2Proof.Machine
end

