-- ==== Sys2Proof/Laws/KeptLinkCmd.lean ====
section
/-! SUPPORT. What the functions of Machine/LinkCmd.lean keep: each stays within `Evolve`. -/

set_option Elab.async false
set_option linter.unusedVariables false
set_option linter.unreachableTactic false
set_option linter.unusedTactic false
set_option linter.unusedSimpArgs false

namespace Sys2Proof.Machine

/-- `Evolve` of the state of an answer. -/
def EvoRep (K : Kinds) (s0 : State) (r : Reply) : Prop := Evolve K s0 r.st

theorem EvoRep.st {K : Kinds} {s0 : State} {r : Reply} (h : EvoRep K s0 r) : Evolve K s0 r.st := h
theorem mkRep_evo {K : Kinds} {s0 s : State} {n : Nat} {p : List Byte} (h : Evolve K s0 s) : EvoRep K s0 ⟨n, p, s⟩ := h
theorem cutRep_evo {K : Kinds} {s0 : State} {x : Reply} {P : Prop} (h : EvoRep K s0 x) (k : EvoRep K s0 x → P) : P := k h
theorem iteRep_evo {K : Kinds} {s0 : State} {a b : Reply} {c : Prop} [Decidable c] (ha : c → EvoRep K s0 a) (hb : ¬c → EvoRep K s0 b) :
    EvoRep K s0 (if c then a else b) := by
  split
  · exact ha ‹_›
  · exact hb ‹_›

theorem State.refuse_evo {K : Kinds} {s0 s : State} {status detail : Nat} (h : Evolve K s0 s) :
    EvoRep K s0 (State.refuse s status detail) := by
  unfold State.refuse
  repeat' first
    | with_reducible assumption
    | with_reducible refine iteRep_evo (fun _ => ?_) (fun _ => ?_)
    | with_reducible refine mkRep_evo ?_

theorem State.reply_evo {K : Kinds} {s0 s : State} {status : Nat} (h : Evolve K s0 s) :
    EvoRep K s0 (State.reply s status) := by
  unfold State.reply
  repeat' first
    | with_reducible assumption
    | with_reducible refine iteRep_evo (fun _ => ?_) (fun _ => ?_)
    | with_reducible refine mkRep_evo ?_

theorem State.linkRead_evo {K : Kinds} {s0 s : State} {ids : List Nat} (h : Evolve K s0 s) :
    EvoRep K s0 (State.linkRead s ids) := by
  unfold State.linkRead
  repeat' first
    | with_reducible assumption
    | split
    | with_reducible refine iteRep_evo (fun _ => ?_) (fun _ => ?_)
    | (with_reducible refine upd_evo ?_; with_reducible assumption)
    | (with_reducible refine upd_evo ?_; with_reducible refine upd_evo ?_; with_reducible assumption)
    | split
    | with_reducible refine mkRep_evo ?_

theorem State.linkWrite_evo {K : Kinds} {s0 s : State} {role : Role} {rb : Bool} {items : List (Nat × Word)} (h : Evolve K s0 s) (hk_reset : K.reset = true) (hk_fram : K.fram = true) (hk_unit : K.unit = true) :
    EvoRep K s0 (State.linkWrite s role rb items) := by
  unfold State.linkWrite
  repeat' first
    | with_reducible assumption
    | (intro x; refine cutWr_evo (K := K) (s0 := s0) (x := x) ?_ ?_; rotate_left; intro hx; clear_value x; rotate_left; subst x)
    | (intro x; refine cutRep_evo (K := K) (s0 := s0) (x := x) ?_ ?_; rotate_left; intro hx; clear_value x; rotate_left; subst x)
    | (intro x; refine cut_evo (k := K) (s0 := s0) (x := x) ?_ ?_; rotate_left; intro hx; clear_value x; rotate_left; subst x)
    | (intro x; clear_value x)
    | lift_lets
    | with_reducible refine iteRep_evo (fun _ => ?_) (fun _ => ?_)
    | (with_reducible refine EvoRep.st ?_)
    | (with_reducible refine EvoWr.st ?_)
    | with_reducible refine State.writeAll_evo ?_ hk_reset hk_fram hk_unit
    | (with_reducible refine upd_evo ?_; with_reducible assumption)
    | (with_reducible refine upd_evo ?_; with_reducible refine upd_evo ?_; with_reducible assumption)
    | split
    | with_reducible refine mkRep_evo ?_

theorem State.bulkSlice_evo {K : Kinds} {s0 s : State} {bs : List Byte} {off len : Nat} (h : Evolve K s0 s) :
    EvoRep K s0 (State.bulkSlice s bs off len) := by
  unfold State.bulkSlice
  repeat' first
    | with_reducible assumption
    | split
    | with_reducible refine iteRep_evo (fun _ => ?_) (fun _ => ?_)
    | with_reducible refine State.refuse_evo ?_
    | (with_reducible refine upd_evo ?_; with_reducible assumption)
    | (with_reducible refine upd_evo ?_; with_reducible refine upd_evo ?_; with_reducible assumption)
    | split
    | with_reducible refine mkRep_evo ?_

theorem State.crumbRead_evo {K : Kinds} {s0 s : State} {sid dd off len : Nat} (h : Evolve K s0 s) :
    EvoRep K s0 (State.crumbRead s sid dd off len) := by
  unfold State.crumbRead
  repeat' first
    | with_reducible assumption
    | split
    | (intro x; refine cutRep_evo (K := K) (s0 := s0) (x := x) ?_ ?_; rotate_left; intro hx; clear_value x; rotate_left; subst x)
    | (intro x; refine cut_evo (k := K) (s0 := s0) (x := x) ?_ ?_; rotate_left; intro hx; clear_value x; rotate_left; subst x)
    | (intro x; clear_value x)
    | lift_lets
    | with_reducible refine ite_evo (fun _ => ?_) (fun _ => ?_)
    | with_reducible refine iteRep_evo (fun _ => ?_) (fun _ => ?_)
    | (with_reducible refine State.onlyIf_evo ?_ (fun s h => ?_))
    | with_reducible refine State.modSess_evo ?_
    | with_reducible refine State.refuse_evo ?_
    | with_reducible refine State.bulkSlice_evo ?_
    | (with_reducible refine upd_evo ?_; with_reducible assumption)
    | (with_reducible refine upd_evo ?_; with_reducible refine upd_evo ?_; with_reducible assumption)
    | split
    | with_reducible refine mkRep_evo ?_

theorem State.linkBulkRead_evo {K : Kinds} {s0 s : State} {sid : Nat} {role : Role} {id off len : Nat} (h : Evolve K s0 s) :
    EvoRep K s0 (State.linkBulkRead s sid role id off len) := by
  unfold State.linkBulkRead
  repeat' first
    | with_reducible assumption
    | with_reducible refine ite_evo (fun _ => ?_) (fun _ => ?_)
    | with_reducible refine iteRep_evo (fun _ => ?_) (fun _ => ?_)
    | with_reducible refine State.modSess_evo ?_
    | with_reducible refine State.refuse_evo ?_
    | with_reducible refine State.bulkSlice_evo ?_
    | with_reducible refine State.crumbRead_evo ?_
    | (with_reducible refine upd_evo ?_; with_reducible assumption)
    | (with_reducible refine upd_evo ?_; with_reducible refine upd_evo ?_; with_reducible assumption)
    | split
    | with_reducible refine mkRep_evo ?_

theorem State.showBulk_evo {K : Kinds} {s0 s : State} {st target : Nat} (h : Evolve K s0 s) :
    Evolve K s0 (State.showBulk s st target) := by
  unfold State.showBulk
  repeat' first
    | with_reducible assumption
    | with_reducible refine State.setN_evo ?_

theorem State.linkBegin_evo {K : Kinds} {s0 s : State} {sid target total : Nat} {digest : List Byte} (h : Evolve K s0 s) (hk_flash : K.flash = true) :
    EvoRep K s0 (State.linkBegin s sid target total digest) := by
  unfold State.linkBegin
  repeat' first
    | with_reducible assumption
    | (intro x; refine cutRep_evo (K := K) (s0 := s0) (x := x) ?_ ?_; rotate_left; intro hx; clear_value x; rotate_left; subst x)
    | (intro x; refine cut_evo (k := K) (s0 := s0) (x := x) ?_ ?_; rotate_left; intro hx; clear_value x; rotate_left; subst x)
    | (intro x; clear_value x)
    | lift_lets
    | with_reducible refine ite_evo (fun _ => ?_) (fun _ => ?_)
    | with_reducible refine iteRep_evo (fun _ => ?_) (fun _ => ?_)
    | with_reducible refine State.setN_evo ?_
    | with_reducible refine State.modLat_evo ?_
    | with_reducible refine State.modLink_evo ?_
    | with_reducible refine State.flashErase_evo ?_ hk_flash
    | with_reducible refine State.refuse_evo ?_
    | with_reducible refine State.reply_evo ?_
    | with_reducible refine State.showBulk_evo ?_
    | (with_reducible refine upd_evo ?_; with_reducible assumption)
    | (with_reducible refine upd_evo ?_; with_reducible refine upd_evo ?_; with_reducible assumption)
    | with_reducible refine mkRep_evo ?_

theorem State.linkData_evo {K : Kinds} {s0 s : State} {sid off : Nat} {bytes : List Byte} (h : Evolve K s0 s) (hk_flash : K.flash = true) :
    EvoRep K s0 (State.linkData s sid off bytes) := by
  unfold State.linkData
  repeat' first
    | with_reducible assumption
    | split
    | (intro x; refine cutRep_evo (K := K) (s0 := s0) (x := x) ?_ ?_; rotate_left; intro hx; clear_value x; rotate_left; subst x)
    | (intro x; refine cut_evo (k := K) (s0 := s0) (x := x) ?_ ?_; rotate_left; intro hx; clear_value x; rotate_left; subst x)
    | (intro x; clear_value x)
    | lift_lets
    | with_reducible refine ite_evo (fun _ => ?_) (fun _ => ?_)
    | with_reducible refine iteRep_evo (fun _ => ?_) (fun _ => ?_)
    | with_reducible refine State.modLink_evo ?_
    | with_reducible refine State.flashWrite_evo ?_ hk_flash
    | with_reducible refine State.refuse_evo ?_
    | with_reducible refine State.reply_evo ?_
    | (with_reducible refine upd_evo ?_; with_reducible assumption)
    | (with_reducible refine upd_evo ?_; with_reducible refine upd_evo ?_; with_reducible assumption)
    | split
    | with_reducible refine mkRep_evo ?_

theorem State.linkEnd_evo {K : Kinds} {s0 s : State} {sid : Nat} {ioOk : Bool} (h : Evolve K s0 s) :
    EvoRep K s0 (State.linkEnd s sid ioOk) := by
  unfold State.linkEnd
  repeat' first
    | with_reducible assumption
    | split
    | (intro x; refine cutRep_evo (K := K) (s0 := s0) (x := x) ?_ ?_; rotate_left; intro hx; clear_value x; rotate_left; subst x)
    | (intro x; refine cut_evo (k := K) (s0 := s0) (x := x) ?_ ?_; rotate_left; intro hx; clear_value x; rotate_left; subst x)
    | (intro x; clear_value x)
    | lift_lets
    | with_reducible refine ite_evo (fun _ => ?_) (fun _ => ?_)
    | with_reducible refine iteRep_evo (fun _ => ?_) (fun _ => ?_)
    | with_reducible refine State.setN_evo ?_
    | with_reducible refine State.raise_evo ?_
    | with_reducible refine State.modLat_evo ?_
    | with_reducible refine State.modLink_evo ?_
    | with_reducible refine State.bulkAbort_evo ?_
    | with_reducible refine State.showSlot_evo ?_
    | with_reducible refine State.reply_evo ?_
    | (with_reducible refine upd_evo ?_; with_reducible assumption)
    | (with_reducible refine upd_evo ?_; with_reducible refine upd_evo ?_; with_reducible assumption)
    | split
    | with_reducible refine mkRep_evo ?_

theorem State.linkSubscribe_evo {K : Kinds} {s0 s : State} {sid path period flags : Nat} {ids : List Nat} (h : Evolve K s0 s) :
    EvoRep K s0 (State.linkSubscribe s sid path period flags ids) := by
  unfold State.linkSubscribe
  repeat' first
    | with_reducible assumption
    | with_reducible refine ite_evo (fun _ => ?_) (fun _ => ?_)
    | with_reducible refine iteRep_evo (fun _ => ?_) (fun _ => ?_)
    | with_reducible refine State.modSess_evo ?_
    | with_reducible refine State.reply_evo ?_
    | (with_reducible refine upd_evo ?_; with_reducible assumption)
    | (with_reducible refine upd_evo ?_; with_reducible refine upd_evo ?_; with_reducible assumption)
    | split
    | with_reducible refine mkRep_evo ?_

theorem State.linkEvents_evo {K : Kinds} {s0 s : State} {first count : Nat} (h : Evolve K s0 s) :
    EvoRep K s0 (State.linkEvents s first count) := by
  unfold State.linkEvents
  repeat' first
    | with_reducible assumption
    | (intro x; refine cutRep_evo (K := K) (s0 := s0) (x := x) ?_ ?_; rotate_left; intro hx; clear_value x; rotate_left; subst x)
    | (intro x; refine cut_evo (k := K) (s0 := s0) (x := x) ?_ ?_; rotate_left; intro hx; clear_value x; rotate_left; subst x)
    | (intro x; clear_value x)
    | lift_lets
    | with_reducible refine iteRep_evo (fun _ => ?_) (fun _ => ?_)
    | with_reducible refine mkRep_evo ?_

theorem State.setFingerprint_evo {K : Kinds} {s0 s : State} {fp : List Byte} (h : Evolve K s0 s) :
    Evolve K s0 (State.setFingerprint s fp) := by
  unfold State.setFingerprint
  repeat' first
    | with_reducible assumption
    | with_reducible refine State.setN_evo ?_
    | (with_reducible refine State.each_evo ?_ (fun s i h => ?_))

theorem State.setRebind_evo {K : Kinds} {s0 s : State} {key : BitVec 128} (h : Evolve K s0 s) (hk_fuse : K.fuse = true) :
    Evolve K s0 (State.setRebind s key) := by
  exact .rebind _ hk_fuse h

theorem State.linkReBind_evo {K : Kinds} {s0 s : State} {old : Nat} {wrapped : List Byte} {rb : Bool} (h : Evolve K s0 s) (hk_fuse : K.fuse = true) :
    EvoRep K s0 (State.linkReBind s old wrapped rb) := by
  unfold State.linkReBind
  repeat' first
    | with_reducible assumption
    | (intro x; refine cutRep_evo (K := K) (s0 := s0) (x := x) ?_ ?_; rotate_left; intro hx; clear_value x; rotate_left; subst x)
    | (intro x; refine cut_evo (k := K) (s0 := s0) (x := x) ?_ ?_; rotate_left; intro hx; clear_value x; rotate_left; subst x)
    | (intro x; clear_value x)
    | lift_lets
    | with_reducible refine ite_evo (fun _ => ?_) (fun _ => ?_)
    | with_reducible refine iteRep_evo (fun _ => ?_) (fun _ => ?_)
    | with_reducible refine State.setN_evo ?_
    | with_reducible refine State.raise_evo ?_
    | with_reducible refine State.refuse_evo ?_
    | with_reducible refine State.reply_evo ?_
    | with_reducible refine State.setRebind_evo ?_ hk_fuse
    | (with_reducible refine upd_evo ?_; with_reducible assumption)
    | (with_reducible refine upd_evo ?_; with_reducible refine upd_evo ?_; with_reducible assumption)
    | split
    | with_reducible refine mkRep_evo ?_

theorem State.fuseKey_evo {K : Kinds} {s0 s : State} {key : List Byte} {rb : Bool} (h : Evolve K s0 s) :
    EvoRep K s0 (State.fuseKey s key rb) := by
  unfold State.fuseKey
  repeat' first
    | with_reducible assumption
    | (intro x; refine cutRep_evo (K := K) (s0 := s0) (x := x) ?_ ?_; rotate_left; intro hx; clear_value x; rotate_left; subst x)
    | (intro x; refine cut_evo (k := K) (s0 := s0) (x := x) ?_ ?_; rotate_left; intro hx; clear_value x; rotate_left; subst x)
    | (intro x; clear_value x)
    | lift_lets
    | with_reducible refine ite_evo (fun _ => ?_) (fun _ => ?_)
    | with_reducible refine iteRep_evo (fun _ => ?_) (fun _ => ?_)
    | with_reducible refine State.raise_evo ?_
    | with_reducible refine State.refuse_evo ?_
    | with_reducible refine State.reply_evo ?_
    | with_reducible refine State.setFingerprint_evo ?_
    | with_reducible refine mkRep_evo ?_

theorem State.linkReplaceKey_evo {K : Kinds} {s0 s : State} {role : Role} {key sig : List Byte} {rb : Bool} (h : Evolve K s0 s) :
    EvoRep K s0 (State.linkReplaceKey s role key sig rb) := by
  unfold State.linkReplaceKey
  repeat' first
    | with_reducible assumption
    | (intro x; refine cutRep_evo (K := K) (s0 := s0) (x := x) ?_ ?_; rotate_left; intro hx; clear_value x; rotate_left; subst x)
    | (intro x; refine cut_evo (k := K) (s0 := s0) (x := x) ?_ ?_; rotate_left; intro hx; clear_value x; rotate_left; subst x)
    | (intro x; clear_value x)
    | lift_lets
    | with_reducible refine ite_evo (fun _ => ?_) (fun _ => ?_)
    | with_reducible refine iteRep_evo (fun _ => ?_) (fun _ => ?_)
    | with_reducible refine State.setN_evo ?_
    | with_reducible refine State.refuse_evo ?_
    | with_reducible refine State.fuseKey_evo ?_
    | (with_reducible refine upd_evo ?_; with_reducible assumption)
    | (with_reducible refine upd_evo ?_; with_reducible refine upd_evo ?_; with_reducible assumption)
    | split
    | with_reducible refine mkRep_evo ?_

theorem State.linkRaiseFloor_evo {K : Kinds} {s0 s : State} {floor : Nat} {rb : Bool} (h : Evolve K s0 s) :
    EvoRep K s0 (State.linkRaiseFloor s floor rb) := by
  unfold State.linkRaiseFloor
  repeat' first
    | with_reducible assumption
    | (intro x; refine cutRep_evo (K := K) (s0 := s0) (x := x) ?_ ?_; rotate_left; intro hx; clear_value x; rotate_left; subst x)
    | (intro x; refine cut_evo (k := K) (s0 := s0) (x := x) ?_ ?_; rotate_left; intro hx; clear_value x; rotate_left; subst x)
    | (intro x; clear_value x)
    | lift_lets
    | with_reducible refine ite_evo (fun _ => ?_) (fun _ => ?_)
    | with_reducible refine iteRep_evo (fun _ => ?_) (fun _ => ?_)
    | with_reducible refine State.setN_evo ?_
    | with_reducible refine State.raise_evo ?_
    | with_reducible refine State.refuse_evo ?_
    | with_reducible refine State.reply_evo ?_
    | with_reducible refine mkRep_evo ?_

theorem State.runCmd_evo {K : Kinds} {s0 s : State} {x : SessSt} {path : Nat} {ioOk rb : Bool} {c : LinkCmd} (h : Evolve K s0 s) (hk_flash : K.flash = true) (hk_fuse : K.fuse = true) (hk_reset : K.reset = true) (hk_fram : K.fram = true) (hk_unit : K.unit = true) :
    EvoRep K s0 (State.runCmd s x path ioOk rb c) := by
  unfold State.runCmd
  repeat' first
    | with_reducible assumption
    | split
    | with_reducible refine iteRep_evo (fun _ => ?_) (fun _ => ?_)
    | with_reducible refine State.reply_evo ?_
    | with_reducible refine State.linkRead_evo ?_
    | with_reducible refine State.linkWrite_evo ?_ hk_reset hk_fram hk_unit
    | with_reducible refine State.linkBulkRead_evo ?_
    | with_reducible refine State.linkBegin_evo ?_ hk_flash
    | with_reducible refine State.linkData_evo ?_ hk_flash
    | with_reducible refine State.linkEnd_evo ?_
    | with_reducible refine State.linkSubscribe_evo ?_
    | with_reducible refine State.linkEvents_evo ?_
    | with_reducible refine State.linkReBind_evo ?_ hk_fuse
    | with_reducible refine State.linkReplaceKey_evo ?_
    | with_reducible refine State.linkRaiseFloor_evo ?_
    | (with_reducible refine upd_evo ?_; with_reducible assumption)
    | (with_reducible refine upd_evo ?_; with_reducible refine upd_evo ?_; with_reducible assumption)
    | split
    | with_reducible refine mkRep_evo ?_

theorem State.judge_evo {K : Kinds} {s0 s : State} {x : SessSt} {path ip seq : Nat} {ioOk rb : Bool} {c : LinkCmd} (h : Evolve K s0 s) (hk_flash : K.flash = true) (hk_fuse : K.fuse = true) (hk_reset : K.reset = true) (hk_fram : K.fram = true) (hk_unit : K.unit = true) :
    EvoRep K s0 (State.judge s x path ip seq ioOk rb c) := by
  unfold State.judge
  repeat' first
    | with_reducible assumption
    | (intro x; refine cutRep_evo (K := K) (s0 := s0) (x := x) ?_ ?_; rotate_left; intro hx; clear_value x; rotate_left; subst x)
    | (intro x; refine cut_evo (k := K) (s0 := s0) (x := x) ?_ ?_; rotate_left; intro hx; clear_value x; rotate_left; subst x)
    | (intro x; clear_value x)
    | lift_lets
    | with_reducible refine ite_evo (fun _ => ?_) (fun _ => ?_)
    | with_reducible refine iteRep_evo (fun _ => ?_) (fun _ => ?_)
    | (with_reducible refine EvoRep.st ?_)
    | with_reducible refine State.raise_evo ?_
    | with_reducible refine State.logAfter_evo ?_
    | with_reducible refine State.reply_evo ?_
    | with_reducible refine State.runCmd_evo ?_ hk_flash hk_fuse hk_reset hk_fram hk_unit
    | (with_reducible refine upd_evo ?_; with_reducible assumption)
    | (with_reducible refine upd_evo ?_; with_reducible refine upd_evo ?_; with_reducible assumption)
    | split
    | with_reducible refine mkRep_evo ?_

theorem State.heard_evo {K : Kinds} {s0 s : State} {x : SessSt} {seq : Nat} (h : Evolve K s0 s) :
    Evolve K s0 (State.heard s x seq) := by
  unfold State.heard
  repeat' first
    | with_reducible assumption
    | with_reducible refine State.modSess_evo ?_
    | (with_reducible refine upd_evo ?_; with_reducible assumption)
    | (with_reducible refine upd_evo ?_; with_reducible refine upd_evo ?_; with_reducible assumption)

theorem State.request_evo {K : Kinds} {s0 s : State} {x : SessSt} {path ip port seq : Nat} {tag : Option (BitVec 128)} {ioOk rb : Bool} {c : LinkCmd} (h : Evolve K s0 s) (hk_flash : K.flash = true) (hk_fuse : K.fuse = true) (hk_reset : K.reset = true) (hk_fram : K.fram = true) (hk_unit : K.unit = true) :
    Evolve K s0 (State.request s x path ip port seq tag ioOk rb c) := by
  unfold State.request
  repeat' first
    | with_reducible assumption
    | (intro x; refine cutRep_evo (K := K) (s0 := s0) (x := x) ?_ ?_; rotate_left; intro hx; clear_value x; rotate_left; subst x)
    | (intro x; refine cut_evo (k := K) (s0 := s0) (x := x) ?_ ?_; rotate_left; intro hx; clear_value x; rotate_left; subst x)
    | (intro x; clear_value x)
    | lift_lets
    | with_reducible refine ite_evo (fun _ => ?_) (fun _ => ?_)
    | with_reducible refine iteRep_evo (fun _ => ?_) (fun _ => ?_)
    | (with_reducible refine EvoRep.st ?_)
    | with_reducible refine State.endSession_evo ?_
    | with_reducible refine State.answer_evo ?_
    | with_reducible refine State.judge_evo ?_ hk_flash hk_fuse hk_reset hk_fram hk_unit
    | with_reducible refine State.heard_evo ?_
    | (with_reducible refine upd_evo ?_; with_reducible assumption)
    | (with_reducible refine upd_evo ?_; with_reducible refine upd_evo ?_; with_reducible assumption)
    | split

theorem State.direct_evo {K : Kinds} {s0 s : State} {sid : Nat} {ioOk rb : Bool} {c : LinkCmd} (h : Evolve K s0 s) (hk_flash : K.flash = true) (hk_fuse : K.fuse = true) (hk_reset : K.reset = true) (hk_fram : K.fram = true) (hk_unit : K.unit = true) :
    Evolve K s0 (State.direct s sid ioOk rb c) := by
  unfold State.direct
  repeat' first
    | with_reducible assumption
    | split
    | with_reducible refine ite_evo (fun _ => ?_) (fun _ => ?_)
    | with_reducible refine State.request_evo ?_ hk_flash hk_fuse hk_reset hk_fram hk_unit
    | (with_reducible refine upd_evo ?_; with_reducible assumption)
    | (with_reducible refine upd_evo ?_; with_reducible refine upd_evo ?_; with_reducible assumption)
    | split

end Sys2Proof.Machine
end

