-- ==== Sys2Proof/Laws/KeptLink.lean ====
section
/-! SUPPORT. What the functions of Machine/Link.lean keep: each stays within `Evolve`. -/

set_option Elab.async false
set_option linter.unusedVariables false
set_option linter.unreachableTactic false
set_option linter.unusedTactic false
set_option linter.unusedSimpArgs false

namespace Sys2Proof.Machine

theorem State.evStore_evo {K : Kinds} {s0 s : State} {r : EvRec} (h : Evolve K s0 s) :
    Evolve K s0 (State.evStore s r) := by
  unfold State.evStore
  repeat' first
    | with_reducible assumption
    | (intro x; refine cut_evo (k := K) (s0 := s0) (x := x) ?_ ?_; rotate_left; intro hx; clear_value x; rotate_left; subst x)
    | (intro x; clear_value x)
    | lift_lets
    | with_reducible refine ite_evo (fun _ => ?_) (fun _ => ?_)
    | with_reducible refine State.modLink_evo ?_
    | (with_reducible refine upd_evo ?_; with_reducible assumption)
    | (with_reducible refine upd_evo ?_; with_reducible refine upd_evo ?_; with_reducible assumption)

theorem State.evSummaries_evo {K : Kinds} {s0 s : State} (h : Evolve K s0 s) :
    Evolve K s0 (State.evSummaries s) := by
  unfold State.evSummaries
  repeat' first
    | with_reducible assumption
    | (intro x; refine cut_evo (k := K) (s0 := s0) (x := x) ?_ ?_; rotate_left; intro hx; clear_value x; rotate_left; subst x)
    | (intro x; clear_value x)
    | lift_lets
    | with_reducible refine ite_evo (fun _ => ?_) (fun _ => ?_)
    | with_reducible refine State.highWater_evo ?_
    | (with_reducible refine upd_evo ?_; with_reducible assumption)
    | (with_reducible refine upd_evo ?_; with_reducible refine upd_evo ?_; with_reducible assumption)

theorem State.evTake_evo {K : Kinds} {s0 s : State} (h : Evolve K s0 s) :
    Evolve K s0 (State.evTake s) := by
  unfold State.evTake
  repeat' first
    | with_reducible assumption
    | split
    | (intro x; refine cut_evo (k := K) (s0 := s0) (x := x) ?_ ?_; rotate_left; intro hx; clear_value x; rotate_left; subst x)
    | (intro x; clear_value x)
    | lift_lets
    | with_reducible refine State.evStore_evo ?_
    | with_reducible refine State.evSummaries_evo ?_
    | (with_reducible refine upd_evo ?_; with_reducible assumption)
    | (with_reducible refine upd_evo ?_; with_reducible refine upd_evo ?_; with_reducible assumption)
    | split

theorem State.serveEvents_evo {K : Kinds} {s0 s : State} (h : Evolve K s0 s) :
    Evolve K s0 (State.serveEvents s) := by
  unfold State.serveEvents
  repeat' first
    | with_reducible assumption
    | with_reducible refine ite_evo (fun _ => ?_) (fun _ => ?_)
    | with_reducible refine State.evTake_evo ?_
    | (with_reducible refine foldl_evo ?_ (fun s i h => ?_))

theorem State.telSend_evo {K : Kinds} {s0 s : State} {p : TelPkt} (h : Evolve K s0 s) :
    Evolve K s0 (State.telSend s p) := by
  unfold State.telSend
  repeat' first
    | with_reducible assumption
    | (intro x; refine cut_evo (k := K) (s0 := s0) (x := x) ?_ ?_; rotate_left; intro hx; clear_value x; rotate_left; subst x)
    | (intro x; clear_value x)
    | lift_lets
    | with_reducible refine ite_evo (fun _ => ?_) (fun _ => ?_)
    | (with_reducible refine State.each_evo ?_ (fun s i h => ?_))
    | with_reducible refine State.qLost_evo ?_
    | with_reducible refine State.modLink_evo ?_
    | with_reducible refine State.udpSend_evo ?_
    | with_reducible refine State.modSess_evo ?_
    | (with_reducible refine upd_evo ?_; with_reducible assumption)
    | (with_reducible refine upd_evo ?_; with_reducible refine upd_evo ?_; with_reducible assumption)

theorem State.serveTel_evo {K : Kinds} {s0 s : State} (h : Evolve K s0 s) :
    Evolve K s0 (State.serveTel s) := by
  unfold State.serveTel
  repeat' first
    | with_reducible assumption
    | with_reducible refine ite_evo (fun _ => ?_) (fun _ => ?_)
    | with_reducible refine State.modLink_evo ?_
    | with_reducible refine State.telSend_evo ?_
    | (with_reducible refine foldl_evo ?_ (fun s i h => ?_))
    | (with_reducible refine upd_evo ?_; with_reducible assumption)
    | (with_reducible refine upd_evo ?_; with_reducible refine upd_evo ?_; with_reducible assumption)

theorem execAuditEntryWrite_evo {K : Kinds} {t : Nat} {s0 s : State} (h : Evolve K s0 s) (hk_flash : K.flash = true) (hk_fram : K.fram = true) :
    ∃ s', (execAuditEntryWrite t s) = .next s' ∧ Evolve K s0 s' := by
  unfold execAuditEntryWrite
  refine ⟨_, rfl, ?_⟩
  replace h := State.advance_evo (t := t) h
  revert h
  generalize State.advance s t = s
  intro h
  repeat' first
    | with_reducible assumption
    | split
    | (intro x; refine cut_evo (k := K) (s0 := s0) (x := x) ?_ ?_; rotate_left; intro hx; clear_value x; rotate_left; subst x)
    | (intro x; clear_value x)
    | lift_lets
    | with_reducible refine ite_evo (fun _ => ?_) (fun _ => ?_)
    | with_reducible refine State.setN_evo ?_
    | (with_reducible refine State.onlyIf_evo ?_ (fun s h => ?_))
    | with_reducible refine State.advance_evo ?_
    | with_reducible refine State.modLink_evo ?_
    | with_reducible refine State.flashWrite_evo ?_ hk_flash
    | with_reducible refine State.flashErase_evo ?_ hk_flash
    | with_reducible refine State.serveEvents_evo ?_
    | (with_reducible refine updFram_evo hk_fram ?_; with_reducible assumption)
    | (with_reducible refine upd_evo ?_; with_reducible assumption)
    | (with_reducible refine upd_evo ?_; with_reducible refine upd_evo ?_; with_reducible assumption)
    | split

theorem State.openAnswer_evo {K : Kinds} {s0 s : State} {path ip port seq sid status : Nat} {payload : List Byte} {key : BitVec 128} (h : Evolve K s0 s) :
    Evolve K s0 (State.openAnswer s path ip port seq sid status payload key) := by
  unfold State.openAnswer
  repeat' first
    | with_reducible assumption
    | with_reducible refine State.sendPkt_evo ?_

theorem State.openAccept_evo {K : Kinds} {s0 s : State} {path ip port seq : Nat} {r : Role} {key : BitVec 128} {nonce : List Byte} (h : Evolve K s0 s) :
    Evolve K s0 (State.openAccept s path ip port seq r key nonce) := by
  unfold State.openAccept
  repeat' first
    | with_reducible assumption
    | (intro x; refine cut_evo (k := K) (s0 := s0) (x := x) ?_ ?_; rotate_left; intro hx; clear_value x; rotate_left; subst x)
    | (intro x; clear_value x)
    | lift_lets
    | with_reducible refine State.setN_evo ?_
    | with_reducible refine State.bump_evo ?_
    | (with_reducible refine State.onlyIf_evo ?_ (fun s h => ?_))
    | with_reducible refine State.fresh_evo ?_
    | with_reducible refine State.raise_evo ?_
    | with_reducible refine State.modLink_evo ?_
    | with_reducible refine State.logNote_evo ?_
    | with_reducible refine State.openAnswer_evo ?_
    | (refine snd_evo (by assumption) ?_)
    | (refine fst_evo (by assumption) ?_)
    | (with_reducible refine upd_evo ?_; with_reducible assumption)
    | (with_reducible refine upd_evo ?_; with_reducible refine upd_evo ?_; with_reducible assumption)
    | split

theorem State.openSession_evo {K : Kinds} {s0 s : State} {path ip port : Nat} {bs : List Byte} (h : Evolve K s0 s) :
    Evolve K s0 (State.openSession s path ip port bs) := by
  unfold State.openSession
  repeat' first
    | with_reducible assumption
    | (intro x; refine cut_evo (k := K) (s0 := s0) (x := x) ?_ ?_; rotate_left; intro hx; clear_value x; rotate_left; subst x)
    | (intro x; clear_value x)
    | lift_lets
    | with_reducible refine ite_evo (fun _ => ?_) (fun _ => ?_)
    | with_reducible refine State.raise_evo ?_
    | with_reducible refine State.logNote_evo ?_
    | with_reducible refine State.authFail_evo ?_
    | with_reducible refine State.openAnswer_evo ?_
    | with_reducible refine State.openAccept_evo ?_
    | (with_reducible refine upd_evo ?_; with_reducible assumption)
    | (with_reducible refine upd_evo ?_; with_reducible refine upd_evo ?_; with_reducible assumption)
    | split

theorem execSessionOpen_evo {K : Kinds} {t : Nat} {path ip port : Nat} {bytes : List Byte} {s0 s : State} (h : Evolve K s0 s) :
    ∃ s', (execSessionOpen t path ip port bytes s) = .next s' ∧ Evolve K s0 s' := by
  unfold execSessionOpen
  refine ⟨_, rfl, ?_⟩
  replace h := State.advance_evo (t := t) h
  revert h
  generalize State.advance s t = s
  intro h
  repeat' first
    | with_reducible assumption
    | (intro x; refine cut_evo (k := K) (s0 := s0) (x := x) ?_ ?_; rotate_left; intro hx; clear_value x; rotate_left; subst x)
    | (intro x; clear_value x)
    | lift_lets
    | with_reducible refine ite_evo (fun _ => ?_) (fun _ => ?_)
    | with_reducible refine State.advance_evo ?_
    | with_reducible refine State.blDrop_evo ?_
    | with_reducible refine State.cmdIn_evo ?_
    | with_reducible refine State.openSession_evo ?_

theorem execSessionIdle_evo {K : Kinds} {t : Nat} {sid : Nat} {s0 s : State} (h : Evolve K s0 s) :
    ∃ s', (execSessionIdle t sid s) = .next s' ∧ Evolve K s0 s' := by
  unfold execSessionIdle
  refine ⟨_, rfl, ?_⟩
  replace h := State.advance_evo (t := t) h
  revert h
  generalize State.advance s t = s
  intro h
  repeat' first
    | with_reducible assumption
    | (intro x; refine cut_evo (k := K) (s0 := s0) (x := x) ?_ ?_; rotate_left; intro hx; clear_value x; rotate_left; subst x)
    | (intro x; clear_value x)
    | lift_lets
    | with_reducible refine ite_evo (fun _ => ?_) (fun _ => ?_)
    | with_reducible refine State.advance_evo ?_
    | with_reducible refine State.endSession_evo ?_
    | (with_reducible refine upd_evo ?_; with_reducible assumption)
    | (with_reducible refine upd_evo ?_; with_reducible refine upd_evo ?_; with_reducible assumption)
    | split

theorem State.showPeers_evo {K : Kinds} {s0 s : State} (h : Evolve K s0 s) :
    Evolve K s0 (State.showPeers s) := by
  unfold State.showPeers
  repeat' first
    | with_reducible assumption
    | with_reducible refine State.setN_evo ?_

theorem State.peerHeard_evo {K : Kinds} {s0 s : State} {ip serial : Nat} (h : Evolve K s0 s) :
    Evolve K s0 (State.peerHeard s ip serial) := by
  unfold State.peerHeard
  repeat' first
    | with_reducible assumption
    | (intro x; refine cut_evo (k := K) (s0 := s0) (x := x) ?_ ?_; rotate_left; intro hx; clear_value x; rotate_left; subst x)
    | (intro x; clear_value x)
    | lift_lets
    | with_reducible refine ite_evo (fun _ => ?_) (fun _ => ?_)
    | (with_reducible refine State.onlyIf_evo ?_ (fun s h => ?_))
    | with_reducible refine State.raise_evo ?_
    | with_reducible refine State.modLink_evo ?_
    | with_reducible refine State.blDrop_evo ?_
    | with_reducible refine State.showPeers_evo ?_
    | (with_reducible refine upd_evo ?_; with_reducible assumption)
    | (with_reducible refine upd_evo ?_; with_reducible refine upd_evo ?_; with_reducible assumption)
    | split

theorem State.announced_evo {K : Kinds} {s0 s : State} {path ip : Nat} {bs : List Byte} (h : Evolve K s0 s) :
    Evolve K s0 (State.announced s path ip bs) := by
  unfold State.announced
  repeat' first
    | with_reducible assumption
    | split
    | with_reducible refine ite_evo (fun _ => ?_) (fun _ => ?_)
    | with_reducible refine State.blDrop_evo ?_
    | with_reducible refine State.peerHeard_evo ?_
    | (with_reducible refine upd_evo ?_; with_reducible assumption)
    | (with_reducible refine upd_evo ?_; with_reducible refine upd_evo ?_; with_reducible assumption)
    | split

theorem execAnnounceSend_evo {K : Kinds} {t : Nat} {s0 s : State} (h : Evolve K s0 s) :
    ∃ s', (execAnnounceSend t s) = .next s' ∧ Evolve K s0 s' := by
  unfold execAnnounceSend
  refine ⟨_, rfl, ?_⟩
  replace h := State.advance_evo (t := t) h
  revert h
  generalize State.advance s t = s
  intro h
  repeat' first
    | with_reducible assumption
    | (intro x; refine cut_evo (k := K) (s0 := s0) (x := x) ?_ ?_; rotate_left; intro hx; clear_value x; rotate_left; subst x)
    | (intro x; clear_value x)
    | lift_lets
    | with_reducible refine ite_evo (fun _ => ?_) (fun _ => ?_)
    | (with_reducible refine State.each_evo ?_ (fun s i h => ?_))
    | with_reducible refine State.advance_evo ?_
    | (with_reducible refine State.recur_evo ?_ (fun s h => ?_))
    | with_reducible refine State.modLink_evo ?_
    | with_reducible refine State.udpSend_evo ?_
    | (with_reducible refine upd_evo ?_; with_reducible assumption)
    | (with_reducible refine upd_evo ?_; with_reducible refine upd_evo ?_; with_reducible assumption)
    | split

theorem execPeerAbsent_evo {K : Kinds} {t : Nat} {i : Nat} {s0 s : State} (h : Evolve K s0 s) :
    ∃ s', (execPeerAbsent t i s) = .next s' ∧ Evolve K s0 s' := by
  unfold execPeerAbsent
  refine ⟨_, rfl, ?_⟩
  replace h := State.advance_evo (t := t) h
  revert h
  generalize State.advance s t = s
  intro h
  repeat' first
    | with_reducible assumption
    | (intro x; refine cut_evo (k := K) (s0 := s0) (x := x) ?_ ?_; rotate_left; intro hx; clear_value x; rotate_left; subst x)
    | (intro x; clear_value x)
    | lift_lets
    | with_reducible refine ite_evo (fun _ => ?_) (fun _ => ?_)
    | with_reducible refine State.advance_evo ?_
    | with_reducible refine State.raise_evo ?_
    | with_reducible refine State.modLink_evo ?_
    | with_reducible refine State.showPeers_evo ?_
    | (with_reducible refine upd_evo ?_; with_reducible assumption)
    | (with_reducible refine upd_evo ?_; with_reducible refine upd_evo ?_; with_reducible assumption)
    | split

theorem State.requestIn_evo {K : Kinds} {s0 s : State} {p : CmdPkt} {ioOk rb : Bool} (h : Evolve K s0 s) (hk_flash : K.flash = true) (hk_fuse : K.fuse = true) (hk_reset : K.reset = true) (hk_fram : K.fram = true) (hk_unit : K.unit = true) :
    Evolve K s0 (State.requestIn s p ioOk rb) := by
  unfold State.requestIn
  repeat' first
    | with_reducible assumption
    | (intro x; refine cut_evo (k := K) (s0 := s0) (x := x) ?_ ?_; rotate_left; intro hx; clear_value x; rotate_left; subst x)
    | (intro x; clear_value x)
    | lift_lets
    | with_reducible refine ite_evo (fun _ => ?_) (fun _ => ?_)
    | with_reducible refine State.bump_evo ?_
    | with_reducible refine State.blDrop_evo ?_
    | with_reducible refine State.sendPkt_evo ?_
    | with_reducible refine State.authFail_evo ?_
    | with_reducible refine State.request_evo ?_ hk_flash hk_fuse hk_reset hk_fram hk_unit
    | (with_reducible refine upd_evo ?_; with_reducible assumption)
    | (with_reducible refine upd_evo ?_; with_reducible refine upd_evo ?_; with_reducible assumption)
    | split

theorem State.packetIn_evo {K : Kinds} {s0 s : State} {p : CmdPkt} {ioOk rb : Bool} (h : Evolve K s0 s) (hk_flash : K.flash = true) (hk_fuse : K.fuse = true) (hk_reset : K.reset = true) (hk_fram : K.fram = true) (hk_unit : K.unit = true) :
    Evolve K s0 (State.packetIn s p ioOk rb) := by
  unfold State.packetIn
  repeat' first
    | with_reducible assumption
    | with_reducible refine ite_evo (fun _ => ?_) (fun _ => ?_)
    | with_reducible refine State.blDrop_evo ?_
    | with_reducible refine State.openSession_evo ?_
    | with_reducible refine State.announced_evo ?_
    | with_reducible refine State.requestIn_evo ?_ hk_flash hk_fuse hk_reset hk_fram hk_unit
    | (with_reducible refine upd_evo ?_; with_reducible assumption)
    | (with_reducible refine upd_evo ?_; with_reducible refine upd_evo ?_; with_reducible assumption)
    | split

theorem execBlPacketProcess_evo {K : Kinds} {t : Nat} {ioOk readbackOk : Bool} {s0 s : State} (h : Evolve K s0 s) (hk_flash : K.flash = true) (hk_fuse : K.fuse = true) (hk_reset : K.reset = true) (hk_fram : K.fram = true) (hk_unit : K.unit = true) :
    ∃ s', (execBlPacketProcess t ioOk readbackOk s) = .next s' ∧ Evolve K s0 s' := by
  unfold execBlPacketProcess
  refine ⟨_, rfl, ?_⟩
  replace h := State.advance_evo (t := t) h
  revert h
  generalize State.advance s t = s
  intro h
  repeat' first
    | with_reducible assumption
    | (intro x; refine cut_evo (k := K) (s0 := s0) (x := x) ?_ ?_; rotate_left; intro hx; clear_value x; rotate_left; subst x)
    | (intro x; clear_value x)
    | lift_lets
    | with_reducible refine ite_evo (fun _ => ?_) (fun _ => ?_)
    | with_reducible refine State.advance_evo ?_
    | with_reducible refine State.modLink_evo ?_
    | with_reducible refine State.serveEvents_evo ?_
    | with_reducible refine State.serveTel_evo ?_
    | with_reducible refine State.packetIn_evo ?_ hk_flash hk_fuse hk_reset hk_fram hk_unit
    | (with_reducible refine upd_evo ?_; with_reducible assumption)
    | (with_reducible refine upd_evo ?_; with_reducible refine upd_evo ?_; with_reducible assumption)
    | split

theorem execRead_evo {K : Kinds} {t : Nat} {sid : Nat} {ids : List Nat} {s0 s : State} (h : Evolve K s0 s) (hk_flash : K.flash = true) (hk_fuse : K.fuse = true) (hk_reset : K.reset = true) (hk_fram : K.fram = true) (hk_unit : K.unit = true) :
    ∃ s', (execRead t sid ids s) = .next s' ∧ Evolve K s0 s' := by
  unfold execRead
  refine ⟨_, rfl, ?_⟩
  replace h := State.advance_evo (t := t) h
  revert h
  generalize State.advance s t = s
  intro h
  repeat' first
    | with_reducible assumption
    | with_reducible refine State.advance_evo ?_
    | with_reducible refine State.direct_evo ?_ hk_flash hk_fuse hk_reset hk_fram hk_unit

theorem execWrite_evo {K : Kinds} {t : Nat} {sid : Nat} {items : List (Nat × Word)} {s0 s : State} (h : Evolve K s0 s) (hk_flash : K.flash = true) (hk_fuse : K.fuse = true) (hk_reset : K.reset = true) (hk_fram : K.fram = true) (hk_unit : K.unit = true) :
    ∃ s', (execWrite t sid items s) = .next s' ∧ Evolve K s0 s' := by
  unfold execWrite
  refine ⟨_, rfl, ?_⟩
  replace h := State.advance_evo (t := t) h
  revert h
  generalize State.advance s t = s
  intro h
  repeat' first
    | with_reducible assumption
    | with_reducible refine State.advance_evo ?_
    | with_reducible refine State.direct_evo ?_ hk_flash hk_fuse hk_reset hk_fram hk_unit

theorem execBulkRead_evo {K : Kinds} {t : Nat} {sid target offset length : Nat} {s0 s : State} (h : Evolve K s0 s) (hk_flash : K.flash = true) (hk_fuse : K.fuse = true) (hk_reset : K.reset = true) (hk_fram : K.fram = true) (hk_unit : K.unit = true) :
    ∃ s', (execBulkRead t sid target offset length s) = .next s' ∧ Evolve K s0 s' := by
  unfold execBulkRead
  refine ⟨_, rfl, ?_⟩
  replace h := State.advance_evo (t := t) h
  revert h
  generalize State.advance s t = s
  intro h
  repeat' first
    | with_reducible assumption
    | with_reducible refine State.advance_evo ?_
    | with_reducible refine State.direct_evo ?_ hk_flash hk_fuse hk_reset hk_fram hk_unit

theorem execBulkWriteBegin_evo {K : Kinds} {t : Nat} {sid target total : Nat} {digest : List Byte} {s0 s : State} (h : Evolve K s0 s) (hk_flash : K.flash = true) (hk_fuse : K.fuse = true) (hk_reset : K.reset = true) (hk_fram : K.fram = true) (hk_unit : K.unit = true) :
    ∃ s', (execBulkWriteBegin t sid target total digest s) = .next s' ∧ Evolve K s0 s' := by
  unfold execBulkWriteBegin
  refine ⟨_, rfl, ?_⟩
  replace h := State.advance_evo (t := t) h
  revert h
  generalize State.advance s t = s
  intro h
  repeat' first
    | with_reducible assumption
    | with_reducible refine State.advance_evo ?_
    | with_reducible refine State.direct_evo ?_ hk_flash hk_fuse hk_reset hk_fram hk_unit

theorem execBulkWriteData_evo {K : Kinds} {t : Nat} {sid offset : Nat} {bytes : List Byte} {s0 s : State} (h : Evolve K s0 s) (hk_flash : K.flash = true) (hk_fuse : K.fuse = true) (hk_reset : K.reset = true) (hk_fram : K.fram = true) (hk_unit : K.unit = true) :
    ∃ s', (execBulkWriteData t sid offset bytes s) = .next s' ∧ Evolve K s0 s' := by
  unfold execBulkWriteData
  refine ⟨_, rfl, ?_⟩
  replace h := State.advance_evo (t := t) h
  revert h
  generalize State.advance s t = s
  intro h
  repeat' first
    | with_reducible assumption
    | with_reducible refine State.advance_evo ?_
    | with_reducible refine State.direct_evo ?_ hk_flash hk_fuse hk_reset hk_fram hk_unit

theorem execBulkWriteEnd_evo {K : Kinds} {t : Nat} {sid : Nat} {ioOk : Bool} {s0 s : State} (h : Evolve K s0 s) (hk_flash : K.flash = true) (hk_fuse : K.fuse = true) (hk_reset : K.reset = true) (hk_fram : K.fram = true) (hk_unit : K.unit = true) :
    ∃ s', (execBulkWriteEnd t sid ioOk s) = .next s' ∧ Evolve K s0 s' := by
  unfold execBulkWriteEnd
  refine ⟨_, rfl, ?_⟩
  replace h := State.advance_evo (t := t) h
  revert h
  generalize State.advance s t = s
  intro h
  repeat' first
    | with_reducible assumption
    | with_reducible refine State.advance_evo ?_
    | with_reducible refine State.direct_evo ?_ hk_flash hk_fuse hk_reset hk_fram hk_unit

theorem execSubscribe_evo {K : Kinds} {t : Nat} {sid period flags : Nat} {ids : List Nat} {s0 s : State} (h : Evolve K s0 s) (hk_flash : K.flash = true) (hk_fuse : K.fuse = true) (hk_reset : K.reset = true) (hk_fram : K.fram = true) (hk_unit : K.unit = true) :
    ∃ s', (execSubscribe t sid period flags ids s) = .next s' ∧ Evolve K s0 s' := by
  unfold execSubscribe
  refine ⟨_, rfl, ?_⟩
  replace h := State.advance_evo (t := t) h
  revert h
  generalize State.advance s t = s
  intro h
  repeat' first
    | with_reducible assumption
    | with_reducible refine State.advance_evo ?_
    | with_reducible refine State.direct_evo ?_ hk_flash hk_fuse hk_reset hk_fram hk_unit

theorem execReadEvents_evo {K : Kinds} {t : Nat} {sid first count : Nat} {s0 s : State} (h : Evolve K s0 s) (hk_flash : K.flash = true) (hk_fuse : K.fuse = true) (hk_reset : K.reset = true) (hk_fram : K.fram = true) (hk_unit : K.unit = true) :
    ∃ s', (execReadEvents t sid first count s) = .next s' ∧ Evolve K s0 s' := by
  unfold execReadEvents
  refine ⟨_, rfl, ?_⟩
  replace h := State.advance_evo (t := t) h
  revert h
  generalize State.advance s t = s
  intro h
  repeat' first
    | with_reducible assumption
    | with_reducible refine State.advance_evo ?_
    | with_reducible refine State.direct_evo ?_ hk_flash hk_fuse hk_reset hk_fram hk_unit

theorem execReBind_evo {K : Kinds} {t : Nat} {sid : Nat} {bytes : List Byte} {readbackOk : Bool} {s0 s : State} (h : Evolve K s0 s) (hk_flash : K.flash = true) (hk_fuse : K.fuse = true) (hk_reset : K.reset = true) (hk_fram : K.fram = true) (hk_unit : K.unit = true) :
    ∃ s', (execReBind t sid bytes readbackOk s) = .next s' ∧ Evolve K s0 s' := by
  unfold execReBind
  refine ⟨_, rfl, ?_⟩
  replace h := State.advance_evo (t := t) h
  revert h
  generalize State.advance s t = s
  intro h
  repeat' first
    | with_reducible assumption
    | with_reducible refine State.advance_evo ?_
    | with_reducible refine State.direct_evo ?_ hk_flash hk_fuse hk_reset hk_fram hk_unit

theorem execReplaceIntegratorKey_evo {K : Kinds} {t : Nat} {sid : Nat} {bytes : List Byte} {readbackOk : Bool} {s0 s : State} (h : Evolve K s0 s) (hk_flash : K.flash = true) (hk_fuse : K.fuse = true) (hk_reset : K.reset = true) (hk_fram : K.fram = true) (hk_unit : K.unit = true) :
    ∃ s', (execReplaceIntegratorKey t sid bytes readbackOk s) = .next s' ∧ Evolve K s0 s' := by
  unfold execReplaceIntegratorKey
  refine ⟨_, rfl, ?_⟩
  replace h := State.advance_evo (t := t) h
  revert h
  generalize State.advance s t = s
  intro h
  repeat' first
    | with_reducible assumption
    | with_reducible refine State.advance_evo ?_
    | with_reducible refine State.direct_evo ?_ hk_flash hk_fuse hk_reset hk_fram hk_unit

theorem execRaiseFloor_evo {K : Kinds} {t : Nat} {sid floor : Nat} {readbackOk : Bool} {s0 s : State} (h : Evolve K s0 s) (hk_flash : K.flash = true) (hk_fuse : K.fuse = true) (hk_reset : K.reset = true) (hk_fram : K.fram = true) (hk_unit : K.unit = true) :
    ∃ s', (execRaiseFloor t sid floor readbackOk s) = .next s' ∧ Evolve K s0 s' := by
  unfold execRaiseFloor
  refine ⟨_, rfl, ?_⟩
  replace h := State.advance_evo (t := t) h
  revert h
  generalize State.advance s t = s
  intro h
  repeat' first
    | with_reducible assumption
    | with_reducible refine State.advance_evo ?_
    | with_reducible refine State.direct_evo ?_ hk_flash hk_fuse hk_reset hk_fram hk_unit

theorem execCloseSession_evo {K : Kinds} {t : Nat} {sid : Nat} {s0 s : State} (h : Evolve K s0 s) (hk_flash : K.flash = true) (hk_fuse : K.fuse = true) (hk_reset : K.reset = true) (hk_fram : K.fram = true) (hk_unit : K.unit = true) :
    ∃ s', (execCloseSession t sid s) = .next s' ∧ Evolve K s0 s' := by
  unfold execCloseSession
  refine ⟨_, rfl, ?_⟩
  replace h := State.advance_evo (t := t) h
  revert h
  generalize State.advance s t = s
  intro h
  repeat' first
    | with_reducible assumption
    | with_reducible refine State.advance_evo ?_
    | with_reducible refine State.direct_evo ?_ hk_flash hk_fuse hk_reset hk_fram hk_unit

theorem execSlotEraseDone_evo {K : Kinds} {t : Nat} {s0 s : State} (h : Evolve K s0 s) :
    ∃ s', (execSlotEraseDone t s) = .next s' ∧ Evolve K s0 s' := by
  unfold execSlotEraseDone
  refine ⟨_, rfl, ?_⟩
  replace h := State.advance_evo (t := t) h
  revert h
  generalize State.advance s t = s
  intro h
  repeat' first
    | with_reducible assumption
    | (intro x; refine cut_evo (k := K) (s0 := s0) (x := x) ?_ ?_; rotate_left; intro hx; clear_value x; rotate_left; subst x)
    | (intro x; clear_value x)
    | lift_lets
    | with_reducible refine ite_evo (fun _ => ?_) (fun _ => ?_)
    | with_reducible refine State.advance_evo ?_
    | with_reducible refine State.modLink_evo ?_
    | with_reducible refine State.showBulk_evo ?_
    | (with_reducible refine upd_evo ?_; with_reducible assumption)
    | (with_reducible refine upd_evo ?_; with_reducible refine upd_evo ?_; with_reducible assumption)
    | split

theorem execBulkWriteTimeout_evo {K : Kinds} {t : Nat} {s0 s : State} (h : Evolve K s0 s) :
    ∃ s', (execBulkWriteTimeout t s) = .next s' ∧ Evolve K s0 s' := by
  unfold execBulkWriteTimeout
  refine ⟨_, rfl, ?_⟩
  replace h := State.advance_evo (t := t) h
  revert h
  generalize State.advance s t = s
  intro h
  repeat' first
    | with_reducible assumption
    | (intro x; refine cut_evo (k := K) (s0 := s0) (x := x) ?_ ?_; rotate_left; intro hx; clear_value x; rotate_left; subst x)
    | (intro x; clear_value x)
    | lift_lets
    | with_reducible refine ite_evo (fun _ => ?_) (fun _ => ?_)
    | with_reducible refine State.advance_evo ?_
    | with_reducible refine State.bulkAbort_evo ?_
    | (with_reducible refine upd_evo ?_; with_reducible assumption)
    | (with_reducible refine upd_evo ?_; with_reducible refine upd_evo ?_; with_reducible assumption)
    | split

theorem execBulkReadCopyExpiry_evo {K : Kinds} {t : Nat} {sid : Nat} {s0 s : State} (h : Evolve K s0 s) :
    ∃ s', (execBulkReadCopyExpiry t sid s) = .next s' ∧ Evolve K s0 s' := by
  unfold execBulkReadCopyExpiry
  refine ⟨_, rfl, ?_⟩
  replace h := State.advance_evo (t := t) h
  revert h
  generalize State.advance s t = s
  intro h
  repeat' first
    | with_reducible assumption
    | (intro x; refine cut_evo (k := K) (s0 := s0) (x := x) ?_ ?_; rotate_left; intro hx; clear_value x; rotate_left; subst x)
    | (intro x; clear_value x)
    | lift_lets
    | with_reducible refine ite_evo (fun _ => ?_) (fun _ => ?_)
    | with_reducible refine State.advance_evo ?_
    | with_reducible refine State.modSess_evo ?_
    | (with_reducible refine upd_evo ?_; with_reducible assumption)
    | (with_reducible refine upd_evo ?_; with_reducible refine upd_evo ?_; with_reducible assumption)
    | split

theorem execTelemetrySend_evo {K : Kinds} {t : Nat} {sid : Nat} {s0 s : State} (h : Evolve K s0 s) :
    ∃ s', (execTelemetrySend t sid s) = .next s' ∧ Evolve K s0 s' := by
  unfold execTelemetrySend
  refine ⟨_, rfl, ?_⟩
  replace h := State.advance_evo (t := t) h
  revert h
  generalize State.advance s t = s
  intro h
  repeat' first
    | with_reducible assumption
    | (intro x; refine cut_evo (k := K) (s0 := s0) (x := x) ?_ ?_; rotate_left; intro hx; clear_value x; rotate_left; subst x)
    | (intro x; clear_value x)
    | lift_lets
    | with_reducible refine ite_evo (fun _ => ?_) (fun _ => ?_)
    | with_reducible refine State.advance_evo ?_
    | with_reducible refine State.highWater_evo ?_
    | with_reducible refine State.qLost_evo ?_
    | with_reducible refine State.modLink_evo ?_
    | with_reducible refine State.modSess_evo ?_
    | with_reducible refine State.serveEvents_evo ?_
    | with_reducible refine State.serveTel_evo ?_
    | (with_reducible refine upd_evo ?_; with_reducible assumption)
    | (with_reducible refine upd_evo ?_; with_reducible refine upd_evo ?_; with_reducible assumption)
    | split

theorem execEventWriterTake_evo {K : Kinds} {t : Nat} {s0 s : State} (h : Evolve K s0 s) :
    ∃ s', (execEventWriterTake t s) = .next s' ∧ Evolve K s0 s' := by
  unfold execEventWriterTake
  refine ⟨_, rfl, ?_⟩
  replace h := State.advance_evo (t := t) h
  revert h
  generalize State.advance s t = s
  intro h
  repeat' first
    | with_reducible assumption
    | (intro x; refine cut_evo (k := K) (s0 := s0) (x := x) ?_ ?_; rotate_left; intro hx; clear_value x; rotate_left; subst x)
    | (intro x; clear_value x)
    | lift_lets
    | with_reducible refine State.advance_evo ?_
    | with_reducible refine State.evTake_evo ?_

end Sys2Proof.Machine
end

