-- ==== Sys2Proof/Laws/KeptNetRx.lean ====
section
/-! SUPPORT. What the functions of Machine/NetRx.lean keep: each stays within `Evolve`. -/

set_option Elab.async false
set_option linter.unusedVariables false
set_option linter.unreachableTactic false
set_option linter.unusedTactic false
set_option linter.unusedSimpArgs false

namespace Sys2Proof.Machine

theorem State.canRxOk_evo {K : Kinds} {s0 s : State} {ch : Nat} (h : Evolve K s0 s) :
    Evolve K s0 (State.canRxOk s ch) := by
  unfold State.canRxOk
  repeat' first
    | with_reducible assumption
    | (intro x; refine cut_evo (k := K) (s0 := s0) (x := x) ?_ ?_; rotate_left; intro hx; clear_value x; rotate_left; subst x)
    | (intro x; clear_value x)
    | lift_lets
    | with_reducible refine ite_evo (fun _ => ?_) (fun _ => ?_)
    | with_reducible refine State.fresh_evo ?_
    | with_reducible refine State.canCounters_evo ?_
    | (refine snd_evo (by assumption) ?_)
    | (refine fst_evo (by assumption) ?_)
    | split

theorem State.canPairing_evo {K : Kinds} {s0 s : State} {ch seq : Nat} {off : Int} (h : Evolve K s0 s) :
    Evolve K s0 (State.canPairing s ch seq off) := by
  unfold State.canPairing
  repeat' first
    | with_reducible assumption
    | (intro x; refine cut_evo (k := K) (s0 := s0) (x := x) ?_ ?_; rotate_left; intro hx; clear_value x; rotate_left; subst x)
    | (intro x; clear_value x)
    | lift_lets
    | with_reducible refine ite_evo (fun _ => ?_) (fun _ => ?_)
    | with_reducible refine State.setZ_evo ?_
    | with_reducible refine State.bump_evo ?_
    | with_reducible refine State.modCan_evo ?_
    | with_reducible refine State.modTime_evo ?_
    | with_reducible refine State.takeSource_evo ?_
    | with_reducible refine State.timeFeed_evo ?_
    | (with_reducible refine upd_evo ?_; with_reducible assumption)
    | (with_reducible refine upd_evo ?_; with_reducible refine upd_evo ?_; with_reducible assumption)

theorem State.canRefIn_evo {K : Kinds} {s0 s : State} {ch : Nat} {bs : List Byte} {durPs : Nat} (h : Evolve K s0 s) :
    Evolve K s0 (State.canRefIn s ch bs durPs) := by
  unfold State.canRefIn
  repeat' first
    | with_reducible assumption
    | (intro x; refine cut_evo (k := K) (s0 := s0) (x := x) ?_ ?_; rotate_left; intro hx; clear_value x; rotate_left; subst x)
    | (intro x; clear_value x)
    | lift_lets
    | with_reducible refine ite_evo (fun _ => ?_) (fun _ => ?_)
    | with_reducible refine State.bump_evo ?_
    | with_reducible refine State.modCan_evo ?_
    | with_reducible refine State.canPairing_evo ?_
    | (with_reducible refine upd_evo ?_; with_reducible assumption)
    | (with_reducible refine upd_evo ?_; with_reducible refine upd_evo ?_; with_reducible assumption)
    | split

theorem State.canConsume_evo {K : Kinds} {s0 s : State} {ch : Nat} {f : CanFrame} {durPs : Nat} (h : Evolve K s0 s) :
    Evolve K s0 (State.canConsume s ch f durPs) := by
  unfold State.canConsume
  repeat' first
    | with_reducible assumption
    | with_reducible refine ite_evo (fun _ => ?_) (fun _ => ?_)
    | with_reducible refine State.heartbeat_evo ?_
    | with_reducible refine State.tpdo_evo ?_
    | with_reducible refine State.segmentIn_evo ?_
    | with_reducible refine State.canRefIn_evo ?_
    | (with_reducible refine upd_evo ?_; with_reducible assumption)
    | (with_reducible refine upd_evo ?_; with_reducible refine upd_evo ?_; with_reducible assumption)
    | split

theorem State.canPush_evo {K : Kinds} {s0 s : State} {ch : Nat} {f : CanFrame} {durPs : Nat} (h : Evolve K s0 s) :
    Evolve K s0 (State.canPush s ch f durPs) := by
  unfold State.canPush
  repeat' first
    | with_reducible assumption
    | with_reducible refine ite_evo (fun _ => ?_) (fun _ => ?_)
    | with_reducible refine State.highWater_evo ?_
    | with_reducible refine State.qLost_evo ?_
    | with_reducible refine State.modCan_evo ?_
    | (with_reducible refine upd_evo ?_; with_reducible assumption)
    | (with_reducible refine upd_evo ?_; with_reducible refine upd_evo ?_; with_reducible assumption)

theorem State.canServe_evo {K : Kinds} {s0 s : State} {ch : Nat} (h : Evolve K s0 s) :
    Evolve K s0 (State.canServe s ch) := by
  unfold State.canServe
  repeat' first
    | with_reducible assumption
    | with_reducible refine State.modCan_evo ?_
    | with_reducible refine State.canConsume_evo ?_
    | (with_reducible refine foldl_evo ?_ (fun s i h => ?_))
    | (with_reducible refine foldlFst_evo ?_ (fun a x h => ?_))
    | (dsimp only; with_reducible assumption)
    | (with_reducible refine foldlSnd_evo ?_ (fun a x h => ?_))
    | (dsimp only; with_reducible assumption)
    | (with_reducible refine upd_evo ?_; with_reducible assumption)
    | (with_reducible refine upd_evo ?_; with_reducible refine upd_evo ?_; with_reducible assumption)

theorem State.canRoute_evo {K : Kinds} {s0 s : State} {ch : Nat} {f : CanFrame} {durPs : Nat} (h : Evolve K s0 s) (hk_unit : K.unit = true) :
    Evolve K s0 (State.canRoute s ch f durPs) := by
  unfold State.canRoute
  repeat' first
    | with_reducible assumption
    | with_reducible refine ite_evo (fun _ => ?_) (fun _ => ?_)
    | with_reducible refine State.packetCopy_evo ?_ hk_unit
    | with_reducible refine State.canPush_evo ?_
    | with_reducible refine State.canServe_evo ?_

theorem State.canJoin_evo {K : Kinds} {s0 s : State} {ch : Nat} (h : Evolve K s0 s) :
    Evolve K s0 (State.canJoin s ch) := by
  unfold State.canJoin
  repeat' first
    | with_reducible assumption
    | with_reducible refine State.modCan_evo ?_
    | (with_reducible refine upd_evo ?_; with_reducible assumption)
    | (with_reducible refine upd_evo ?_; with_reducible refine upd_evo ?_; with_reducible assumption)

theorem execCanFrameReceive_evo {K : Kinds} {t : Nat} {ch : Nat} {f : CanFrame} {durPs : Nat} {s0 s : State} (h : Evolve K s0 s) (hk_unit : K.unit = true) :
    ∃ s', (execCanFrameReceive t ch f durPs s) = .next s' ∧ Evolve K s0 s' := by
  unfold execCanFrameReceive
  refine ⟨_, rfl, ?_⟩
  replace h := State.advance_evo (t := t) h
  revert h
  generalize State.advance s t = s
  intro h
  repeat' first
    | with_reducible assumption
    | (intro x; refine cut_evo (k := K) (s0 := s0) (x := x) ?_ ?_; rotate_left; intro hx; clear_value x; rotate_left; subst x)
    | (intro x; clear_value x)
    | lift_lets
    | with_reducible refine ite_evo (fun _ => ?_) (fun _ => ?_)
    | with_reducible refine State.bump_evo ?_
    | with_reducible refine State.advance_evo ?_
    | with_reducible refine State.canRxError_evo ?_
    | with_reducible refine State.canRxOk_evo ?_
    | with_reducible refine State.canRoute_evo ?_ hk_unit
    | with_reducible refine State.canJoin_evo ?_

theorem execCanSourceTimeout_evo {K : Kinds} {t : Nat} {ch : Nat} {s0 s : State} (h : Evolve K s0 s) :
    ∃ s', (execCanSourceTimeout t ch s) = .next s' ∧ Evolve K s0 s' := by
  unfold execCanSourceTimeout
  refine ⟨_, rfl, ?_⟩
  replace h := State.advance_evo (t := t) h
  revert h
  generalize State.advance s t = s
  intro h
  repeat' first
    | with_reducible assumption
    | (intro x; refine cut_evo (k := K) (s0 := s0) (x := x) ?_ ?_; rotate_left; intro hx; clear_value x; rotate_left; subst x)
    | (intro x; clear_value x)
    | lift_lets
    | with_reducible refine ite_evo (fun _ => ?_) (fun _ => ?_)
    | with_reducible refine State.advance_evo ?_
    | with_reducible refine State.raise_evo ?_
    | with_reducible refine State.modCan_evo ?_
    | with_reducible refine State.modTime_evo ?_
    | with_reducible refine State.takeSource_evo ?_
    | (with_reducible refine upd_evo ?_; with_reducible assumption)
    | (with_reducible refine upd_evo ?_; with_reducible refine upd_evo ?_; with_reducible assumption)

theorem State.arpIn_evo {K : Kinds} {s0 s : State} {e : Nat} {p : List Byte} (h : Evolve K s0 s) :
    Evolve K s0 (State.arpIn s e p) := by
  unfold State.arpIn
  repeat' first
    | with_reducible assumption
    | (intro x; refine cut_evo (k := K) (s0 := s0) (x := x) ?_ ?_; rotate_left; intro hx; clear_value x; rotate_left; subst x)
    | (intro x; clear_value x)
    | lift_lets
    | with_reducible refine ite_evo (fun _ => ?_) (fun _ => ?_)
    | (with_reducible refine State.onlyIf_evo ?_ (fun s h => ?_))
    | with_reducible refine State.ethSend_evo ?_
    | with_reducible refine State.arpLearn_evo ?_

theorem State.udpIn_evo {K : Kinds} {s0 s : State} {e src : Nat} {hdr u : List Byte} (h : Evolve K s0 s) (hk_unit : K.unit = true) :
    Evolve K s0 (State.udpIn s e src hdr u) := by
  unfold State.udpIn
  repeat' first
    | with_reducible assumption
    | (intro x; refine cut_evo (k := K) (s0 := s0) (x := x) ?_ ?_; rotate_left; intro hx; clear_value x; rotate_left; subst x)
    | (intro x; clear_value x)
    | lift_lets
    | with_reducible refine ite_evo (fun _ => ?_) (fun _ => ?_)
    | with_reducible refine State.packetCopy_evo ?_ hk_unit
    | with_reducible refine State.datagramIn_evo ?_

theorem State.ipIn_evo {K : Kinds} {s0 s : State} {e : Nat} {p : List Byte} (h : Evolve K s0 s) (hk_unit : K.unit = true) :
    Evolve K s0 (State.ipIn s e p) := by
  unfold State.ipIn
  repeat' first
    | with_reducible assumption
    | (intro x; refine cut_evo (k := K) (s0 := s0) (x := x) ?_ ?_; rotate_left; intro hx; clear_value x; rotate_left; subst x)
    | (intro x; clear_value x)
    | lift_lets
    | with_reducible refine ite_evo (fun _ => ?_) (fun _ => ?_)
    | with_reducible refine State.ethSend_evo ?_
    | with_reducible refine State.udpIn_evo ?_ hk_unit
    | (with_reducible refine upd_evo ?_; with_reducible assumption)
    | (with_reducible refine upd_evo ?_; with_reducible refine upd_evo ?_; with_reducible assumption)
    | split

theorem State.ethIn_evo {K : Kinds} {s0 s : State} {e : Nat} {bs : List Byte} (h : Evolve K s0 s) (hk_unit : K.unit = true) :
    Evolve K s0 (State.ethIn s e bs) := by
  unfold State.ethIn
  repeat' first
    | with_reducible assumption
    | (intro x; refine cut_evo (k := K) (s0 := s0) (x := x) ?_ ?_; rotate_left; intro hx; clear_value x; rotate_left; subst x)
    | (intro x; clear_value x)
    | lift_lets
    | with_reducible refine ite_evo (fun _ => ?_) (fun _ => ?_)
    | with_reducible refine State.ptpIn_evo ?_
    | with_reducible refine State.arpIn_evo ?_
    | with_reducible refine State.ipIn_evo ?_ hk_unit
    | (with_reducible refine upd_evo ?_; with_reducible assumption)
    | (with_reducible refine upd_evo ?_; with_reducible refine upd_evo ?_; with_reducible assumption)
    | split

theorem execEthFrameReceive_evo {K : Kinds} {t : Nat} {e : Nat} {fcsOk : Bool} {bytes : List Byte} {s0 s : State} (h : Evolve K s0 s) (hk_unit : K.unit = true) :
    ∃ s', (execEthFrameReceive t e fcsOk bytes s) = .next s' ∧ Evolve K s0 s' := by
  unfold execEthFrameReceive
  refine ⟨_, rfl, ?_⟩
  replace h := State.advance_evo (t := t) h
  revert h
  generalize State.advance s t = s
  intro h
  repeat' first
    | with_reducible assumption
    | (intro x; refine cut_evo (k := K) (s0 := s0) (x := x) ?_ ?_; rotate_left; intro hx; clear_value x; rotate_left; subst x)
    | (intro x; clear_value x)
    | lift_lets
    | with_reducible refine ite_evo (fun _ => ?_) (fun _ => ?_)
    | with_reducible refine State.bump_evo ?_
    | with_reducible refine State.advance_evo ?_
    | with_reducible refine State.ethIn_evo ?_ hk_unit

end Sys2Proof.Machine
end

