-- ==== Sys2Proof/Laws/KeptEngine.lean ====
section
/-! SUPPORT. What the functions of Machine/Engine.lean keep: each stays within `Evolve`. -/

set_option Elab.async false
set_option linter.unusedVariables false
set_option linter.unreachableTactic false
set_option linter.unusedTactic false
set_option linter.unusedSimpArgs false

namespace Sys2Proof.Machine

theorem State.advanceTheta_evo {K : Kinds} {s0 s : State} {p k : Nat} (h : Evolve K s0 s) :
    Evolve K s0 (State.advanceTheta s p k) := by
  unfold State.advanceTheta
  repeat' first
    | with_reducible assumption
    | (intro x; refine cut_evo (k := K) (s0 := s0) (x := x) ?_ ?_; rotate_left; intro hx; clear_value x; rotate_left; subst x)
    | (intro x; clear_value x)
    | lift_lets
    | with_reducible refine ite_evo (fun _ => ?_) (fun _ => ?_)
    | with_reducible refine State.setN_evo ?_
    | with_reducible refine State.modPort_evo ?_
    | (with_reducible refine upd_evo ?_; with_reducible assumption)
    | (with_reducible refine upd_evo ?_; with_reducible refine upd_evo ?_; with_reducible assumption)

theorem State.lawDuties_evo {K : Kinds} {s0 s : State} {p : Nat} {r : InnerRes} (h : Evolve K s0 s) :
    Evolve K s0 (State.lawDuties s p r) := by
  unfold State.lawDuties
  repeat' first
    | with_reducible assumption
    | (intro x; refine cut_evo (k := K) (s0 := s0) (x := x) ?_ ?_; rotate_left; intro hx; clear_value x; rotate_left; subst x)
    | (intro x; refine cutSnd_evo (k := K) (s0 := s0) (x := x) ?_ ?_; rotate_left; intro hx; clear_value x; rotate_left; subst x)
    | (intro x; clear_value x)
    | lift_lets
    | with_reducible refine ite_evo (fun _ => ?_) (fun _ => ?_)
    | with_reducible refine State.modPort_evo ?_
    | (with_reducible refine upd_evo ?_; with_reducible assumption)
    | (with_reducible refine upd_evo ?_; with_reducible refine upd_evo ?_; with_reducible assumption)

theorem State.innerTake_evo {K : Kinds} {s0 s : State} {p : Nat} {r : InnerRes} (h : Evolve K s0 s) :
    Evolve K s0 (State.innerTake s p r) := by
  unfold State.innerTake
  repeat' first
    | with_reducible assumption
    | (intro x; refine cut_evo (k := K) (s0 := s0) (x := x) ?_ ?_; rotate_left; intro hx; clear_value x; rotate_left; subst x)
    | (intro x; refine cutSnd_evo (k := K) (s0 := s0) (x := x) ?_ ?_; rotate_left; intro hx; clear_value x; rotate_left; subst x)
    | (intro x; clear_value x)
    | lift_lets
    | with_reducible refine ite_evo (fun _ => ?_) (fun _ => ?_)
    | with_reducible refine State.setZ_evo ?_
    | (with_reducible refine State.onlyIf_evo ?_ (fun s h => ?_))
    | with_reducible refine State.modPort_evo ?_
    | with_reducible refine State.injAbort_evo ?_
    | with_reducible refine State.advanceTheta_evo ?_
    | with_reducible refine State.lawDuties_evo ?_
    | (with_reducible refine foldl_evo ?_ (fun s i h => ?_))
    | (with_reducible refine foldlFst_evo ?_ (fun a x h => ?_))
    | (dsimp only; with_reducible assumption)
    | (with_reducible refine foldlSnd_evo ?_ (fun a x h => ?_))
    | (dsimp only; with_reducible assumption)
    | (with_reducible refine upd_evo ?_; with_reducible assumption)
    | (with_reducible refine upd_evo ?_; with_reducible refine upd_evo ?_; with_reducible assumption)

theorem State.pushRef_evo {K : Kinds} {s0 s : State} {p : Nat} {e : RefEntry} (h : Evolve K s0 s) :
    Evolve K s0 (State.pushRef s p e) := by
  unfold State.pushRef
  repeat' first
    | with_reducible assumption
    | (intro x; refine cut_evo (k := K) (s0 := s0) (x := x) ?_ ?_; rotate_left; intro hx; clear_value x; rotate_left; subst x)
    | (intro x; clear_value x)
    | lift_lets
    | with_reducible refine State.highWater_evo ?_
    | with_reducible refine State.qLost_evo ?_
    | with_reducible refine State.raise_evo ?_
    | with_reducible refine State.modPort_evo ?_
    | (with_reducible refine upd_evo ?_; with_reducible assumption)
    | (with_reducible refine upd_evo ?_; with_reducible refine upd_evo ?_; with_reducible assumption)
    | split

theorem State.enterOut_evo {K : Kinds} {s0 s : State} {p : Nat} {e : OutEntry} (h : Evolve K s0 s) :
    Evolve K s0 (State.enterOut s p e) := by
  unfold State.enterOut
  repeat' first
    | with_reducible assumption
    | split
    | (intro x; refine cut_evo (k := K) (s0 := s0) (x := x) ?_ ?_; rotate_left; intro hx; clear_value x; rotate_left; subst x)
    | (intro x; clear_value x)
    | lift_lets
    | with_reducible refine State.highWater_evo ?_
    | with_reducible refine State.qLost_evo ?_
    | with_reducible refine State.raise_evo ?_
    | with_reducible refine State.modPort_evo ?_
    | (with_reducible refine upd_evo ?_; with_reducible assumption)
    | (with_reducible refine upd_evo ?_; with_reducible refine upd_evo ?_; with_reducible assumption)
    | split

theorem State.pushOut_evo {K : Kinds} {s0 s : State} {p : Nat} {ws : List (Nat × Int)} (h : Evolve K s0 s) :
    Evolve K s0 (State.pushOut s p ws) := by
  unfold State.pushOut
  repeat' first
    | with_reducible assumption
    | (intro x; refine cut_evo (k := K) (s0 := s0) (x := x) ?_ ?_; rotate_left; intro hx; clear_value x; rotate_left; subst x)
    | (intro x; refine cutSnd_evo (k := K) (s0 := s0) (x := x) ?_ ?_; rotate_left; intro hx; clear_value x; rotate_left; subst x)
    | (intro x; clear_value x)
    | lift_lets
    | with_reducible refine State.enterOut_evo ?_
    | (with_reducible refine upd_evo ?_; with_reducible assumption)
    | (with_reducible refine upd_evo ?_; with_reducible refine upd_evo ?_; with_reducible assumption)

theorem State.takeOut_evo {K : Kinds} {s0 s : State} {p : Nat} (h : Evolve K s0 s) :
    Evolve K s0 (State.takeOut s p) := by
  unfold State.takeOut
  repeat' first
    | with_reducible assumption
    | with_reducible refine State.modPort_evo ?_
    | (with_reducible refine upd_evo ?_; with_reducible assumption)
    | (with_reducible refine upd_evo ?_; with_reducible refine upd_evo ?_; with_reducible assumption)
    | split

theorem State.takeSmp_evo {K : Kinds} {s0 s : State} {p : Nat} (h : Evolve K s0 s) :
    Evolve K s0 (State.takeSmp s p) := by
  unfold State.takeSmp
  repeat' first
    | with_reducible assumption
    | with_reducible refine State.modPort_evo ?_
    | (with_reducible refine upd_evo ?_; with_reducible assumption)
    | (with_reducible refine upd_evo ?_; with_reducible refine upd_evo ?_; with_reducible assumption)
    | split

theorem State.holdPort_evo {K : Kinds} {s0 s : State} {p : Nat} (h : Evolve K s0 s) :
    Evolve K s0 (State.holdPort s p) := by
  unfold State.holdPort
  repeat' first
    | with_reducible assumption
    | with_reducible refine State.bump_evo ?_
    | with_reducible refine State.modPort_evo ?_
    | (with_reducible refine upd_evo ?_; with_reducible assumption)
    | (with_reducible refine upd_evo ?_; with_reducible refine upd_evo ?_; with_reducible assumption)

theorem State.dropOuter_evo {K : Kinds} {s0 s : State} {p : Nat} (h : Evolve K s0 s) (hk_unit : K.unit = true) :
    Evolve K s0 (State.dropOuter s p) := by
  unfold State.dropOuter
  repeat' first
    | with_reducible assumption
    | split
    | (intro x; refine cut_evo (k := K) (s0 := s0) (x := x) ?_ ?_; rotate_left; intro hx; clear_value x; rotate_left; subst x)
    | (intro x; refine cutSnd_evo (k := K) (s0 := s0) (x := x) ?_ ?_; rotate_left; intro hx; clear_value x; rotate_left; subst x)
    | (intro x; clear_value x)
    | lift_lets
    | with_reducible refine State.setW_evo ?_
    | with_reducible refine State.modPort_evo ?_
    | with_reducible refine State.recompute_evo ?_ hk_unit
    | (with_reducible refine foldl_evo ?_ (fun s i h => ?_))
    | (with_reducible refine foldlFst_evo ?_ (fun a x h => ?_))
    | (dsimp only; with_reducible assumption)
    | (with_reducible refine foldlSnd_evo ?_ (fun a x h => ?_))
    | (dsimp only; with_reducible assumption)
    | (with_reducible refine upd_evo ?_; with_reducible assumption)
    | (with_reducible refine upd_evo ?_; with_reducible refine upd_evo ?_; with_reducible assumption)
    | split

theorem State.surrender_evo {K : Kinds} {s0 s : State} {reason : Nat} (h : Evolve K s0 s) (hk_unit : K.unit = true) :
    Evolve K s0 (State.surrender s reason) := by
  unfold State.surrender
  repeat' first
    | with_reducible assumption
    | (intro x; refine cut_evo (k := K) (s0 := s0) (x := x) ?_ ?_; rotate_left; intro hx; clear_value x; rotate_left; subst x)
    | (intro x; clear_value x)
    | lift_lets
    | with_reducible refine State.setN_evo ?_
    | with_reducible refine State.raise_evo ?_
    | with_reducible refine State.announceGiveUp_evo ?_
    | (with_reducible refine updUnit_evo hk_unit ?_; with_reducible assumption)
    | (with_reducible refine upd_evo ?_; with_reducible assumption)
    | (with_reducible refine upd_evo ?_; with_reducible refine upd_evo ?_; with_reducible assumption)

theorem State.judgePeriod_evo {K : Kinds} {s0 s : State} {failed : Bool} (h : Evolve K s0 s) (hk_unit : K.unit = true) :
    Evolve K s0 (State.judgePeriod s failed) := by
  unfold State.judgePeriod
  repeat' first
    | with_reducible assumption
    | (intro x; refine cut_evo (k := K) (s0 := s0) (x := x) ?_ ?_; rotate_left; intro hx; clear_value x; rotate_left; subst x)
    | (intro x; clear_value x)
    | lift_lets
    | with_reducible refine ite_evo (fun _ => ?_) (fun _ => ?_)
    | with_reducible refine State.setN_evo ?_
    | with_reducible refine State.injAbort_evo ?_
    | with_reducible refine State.surrender_evo ?_ hk_unit
    | (with_reducible refine upd_evo ?_; with_reducible assumption)
    | (with_reducible refine upd_evo ?_; with_reducible refine upd_evo ?_; with_reducible assumption)

theorem execLaneCompletion_evo {K : Kinds} {t : Nat} {laneY : Bool} {_hs : Unit} {s0 s : State} (h : Evolve K s0 s) :
    ∃ s', (execLaneCompletion t laneY _hs s) = .next s' ∧ Evolve K s0 s' := by
  unfold execLaneCompletion
  refine ⟨_, rfl, ?_⟩
  replace h := State.advance_evo (t := t) h
  revert h
  generalize State.advance s t = s
  intro h
  repeat' first
    | with_reducible assumption
    | (intro x; refine cut_evo (k := K) (s0 := s0) (x := x) ?_ ?_; rotate_left; intro hx; clear_value x; rotate_left; subst x)
    | (intro x; clear_value x)
    | lift_lets
    | with_reducible refine ite_evo (fun _ => ?_) (fun _ => ?_)
    | with_reducible refine State.setZ_evo ?_
    | (with_reducible refine State.each_evo ?_ (fun s i h => ?_))
    | (with_reducible refine State.onlyIf_evo ?_ (fun s h => ?_))
    | with_reducible refine State.advance_evo ?_
    | with_reducible refine State.takeSmp_evo ?_
    | (with_reducible refine upd_evo ?_; with_reducible assumption)
    | (with_reducible refine upd_evo ?_; with_reducible refine upd_evo ?_; with_reducible assumption)

theorem execComputeDeadline_evo {K : Kinds} {t : Nat} {s0 s : State} (h : Evolve K s0 s) (hk_unit : K.unit = true) :
    ∃ s', (execComputeDeadline t s) = .next s' ∧ Evolve K s0 s' := by
  unfold execComputeDeadline
  refine ⟨_, rfl, ?_⟩
  replace h := State.advance_evo (t := t) h
  revert h
  generalize State.advance s t = s
  intro h
  repeat' first
    | with_reducible assumption
    | (intro x; refine cutRep_evo (K := K) (s0 := s0) (x := x) ?_ ?_; rotate_left; intro hx; clear_value x; rotate_left; subst x)
    | (intro x; refine cut_evo (k := K) (s0 := s0) (x := x) ?_ ?_; rotate_left; intro hx; clear_value x; rotate_left; subst x)
    | (intro x; clear_value x)
    | lift_lets
    | with_reducible refine ite_evo (fun _ => ?_) (fun _ => ?_)
    | with_reducible refine iteRep_evo (fun _ => ?_) (fun _ => ?_)
    | with_reducible refine State.bump_evo ?_
    | (with_reducible refine State.each_evo ?_ (fun s i h => ?_))
    | with_reducible refine State.advance_evo ?_
    | with_reducible refine State.raise_evo ?_
    | with_reducible refine State.holdPort_evo ?_
    | with_reducible refine State.judgePeriod_evo ?_ hk_unit
    | (with_reducible refine upd_evo ?_; with_reducible assumption)
    | (with_reducible refine upd_evo ?_; with_reducible refine upd_evo ?_; with_reducible assumption)

theorem State.takeSlice_evo {K : Kinds} {s0 s : State} (h : Evolve K s0 s) :
    Evolve K s0 (State.takeSlice s) := by
  unfold State.takeSlice
  repeat' first
    | with_reducible assumption
    | with_reducible refine State.modPort_evo ?_
    | (with_reducible refine foldl_evo ?_ (fun s i h => ?_))
    | (with_reducible refine foldlFst_evo ?_ (fun a x h => ?_))
    | (dsimp only; with_reducible assumption)
    | (with_reducible refine foldlSnd_evo ?_ (fun a x h => ?_))
    | (dsimp only; with_reducible assumption)
    | (with_reducible refine upd_evo ?_; with_reducible assumption)
    | (with_reducible refine upd_evo ?_; with_reducible refine upd_evo ?_; with_reducible assumption)

theorem State.mismatch_evo {K : Kinds} {s0 s : State} {p : Nat} {outer : Bool} {w : Nat × Nat} {first : Bool} (h : Evolve K s0 s) (hk_unit : K.unit = true) :
    Evolve K s0 (State.mismatch s p outer w first) := by
  unfold State.mismatch
  repeat' first
    | with_reducible assumption
    | (intro x; refine cut_evo (k := K) (s0 := s0) (x := x) ?_ ?_; rotate_left; intro hx; clear_value x; rotate_left; subst x)
    | (intro x; clear_value x)
    | lift_lets
    | with_reducible refine ite_evo (fun _ => ?_) (fun _ => ?_)
    | with_reducible refine State.setN_evo ?_
    | with_reducible refine State.bump_evo ?_
    | (with_reducible refine State.onlyIf_evo ?_ (fun s h => ?_))
    | with_reducible refine State.raise_evo ?_
    | with_reducible refine State.holdPort_evo ?_
    | with_reducible refine State.dropOuter_evo ?_ hk_unit
    | split

theorem State.agree_evo {K : Kinds} {s0 s : State} {x : PartIn} (h : Evolve K s0 s) :
    Evolve K s0 (State.agree s x) := by
  unfold State.agree
  repeat' first
    | with_reducible assumption
    | (intro x; refine cut_evo (k := K) (s0 := s0) (x := x) ?_ ?_; rotate_left; intro hx; clear_value x; rotate_left; subst x)
    | (intro x; clear_value x)
    | lift_lets
    | with_reducible refine ite_evo (fun _ => ?_) (fun _ => ?_)
    | with_reducible refine State.bumpBy_evo ?_
    | with_reducible refine State.modPort_evo ?_
    | with_reducible refine State.keepPart_evo ?_
    | with_reducible refine State.innerTake_evo ?_
    | with_reducible refine State.pushRef_evo ?_
    | with_reducible refine State.pushOut_evo ?_
    | (with_reducible refine upd_evo ?_; with_reducible assumption)
    | (with_reducible refine upd_evo ?_; with_reducible refine upd_evo ?_; with_reducible assumption)

theorem State.comparePart_evo {K : Kinds} {s0 s : State} {first : Bool} {x : PartIn} (h : Evolve K s0 s) (hk_unit : K.unit = true) :
    Evolve K s0 (State.comparePart s first x) := by
  unfold State.comparePart
  repeat' first
    | with_reducible assumption
    | split
    | with_reducible refine State.mismatch_evo ?_ hk_unit
    | with_reducible refine State.agree_evo ?_
    | (with_reducible refine upd_evo ?_; with_reducible assumption)
    | (with_reducible refine upd_evo ?_; with_reducible refine upd_evo ?_; with_reducible assumption)
    | split

theorem State.compareParts_evo {K : Kinds} {s0 s : State} {b : Bool} {xs : List PartIn} (h : Evolve K s0 s) (hk_unit : K.unit = true) :
    Evolve K s0 (s.compareParts b xs).2 := by
  induction xs generalizing s b with
  | nil => exact h
  | cons x xs ih => exact ih (State.comparePart_evo h hk_unit)

theorem State.slackEnd_evo {K : Kinds} {s0 s : State} (h : Evolve K s0 s) (hk_fram : K.fram = true) (hk_unit : K.unit = true) :
    Evolve K s0 (State.slackEnd s) := by
  unfold State.slackEnd
  repeat' first
    | with_reducible assumption
    | (intro x; refine cut_evo (k := K) (s0 := s0) (x := x) ?_ ?_; rotate_left; intro hx; clear_value x; rotate_left; subst x)
    | (intro x; clear_value x)
    | lift_lets
    | with_reducible refine ite_evo (fun _ => ?_) (fun _ => ?_)
    | with_reducible refine State.setZ_evo ?_
    | (with_reducible refine State.onlyIf_evo ?_ (fun s h => ?_))
    | with_reducible refine State.slackTake_evo ?_ hk_fram hk_unit
    | (with_reducible refine upd_evo ?_; with_reducible assumption)
    | (with_reducible refine upd_evo ?_; with_reducible refine upd_evo ?_; with_reducible assumption)

theorem State.noEntry_evo {K : Kinds} {s0 s : State} {p : Nat} (h : Evolve K s0 s) :
    Evolve K s0 (State.noEntry s p) := by
  unfold State.noEntry
  repeat' first
    | with_reducible assumption
    | (intro x; refine cut_evo (k := K) (s0 := s0) (x := x) ?_ ?_; rotate_left; intro hx; clear_value x; rotate_left; subst x)
    | (intro x; clear_value x)
    | lift_lets
    | with_reducible refine State.modPort_evo ?_
    | with_reducible refine State.supervise_evo ?_
    | with_reducible refine State.takeVals_evo ?_
    | (with_reducible refine upd_evo ?_; with_reducible assumption)
    | (with_reducible refine upd_evo ?_; with_reducible refine upd_evo ?_; with_reducible assumption)

theorem State.noEntries_evo {K : Kinds} {s0 s : State} (h : Evolve K s0 s) :
    Evolve K s0 (State.noEntries s) := by
  unfold State.noEntries
  repeat' first
    | with_reducible assumption
    | (with_reducible refine State.each_evo ?_ (fun s i h => ?_))
    | with_reducible refine State.noEntry_evo ?_

theorem State.comparePeriod_evo {K : Kinds} {s0 s : State} {parts : List PartIn} (h : Evolve K s0 s) (hk_fram : K.fram = true) (hk_unit : K.unit = true) :
    Evolve K s0 (State.comparePeriod s parts) := by
  unfold State.comparePeriod
  repeat' first
    | with_reducible assumption
    | (intro x; refine cutRep_evo (K := K) (s0 := s0) (x := x) ?_ ?_; rotate_left; intro hx; clear_value x; rotate_left; subst x)
    | (intro x; refine cut_evo (k := K) (s0 := s0) (x := x) ?_ ?_; rotate_left; intro hx; clear_value x; rotate_left; subst x)
    | (intro x; refine cutSnd_evo (k := K) (s0 := s0) (x := x) ?_ ?_; rotate_left; intro hx; clear_value x; rotate_left; subst x)
    | (intro x; clear_value x)
    | lift_lets
    | with_reducible refine iteRep_evo (fun _ => ?_) (fun _ => ?_)
    | with_reducible refine State.judgePeriod_evo ?_ hk_unit
    | with_reducible refine State.takeSlice_evo ?_
    | with_reducible refine State.compareParts_evo ?_ hk_unit
    | with_reducible refine State.slackEnd_evo ?_ hk_fram hk_unit
    | with_reducible refine State.noEntries_evo ?_
    | (refine snd_evo (by assumption) ?_)
    | (refine fst_evo (by assumption) ?_)

theorem execCompareWindowEnd_evo {K : Kinds} {t : Nat} {parts : List PartIn} {s0 s : State} (h : Evolve K s0 s) (hk_fram : K.fram = true) (hk_unit : K.unit = true) :
    ∃ s', (execCompareWindowEnd t parts s) = .next s' ∧ Evolve K s0 s' := by
  unfold execCompareWindowEnd
  refine ⟨_, rfl, ?_⟩
  replace h := State.advance_evo (t := t) h
  revert h
  generalize State.advance s t = s
  intro h
  repeat' first
    | with_reducible assumption
    | (intro x; refine cut_evo (k := K) (s0 := s0) (x := x) ?_ ?_; rotate_left; intro hx; clear_value x; rotate_left; subst x)
    | (intro x; clear_value x)
    | lift_lets
    | with_reducible refine ite_evo (fun _ => ?_) (fun _ => ?_)
    | with_reducible refine State.advance_evo ?_
    | with_reducible refine State.sendFrame_evo ?_
    | with_reducible refine State.comparePeriod_evo ?_ hk_fram hk_unit

theorem State.periodFinish_evo {K : Kinds} {s0 s : State} (h : Evolve K s0 s) (hk_fram : K.fram = true) (hk_unit : K.unit = true) :
    Evolve K s0 (State.periodFinish s) := by
  unfold State.periodFinish
  repeat' first
    | with_reducible assumption
    | with_reducible refine ite_evo (fun _ => ?_) (fun _ => ?_)
    | (with_reducible refine State.onlyIf_evo ?_ (fun s h => ?_))
    | with_reducible refine State.slackEnd_evo ?_ hk_fram hk_unit
    | with_reducible refine State.noEntries_evo ?_

theorem State.periodGiveUp_evo {K : Kinds} {s0 s : State} (h : Evolve K s0 s) (hk_reset : K.reset = true) (hk_unit : K.unit = true) :
    Evolve K s0 (State.periodGiveUp s).1 := by
  unfold State.periodGiveUp
  repeat' first
    | with_reducible assumption
    | (intro x; refine cut_evo (k := K) (s0 := s0) (x := x) ?_ ?_; rotate_left; intro hx; clear_value x; rotate_left; subst x)
    | (intro x; clear_value x)
    | lift_lets
    | with_reducible refine ite_evo (fun _ => ?_) (fun _ => ?_)
    | with_reducible refine State.holdNow_evo ?_ hk_unit
    | with_reducible refine State.toReset_evo ?_ hk_reset hk_unit
    | with_reducible refine State.surrender_evo ?_ hk_unit
    | (with_reducible refine iteFst_evo (fun _ => ?_) (fun _ => ?_))
    | (with_reducible refine foldlFst_evo ?_ (fun a x h => ?_))
    | (with_reducible refine updUnit_evo hk_unit ?_; with_reducible assumption)
    | (with_reducible refine upd_evo ?_; with_reducible assumption)
    | (with_reducible refine upd_evo ?_; with_reducible refine upd_evo ?_; with_reducible assumption)
    | split
    | dsimp only

theorem State.abandonOuter_evo {K : Kinds} {s0 s : State} {p : Nat} (h : Evolve K s0 s) (hk_unit : K.unit = true) :
    Evolve K s0 (State.abandonOuter s p) := by
  unfold State.abandonOuter
  repeat' first
    | with_reducible assumption
    | (intro x; refine cut_evo (k := K) (s0 := s0) (x := x) ?_ ?_; rotate_left; intro hx; clear_value x; rotate_left; subst x)
    | (intro x; clear_value x)
    | lift_lets
    | with_reducible refine ite_evo (fun _ => ?_) (fun _ => ?_)
    | with_reducible refine State.bump_evo ?_
    | with_reducible refine State.raise_evo ?_
    | with_reducible refine State.modPort_evo ?_
    | with_reducible refine State.dropOuter_evo ?_ hk_unit
    | (with_reducible refine upd_evo ?_; with_reducible assumption)
    | (with_reducible refine upd_evo ?_; with_reducible refine upd_evo ?_; with_reducible assumption)

theorem State.outerBoundary_evo {K : Kinds} {s0 s : State} (h : Evolve K s0 s) (hk_reset : K.reset = true) (hk_fram : K.fram = true) (hk_unit : K.unit = true) :
    Evolve K s0 (State.outerBoundary s) := by
  unfold State.outerBoundary
  repeat' first
    | with_reducible assumption
    | (intro x; refine cut_evo (k := K) (s0 := s0) (x := x) ?_ ?_; rotate_left; intro hx; clear_value x; rotate_left; subst x)
    | (intro x; refine cutSnd_evo (k := K) (s0 := s0) (x := x) ?_ ?_; rotate_left; intro hx; clear_value x; rotate_left; subst x)
    | (intro x; clear_value x)
    | lift_lets
    | (with_reducible refine State.each_evo ?_ (fun s i h => ?_))
    | with_reducible refine State.modPort_evo ?_
    | with_reducible refine State.modPair_evo ?_
    | with_reducible refine State.imageTake_evo ?_
    | with_reducible refine State.pairBoundary_evo ?_ hk_unit
    | with_reducible refine State.forwarded_evo ?_ hk_reset hk_fram hk_unit
    | (with_reducible refine foldl_evo ?_ (fun s i h => ?_))
    | (with_reducible refine foldlFst_evo ?_ (fun a x h => ?_))
    | (dsimp only; with_reducible assumption)
    | (with_reducible refine foldlSnd_evo ?_ (fun a x h => ?_))
    | (dsimp only; with_reducible assumption)
    | (with_reducible refine upd_evo ?_; with_reducible assumption)
    | (with_reducible refine upd_evo ?_; with_reducible refine upd_evo ?_; with_reducible assumption)

theorem State.cycOff_evo {K : Kinds} {s0 s : State} {st : Nat} (h : Evolve K s0 s) :
    Evolve K s0 (State.cycOff s st) := by
  unfold State.cycOff
  repeat' first
    | with_reducible assumption
    | with_reducible refine State.setN_evo ?_
    | with_reducible refine State.modTime_evo ?_
    | (with_reducible refine upd_evo ?_; with_reducible assumption)
    | (with_reducible refine upd_evo ?_; with_reducible refine upd_evo ?_; with_reducible assumption)

theorem State.cycTrim_evo {K : Kinds} {s0 s : State} (h : Evolve K s0 s) :
    Evolve K s0 (State.cycTrim s) := by
  unfold State.cycTrim
  repeat' first
    | with_reducible assumption
    | (intro x; refine cut_evo (k := K) (s0 := s0) (x := x) ?_ ?_; rotate_left; intro hx; clear_value x; rotate_left; subst x)
    | (intro x; clear_value x)
    | lift_lets
    | with_reducible refine ite_evo (fun _ => ?_) (fun _ => ?_)
    | (with_reducible refine upd_evo ?_; with_reducible assumption)
    | (with_reducible refine upd_evo ?_; with_reducible refine upd_evo ?_; with_reducible assumption)

theorem State.cycStep_evo {K : Kinds} {s0 s : State} (h : Evolve K s0 s) :
    Evolve K s0 (State.cycStep s) := by
  unfold State.cycStep
  repeat' first
    | with_reducible assumption
    | (intro x; refine cut_evo (k := K) (s0 := s0) (x := x) ?_ ?_; rotate_left; intro hx; clear_value x; rotate_left; subst x)
    | (intro x; clear_value x)
    | lift_lets
    | with_reducible refine ite_evo (fun _ => ?_) (fun _ => ?_)
    | with_reducible refine State.setN_evo ?_
    | with_reducible refine State.setZ_evo ?_
    | (with_reducible refine State.onlyIf_evo ?_ (fun s h => ?_))
    | with_reducible refine State.raise_evo ?_
    | with_reducible refine State.modTime_evo ?_
    | with_reducible refine State.cycOff_evo ?_
    | with_reducible refine State.cycTrim_evo ?_
    | (with_reducible refine upd_evo ?_; with_reducible assumption)
    | (with_reducible refine upd_evo ?_; with_reducible refine upd_evo ?_; with_reducible assumption)

theorem State.periodBegin_evo {K : Kinds} {s0 s : State} {markBack frameSent : Bool} {lost : List Bool} (h : Evolve K s0 s) (hk_reset : K.reset = true) (hk_fram : K.fram = true) (hk_unit : K.unit = true) :
    Evolve K s0 (State.periodBegin s markBack frameSent lost) := by
  unfold State.periodBegin
  repeat' first
    | with_reducible assumption
    | (intro x; refine cut_evo (k := K) (s0 := s0) (x := x) ?_ ?_; rotate_left; intro hx; clear_value x; rotate_left; subst x)
    | (intro x; clear_value x)
    | lift_lets
    | with_reducible refine ite_evo (fun _ => ?_) (fun _ => ?_)
    | with_reducible refine State.setN_evo ?_
    | (with_reducible refine State.each_evo ?_ (fun s i h => ?_))
    | (with_reducible refine State.onlyIf_evo ?_ (fun s h => ?_))
    | with_reducible refine State.modPort_evo ?_
    | with_reducible refine State.carrierStart_evo ?_
    | with_reducible refine State.carrierTrim_evo ?_
    | with_reducible refine State.updatePoint_evo ?_
    | with_reducible refine State.capPeriod_evo ?_
    | with_reducible refine State.pairPeriod_evo ?_
    | with_reducible refine State.injTake_evo ?_
    | with_reducible refine State.injPeriod_evo ?_
    | with_reducible refine State.takeOut_evo ?_
    | with_reducible refine State.takeSmp_evo ?_
    | with_reducible refine State.abandonOuter_evo ?_ hk_unit
    | with_reducible refine State.outerBoundary_evo ?_ hk_reset hk_fram hk_unit
    | with_reducible refine State.cycStep_evo ?_
    | (with_reducible refine upd_evo ?_; with_reducible assumption)
    | (with_reducible refine upd_evo ?_; with_reducible refine upd_evo ?_; with_reducible assumption)

theorem execPeriodTick_evo {K : Kinds} {t : Nat} {markBack frameSent : Bool} {lost : List Bool} {s0 s : State} (h : Evolve K s0 s) (hk_reset : K.reset = true) (hk_fram : K.fram = true) (hk_unit : K.unit = true) :
    ∃ s', (execPeriodTick t markBack frameSent lost s) = .next s' ∧ Evolve K s0 s' := by
  unfold execPeriodTick
  refine ⟨_, rfl, ?_⟩
  replace h := State.advance_evo (t := t) h
  revert h
  generalize State.advance s t = s
  intro h
  repeat' first
    | with_reducible assumption
    | (intro x; refine cut_evo (k := K) (s0 := s0) (x := x) ?_ ?_; rotate_left; intro hx; clear_value x; rotate_left; subst x)
    | (intro x; clear_value x)
    | lift_lets
    | with_reducible refine ite_evo (fun _ => ?_) (fun _ => ?_)
    | with_reducible refine State.advance_evo ?_
    | with_reducible refine State.sendFrame_evo ?_
    | with_reducible refine State.periodFinish_evo ?_ hk_fram hk_unit
    | with_reducible refine State.periodGiveUp_evo ?_ hk_reset hk_unit
    | with_reducible refine State.periodBegin_evo ?_ hk_reset hk_fram hk_unit
    | (refine snd_evo (by assumption) ?_)
    | (refine fst_evo (by assumption) ?_)
    | split

end Sys2Proof.Machine
end

