-- ==== Sys2Proof/Laws/Exec.lean ====
section
/-! SUPPORT. Every command completes, and stays within `Evolve` for what it may do. -/

set_option Elab.async false

namespace Sys2Proof.Machine

/-- What each command may do beyond the ordinary. -/
def commandKinds : Instr → Kinds
  | .vinRise .. => { reset := true, unit := true }
  | .vinUndervoltage .. => { reset := true, unit := true }
  | .shellWatchdogExpiry .. => { reset := true, unit := true }
  | .resetComplete .. => { unit := true }
  | .bootReferenceSelect .. => { unit := true }
  | .lockDeclared .. => { unit := true }
  | .lockAttemptTimeout .. => { unit := true }
  | .referenceLoss .. => { img := true, unit := true }
  | .phaseWindowLoss .. => { img := true, unit := true }
  | .relockAttempt .. => { unit := true }
  | .attemptCountReset .. => {}
  | .safeCrossMonitor .. => { unit := true }
  | .sfdpRead .. => { img := true, unit := true }
  | .slotCheck .. => { img := true, unit := true }
  | .contentCheck .. => { fram := true, img := true, dout := true, unit := true }
  | .selfTestComplete .. => { fram := true, unit := true }
  | .restart .. => { reset := true, unit := true }
  | .nextSlotWrite .. => { fram := true }
  | .parameterWrite .. => { reset := true, fram := true, unit := true }
  | .periodTick .. => { reset := true, fram := true, unit := true }
  | .fastConversion .. => {}
  | .sampleEntry .. => {}
  | .feedbackLost .. => {}
  | .feedbackRecover .. => {}
  | .laneCompletion .. => {}
  | .computeDeadline .. => { unit := true }
  | .compareWindowEnd .. => { fram := true, unit := true }
  | .outerStep .. => { unit := true }
  | .excursionClose .. => { unit := true }
  | .limReleaseExpiry .. => { unit := true }
  | .hardBudgetExhausted .. => {}
  | .hardBudgetRefilled .. => {}
  | .energise .. => { unit := true }
  | .stopPort .. => {}
  | .stopUnit .. => { unit := true }
  | .armTimeout .. => { unit := true }
  | .busDeadDetected .. => { unit := true }
  | .busLiveDetected .. => { unit := true }
  | .backoffExpiry .. => { unit := true }
  | .coordinatedStart .. => { unit := true }
  | .scheduleCancel .. => { unit := true }
  | .syncDwellComplete .. => {}
  | .closeTimeout .. => { unit := true }
  | .syncTimeout .. => { unit := true }
  | .stopTimeout .. => { unit := true }
  | .injStart .. => {}
  | .injStop .. => {}
  | .frPointComplete .. => {}
  | .injectionComplete .. => {}
  | .railWindowEnd .. => { fram := true }
  | .railReadbackFault .. => { unit := true }
  | .prooferSecond .. => { fram := true, unit := true }
  | .ladderChange .. => { fram := true, img := true }
  | .ladderCmdRung .. => {}
  | .ladderRestore .. => {}
  | .datedWarningRepeat .. => {}
  | .prooferHour .. => {}
  | .vceMeasurement .. => {}
  | .vceRebase .. => {}
  | .windowComparatorFire .. => {}
  | .windowComparatorRelease .. => {}
  | .faClear .. => {}
  | .slowScanStart .. => {}
  | .slowConversionDone .. => {}
  | .slowOverRange .. => {}
  | .slowResultStale .. => {}
  | .carrierBoundary .. => {}
  | .legEdge .. => {}
  | .deadTimeExpiry .. => {}
  | .extraCompareFire .. => { dout := true, lines := true }
  | .modRelease .. => {}
  | .nsCrossingReport .. => {}
  | .dtAdaptiveResume .. => {}
  | .keepAliveSend .. => {}
  | .islandOnCommand .. => { unit := true }
  | .islandOffCommand .. => { unit := true }
  | .offConfirm .. => {}
  | .turnOnTimeout .. => {}
  | .gateNotOff .. => {}
  | .islandWatchdogExpiry .. => {}
  | .islandLost .. => {}
  | .desaturation .. => {}
  | .gatePlateauMissing .. => {}
  | .gateNotOn .. => {}
  | .islandUndervoltage .. => {}
  | .islandSupplyRecover .. => {}
  | .softOffFullStrength .. => {}
  | .legFaultRunEnd .. => {}
  | .islPulse .. => {}
  | .islPulseEnd .. => {}
  | .tripInputAssert .. => {}
  | .tripInputRelease .. => {}
  | .protClear .. => { unit := true }
  | .autoClear .. => { unit := true }
  | .istCmd .. => {}
  | .istComplete .. => {}
  | .safetyEvaluation .. => { unit := true }
  | .sgoDemand .. => { unit := true }
  | .safeInputChange .. => { unit := true }
  | .inputDiscrepancy .. => { unit := true }
  | .inputTestPulse .. => { unit := true }
  | .outputOffPulse .. => { unit := true }
  | .outputReadbackFault .. => { unit := true }
  | .vsoUndervoltage .. => { unit := true }
  | .coilCheck .. => { unit := true }
  | .holdingTestEnd .. => { unit := true }
  | .mirrorTimeExpiry .. => { unit := true }
  | .strapRead .. => { unit := true }
  | .safetyCommit .. => { fram := true, unit := true }
  | .safetyPacketCopy .. => { unit := true }
  | .safetyWindowClose .. => { unit := true }
  | .packetTimeout .. => { unit := true }
  | .statusPacketSend .. => {}
  | .safetyReset .. => { unit := true }
  | .pairFrameReceive .. => { reset := true, fram := true, unit := true }
  | .pairAnnounce .. => {}
  | .mismatchRepeat .. => {}
  | .leaseMarkReceive .. => {}
  | .renewalUnconfirmedLimit .. => { unit := true }
  | .leaseExpiryTakeover .. => { reset := true, fram := true, unit := true }
  | .biscuitTake .. => { reset := true, fram := true, unit := true }
  | .pairSolo .. => {}
  | .pairHandover .. => {}
  | .standbyIslandTest .. => {}
  | .standbyHealthTimeout .. => {}
  | .pairFrameSilence .. => {}
  | .latticeCycleStart .. => {}
  | .latticeExecutionEnd .. => { dout := true, unit := true }
  | .latticeWatchdog .. => { dout := true, unit := true }
  | .latticeForce .. => {}
  | .latticeUnforce .. => {}
  | .latFlagsClear .. => {}
  | .latActivate .. => {}
  | .programExchange .. => {}
  | .heartbeatReceive .. => {}
  | .heartbeatTimeout .. => {}
  | .tpdoReceive .. => {}
  | .canFrameReceive .. => { unit := true }
  | .canSubmit .. => {}
  | .canTxAttemptEnd .. => {}
  | .busOffRecovery .. => {}
  | .canBusoffCmd .. => {}
  | .timeReferenceSend .. => {}
  | .canSourceTimeout .. => {}
  | .ethLinkUp .. => {}
  | .ethLinkDown .. => {}
  | .ethFrameReceive .. => { unit := true }
  | .ptpSyncLoss .. => {}
  | .ptpFailback .. => {}
  | .txtsDiscard .. => {}
  | .holdoverExpiry .. => {}
  | .timeStep .. => {}
  | .toutArm .. => {}
  | .timeOutPulse .. => {}
  | .timeOutPulseEnd .. => {}
  | .blDatagramReceive .. => {}
  | .blSegmentReceive .. => {}
  | .blReassemblyTimeout .. => {}
  | .blPacketProcess .. => { flash := true, fuse := true, reset := true, fram := true, unit := true }
  | .sessionOpen .. => {}
  | .sessionIdle .. => {}
  | .read .. => { flash := true, fuse := true, reset := true, fram := true, unit := true }
  | .write .. => { flash := true, fuse := true, reset := true, fram := true, unit := true }
  | .bulkRead .. => { flash := true, fuse := true, reset := true, fram := true, unit := true }
  | .bulkWriteBegin .. => { flash := true, fuse := true, reset := true, fram := true, unit := true }
  | .bulkWriteData .. => { flash := true, fuse := true, reset := true, fram := true, unit := true }
  | .bulkWriteEnd .. => { flash := true, fuse := true, reset := true, fram := true, unit := true }
  | .slotEraseDone .. => {}
  | .bulkWriteTimeout .. => {}
  | .subscribe .. => { flash := true, fuse := true, reset := true, fram := true, unit := true }
  | .readEvents .. => { flash := true, fuse := true, reset := true, fram := true, unit := true }
  | .reBind .. => { flash := true, fuse := true, reset := true, fram := true, unit := true }
  | .replaceIntegratorKey .. => { flash := true, fuse := true, reset := true, fram := true, unit := true }
  | .raiseFloor .. => { flash := true, fuse := true, reset := true, fram := true, unit := true }
  | .closeSession .. => { flash := true, fuse := true, reset := true, fram := true, unit := true }
  | .telemetrySend .. => {}
  | .announceSend .. => {}
  | .peerAbsent .. => {}
  | .auditEntryWrite .. => { flash := true, fram := true }
  | .responseSegmentRetry .. => {}
  | .eventWriterTake .. => {}
  | .captureTrigger .. => {}
  | .crumbComplete .. => {}
  | .captureRearm .. => {}
  | .crArm .. => {}
  | .crDisarm .. => {}
  | .crForce .. => {}
  | .crumbLockExpiry .. => {}
  | .controlSupplyLost .. => { reset := true, unit := true }
  | .canErrorDetected .. => {}
  | .bulkReadCopyExpiry .. => {}
  | .midPeriodLoad .. => {}
  | .ilMinTimeElapsed .. => {}
  | .gateAbovePlateau .. => {}
  | .pdelayReqSend .. => {}
  | .grandmasterSyncSend .. => {}
  | .autoWindowAgeOut .. => {}

/-- Every command has a next state, and what it makes of the guarded parts is within `Evolve`. -/
theorem exec_evo (c : Instr) (s : State) : ∃ t, exec c s = .next t ∧ Evolve (commandKinds c) s t := by
  cases c
  case vinRise => unfold exec; exact execVinRise_evo .start rfl rfl
  case vinUndervoltage => unfold exec; exact execVinUndervoltage_evo .start rfl rfl
  case shellWatchdogExpiry => unfold exec; exact execShellWatchdogExpiry_evo .start rfl rfl
  case resetComplete => unfold exec; exact execResetComplete_evo .start rfl
  case bootReferenceSelect => unfold exec; exact execBootReferenceSelect_evo .start rfl
  case lockDeclared => unfold exec; exact execLockDeclared_evo .start rfl
  case lockAttemptTimeout => unfold exec; exact execLockAttemptTimeout_evo .start rfl
  case referenceLoss => unfold exec; exact execReferenceLoss_evo .start rfl rfl
  case phaseWindowLoss => unfold exec; exact execPhaseWindowLoss_evo .start rfl rfl
  case relockAttempt => unfold exec; exact execRelockAttempt_evo .start rfl
  case attemptCountReset => unfold exec; exact execAttemptCountReset_evo .start
  case safeCrossMonitor => unfold exec; exact execSafeCrossMonitor_evo .start rfl
  case sfdpRead => unfold exec; exact execSfdpRead_evo .start rfl rfl
  case slotCheck => unfold exec; exact execSlotCheck_evo .start rfl rfl
  case contentCheck => unfold exec; exact execContentCheck_evo .start rfl rfl rfl rfl
  case selfTestComplete => unfold exec; exact execSelfTestComplete_evo .start rfl rfl
  case restart => unfold exec; exact execRestart_evo .start rfl rfl
  case nextSlotWrite => unfold exec; exact execNextSlotWrite_evo .start rfl
  case parameterWrite => unfold exec; exact execParameterWrite_evo .start rfl rfl rfl
  case periodTick => unfold exec; exact execPeriodTick_evo .start rfl rfl rfl
  case fastConversion => unfold exec; exact execFastConversion_evo .start
  case sampleEntry => unfold exec; exact execSampleEntry_evo .start
  case feedbackLost => unfold exec; exact execFeedbackLost_evo .start
  case feedbackRecover => unfold exec; exact execFeedbackRecover_evo .start
  case laneCompletion => unfold exec; exact execLaneCompletion_evo .start
  case computeDeadline => unfold exec; exact execComputeDeadline_evo .start rfl
  case compareWindowEnd => unfold exec; exact execCompareWindowEnd_evo .start rfl rfl
  case outerStep => unfold exec; exact execOuterStep_evo .start rfl
  case excursionClose => unfold exec; exact execExcursionClose_evo .start rfl
  case limReleaseExpiry => unfold exec; exact execLimReleaseExpiry_evo .start rfl
  case hardBudgetExhausted => unfold exec; exact execHardBudgetExhausted_evo .start
  case hardBudgetRefilled => unfold exec; exact execHardBudgetRefilled_evo .start
  case energise => unfold exec; exact execEnergise_evo .start rfl
  case stopPort => unfold exec; exact execStopPort_evo .start
  case stopUnit => unfold exec; exact execStopUnit_evo .start rfl
  case armTimeout => unfold exec; exact execArmTimeout_evo .start rfl
  case busDeadDetected => unfold exec; exact execBusDeadDetected_evo .start rfl
  case busLiveDetected => unfold exec; exact execBusLiveDetected_evo .start rfl
  case backoffExpiry => unfold exec; exact execBackoffExpiry_evo .start rfl
  case coordinatedStart => unfold exec; exact execCoordinatedStart_evo .start rfl
  case scheduleCancel => unfold exec; exact execScheduleCancel_evo .start rfl
  case syncDwellComplete => unfold exec; exact execSyncDwellComplete_evo .start
  case closeTimeout => unfold exec; exact execCloseTimeout_evo .start rfl
  case syncTimeout => unfold exec; exact execSyncTimeout_evo .start rfl
  case stopTimeout => unfold exec; exact execStopTimeout_evo .start rfl
  case injStart => unfold exec; exact execInjStart_evo .start
  case injStop => unfold exec; exact execInjStop_evo .start
  case frPointComplete => unfold exec; exact execFrPointComplete_evo .start
  case injectionComplete => unfold exec; exact execInjectionComplete_evo .start
  case railWindowEnd => unfold exec; exact execRailWindowEnd_evo .start rfl
  case railReadbackFault => unfold exec; exact execRailReadbackFault_evo .start rfl
  case prooferSecond => unfold exec; exact execProoferSecond_evo .start rfl rfl
  case ladderChange => unfold exec; exact execLadderChange_evo .start rfl rfl
  case ladderCmdRung => unfold exec; exact execLadderCmdRung_evo .start
  case ladderRestore => unfold exec; exact execLadderRestore_evo .start
  case datedWarningRepeat => unfold exec; exact execDatedWarningRepeat_evo .start
  case prooferHour => unfold exec; exact execProoferHour_evo .start
  case vceMeasurement => unfold exec; exact execVceMeasurement_evo .start
  case vceRebase => unfold exec; exact execVceRebase_evo .start
  case windowComparatorFire => unfold exec; exact execWindowComparatorFire_evo .start
  case windowComparatorRelease => unfold exec; exact execWindowComparatorRelease_evo .start
  case faClear => unfold exec; exact execFaClear_evo .start
  case slowScanStart => unfold exec; exact execSlowScanStart_evo .start
  case slowConversionDone => unfold exec; exact execSlowConversionDone_evo .start
  case slowOverRange => unfold exec; exact execSlowOverRange_evo .start
  case slowResultStale => unfold exec; exact execSlowResultStale_evo .start
  case carrierBoundary => unfold exec; exact execCarrierBoundary_evo .start
  case legEdge => unfold exec; exact execLegEdge_evo .start
  case deadTimeExpiry => unfold exec; exact execDeadTimeExpiry_evo .start
  case extraCompareFire => unfold exec; exact execExtraCompareFire_evo .start rfl rfl
  case modRelease => unfold exec; exact execModRelease_evo .start
  case nsCrossingReport => unfold exec; exact execNsCrossingReport_evo .start
  case dtAdaptiveResume => unfold exec; exact execDtAdaptiveResume_evo .start
  case keepAliveSend => unfold exec; exact execKeepAliveSend_evo .start
  case islandOnCommand => unfold exec; exact execIslandOnCommand_evo .start rfl
  case islandOffCommand => unfold exec; exact execIslandOffCommand_evo .start rfl
  case offConfirm => unfold exec; exact execOffConfirm_evo .start
  case turnOnTimeout => unfold exec; exact execTurnOnTimeout_evo .start
  case gateNotOff => unfold exec; exact execGateNotOff_evo .start
  case islandWatchdogExpiry => unfold exec; exact execIslandWatchdogExpiry_evo .start
  case islandLost => unfold exec; exact execIslandLost_evo .start
  case desaturation => unfold exec; exact execDesaturation_evo .start
  case gatePlateauMissing => unfold exec; exact execGatePlateauMissing_evo .start
  case gateNotOn => unfold exec; exact execGateNotOn_evo .start
  case islandUndervoltage => unfold exec; exact execIslandUndervoltage_evo .start
  case islandSupplyRecover => unfold exec; exact execIslandSupplyRecover_evo .start
  case softOffFullStrength => unfold exec; exact execSoftOffFullStrength_evo .start
  case legFaultRunEnd => unfold exec; exact execLegFaultRunEnd_evo .start
  case islPulse => unfold exec; exact execIslPulse_evo .start
  case islPulseEnd => unfold exec; exact execIslPulseEnd_evo .start
  case tripInputAssert => unfold exec; exact execTripInputAssert_evo .start
  case tripInputRelease => unfold exec; exact execTripInputRelease_evo .start
  case protClear => unfold exec; exact execProtClear_evo .start rfl
  case autoClear => unfold exec; exact execAutoClear_evo .start rfl
  case istCmd => unfold exec; exact execIstCmd_evo .start
  case istComplete => unfold exec; exact execIstComplete_evo .start
  case safetyEvaluation => unfold exec; exact execSafetyEvaluation_evo .start rfl
  case sgoDemand => unfold exec; exact execSgoDemand_evo .start rfl
  case safeInputChange => unfold exec; exact execSafeInputChange_evo .start rfl
  case inputDiscrepancy => unfold exec; exact execInputDiscrepancy_evo .start rfl
  case inputTestPulse => unfold exec; exact execInputTestPulse_evo .start rfl
  case outputOffPulse => unfold exec; exact execOutputOffPulse_evo .start rfl
  case outputReadbackFault => unfold exec; exact execOutputReadbackFault_evo .start rfl
  case vsoUndervoltage => unfold exec; exact execVsoUndervoltage_evo .start rfl
  case coilCheck => unfold exec; exact execCoilCheck_evo .start rfl
  case holdingTestEnd => unfold exec; exact execHoldingTestEnd_evo .start rfl
  case mirrorTimeExpiry => unfold exec; exact execMirrorTimeExpiry_evo .start rfl
  case strapRead => unfold exec; exact execStrapRead_evo .start rfl
  case safetyCommit => unfold exec; exact execSafetyCommit_evo .start rfl rfl
  case safetyPacketCopy => unfold exec; exact execSafetyPacketCopy_evo .start rfl
  case safetyWindowClose => unfold exec; exact execSafetyWindowClose_evo .start rfl
  case packetTimeout => unfold exec; exact execPacketTimeout_evo .start rfl
  case statusPacketSend => unfold exec; exact execStatusPacketSend_evo .start
  case safetyReset => unfold exec; exact execSafetyReset_evo .start rfl
  case pairFrameReceive => unfold exec; exact execPairFrameReceive_evo .start rfl rfl rfl
  case pairAnnounce => unfold exec; exact execPairAnnounce_evo .start
  case mismatchRepeat => unfold exec; exact execMismatchRepeat_evo .start
  case leaseMarkReceive => unfold exec; exact execLeaseMarkReceive_evo .start
  case renewalUnconfirmedLimit => unfold exec; exact execRenewalUnconfirmedLimit_evo .start rfl
  case leaseExpiryTakeover => unfold exec; exact execLeaseExpiryTakeover_evo .start rfl rfl rfl
  case biscuitTake => unfold exec; exact execBiscuitTake_evo .start rfl rfl rfl
  case pairSolo => unfold exec; exact execPairSolo_evo .start
  case pairHandover => unfold exec; exact execPairHandover_evo .start
  case standbyIslandTest => unfold exec; exact execStandbyIslandTest_evo .start
  case standbyHealthTimeout => unfold exec; exact execStandbyHealthTimeout_evo .start
  case pairFrameSilence => unfold exec; exact execPairFrameSilence_evo .start
  case latticeCycleStart => unfold exec; exact execLatticeCycleStart_evo .start
  case latticeExecutionEnd => unfold exec; exact execLatticeExecutionEnd_evo .start rfl rfl
  case latticeWatchdog => unfold exec; exact execLatticeWatchdog_evo .start rfl rfl
  case latticeForce => unfold exec; exact execLatticeForce_evo .start
  case latticeUnforce => unfold exec; exact execLatticeUnforce_evo .start
  case latFlagsClear => unfold exec; exact execLatFlagsClear_evo .start
  case latActivate => unfold exec; exact execLatActivate_evo .start
  case programExchange => unfold exec; exact execProgramExchange_evo .start
  case heartbeatReceive => unfold exec; exact execHeartbeatReceive_evo .start
  case heartbeatTimeout => unfold exec; exact execHeartbeatTimeout_evo .start
  case tpdoReceive => unfold exec; exact execTpdoReceive_evo .start
  case canFrameReceive => unfold exec; exact execCanFrameReceive_evo .start rfl
  case canSubmit => unfold exec; exact execCanSubmit_evo .start
  case canTxAttemptEnd => unfold exec; exact execCanTxAttemptEnd_evo .start
  case busOffRecovery => unfold exec; exact execBusOffRecovery_evo .start
  case canBusoffCmd => unfold exec; exact execCanBusoffCmd_evo .start
  case timeReferenceSend => unfold exec; exact execTimeReferenceSend_evo .start
  case canSourceTimeout => unfold exec; exact execCanSourceTimeout_evo .start
  case ethLinkUp => unfold exec; exact execEthLinkUp_evo .start
  case ethLinkDown => unfold exec; exact execEthLinkDown_evo .start
  case ethFrameReceive => unfold exec; exact execEthFrameReceive_evo .start rfl
  case ptpSyncLoss => unfold exec; exact execPtpSyncLoss_evo .start
  case ptpFailback => unfold exec; exact execPtpFailback_evo .start
  case txtsDiscard => unfold exec; exact execTxtsDiscard_evo .start
  case holdoverExpiry => unfold exec; exact execHoldoverExpiry_evo .start
  case timeStep => unfold exec; exact execTimeStep_evo .start
  case toutArm => unfold exec; exact execToutArm_evo .start
  case timeOutPulse => unfold exec; exact execTimeOutPulse_evo .start
  case timeOutPulseEnd => unfold exec; exact execTimeOutPulseEnd_evo .start
  case blDatagramReceive => unfold exec; exact execBlDatagramReceive_evo .start
  case blSegmentReceive => unfold exec; exact execBlSegmentReceive_evo .start
  case blReassemblyTimeout => unfold exec; exact execBlReassemblyTimeout_evo .start
  case blPacketProcess => unfold exec; exact execBlPacketProcess_evo .start rfl rfl rfl rfl rfl
  case sessionOpen => unfold exec; exact execSessionOpen_evo .start
  case sessionIdle => unfold exec; exact execSessionIdle_evo .start
  case read => unfold exec; exact execRead_evo .start rfl rfl rfl rfl rfl
  case write => unfold exec; exact execWrite_evo .start rfl rfl rfl rfl rfl
  case bulkRead => unfold exec; exact execBulkRead_evo .start rfl rfl rfl rfl rfl
  case bulkWriteBegin => unfold exec; exact execBulkWriteBegin_evo .start rfl rfl rfl rfl rfl
  case bulkWriteData => unfold exec; exact execBulkWriteData_evo .start rfl rfl rfl rfl rfl
  case bulkWriteEnd => unfold exec; exact execBulkWriteEnd_evo .start rfl rfl rfl rfl rfl
  case slotEraseDone => unfold exec; exact execSlotEraseDone_evo .start
  case bulkWriteTimeout => unfold exec; exact execBulkWriteTimeout_evo .start
  case subscribe => unfold exec; exact execSubscribe_evo .start rfl rfl rfl rfl rfl
  case readEvents => unfold exec; exact execReadEvents_evo .start rfl rfl rfl rfl rfl
  case reBind => unfold exec; exact execReBind_evo .start rfl rfl rfl rfl rfl
  case replaceIntegratorKey => unfold exec; exact execReplaceIntegratorKey_evo .start rfl rfl rfl rfl rfl
  case raiseFloor => unfold exec; exact execRaiseFloor_evo .start rfl rfl rfl rfl rfl
  case closeSession => unfold exec; exact execCloseSession_evo .start rfl rfl rfl rfl rfl
  case telemetrySend => unfold exec; exact execTelemetrySend_evo .start
  case announceSend => unfold exec; exact execAnnounceSend_evo .start
  case peerAbsent => unfold exec; exact execPeerAbsent_evo .start
  case auditEntryWrite => unfold exec; exact execAuditEntryWrite_evo .start rfl rfl
  case responseSegmentRetry => unfold exec; exact execResponseSegmentRetry_evo .start
  case eventWriterTake => unfold exec; exact execEventWriterTake_evo .start
  case captureTrigger => unfold exec; exact execCaptureTrigger_evo .start
  case crumbComplete => unfold exec; exact execCrumbComplete_evo .start
  case captureRearm => unfold exec; exact execCaptureRearm_evo .start
  case crArm => unfold exec; exact execCrArm_evo .start
  case crDisarm => unfold exec; exact execCrDisarm_evo .start
  case crForce => unfold exec; exact execCrForce_evo .start
  case crumbLockExpiry => unfold exec; exact execCrumbLockExpiry_evo .start
  case controlSupplyLost => unfold exec; exact execControlSupplyLost_evo .start rfl rfl
  case canErrorDetected => unfold exec; exact execCanErrorDetected_evo .start
  case bulkReadCopyExpiry => unfold exec; exact execBulkReadCopyExpiry_evo .start
  case midPeriodLoad => unfold exec; exact execMidPeriodLoad_evo .start
  case ilMinTimeElapsed => unfold exec; exact execIlMinTimeElapsed_evo .start
  case gateAbovePlateau => unfold exec; exact execGateAbovePlateau_evo .start
  case pdelayReqSend => unfold exec; exact execPdelayReqSend_evo .start
  case grandmasterSyncSend => unfold exec; exact execGrandmasterSyncSend_evo .start
  case autoWindowAgeOut => unfold exec; exact execAutoWindowAgeOut_evo .start

/-- What `exec` answers is within `Evolve`. -/
theorem exec_next_evo {c : Instr} {s t : State} (h : exec c s = .next t) : Evolve (commandKinds c) s t := by
  obtain ⟨t', h', he⟩ := exec_evo c s
  rw [h] at h'
  exact Host.Outcome.next.inj h' ▸ he

end Sys2Proof.Machine
end

