-- ==== Sys2Proof/Laws/Words.lean ====
section
/-! SUPPORT. What the word file reads after each of its updates, and what an event, a port state and a unit state change touch. -/

set_option Elab.async false

namespace Sys2Proof.Machine

theorem regsGet_nil (id : Nat) : regsGet [] id = defaultWord id := rfl

theorem regsGet_cons (e : Nat × Word) (rs : List (Nat × Word)) (id : Nat) :
    regsGet (e :: rs) id = if e.1 = id then e.2 else regsGet rs id := by
  unfold regsGet
  by_cases h : e.1 = id <;> simp [h]

theorem regsGet_del (rs : List (Nat × Word)) (id j : Nat) :
    regsGet (regsDel rs id) j = if j = id then defaultWord id else regsGet rs j := by
  induction rs with
  | nil => simp [regsDel, regsGet_nil]; intro h; rw [h]
  | cons e rs ih =>
    unfold regsDel at ih ⊢
    by_cases he : e.1 = id
    · rw [List.filter_cons_of_neg (by simp [he]), ih, regsGet_cons]
      by_cases hj : j = id
      · simp [hj]
      · simp [hj]; intro h; exact absurd (h.symm.trans he) hj
    · rw [List.filter_cons_of_pos (by simp [he]), regsGet_cons, ih, regsGet_cons]
      by_cases hj : j = id
      · subst hj; simp [he]
      · simp [hj]

theorem regsGet_ins (id : Nat) (w : Word) (rs : List (Nat × Word)) (hn : ∀ e ∈ rs, e.1 ≠ id) (j : Nat) :
    regsGet (regsIns id w rs) j = if j = id then w else regsGet rs j := by
  induction rs with
  | nil =>
    simp only [regsIns, regsGet_cons]
    by_cases hj : j = id
    · simp [hj]
    · rw [if_neg (Ne.symm hj), if_neg hj]
  | cons e rs ih =>
    unfold regsIns
    split
    · rw [regsGet_cons]
      by_cases hj : j = id
      · simp [hj]
      · rw [if_neg (Ne.symm hj), if_neg hj]
    · rw [regsGet_cons, ih fun f hf => hn f (by simp [hf]), regsGet_cons]
      have he : e.1 ≠ id := hn e (by simp)
      by_cases hj : j = id
      · rw [if_neg (by rw [hj]; exact he)]; simp [hj]
      · simp [hj]

/-- A word after a write of one word. -/
theorem regsGet_put (rs : List (Nat × Word)) (id : Nat) (w : Word) (j : Nat) :
    regsGet (regsPut rs id w) j = if j = id then w else regsGet rs j := by
  unfold regsPut
  split
  · rename_i h
    rw [regsGet_del]
    by_cases hj : j = id
    · simp [hj, h]
    · simp [hj]
  · rw [regsGet_ins id w _ (fun e he => by simpa using (List.mem_filter.1 he).2), regsGet_del]
    by_cases hj : j = id <;> simp [hj]

/-! ### Reading after writing -/

theorem State.setW_w (s : State) (id : Nat) (w : Word) (j : Nat) : (s.setW id w).w j = if j = id then w else s.w j :=
  regsGet_put s.regs id w j

@[simp] theorem State.setW_same (s : State) (id : Nat) (w : Word) : (s.setW id w).w id = w := by simp [State.setW_w]

theorem State.setW_other (s : State) {id : Nat} (w : Word) {j : Nat} (h : j ≠ id) : (s.setW id w).w j = s.w j := by
  simp [State.setW_w, h]

theorem wordSat_toNat (n : Nat) : (wordSat n).toNat = min n 0xFFFFFFFF := by
  unfold wordSat
  rw [BitVec.toNat_ofNat]
  omega

theorem State.setN_n (s : State) (id n j : Nat) : (s.setN id n).n j = if j = id then min n 0xFFFFFFFF else s.n j := by
  unfold State.n State.setN
  rw [State.setW_w]
  split
  · exact wordSat_toNat n
  · rfl

@[simp] theorem State.setN_same (s : State) (id n : Nat) : (s.setN id n).n id = min n 0xFFFFFFFF := by simp [State.setN_n]

theorem State.setN_other (s : State) {id : Nat} (n : Nat) {j : Nat} (h : j ≠ id) : (s.setN id n).n j = s.n j := by
  simp [State.setN_n, h]

theorem State.setN_w (s : State) (id n j : Nat) : (s.setN id n).w j = if j = id then wordSat n else s.w j := s.setW_w id _ j

theorem State.setZ_w (s : State) (id : Nat) (z : Int) (j : Nat) : (s.setZ id z).w j = if j = id then wordOfInt z else s.w j :=
  s.setW_w id _ j

theorem State.setBit_w (s : State) (id k : Nat) (b : Bool) (j : Nat) :
    (s.setBit id k b).w j = if j = id then putBit (s.w id) k b else s.w j := s.setW_w id _ j

/-- A counter counts and saturates (R11). -/
theorem State.bumpBy_n (s : State) (id k j : Nat) :
    (s.bumpBy id k).n j = if j = id then min (s.n id + k) 0xFFFFFFFF else s.n j := s.setN_n id _ j

theorem State.bump_n (s : State) (id j : Nat) : (s.bump id).n j = if j = id then min (s.n id + 1) 0xFFFFFFFF else s.n j :=
  s.bumpBy_n id 1 j

/-- A word is at most 32 bits. -/
theorem State.n_lt (s : State) (id : Nat) : s.n id < 2 ^ 32 := (s.w id).isLt

/-! ### Events (R38, R41, R54) -/

theorem State.highWater_n (s : State) (q occ j : Nat) (hj : j ≠ Pid.qHighWater q) : (s.highWater q occ).n j = s.n j := by
  unfold State.highWater State.onlyIf
  split
  · exact State.setN_other s occ hj
  · rfl

theorem State.raise_eq (s : State) (code inst ctx : Nat) :
    s.raise code inst ctx = if s.ev.mustCoalesce (s.evRec code inst ctx) then
        State.qLost { s with ev := s.ev.coalesce (s.evRec code inst ctx) } 12
      else State.highWater { s with ev := { s.ev with q := s.ev.q ++ [s.evRec code inst ctx] } } 12 (s.ev.q.length + 1) := rfl

/-- An event changes no word but the two of Q-EVT (R54). -/
theorem State.raise_w (s : State) (code inst ctx j : Nat) (h1 : j ≠ Pid.qHighWater 12) (h2 : j ≠ Pid.qLoss 12) :
    (s.raise code inst ctx).w j = s.w j := by
  rw [State.raise_eq]
  split
  · exact State.setW_other _ _ h2
  · unfold State.highWater State.onlyIf
    split
    · exact State.setW_other _ _ h1
    · rfl

theorem State.raise_n (s : State) (code inst ctx j : Nat) (h1 : j ≠ Pid.qHighWater 12) (h2 : j ≠ Pid.qLoss 12) :
    (s.raise code inst ctx).n j = s.n j := congrArg BitVec.toNat (s.raise_w code inst ctx j h1 h2)

/-- An event that need not coalesce is the last of Q-EVT. -/
theorem State.raise_queue (s : State) (code inst ctx : Nat) (h : s.ev.mustCoalesce (s.evRec code inst ctx) = false) :
    (s.raise code inst ctx).ev.q = s.ev.q ++ [s.evRec code inst ctx] := by
  rw [State.raise_eq, if_neg (by simp [h])]
  unfold State.highWater State.onlyIf
  split <;> rfl

/-- An event changes the words of the queue and the queue itself, and nothing else. -/
theorem State.raise_frame (s : State) (code inst ctx : Nat) :
    { s.raise code inst ctx with regs := s.regs, ev := s.ev } = s := by
  rw [State.raise_eq]
  split
  · rfl
  · unfold State.highWater State.onlyIf
    split <;> rfl

end Sys2Proof.Machine
end

