-- ==== Sys2Proof/Laws/State.lean ====
section
/-! SUPPORT. One lemma per field and per update: what an update of one part leaves alone, true by unfolding once. -/

set_option Elab.async false

namespace Sys2Proof.Machine

/-! ### setW -/

@[simp] theorem State.setW_now (s : State) (id : Nat) (w : Word) : (s.setW id w).now = s.now := rfl
@[simp] theorem State.setW_fine (s : State) (id : Nat) (w : Word) : (s.setW id w).fine = s.fine := rfl
@[simp] theorem State.setW_strFine (s : State) (id : Nat) (w : Word) : (s.setW id w).strFine = s.strFine := rfl
@[simp] theorem State.setW_unit (s : State) (id : Nat) (w : Word) : (s.setW id w).unit = s.unit := rfl
@[simp] theorem State.setW_fuses (s : State) (id : Nat) (w : Word) : (s.setW id w).fuses = s.fuses := rfl
@[simp] theorem State.setW_fram (s : State) (id : Nat) (w : Word) : (s.setW id w).fram = s.fram := rfl
@[simp] theorem State.setW_flash (s : State) (id : Nat) (w : Word) : (s.setW id w).flash = s.flash := rfl
@[simp] theorem State.setW_sfdpQuad (s : State) (id : Nat) (w : Word) : (s.setW id w).sfdpQuad = s.sfdpQuad := rfl
@[simp] theorem State.setW_ref (s : State) (id : Nat) (w : Word) : (s.setW id w).ref = s.ref := rfl
@[simp] theorem State.setW_img (s : State) (id : Nat) (w : Word) : (s.setW id w).img = s.img := rfl
@[simp] theorem State.setW_ev (s : State) (id : Nat) (w : Word) : (s.setW id w).ev = s.ev := rfl
@[simp] theorem State.setW_ports (s : State) (id : Nat) (w : Word) : (s.setW id w).ports = s.ports := rfl
@[simp] theorem State.setW_eng (s : State) (id : Nat) (w : Word) : (s.setW id w).eng = s.eng := rfl
@[simp] theorem State.setW_inj (s : State) (id : Nat) (w : Word) : (s.setW id w).inj = s.inj := rfl
@[simp] theorem State.setW_prf (s : State) (id : Nat) (w : Word) : (s.setW id w).prf = s.prf := rfl
@[simp] theorem State.setW_fast (s : State) (id : Nat) (w : Word) : (s.setW id w).fast = s.fast := rfl
@[simp] theorem State.setW_slow (s : State) (id : Nat) (w : Word) : (s.setW id w).slow = s.slow := rfl
@[simp] theorem State.setW_mods (s : State) (id : Nat) (w : Word) : (s.setW id w).mods = s.mods := rfl
@[simp] theorem State.setW_legs (s : State) (id : Nat) (w : Word) : (s.setW id w).legs = s.legs := rfl
@[simp] theorem State.setW_isl (s : State) (id : Nat) (w : Word) : (s.setW id w).isl = s.isl := rfl
@[simp] theorem State.setW_seqRun (s : State) (id : Nat) (w : Word) : (s.setW id w).seqRun = s.seqRun := rfl
@[simp] theorem State.setW_lines (s : State) (id : Nat) (w : Word) : (s.setW id w).lines = s.lines := rfl
@[simp] theorem State.setW_dout (s : State) (id : Nat) (w : Word) : (s.setW id w).dout = s.dout := rfl
@[simp] theorem State.setW_saf (s : State) (id : Nat) (w : Word) : (s.setW id w).saf = s.saf := rfl
@[simp] theorem State.setW_pair (s : State) (id : Nat) (w : Word) : (s.setW id w).pair = s.pair := rfl
@[simp] theorem State.setW_lat (s : State) (id : Nat) (w : Word) : (s.setW id w).lat = s.lat := rfl
@[simp] theorem State.setW_can (s : State) (id : Nat) (w : Word) : (s.setW id w).can = s.can := rfl
@[simp] theorem State.setW_eth (s : State) (id : Nat) (w : Word) : (s.setW id w).eth = s.eth := rfl
@[simp] theorem State.setW_time (s : State) (id : Nat) (w : Word) : (s.setW id w).time = s.time := rfl
@[simp] theorem State.setW_tout (s : State) (id : Nat) (w : Word) : (s.setW id w).tout = s.tout := rfl
@[simp] theorem State.setW_link (s : State) (id : Nat) (w : Word) : (s.setW id w).link = s.link := rfl
@[simp] theorem State.setW_cap (s : State) (id : Nat) (w : Word) : (s.setW id w).cap = s.cap := rfl
@[simp] theorem State.setW_timers (s : State) (id : Nat) (w : Word) : (s.setW id w).timers = s.timers := rfl
@[simp] theorem State.setW_freeCtr (s : State) (id : Nat) (w : Word) : (s.setW id w).freeCtr = s.freeCtr := rfl
@[simp] theorem State.setW_pending (s : State) (id : Nat) (w : Word) : (s.setW id w).pending = s.pending := rfl

/-! ### setN -/

@[simp] theorem State.setN_now (s : State) (id n : Nat) : (s.setN id n).now = s.now := rfl
@[simp] theorem State.setN_fine (s : State) (id n : Nat) : (s.setN id n).fine = s.fine := rfl
@[simp] theorem State.setN_strFine (s : State) (id n : Nat) : (s.setN id n).strFine = s.strFine := rfl
@[simp] theorem State.setN_unit (s : State) (id n : Nat) : (s.setN id n).unit = s.unit := rfl
@[simp] theorem State.setN_fuses (s : State) (id n : Nat) : (s.setN id n).fuses = s.fuses := rfl
@[simp] theorem State.setN_fram (s : State) (id n : Nat) : (s.setN id n).fram = s.fram := rfl
@[simp] theorem State.setN_flash (s : State) (id n : Nat) : (s.setN id n).flash = s.flash := rfl
@[simp] theorem State.setN_sfdpQuad (s : State) (id n : Nat) : (s.setN id n).sfdpQuad = s.sfdpQuad := rfl
@[simp] theorem State.setN_ref (s : State) (id n : Nat) : (s.setN id n).ref = s.ref := rfl
@[simp] theorem State.setN_img (s : State) (id n : Nat) : (s.setN id n).img = s.img := rfl
@[simp] theorem State.setN_ev (s : State) (id n : Nat) : (s.setN id n).ev = s.ev := rfl
@[simp] theorem State.setN_ports (s : State) (id n : Nat) : (s.setN id n).ports = s.ports := rfl
@[simp] theorem State.setN_eng (s : State) (id n : Nat) : (s.setN id n).eng = s.eng := rfl
@[simp] theorem State.setN_inj (s : State) (id n : Nat) : (s.setN id n).inj = s.inj := rfl
@[simp] theorem State.setN_prf (s : State) (id n : Nat) : (s.setN id n).prf = s.prf := rfl
@[simp] theorem State.setN_fast (s : State) (id n : Nat) : (s.setN id n).fast = s.fast := rfl
@[simp] theorem State.setN_slow (s : State) (id n : Nat) : (s.setN id n).slow = s.slow := rfl
@[simp] theorem State.setN_mods (s : State) (id n : Nat) : (s.setN id n).mods = s.mods := rfl
@[simp] theorem State.setN_legs (s : State) (id n : Nat) : (s.setN id n).legs = s.legs := rfl
@[simp] theorem State.setN_isl (s : State) (id n : Nat) : (s.setN id n).isl = s.isl := rfl
@[simp] theorem State.setN_seqRun (s : State) (id n : Nat) : (s.setN id n).seqRun = s.seqRun := rfl
@[simp] theorem State.setN_lines (s : State) (id n : Nat) : (s.setN id n).lines = s.lines := rfl
@[simp] theorem State.setN_dout (s : State) (id n : Nat) : (s.setN id n).dout = s.dout := rfl
@[simp] theorem State.setN_saf (s : State) (id n : Nat) : (s.setN id n).saf = s.saf := rfl
@[simp] theorem State.setN_pair (s : State) (id n : Nat) : (s.setN id n).pair = s.pair := rfl
@[simp] theorem State.setN_lat (s : State) (id n : Nat) : (s.setN id n).lat = s.lat := rfl
@[simp] theorem State.setN_can (s : State) (id n : Nat) : (s.setN id n).can = s.can := rfl
@[simp] theorem State.setN_eth (s : State) (id n : Nat) : (s.setN id n).eth = s.eth := rfl
@[simp] theorem State.setN_time (s : State) (id n : Nat) : (s.setN id n).time = s.time := rfl
@[simp] theorem State.setN_tout (s : State) (id n : Nat) : (s.setN id n).tout = s.tout := rfl
@[simp] theorem State.setN_link (s : State) (id n : Nat) : (s.setN id n).link = s.link := rfl
@[simp] theorem State.setN_cap (s : State) (id n : Nat) : (s.setN id n).cap = s.cap := rfl
@[simp] theorem State.setN_timers (s : State) (id n : Nat) : (s.setN id n).timers = s.timers := rfl
@[simp] theorem State.setN_freeCtr (s : State) (id n : Nat) : (s.setN id n).freeCtr = s.freeCtr := rfl
@[simp] theorem State.setN_pending (s : State) (id n : Nat) : (s.setN id n).pending = s.pending := rfl

/-! ### setZ -/

@[simp] theorem State.setZ_now (s : State) (id : Nat) (z : Int) : (s.setZ id z).now = s.now := rfl
@[simp] theorem State.setZ_fine (s : State) (id : Nat) (z : Int) : (s.setZ id z).fine = s.fine := rfl
@[simp] theorem State.setZ_strFine (s : State) (id : Nat) (z : Int) : (s.setZ id z).strFine = s.strFine := rfl
@[simp] theorem State.setZ_unit (s : State) (id : Nat) (z : Int) : (s.setZ id z).unit = s.unit := rfl
@[simp] theorem State.setZ_fuses (s : State) (id : Nat) (z : Int) : (s.setZ id z).fuses = s.fuses := rfl
@[simp] theorem State.setZ_fram (s : State) (id : Nat) (z : Int) : (s.setZ id z).fram = s.fram := rfl
@[simp] theorem State.setZ_flash (s : State) (id : Nat) (z : Int) : (s.setZ id z).flash = s.flash := rfl
@[simp] theorem State.setZ_sfdpQuad (s : State) (id : Nat) (z : Int) : (s.setZ id z).sfdpQuad = s.sfdpQuad := rfl
@[simp] theorem State.setZ_ref (s : State) (id : Nat) (z : Int) : (s.setZ id z).ref = s.ref := rfl
@[simp] theorem State.setZ_img (s : State) (id : Nat) (z : Int) : (s.setZ id z).img = s.img := rfl
@[simp] theorem State.setZ_ev (s : State) (id : Nat) (z : Int) : (s.setZ id z).ev = s.ev := rfl
@[simp] theorem State.setZ_ports (s : State) (id : Nat) (z : Int) : (s.setZ id z).ports = s.ports := rfl
@[simp] theorem State.setZ_eng (s : State) (id : Nat) (z : Int) : (s.setZ id z).eng = s.eng := rfl
@[simp] theorem State.setZ_inj (s : State) (id : Nat) (z : Int) : (s.setZ id z).inj = s.inj := rfl
@[simp] theorem State.setZ_prf (s : State) (id : Nat) (z : Int) : (s.setZ id z).prf = s.prf := rfl
@[simp] theorem State.setZ_fast (s : State) (id : Nat) (z : Int) : (s.setZ id z).fast = s.fast := rfl
@[simp] theorem State.setZ_slow (s : State) (id : Nat) (z : Int) : (s.setZ id z).slow = s.slow := rfl
@[simp] theorem State.setZ_mods (s : State) (id : Nat) (z : Int) : (s.setZ id z).mods = s.mods := rfl
@[simp] theorem State.setZ_legs (s : State) (id : Nat) (z : Int) : (s.setZ id z).legs = s.legs := rfl
@[simp] theorem State.setZ_isl (s : State) (id : Nat) (z : Int) : (s.setZ id z).isl = s.isl := rfl
@[simp] theorem State.setZ_seqRun (s : State) (id : Nat) (z : Int) : (s.setZ id z).seqRun = s.seqRun := rfl
@[simp] theorem State.setZ_lines (s : State) (id : Nat) (z : Int) : (s.setZ id z).lines = s.lines := rfl
@[simp] theorem State.setZ_dout (s : State) (id : Nat) (z : Int) : (s.setZ id z).dout = s.dout := rfl
@[simp] theorem State.setZ_saf (s : State) (id : Nat) (z : Int) : (s.setZ id z).saf = s.saf := rfl
@[simp] theorem State.setZ_pair (s : State) (id : Nat) (z : Int) : (s.setZ id z).pair = s.pair := rfl
@[simp] theorem State.setZ_lat (s : State) (id : Nat) (z : Int) : (s.setZ id z).lat = s.lat := rfl
@[simp] theorem State.setZ_can (s : State) (id : Nat) (z : Int) : (s.setZ id z).can = s.can := rfl
@[simp] theorem State.setZ_eth (s : State) (id : Nat) (z : Int) : (s.setZ id z).eth = s.eth := rfl
@[simp] theorem State.setZ_time (s : State) (id : Nat) (z : Int) : (s.setZ id z).time = s.time := rfl
@[simp] theorem State.setZ_tout (s : State) (id : Nat) (z : Int) : (s.setZ id z).tout = s.tout := rfl
@[simp] theorem State.setZ_link (s : State) (id : Nat) (z : Int) : (s.setZ id z).link = s.link := rfl
@[simp] theorem State.setZ_cap (s : State) (id : Nat) (z : Int) : (s.setZ id z).cap = s.cap := rfl
@[simp] theorem State.setZ_timers (s : State) (id : Nat) (z : Int) : (s.setZ id z).timers = s.timers := rfl
@[simp] theorem State.setZ_freeCtr (s : State) (id : Nat) (z : Int) : (s.setZ id z).freeCtr = s.freeCtr := rfl
@[simp] theorem State.setZ_pending (s : State) (id : Nat) (z : Int) : (s.setZ id z).pending = s.pending := rfl

/-! ### setBit -/

@[simp] theorem State.setBit_now (s : State) (id k : Nat) (b : Bool) : (s.setBit id k b).now = s.now := rfl
@[simp] theorem State.setBit_fine (s : State) (id k : Nat) (b : Bool) : (s.setBit id k b).fine = s.fine := rfl
@[simp] theorem State.setBit_strFine (s : State) (id k : Nat) (b : Bool) : (s.setBit id k b).strFine = s.strFine := rfl
@[simp] theorem State.setBit_unit (s : State) (id k : Nat) (b : Bool) : (s.setBit id k b).unit = s.unit := rfl
@[simp] theorem State.setBit_fuses (s : State) (id k : Nat) (b : Bool) : (s.setBit id k b).fuses = s.fuses := rfl
@[simp] theorem State.setBit_fram (s : State) (id k : Nat) (b : Bool) : (s.setBit id k b).fram = s.fram := rfl
@[simp] theorem State.setBit_flash (s : State) (id k : Nat) (b : Bool) : (s.setBit id k b).flash = s.flash := rfl
@[simp] theorem State.setBit_sfdpQuad (s : State) (id k : Nat) (b : Bool) : (s.setBit id k b).sfdpQuad = s.sfdpQuad := rfl
@[simp] theorem State.setBit_ref (s : State) (id k : Nat) (b : Bool) : (s.setBit id k b).ref = s.ref := rfl
@[simp] theorem State.setBit_img (s : State) (id k : Nat) (b : Bool) : (s.setBit id k b).img = s.img := rfl
@[simp] theorem State.setBit_ev (s : State) (id k : Nat) (b : Bool) : (s.setBit id k b).ev = s.ev := rfl
@[simp] theorem State.setBit_ports (s : State) (id k : Nat) (b : Bool) : (s.setBit id k b).ports = s.ports := rfl
@[simp] theorem State.setBit_eng (s : State) (id k : Nat) (b : Bool) : (s.setBit id k b).eng = s.eng := rfl
@[simp] theorem State.setBit_inj (s : State) (id k : Nat) (b : Bool) : (s.setBit id k b).inj = s.inj := rfl
@[simp] theorem State.setBit_prf (s : State) (id k : Nat) (b : Bool) : (s.setBit id k b).prf = s.prf := rfl
@[simp] theorem State.setBit_fast (s : State) (id k : Nat) (b : Bool) : (s.setBit id k b).fast = s.fast := rfl
@[simp] theorem State.setBit_slow (s : State) (id k : Nat) (b : Bool) : (s.setBit id k b).slow = s.slow := rfl
@[simp] theorem State.setBit_mods (s : State) (id k : Nat) (b : Bool) : (s.setBit id k b).mods = s.mods := rfl
@[simp] theorem State.setBit_legs (s : State) (id k : Nat) (b : Bool) : (s.setBit id k b).legs = s.legs := rfl
@[simp] theorem State.setBit_isl (s : State) (id k : Nat) (b : Bool) : (s.setBit id k b).isl = s.isl := rfl
@[simp] theorem State.setBit_seqRun (s : State) (id k : Nat) (b : Bool) : (s.setBit id k b).seqRun = s.seqRun := rfl
@[simp] theorem State.setBit_lines (s : State) (id k : Nat) (b : Bool) : (s.setBit id k b).lines = s.lines := rfl
@[simp] theorem State.setBit_dout (s : State) (id k : Nat) (b : Bool) : (s.setBit id k b).dout = s.dout := rfl
@[simp] theorem State.setBit_saf (s : State) (id k : Nat) (b : Bool) : (s.setBit id k b).saf = s.saf := rfl
@[simp] theorem State.setBit_pair (s : State) (id k : Nat) (b : Bool) : (s.setBit id k b).pair = s.pair := rfl
@[simp] theorem State.setBit_lat (s : State) (id k : Nat) (b : Bool) : (s.setBit id k b).lat = s.lat := rfl
@[simp] theorem State.setBit_can (s : State) (id k : Nat) (b : Bool) : (s.setBit id k b).can = s.can := rfl
@[simp] theorem State.setBit_eth (s : State) (id k : Nat) (b : Bool) : (s.setBit id k b).eth = s.eth := rfl
@[simp] theorem State.setBit_time (s : State) (id k : Nat) (b : Bool) : (s.setBit id k b).time = s.time := rfl
@[simp] theorem State.setBit_tout (s : State) (id k : Nat) (b : Bool) : (s.setBit id k b).tout = s.tout := rfl
@[simp] theorem State.setBit_link (s : State) (id k : Nat) (b : Bool) : (s.setBit id k b).link = s.link := rfl
@[simp] theorem State.setBit_cap (s : State) (id k : Nat) (b : Bool) : (s.setBit id k b).cap = s.cap := rfl
@[simp] theorem State.setBit_timers (s : State) (id k : Nat) (b : Bool) : (s.setBit id k b).timers = s.timers := rfl
@[simp] theorem State.setBit_freeCtr (s : State) (id k : Nat) (b : Bool) : (s.setBit id k b).freeCtr = s.freeCtr := rfl
@[simp] theorem State.setBit_pending (s : State) (id k : Nat) (b : Bool) : (s.setBit id k b).pending = s.pending := rfl

/-! ### bumpBy -/

@[simp] theorem State.bumpBy_now (s : State) (id k : Nat) : (s.bumpBy id k).now = s.now := rfl
@[simp] theorem State.bumpBy_fine (s : State) (id k : Nat) : (s.bumpBy id k).fine = s.fine := rfl
@[simp] theorem State.bumpBy_strFine (s : State) (id k : Nat) : (s.bumpBy id k).strFine = s.strFine := rfl
@[simp] theorem State.bumpBy_unit (s : State) (id k : Nat) : (s.bumpBy id k).unit = s.unit := rfl
@[simp] theorem State.bumpBy_fuses (s : State) (id k : Nat) : (s.bumpBy id k).fuses = s.fuses := rfl
@[simp] theorem State.bumpBy_fram (s : State) (id k : Nat) : (s.bumpBy id k).fram = s.fram := rfl
@[simp] theorem State.bumpBy_flash (s : State) (id k : Nat) : (s.bumpBy id k).flash = s.flash := rfl
@[simp] theorem State.bumpBy_sfdpQuad (s : State) (id k : Nat) : (s.bumpBy id k).sfdpQuad = s.sfdpQuad := rfl
@[simp] theorem State.bumpBy_ref (s : State) (id k : Nat) : (s.bumpBy id k).ref = s.ref := rfl
@[simp] theorem State.bumpBy_img (s : State) (id k : Nat) : (s.bumpBy id k).img = s.img := rfl
@[simp] theorem State.bumpBy_ev (s : State) (id k : Nat) : (s.bumpBy id k).ev = s.ev := rfl
@[simp] theorem State.bumpBy_ports (s : State) (id k : Nat) : (s.bumpBy id k).ports = s.ports := rfl
@[simp] theorem State.bumpBy_eng (s : State) (id k : Nat) : (s.bumpBy id k).eng = s.eng := rfl
@[simp] theorem State.bumpBy_inj (s : State) (id k : Nat) : (s.bumpBy id k).inj = s.inj := rfl
@[simp] theorem State.bumpBy_prf (s : State) (id k : Nat) : (s.bumpBy id k).prf = s.prf := rfl
@[simp] theorem State.bumpBy_fast (s : State) (id k : Nat) : (s.bumpBy id k).fast = s.fast := rfl
@[simp] theorem State.bumpBy_slow (s : State) (id k : Nat) : (s.bumpBy id k).slow = s.slow := rfl
@[simp] theorem State.bumpBy_mods (s : State) (id k : Nat) : (s.bumpBy id k).mods = s.mods := rfl
@[simp] theorem State.bumpBy_legs (s : State) (id k : Nat) : (s.bumpBy id k).legs = s.legs := rfl
@[simp] theorem State.bumpBy_isl (s : State) (id k : Nat) : (s.bumpBy id k).isl = s.isl := rfl
@[simp] theorem State.bumpBy_seqRun (s : State) (id k : Nat) : (s.bumpBy id k).seqRun = s.seqRun := rfl
@[simp] theorem State.bumpBy_lines (s : State) (id k : Nat) : (s.bumpBy id k).lines = s.lines := rfl
@[simp] theorem State.bumpBy_dout (s : State) (id k : Nat) : (s.bumpBy id k).dout = s.dout := rfl
@[simp] theorem State.bumpBy_saf (s : State) (id k : Nat) : (s.bumpBy id k).saf = s.saf := rfl
@[simp] theorem State.bumpBy_pair (s : State) (id k : Nat) : (s.bumpBy id k).pair = s.pair := rfl
@[simp] theorem State.bumpBy_lat (s : State) (id k : Nat) : (s.bumpBy id k).lat = s.lat := rfl
@[simp] theorem State.bumpBy_can (s : State) (id k : Nat) : (s.bumpBy id k).can = s.can := rfl
@[simp] theorem State.bumpBy_eth (s : State) (id k : Nat) : (s.bumpBy id k).eth = s.eth := rfl
@[simp] theorem State.bumpBy_time (s : State) (id k : Nat) : (s.bumpBy id k).time = s.time := rfl
@[simp] theorem State.bumpBy_tout (s : State) (id k : Nat) : (s.bumpBy id k).tout = s.tout := rfl
@[simp] theorem State.bumpBy_link (s : State) (id k : Nat) : (s.bumpBy id k).link = s.link := rfl
@[simp] theorem State.bumpBy_cap (s : State) (id k : Nat) : (s.bumpBy id k).cap = s.cap := rfl
@[simp] theorem State.bumpBy_timers (s : State) (id k : Nat) : (s.bumpBy id k).timers = s.timers := rfl
@[simp] theorem State.bumpBy_freeCtr (s : State) (id k : Nat) : (s.bumpBy id k).freeCtr = s.freeCtr := rfl
@[simp] theorem State.bumpBy_pending (s : State) (id k : Nat) : (s.bumpBy id k).pending = s.pending := rfl

/-! ### bump -/

@[simp] theorem State.bump_now (s : State) (id : Nat) : (s.bump id).now = s.now := rfl
@[simp] theorem State.bump_fine (s : State) (id : Nat) : (s.bump id).fine = s.fine := rfl
@[simp] theorem State.bump_strFine (s : State) (id : Nat) : (s.bump id).strFine = s.strFine := rfl
@[simp] theorem State.bump_unit (s : State) (id : Nat) : (s.bump id).unit = s.unit := rfl
@[simp] theorem State.bump_fuses (s : State) (id : Nat) : (s.bump id).fuses = s.fuses := rfl
@[simp] theorem State.bump_fram (s : State) (id : Nat) : (s.bump id).fram = s.fram := rfl
@[simp] theorem State.bump_flash (s : State) (id : Nat) : (s.bump id).flash = s.flash := rfl
@[simp] theorem State.bump_sfdpQuad (s : State) (id : Nat) : (s.bump id).sfdpQuad = s.sfdpQuad := rfl
@[simp] theorem State.bump_ref (s : State) (id : Nat) : (s.bump id).ref = s.ref := rfl
@[simp] theorem State.bump_img (s : State) (id : Nat) : (s.bump id).img = s.img := rfl
@[simp] theorem State.bump_ev (s : State) (id : Nat) : (s.bump id).ev = s.ev := rfl
@[simp] theorem State.bump_ports (s : State) (id : Nat) : (s.bump id).ports = s.ports := rfl
@[simp] theorem State.bump_eng (s : State) (id : Nat) : (s.bump id).eng = s.eng := rfl
@[simp] theorem State.bump_inj (s : State) (id : Nat) : (s.bump id).inj = s.inj := rfl
@[simp] theorem State.bump_prf (s : State) (id : Nat) : (s.bump id).prf = s.prf := rfl
@[simp] theorem State.bump_fast (s : State) (id : Nat) : (s.bump id).fast = s.fast := rfl
@[simp] theorem State.bump_slow (s : State) (id : Nat) : (s.bump id).slow = s.slow := rfl
@[simp] theorem State.bump_mods (s : State) (id : Nat) : (s.bump id).mods = s.mods := rfl
@[simp] theorem State.bump_legs (s : State) (id : Nat) : (s.bump id).legs = s.legs := rfl
@[simp] theorem State.bump_isl (s : State) (id : Nat) : (s.bump id).isl = s.isl := rfl
@[simp] theorem State.bump_seqRun (s : State) (id : Nat) : (s.bump id).seqRun = s.seqRun := rfl
@[simp] theorem State.bump_lines (s : State) (id : Nat) : (s.bump id).lines = s.lines := rfl
@[simp] theorem State.bump_dout (s : State) (id : Nat) : (s.bump id).dout = s.dout := rfl
@[simp] theorem State.bump_saf (s : State) (id : Nat) : (s.bump id).saf = s.saf := rfl
@[simp] theorem State.bump_pair (s : State) (id : Nat) : (s.bump id).pair = s.pair := rfl
@[simp] theorem State.bump_lat (s : State) (id : Nat) : (s.bump id).lat = s.lat := rfl
@[simp] theorem State.bump_can (s : State) (id : Nat) : (s.bump id).can = s.can := rfl
@[simp] theorem State.bump_eth (s : State) (id : Nat) : (s.bump id).eth = s.eth := rfl
@[simp] theorem State.bump_time (s : State) (id : Nat) : (s.bump id).time = s.time := rfl
@[simp] theorem State.bump_tout (s : State) (id : Nat) : (s.bump id).tout = s.tout := rfl
@[simp] theorem State.bump_link (s : State) (id : Nat) : (s.bump id).link = s.link := rfl
@[simp] theorem State.bump_cap (s : State) (id : Nat) : (s.bump id).cap = s.cap := rfl
@[simp] theorem State.bump_timers (s : State) (id : Nat) : (s.bump id).timers = s.timers := rfl
@[simp] theorem State.bump_freeCtr (s : State) (id : Nat) : (s.bump id).freeCtr = s.freeCtr := rfl
@[simp] theorem State.bump_pending (s : State) (id : Nat) : (s.bump id).pending = s.pending := rfl

/-! ### forget -/

@[simp] theorem State.forget_now (s : State) (k : Timer) : (s.forget k).now = s.now := rfl
@[simp] theorem State.forget_fine (s : State) (k : Timer) : (s.forget k).fine = s.fine := rfl
@[simp] theorem State.forget_strFine (s : State) (k : Timer) : (s.forget k).strFine = s.strFine := rfl
@[simp] theorem State.forget_unit (s : State) (k : Timer) : (s.forget k).unit = s.unit := rfl
@[simp] theorem State.forget_regs (s : State) (k : Timer) : (s.forget k).regs = s.regs := rfl
@[simp] theorem State.forget_fuses (s : State) (k : Timer) : (s.forget k).fuses = s.fuses := rfl
@[simp] theorem State.forget_fram (s : State) (k : Timer) : (s.forget k).fram = s.fram := rfl
@[simp] theorem State.forget_flash (s : State) (k : Timer) : (s.forget k).flash = s.flash := rfl
@[simp] theorem State.forget_sfdpQuad (s : State) (k : Timer) : (s.forget k).sfdpQuad = s.sfdpQuad := rfl
@[simp] theorem State.forget_ref (s : State) (k : Timer) : (s.forget k).ref = s.ref := rfl
@[simp] theorem State.forget_img (s : State) (k : Timer) : (s.forget k).img = s.img := rfl
@[simp] theorem State.forget_ev (s : State) (k : Timer) : (s.forget k).ev = s.ev := rfl
@[simp] theorem State.forget_ports (s : State) (k : Timer) : (s.forget k).ports = s.ports := rfl
@[simp] theorem State.forget_eng (s : State) (k : Timer) : (s.forget k).eng = s.eng := rfl
@[simp] theorem State.forget_inj (s : State) (k : Timer) : (s.forget k).inj = s.inj := rfl
@[simp] theorem State.forget_prf (s : State) (k : Timer) : (s.forget k).prf = s.prf := rfl
@[simp] theorem State.forget_fast (s : State) (k : Timer) : (s.forget k).fast = s.fast := rfl
@[simp] theorem State.forget_slow (s : State) (k : Timer) : (s.forget k).slow = s.slow := rfl
@[simp] theorem State.forget_mods (s : State) (k : Timer) : (s.forget k).mods = s.mods := rfl
@[simp] theorem State.forget_legs (s : State) (k : Timer) : (s.forget k).legs = s.legs := rfl
@[simp] theorem State.forget_isl (s : State) (k : Timer) : (s.forget k).isl = s.isl := rfl
@[simp] theorem State.forget_seqRun (s : State) (k : Timer) : (s.forget k).seqRun = s.seqRun := rfl
@[simp] theorem State.forget_lines (s : State) (k : Timer) : (s.forget k).lines = s.lines := rfl
@[simp] theorem State.forget_dout (s : State) (k : Timer) : (s.forget k).dout = s.dout := rfl
@[simp] theorem State.forget_saf (s : State) (k : Timer) : (s.forget k).saf = s.saf := rfl
@[simp] theorem State.forget_pair (s : State) (k : Timer) : (s.forget k).pair = s.pair := rfl
@[simp] theorem State.forget_lat (s : State) (k : Timer) : (s.forget k).lat = s.lat := rfl
@[simp] theorem State.forget_can (s : State) (k : Timer) : (s.forget k).can = s.can := rfl
@[simp] theorem State.forget_eth (s : State) (k : Timer) : (s.forget k).eth = s.eth := rfl
@[simp] theorem State.forget_time (s : State) (k : Timer) : (s.forget k).time = s.time := rfl
@[simp] theorem State.forget_tout (s : State) (k : Timer) : (s.forget k).tout = s.tout := rfl
@[simp] theorem State.forget_link (s : State) (k : Timer) : (s.forget k).link = s.link := rfl
@[simp] theorem State.forget_cap (s : State) (k : Timer) : (s.forget k).cap = s.cap := rfl
@[simp] theorem State.forget_freeCtr (s : State) (k : Timer) : (s.forget k).freeCtr = s.freeCtr := rfl
@[simp] theorem State.forget_pending (s : State) (k : Timer) : (s.forget k).pending = s.pending := rfl
@[simp] theorem State.forget_w (s : State) (k : Timer) (j : Nat) : (s.forget k).w j = s.w j := rfl
@[simp] theorem State.forget_n (s : State) (k : Timer) (j : Nat) : (s.forget k).n j = s.n j := rfl
@[simp] theorem State.forget_z (s : State) (k : Timer) (j : Nat) : (s.forget k).z j = s.z j := rfl
@[simp] theorem State.forget_bit (s : State) (k : Timer) (j i : Nat) : (s.forget k).bit j i = s.bit j i := rfl

/-! ### again -/

@[simp] theorem State.again_now (s : State) (k : Timer) (d : Nat) : (s.again k d).now = s.now := rfl
@[simp] theorem State.again_fine (s : State) (k : Timer) (d : Nat) : (s.again k d).fine = s.fine := rfl
@[simp] theorem State.again_strFine (s : State) (k : Timer) (d : Nat) : (s.again k d).strFine = s.strFine := rfl
@[simp] theorem State.again_unit (s : State) (k : Timer) (d : Nat) : (s.again k d).unit = s.unit := rfl
@[simp] theorem State.again_regs (s : State) (k : Timer) (d : Nat) : (s.again k d).regs = s.regs := rfl
@[simp] theorem State.again_fuses (s : State) (k : Timer) (d : Nat) : (s.again k d).fuses = s.fuses := rfl
@[simp] theorem State.again_fram (s : State) (k : Timer) (d : Nat) : (s.again k d).fram = s.fram := rfl
@[simp] theorem State.again_flash (s : State) (k : Timer) (d : Nat) : (s.again k d).flash = s.flash := rfl
@[simp] theorem State.again_sfdpQuad (s : State) (k : Timer) (d : Nat) : (s.again k d).sfdpQuad = s.sfdpQuad := rfl
@[simp] theorem State.again_ref (s : State) (k : Timer) (d : Nat) : (s.again k d).ref = s.ref := rfl
@[simp] theorem State.again_img (s : State) (k : Timer) (d : Nat) : (s.again k d).img = s.img := rfl
@[simp] theorem State.again_ev (s : State) (k : Timer) (d : Nat) : (s.again k d).ev = s.ev := rfl
@[simp] theorem State.again_ports (s : State) (k : Timer) (d : Nat) : (s.again k d).ports = s.ports := rfl
@[simp] theorem State.again_eng (s : State) (k : Timer) (d : Nat) : (s.again k d).eng = s.eng := rfl
@[simp] theorem State.again_inj (s : State) (k : Timer) (d : Nat) : (s.again k d).inj = s.inj := rfl
@[simp] theorem State.again_prf (s : State) (k : Timer) (d : Nat) : (s.again k d).prf = s.prf := rfl
@[simp] theorem State.again_fast (s : State) (k : Timer) (d : Nat) : (s.again k d).fast = s.fast := rfl
@[simp] theorem State.again_slow (s : State) (k : Timer) (d : Nat) : (s.again k d).slow = s.slow := rfl
@[simp] theorem State.again_mods (s : State) (k : Timer) (d : Nat) : (s.again k d).mods = s.mods := rfl
@[simp] theorem State.again_legs (s : State) (k : Timer) (d : Nat) : (s.again k d).legs = s.legs := rfl
@[simp] theorem State.again_isl (s : State) (k : Timer) (d : Nat) : (s.again k d).isl = s.isl := rfl
@[simp] theorem State.again_seqRun (s : State) (k : Timer) (d : Nat) : (s.again k d).seqRun = s.seqRun := rfl
@[simp] theorem State.again_lines (s : State) (k : Timer) (d : Nat) : (s.again k d).lines = s.lines := rfl
@[simp] theorem State.again_dout (s : State) (k : Timer) (d : Nat) : (s.again k d).dout = s.dout := rfl
@[simp] theorem State.again_saf (s : State) (k : Timer) (d : Nat) : (s.again k d).saf = s.saf := rfl
@[simp] theorem State.again_pair (s : State) (k : Timer) (d : Nat) : (s.again k d).pair = s.pair := rfl
@[simp] theorem State.again_lat (s : State) (k : Timer) (d : Nat) : (s.again k d).lat = s.lat := rfl
@[simp] theorem State.again_can (s : State) (k : Timer) (d : Nat) : (s.again k d).can = s.can := rfl
@[simp] theorem State.again_eth (s : State) (k : Timer) (d : Nat) : (s.again k d).eth = s.eth := rfl
@[simp] theorem State.again_time (s : State) (k : Timer) (d : Nat) : (s.again k d).time = s.time := rfl
@[simp] theorem State.again_tout (s : State) (k : Timer) (d : Nat) : (s.again k d).tout = s.tout := rfl
@[simp] theorem State.again_link (s : State) (k : Timer) (d : Nat) : (s.again k d).link = s.link := rfl
@[simp] theorem State.again_cap (s : State) (k : Timer) (d : Nat) : (s.again k d).cap = s.cap := rfl
@[simp] theorem State.again_freeCtr (s : State) (k : Timer) (d : Nat) : (s.again k d).freeCtr = s.freeCtr := rfl
@[simp] theorem State.again_pending (s : State) (k : Timer) (d : Nat) : (s.again k d).pending = s.pending := rfl
@[simp] theorem State.again_w (s : State) (k : Timer) (d : Nat) (j : Nat) : (s.again k d).w j = s.w j := rfl
@[simp] theorem State.again_n (s : State) (k : Timer) (d : Nat) (j : Nat) : (s.again k d).n j = s.n j := rfl
@[simp] theorem State.again_z (s : State) (k : Timer) (d : Nat) (j : Nat) : (s.again k d).z j = s.z j := rfl
@[simp] theorem State.again_bit (s : State) (k : Timer) (d : Nat) (j i : Nat) : (s.again k d).bit j i = s.bit j i := rfl

/-! ### modPort -/

@[simp] theorem State.modPort_now (s : State) (p : Nat) (f : PortSt → PortSt) : (s.modPort p f).now = s.now := rfl
@[simp] theorem State.modPort_fine (s : State) (p : Nat) (f : PortSt → PortSt) : (s.modPort p f).fine = s.fine := rfl
@[simp] theorem State.modPort_strFine (s : State) (p : Nat) (f : PortSt → PortSt) : (s.modPort p f).strFine = s.strFine := rfl
@[simp] theorem State.modPort_unit (s : State) (p : Nat) (f : PortSt → PortSt) : (s.modPort p f).unit = s.unit := rfl
@[simp] theorem State.modPort_regs (s : State) (p : Nat) (f : PortSt → PortSt) : (s.modPort p f).regs = s.regs := rfl
@[simp] theorem State.modPort_fuses (s : State) (p : Nat) (f : PortSt → PortSt) : (s.modPort p f).fuses = s.fuses := rfl
@[simp] theorem State.modPort_fram (s : State) (p : Nat) (f : PortSt → PortSt) : (s.modPort p f).fram = s.fram := rfl
@[simp] theorem State.modPort_flash (s : State) (p : Nat) (f : PortSt → PortSt) : (s.modPort p f).flash = s.flash := rfl
@[simp] theorem State.modPort_sfdpQuad (s : State) (p : Nat) (f : PortSt → PortSt) : (s.modPort p f).sfdpQuad = s.sfdpQuad := rfl
@[simp] theorem State.modPort_ref (s : State) (p : Nat) (f : PortSt → PortSt) : (s.modPort p f).ref = s.ref := rfl
@[simp] theorem State.modPort_img (s : State) (p : Nat) (f : PortSt → PortSt) : (s.modPort p f).img = s.img := rfl
@[simp] theorem State.modPort_ev (s : State) (p : Nat) (f : PortSt → PortSt) : (s.modPort p f).ev = s.ev := rfl
@[simp] theorem State.modPort_eng (s : State) (p : Nat) (f : PortSt → PortSt) : (s.modPort p f).eng = s.eng := rfl
@[simp] theorem State.modPort_inj (s : State) (p : Nat) (f : PortSt → PortSt) : (s.modPort p f).inj = s.inj := rfl
@[simp] theorem State.modPort_prf (s : State) (p : Nat) (f : PortSt → PortSt) : (s.modPort p f).prf = s.prf := rfl
@[simp] theorem State.modPort_fast (s : State) (p : Nat) (f : PortSt → PortSt) : (s.modPort p f).fast = s.fast := rfl
@[simp] theorem State.modPort_slow (s : State) (p : Nat) (f : PortSt → PortSt) : (s.modPort p f).slow = s.slow := rfl
@[simp] theorem State.modPort_mods (s : State) (p : Nat) (f : PortSt → PortSt) : (s.modPort p f).mods = s.mods := rfl
@[simp] theorem State.modPort_legs (s : State) (p : Nat) (f : PortSt → PortSt) : (s.modPort p f).legs = s.legs := rfl
@[simp] theorem State.modPort_isl (s : State) (p : Nat) (f : PortSt → PortSt) : (s.modPort p f).isl = s.isl := rfl
@[simp] theorem State.modPort_seqRun (s : State) (p : Nat) (f : PortSt → PortSt) : (s.modPort p f).seqRun = s.seqRun := rfl
@[simp] theorem State.modPort_lines (s : State) (p : Nat) (f : PortSt → PortSt) : (s.modPort p f).lines = s.lines := rfl
@[simp] theorem State.modPort_dout (s : State) (p : Nat) (f : PortSt → PortSt) : (s.modPort p f).dout = s.dout := rfl
@[simp] theorem State.modPort_saf (s : State) (p : Nat) (f : PortSt → PortSt) : (s.modPort p f).saf = s.saf := rfl
@[simp] theorem State.modPort_pair (s : State) (p : Nat) (f : PortSt → PortSt) : (s.modPort p f).pair = s.pair := rfl
@[simp] theorem State.modPort_lat (s : State) (p : Nat) (f : PortSt → PortSt) : (s.modPort p f).lat = s.lat := rfl
@[simp] theorem State.modPort_can (s : State) (p : Nat) (f : PortSt → PortSt) : (s.modPort p f).can = s.can := rfl
@[simp] theorem State.modPort_eth (s : State) (p : Nat) (f : PortSt → PortSt) : (s.modPort p f).eth = s.eth := rfl
@[simp] theorem State.modPort_time (s : State) (p : Nat) (f : PortSt → PortSt) : (s.modPort p f).time = s.time := rfl
@[simp] theorem State.modPort_tout (s : State) (p : Nat) (f : PortSt → PortSt) : (s.modPort p f).tout = s.tout := rfl
@[simp] theorem State.modPort_link (s : State) (p : Nat) (f : PortSt → PortSt) : (s.modPort p f).link = s.link := rfl
@[simp] theorem State.modPort_cap (s : State) (p : Nat) (f : PortSt → PortSt) : (s.modPort p f).cap = s.cap := rfl
@[simp] theorem State.modPort_timers (s : State) (p : Nat) (f : PortSt → PortSt) : (s.modPort p f).timers = s.timers := rfl
@[simp] theorem State.modPort_freeCtr (s : State) (p : Nat) (f : PortSt → PortSt) : (s.modPort p f).freeCtr = s.freeCtr := rfl
@[simp] theorem State.modPort_pending (s : State) (p : Nat) (f : PortSt → PortSt) : (s.modPort p f).pending = s.pending := rfl
@[simp] theorem State.modPort_w (s : State) (p : Nat) (f : PortSt → PortSt) (j : Nat) : (s.modPort p f).w j = s.w j := rfl
@[simp] theorem State.modPort_n (s : State) (p : Nat) (f : PortSt → PortSt) (j : Nat) : (s.modPort p f).n j = s.n j := rfl
@[simp] theorem State.modPort_z (s : State) (p : Nat) (f : PortSt → PortSt) (j : Nat) : (s.modPort p f).z j = s.z j := rfl
@[simp] theorem State.modPort_bit (s : State) (p : Nat) (f : PortSt → PortSt) (j k : Nat) : (s.modPort p f).bit j k = s.bit j k := rfl

/-! ### modLeg -/

@[simp] theorem State.modLeg_now (s : State) (l : Nat) (f : LegSt → LegSt) : (s.modLeg l f).now = s.now := rfl
@[simp] theorem State.modLeg_fine (s : State) (l : Nat) (f : LegSt → LegSt) : (s.modLeg l f).fine = s.fine := rfl
@[simp] theorem State.modLeg_strFine (s : State) (l : Nat) (f : LegSt → LegSt) : (s.modLeg l f).strFine = s.strFine := rfl
@[simp] theorem State.modLeg_unit (s : State) (l : Nat) (f : LegSt → LegSt) : (s.modLeg l f).unit = s.unit := rfl
@[simp] theorem State.modLeg_regs (s : State) (l : Nat) (f : LegSt → LegSt) : (s.modLeg l f).regs = s.regs := rfl
@[simp] theorem State.modLeg_fuses (s : State) (l : Nat) (f : LegSt → LegSt) : (s.modLeg l f).fuses = s.fuses := rfl
@[simp] theorem State.modLeg_fram (s : State) (l : Nat) (f : LegSt → LegSt) : (s.modLeg l f).fram = s.fram := rfl
@[simp] theorem State.modLeg_flash (s : State) (l : Nat) (f : LegSt → LegSt) : (s.modLeg l f).flash = s.flash := rfl
@[simp] theorem State.modLeg_sfdpQuad (s : State) (l : Nat) (f : LegSt → LegSt) : (s.modLeg l f).sfdpQuad = s.sfdpQuad := rfl
@[simp] theorem State.modLeg_ref (s : State) (l : Nat) (f : LegSt → LegSt) : (s.modLeg l f).ref = s.ref := rfl
@[simp] theorem State.modLeg_img (s : State) (l : Nat) (f : LegSt → LegSt) : (s.modLeg l f).img = s.img := rfl
@[simp] theorem State.modLeg_ev (s : State) (l : Nat) (f : LegSt → LegSt) : (s.modLeg l f).ev = s.ev := rfl
@[simp] theorem State.modLeg_ports (s : State) (l : Nat) (f : LegSt → LegSt) : (s.modLeg l f).ports = s.ports := rfl
@[simp] theorem State.modLeg_eng (s : State) (l : Nat) (f : LegSt → LegSt) : (s.modLeg l f).eng = s.eng := rfl
@[simp] theorem State.modLeg_inj (s : State) (l : Nat) (f : LegSt → LegSt) : (s.modLeg l f).inj = s.inj := rfl
@[simp] theorem State.modLeg_prf (s : State) (l : Nat) (f : LegSt → LegSt) : (s.modLeg l f).prf = s.prf := rfl
@[simp] theorem State.modLeg_fast (s : State) (l : Nat) (f : LegSt → LegSt) : (s.modLeg l f).fast = s.fast := rfl
@[simp] theorem State.modLeg_slow (s : State) (l : Nat) (f : LegSt → LegSt) : (s.modLeg l f).slow = s.slow := rfl
@[simp] theorem State.modLeg_mods (s : State) (l : Nat) (f : LegSt → LegSt) : (s.modLeg l f).mods = s.mods := rfl
@[simp] theorem State.modLeg_isl (s : State) (l : Nat) (f : LegSt → LegSt) : (s.modLeg l f).isl = s.isl := rfl
@[simp] theorem State.modLeg_seqRun (s : State) (l : Nat) (f : LegSt → LegSt) : (s.modLeg l f).seqRun = s.seqRun := rfl
@[simp] theorem State.modLeg_lines (s : State) (l : Nat) (f : LegSt → LegSt) : (s.modLeg l f).lines = s.lines := rfl
@[simp] theorem State.modLeg_dout (s : State) (l : Nat) (f : LegSt → LegSt) : (s.modLeg l f).dout = s.dout := rfl
@[simp] theorem State.modLeg_saf (s : State) (l : Nat) (f : LegSt → LegSt) : (s.modLeg l f).saf = s.saf := rfl
@[simp] theorem State.modLeg_pair (s : State) (l : Nat) (f : LegSt → LegSt) : (s.modLeg l f).pair = s.pair := rfl
@[simp] theorem State.modLeg_lat (s : State) (l : Nat) (f : LegSt → LegSt) : (s.modLeg l f).lat = s.lat := rfl
@[simp] theorem State.modLeg_can (s : State) (l : Nat) (f : LegSt → LegSt) : (s.modLeg l f).can = s.can := rfl
@[simp] theorem State.modLeg_eth (s : State) (l : Nat) (f : LegSt → LegSt) : (s.modLeg l f).eth = s.eth := rfl
@[simp] theorem State.modLeg_time (s : State) (l : Nat) (f : LegSt → LegSt) : (s.modLeg l f).time = s.time := rfl
@[simp] theorem State.modLeg_tout (s : State) (l : Nat) (f : LegSt → LegSt) : (s.modLeg l f).tout = s.tout := rfl
@[simp] theorem State.modLeg_link (s : State) (l : Nat) (f : LegSt → LegSt) : (s.modLeg l f).link = s.link := rfl
@[simp] theorem State.modLeg_cap (s : State) (l : Nat) (f : LegSt → LegSt) : (s.modLeg l f).cap = s.cap := rfl
@[simp] theorem State.modLeg_timers (s : State) (l : Nat) (f : LegSt → LegSt) : (s.modLeg l f).timers = s.timers := rfl
@[simp] theorem State.modLeg_freeCtr (s : State) (l : Nat) (f : LegSt → LegSt) : (s.modLeg l f).freeCtr = s.freeCtr := rfl
@[simp] theorem State.modLeg_pending (s : State) (l : Nat) (f : LegSt → LegSt) : (s.modLeg l f).pending = s.pending := rfl
@[simp] theorem State.modLeg_w (s : State) (l : Nat) (f : LegSt → LegSt) (j : Nat) : (s.modLeg l f).w j = s.w j := rfl
@[simp] theorem State.modLeg_n (s : State) (l : Nat) (f : LegSt → LegSt) (j : Nat) : (s.modLeg l f).n j = s.n j := rfl
@[simp] theorem State.modLeg_z (s : State) (l : Nat) (f : LegSt → LegSt) (j : Nat) : (s.modLeg l f).z j = s.z j := rfl
@[simp] theorem State.modLeg_bit (s : State) (l : Nat) (f : LegSt → LegSt) (j k : Nat) : (s.modLeg l f).bit j k = s.bit j k := rfl

/-! ### modIsl -/

@[simp] theorem State.modIsl_now (s : State) (i : Nat) (f : IslSt → IslSt) : (s.modIsl i f).now = s.now := rfl
@[simp] theorem State.modIsl_fine (s : State) (i : Nat) (f : IslSt → IslSt) : (s.modIsl i f).fine = s.fine := rfl
@[simp] theorem State.modIsl_strFine (s : State) (i : Nat) (f : IslSt → IslSt) : (s.modIsl i f).strFine = s.strFine := rfl
@[simp] theorem State.modIsl_unit (s : State) (i : Nat) (f : IslSt → IslSt) : (s.modIsl i f).unit = s.unit := rfl
@[simp] theorem State.modIsl_regs (s : State) (i : Nat) (f : IslSt → IslSt) : (s.modIsl i f).regs = s.regs := rfl
@[simp] theorem State.modIsl_fuses (s : State) (i : Nat) (f : IslSt → IslSt) : (s.modIsl i f).fuses = s.fuses := rfl
@[simp] theorem State.modIsl_fram (s : State) (i : Nat) (f : IslSt → IslSt) : (s.modIsl i f).fram = s.fram := rfl
@[simp] theorem State.modIsl_flash (s : State) (i : Nat) (f : IslSt → IslSt) : (s.modIsl i f).flash = s.flash := rfl
@[simp] theorem State.modIsl_sfdpQuad (s : State) (i : Nat) (f : IslSt → IslSt) : (s.modIsl i f).sfdpQuad = s.sfdpQuad := rfl
@[simp] theorem State.modIsl_ref (s : State) (i : Nat) (f : IslSt → IslSt) : (s.modIsl i f).ref = s.ref := rfl
@[simp] theorem State.modIsl_img (s : State) (i : Nat) (f : IslSt → IslSt) : (s.modIsl i f).img = s.img := rfl
@[simp] theorem State.modIsl_ev (s : State) (i : Nat) (f : IslSt → IslSt) : (s.modIsl i f).ev = s.ev := rfl
@[simp] theorem State.modIsl_ports (s : State) (i : Nat) (f : IslSt → IslSt) : (s.modIsl i f).ports = s.ports := rfl
@[simp] theorem State.modIsl_eng (s : State) (i : Nat) (f : IslSt → IslSt) : (s.modIsl i f).eng = s.eng := rfl
@[simp] theorem State.modIsl_inj (s : State) (i : Nat) (f : IslSt → IslSt) : (s.modIsl i f).inj = s.inj := rfl
@[simp] theorem State.modIsl_prf (s : State) (i : Nat) (f : IslSt → IslSt) : (s.modIsl i f).prf = s.prf := rfl
@[simp] theorem State.modIsl_fast (s : State) (i : Nat) (f : IslSt → IslSt) : (s.modIsl i f).fast = s.fast := rfl
@[simp] theorem State.modIsl_slow (s : State) (i : Nat) (f : IslSt → IslSt) : (s.modIsl i f).slow = s.slow := rfl
@[simp] theorem State.modIsl_mods (s : State) (i : Nat) (f : IslSt → IslSt) : (s.modIsl i f).mods = s.mods := rfl
@[simp] theorem State.modIsl_legs (s : State) (i : Nat) (f : IslSt → IslSt) : (s.modIsl i f).legs = s.legs := rfl
@[simp] theorem State.modIsl_seqRun (s : State) (i : Nat) (f : IslSt → IslSt) : (s.modIsl i f).seqRun = s.seqRun := rfl
@[simp] theorem State.modIsl_lines (s : State) (i : Nat) (f : IslSt → IslSt) : (s.modIsl i f).lines = s.lines := rfl
@[simp] theorem State.modIsl_dout (s : State) (i : Nat) (f : IslSt → IslSt) : (s.modIsl i f).dout = s.dout := rfl
@[simp] theorem State.modIsl_saf (s : State) (i : Nat) (f : IslSt → IslSt) : (s.modIsl i f).saf = s.saf := rfl
@[simp] theorem State.modIsl_pair (s : State) (i : Nat) (f : IslSt → IslSt) : (s.modIsl i f).pair = s.pair := rfl
@[simp] theorem State.modIsl_lat (s : State) (i : Nat) (f : IslSt → IslSt) : (s.modIsl i f).lat = s.lat := rfl
@[simp] theorem State.modIsl_can (s : State) (i : Nat) (f : IslSt → IslSt) : (s.modIsl i f).can = s.can := rfl
@[simp] theorem State.modIsl_eth (s : State) (i : Nat) (f : IslSt → IslSt) : (s.modIsl i f).eth = s.eth := rfl
@[simp] theorem State.modIsl_time (s : State) (i : Nat) (f : IslSt → IslSt) : (s.modIsl i f).time = s.time := rfl
@[simp] theorem State.modIsl_tout (s : State) (i : Nat) (f : IslSt → IslSt) : (s.modIsl i f).tout = s.tout := rfl
@[simp] theorem State.modIsl_link (s : State) (i : Nat) (f : IslSt → IslSt) : (s.modIsl i f).link = s.link := rfl
@[simp] theorem State.modIsl_cap (s : State) (i : Nat) (f : IslSt → IslSt) : (s.modIsl i f).cap = s.cap := rfl
@[simp] theorem State.modIsl_timers (s : State) (i : Nat) (f : IslSt → IslSt) : (s.modIsl i f).timers = s.timers := rfl
@[simp] theorem State.modIsl_freeCtr (s : State) (i : Nat) (f : IslSt → IslSt) : (s.modIsl i f).freeCtr = s.freeCtr := rfl
@[simp] theorem State.modIsl_pending (s : State) (i : Nat) (f : IslSt → IslSt) : (s.modIsl i f).pending = s.pending := rfl
@[simp] theorem State.modIsl_w (s : State) (i : Nat) (f : IslSt → IslSt) (j : Nat) : (s.modIsl i f).w j = s.w j := rfl
@[simp] theorem State.modIsl_n (s : State) (i : Nat) (f : IslSt → IslSt) (j : Nat) : (s.modIsl i f).n j = s.n j := rfl
@[simp] theorem State.modIsl_z (s : State) (i : Nat) (f : IslSt → IslSt) (j : Nat) : (s.modIsl i f).z j = s.z j := rfl
@[simp] theorem State.modIsl_bit (s : State) (i : Nat) (f : IslSt → IslSt) (j k : Nat) : (s.modIsl i f).bit j k = s.bit j k := rfl

/-! ### modFch -/

@[simp] theorem State.modFch_now (s : State) (ch : Nat) (f : FastSt → FastSt) : (s.modFch ch f).now = s.now := rfl
@[simp] theorem State.modFch_fine (s : State) (ch : Nat) (f : FastSt → FastSt) : (s.modFch ch f).fine = s.fine := rfl
@[simp] theorem State.modFch_strFine (s : State) (ch : Nat) (f : FastSt → FastSt) : (s.modFch ch f).strFine = s.strFine := rfl
@[simp] theorem State.modFch_unit (s : State) (ch : Nat) (f : FastSt → FastSt) : (s.modFch ch f).unit = s.unit := rfl
@[simp] theorem State.modFch_regs (s : State) (ch : Nat) (f : FastSt → FastSt) : (s.modFch ch f).regs = s.regs := rfl
@[simp] theorem State.modFch_fuses (s : State) (ch : Nat) (f : FastSt → FastSt) : (s.modFch ch f).fuses = s.fuses := rfl
@[simp] theorem State.modFch_fram (s : State) (ch : Nat) (f : FastSt → FastSt) : (s.modFch ch f).fram = s.fram := rfl
@[simp] theorem State.modFch_flash (s : State) (ch : Nat) (f : FastSt → FastSt) : (s.modFch ch f).flash = s.flash := rfl
@[simp] theorem State.modFch_sfdpQuad (s : State) (ch : Nat) (f : FastSt → FastSt) : (s.modFch ch f).sfdpQuad = s.sfdpQuad := rfl
@[simp] theorem State.modFch_ref (s : State) (ch : Nat) (f : FastSt → FastSt) : (s.modFch ch f).ref = s.ref := rfl
@[simp] theorem State.modFch_img (s : State) (ch : Nat) (f : FastSt → FastSt) : (s.modFch ch f).img = s.img := rfl
@[simp] theorem State.modFch_ev (s : State) (ch : Nat) (f : FastSt → FastSt) : (s.modFch ch f).ev = s.ev := rfl
@[simp] theorem State.modFch_ports (s : State) (ch : Nat) (f : FastSt → FastSt) : (s.modFch ch f).ports = s.ports := rfl
@[simp] theorem State.modFch_eng (s : State) (ch : Nat) (f : FastSt → FastSt) : (s.modFch ch f).eng = s.eng := rfl
@[simp] theorem State.modFch_inj (s : State) (ch : Nat) (f : FastSt → FastSt) : (s.modFch ch f).inj = s.inj := rfl
@[simp] theorem State.modFch_prf (s : State) (ch : Nat) (f : FastSt → FastSt) : (s.modFch ch f).prf = s.prf := rfl
@[simp] theorem State.modFch_slow (s : State) (ch : Nat) (f : FastSt → FastSt) : (s.modFch ch f).slow = s.slow := rfl
@[simp] theorem State.modFch_mods (s : State) (ch : Nat) (f : FastSt → FastSt) : (s.modFch ch f).mods = s.mods := rfl
@[simp] theorem State.modFch_legs (s : State) (ch : Nat) (f : FastSt → FastSt) : (s.modFch ch f).legs = s.legs := rfl
@[simp] theorem State.modFch_isl (s : State) (ch : Nat) (f : FastSt → FastSt) : (s.modFch ch f).isl = s.isl := rfl
@[simp] theorem State.modFch_seqRun (s : State) (ch : Nat) (f : FastSt → FastSt) : (s.modFch ch f).seqRun = s.seqRun := rfl
@[simp] theorem State.modFch_lines (s : State) (ch : Nat) (f : FastSt → FastSt) : (s.modFch ch f).lines = s.lines := rfl
@[simp] theorem State.modFch_dout (s : State) (ch : Nat) (f : FastSt → FastSt) : (s.modFch ch f).dout = s.dout := rfl
@[simp] theorem State.modFch_saf (s : State) (ch : Nat) (f : FastSt → FastSt) : (s.modFch ch f).saf = s.saf := rfl
@[simp] theorem State.modFch_pair (s : State) (ch : Nat) (f : FastSt → FastSt) : (s.modFch ch f).pair = s.pair := rfl
@[simp] theorem State.modFch_lat (s : State) (ch : Nat) (f : FastSt → FastSt) : (s.modFch ch f).lat = s.lat := rfl
@[simp] theorem State.modFch_can (s : State) (ch : Nat) (f : FastSt → FastSt) : (s.modFch ch f).can = s.can := rfl
@[simp] theorem State.modFch_eth (s : State) (ch : Nat) (f : FastSt → FastSt) : (s.modFch ch f).eth = s.eth := rfl
@[simp] theorem State.modFch_time (s : State) (ch : Nat) (f : FastSt → FastSt) : (s.modFch ch f).time = s.time := rfl
@[simp] theorem State.modFch_tout (s : State) (ch : Nat) (f : FastSt → FastSt) : (s.modFch ch f).tout = s.tout := rfl
@[simp] theorem State.modFch_link (s : State) (ch : Nat) (f : FastSt → FastSt) : (s.modFch ch f).link = s.link := rfl
@[simp] theorem State.modFch_cap (s : State) (ch : Nat) (f : FastSt → FastSt) : (s.modFch ch f).cap = s.cap := rfl
@[simp] theorem State.modFch_timers (s : State) (ch : Nat) (f : FastSt → FastSt) : (s.modFch ch f).timers = s.timers := rfl
@[simp] theorem State.modFch_freeCtr (s : State) (ch : Nat) (f : FastSt → FastSt) : (s.modFch ch f).freeCtr = s.freeCtr := rfl
@[simp] theorem State.modFch_pending (s : State) (ch : Nat) (f : FastSt → FastSt) : (s.modFch ch f).pending = s.pending := rfl
@[simp] theorem State.modFch_w (s : State) (ch : Nat) (f : FastSt → FastSt) (j : Nat) : (s.modFch ch f).w j = s.w j := rfl
@[simp] theorem State.modFch_n (s : State) (ch : Nat) (f : FastSt → FastSt) (j : Nat) : (s.modFch ch f).n j = s.n j := rfl
@[simp] theorem State.modFch_z (s : State) (ch : Nat) (f : FastSt → FastSt) (j : Nat) : (s.modFch ch f).z j = s.z j := rfl
@[simp] theorem State.modFch_bit (s : State) (ch : Nat) (f : FastSt → FastSt) (j k : Nat) : (s.modFch ch f).bit j k = s.bit j k := rfl

/-! ### modSch -/

@[simp] theorem State.modSch_now (s : State) (ch : Nat) (f : SlowSt → SlowSt) : (s.modSch ch f).now = s.now := rfl
@[simp] theorem State.modSch_fine (s : State) (ch : Nat) (f : SlowSt → SlowSt) : (s.modSch ch f).fine = s.fine := rfl
@[simp] theorem State.modSch_strFine (s : State) (ch : Nat) (f : SlowSt → SlowSt) : (s.modSch ch f).strFine = s.strFine := rfl
@[simp] theorem State.modSch_unit (s : State) (ch : Nat) (f : SlowSt → SlowSt) : (s.modSch ch f).unit = s.unit := rfl
@[simp] theorem State.modSch_regs (s : State) (ch : Nat) (f : SlowSt → SlowSt) : (s.modSch ch f).regs = s.regs := rfl
@[simp] theorem State.modSch_fuses (s : State) (ch : Nat) (f : SlowSt → SlowSt) : (s.modSch ch f).fuses = s.fuses := rfl
@[simp] theorem State.modSch_fram (s : State) (ch : Nat) (f : SlowSt → SlowSt) : (s.modSch ch f).fram = s.fram := rfl
@[simp] theorem State.modSch_flash (s : State) (ch : Nat) (f : SlowSt → SlowSt) : (s.modSch ch f).flash = s.flash := rfl
@[simp] theorem State.modSch_sfdpQuad (s : State) (ch : Nat) (f : SlowSt → SlowSt) : (s.modSch ch f).sfdpQuad = s.sfdpQuad := rfl
@[simp] theorem State.modSch_ref (s : State) (ch : Nat) (f : SlowSt → SlowSt) : (s.modSch ch f).ref = s.ref := rfl
@[simp] theorem State.modSch_img (s : State) (ch : Nat) (f : SlowSt → SlowSt) : (s.modSch ch f).img = s.img := rfl
@[simp] theorem State.modSch_ev (s : State) (ch : Nat) (f : SlowSt → SlowSt) : (s.modSch ch f).ev = s.ev := rfl
@[simp] theorem State.modSch_ports (s : State) (ch : Nat) (f : SlowSt → SlowSt) : (s.modSch ch f).ports = s.ports := rfl
@[simp] theorem State.modSch_eng (s : State) (ch : Nat) (f : SlowSt → SlowSt) : (s.modSch ch f).eng = s.eng := rfl
@[simp] theorem State.modSch_inj (s : State) (ch : Nat) (f : SlowSt → SlowSt) : (s.modSch ch f).inj = s.inj := rfl
@[simp] theorem State.modSch_prf (s : State) (ch : Nat) (f : SlowSt → SlowSt) : (s.modSch ch f).prf = s.prf := rfl
@[simp] theorem State.modSch_fast (s : State) (ch : Nat) (f : SlowSt → SlowSt) : (s.modSch ch f).fast = s.fast := rfl
@[simp] theorem State.modSch_mods (s : State) (ch : Nat) (f : SlowSt → SlowSt) : (s.modSch ch f).mods = s.mods := rfl
@[simp] theorem State.modSch_legs (s : State) (ch : Nat) (f : SlowSt → SlowSt) : (s.modSch ch f).legs = s.legs := rfl
@[simp] theorem State.modSch_isl (s : State) (ch : Nat) (f : SlowSt → SlowSt) : (s.modSch ch f).isl = s.isl := rfl
@[simp] theorem State.modSch_seqRun (s : State) (ch : Nat) (f : SlowSt → SlowSt) : (s.modSch ch f).seqRun = s.seqRun := rfl
@[simp] theorem State.modSch_lines (s : State) (ch : Nat) (f : SlowSt → SlowSt) : (s.modSch ch f).lines = s.lines := rfl
@[simp] theorem State.modSch_dout (s : State) (ch : Nat) (f : SlowSt → SlowSt) : (s.modSch ch f).dout = s.dout := rfl
@[simp] theorem State.modSch_saf (s : State) (ch : Nat) (f : SlowSt → SlowSt) : (s.modSch ch f).saf = s.saf := rfl
@[simp] theorem State.modSch_pair (s : State) (ch : Nat) (f : SlowSt → SlowSt) : (s.modSch ch f).pair = s.pair := rfl
@[simp] theorem State.modSch_lat (s : State) (ch : Nat) (f : SlowSt → SlowSt) : (s.modSch ch f).lat = s.lat := rfl
@[simp] theorem State.modSch_can (s : State) (ch : Nat) (f : SlowSt → SlowSt) : (s.modSch ch f).can = s.can := rfl
@[simp] theorem State.modSch_eth (s : State) (ch : Nat) (f : SlowSt → SlowSt) : (s.modSch ch f).eth = s.eth := rfl
@[simp] theorem State.modSch_time (s : State) (ch : Nat) (f : SlowSt → SlowSt) : (s.modSch ch f).time = s.time := rfl
@[simp] theorem State.modSch_tout (s : State) (ch : Nat) (f : SlowSt → SlowSt) : (s.modSch ch f).tout = s.tout := rfl
@[simp] theorem State.modSch_link (s : State) (ch : Nat) (f : SlowSt → SlowSt) : (s.modSch ch f).link = s.link := rfl
@[simp] theorem State.modSch_cap (s : State) (ch : Nat) (f : SlowSt → SlowSt) : (s.modSch ch f).cap = s.cap := rfl
@[simp] theorem State.modSch_timers (s : State) (ch : Nat) (f : SlowSt → SlowSt) : (s.modSch ch f).timers = s.timers := rfl
@[simp] theorem State.modSch_freeCtr (s : State) (ch : Nat) (f : SlowSt → SlowSt) : (s.modSch ch f).freeCtr = s.freeCtr := rfl
@[simp] theorem State.modSch_pending (s : State) (ch : Nat) (f : SlowSt → SlowSt) : (s.modSch ch f).pending = s.pending := rfl
@[simp] theorem State.modSch_w (s : State) (ch : Nat) (f : SlowSt → SlowSt) (j : Nat) : (s.modSch ch f).w j = s.w j := rfl
@[simp] theorem State.modSch_n (s : State) (ch : Nat) (f : SlowSt → SlowSt) (j : Nat) : (s.modSch ch f).n j = s.n j := rfl
@[simp] theorem State.modSch_z (s : State) (ch : Nat) (f : SlowSt → SlowSt) (j : Nat) : (s.modSch ch f).z j = s.z j := rfl
@[simp] theorem State.modSch_bit (s : State) (ch : Nat) (f : SlowSt → SlowSt) (j k : Nat) : (s.modSch ch f).bit j k = s.bit j k := rfl

/-! ### modSmod -/

@[simp] theorem State.modSmod_now (s : State) (m : Nat) (f : ModSt → ModSt) : (s.modSmod m f).now = s.now := rfl
@[simp] theorem State.modSmod_fine (s : State) (m : Nat) (f : ModSt → ModSt) : (s.modSmod m f).fine = s.fine := rfl
@[simp] theorem State.modSmod_strFine (s : State) (m : Nat) (f : ModSt → ModSt) : (s.modSmod m f).strFine = s.strFine := rfl
@[simp] theorem State.modSmod_unit (s : State) (m : Nat) (f : ModSt → ModSt) : (s.modSmod m f).unit = s.unit := rfl
@[simp] theorem State.modSmod_regs (s : State) (m : Nat) (f : ModSt → ModSt) : (s.modSmod m f).regs = s.regs := rfl
@[simp] theorem State.modSmod_fuses (s : State) (m : Nat) (f : ModSt → ModSt) : (s.modSmod m f).fuses = s.fuses := rfl
@[simp] theorem State.modSmod_fram (s : State) (m : Nat) (f : ModSt → ModSt) : (s.modSmod m f).fram = s.fram := rfl
@[simp] theorem State.modSmod_flash (s : State) (m : Nat) (f : ModSt → ModSt) : (s.modSmod m f).flash = s.flash := rfl
@[simp] theorem State.modSmod_sfdpQuad (s : State) (m : Nat) (f : ModSt → ModSt) : (s.modSmod m f).sfdpQuad = s.sfdpQuad := rfl
@[simp] theorem State.modSmod_ref (s : State) (m : Nat) (f : ModSt → ModSt) : (s.modSmod m f).ref = s.ref := rfl
@[simp] theorem State.modSmod_img (s : State) (m : Nat) (f : ModSt → ModSt) : (s.modSmod m f).img = s.img := rfl
@[simp] theorem State.modSmod_ev (s : State) (m : Nat) (f : ModSt → ModSt) : (s.modSmod m f).ev = s.ev := rfl
@[simp] theorem State.modSmod_ports (s : State) (m : Nat) (f : ModSt → ModSt) : (s.modSmod m f).ports = s.ports := rfl
@[simp] theorem State.modSmod_eng (s : State) (m : Nat) (f : ModSt → ModSt) : (s.modSmod m f).eng = s.eng := rfl
@[simp] theorem State.modSmod_inj (s : State) (m : Nat) (f : ModSt → ModSt) : (s.modSmod m f).inj = s.inj := rfl
@[simp] theorem State.modSmod_prf (s : State) (m : Nat) (f : ModSt → ModSt) : (s.modSmod m f).prf = s.prf := rfl
@[simp] theorem State.modSmod_fast (s : State) (m : Nat) (f : ModSt → ModSt) : (s.modSmod m f).fast = s.fast := rfl
@[simp] theorem State.modSmod_slow (s : State) (m : Nat) (f : ModSt → ModSt) : (s.modSmod m f).slow = s.slow := rfl
@[simp] theorem State.modSmod_legs (s : State) (m : Nat) (f : ModSt → ModSt) : (s.modSmod m f).legs = s.legs := rfl
@[simp] theorem State.modSmod_isl (s : State) (m : Nat) (f : ModSt → ModSt) : (s.modSmod m f).isl = s.isl := rfl
@[simp] theorem State.modSmod_seqRun (s : State) (m : Nat) (f : ModSt → ModSt) : (s.modSmod m f).seqRun = s.seqRun := rfl
@[simp] theorem State.modSmod_lines (s : State) (m : Nat) (f : ModSt → ModSt) : (s.modSmod m f).lines = s.lines := rfl
@[simp] theorem State.modSmod_dout (s : State) (m : Nat) (f : ModSt → ModSt) : (s.modSmod m f).dout = s.dout := rfl
@[simp] theorem State.modSmod_saf (s : State) (m : Nat) (f : ModSt → ModSt) : (s.modSmod m f).saf = s.saf := rfl
@[simp] theorem State.modSmod_pair (s : State) (m : Nat) (f : ModSt → ModSt) : (s.modSmod m f).pair = s.pair := rfl
@[simp] theorem State.modSmod_lat (s : State) (m : Nat) (f : ModSt → ModSt) : (s.modSmod m f).lat = s.lat := rfl
@[simp] theorem State.modSmod_can (s : State) (m : Nat) (f : ModSt → ModSt) : (s.modSmod m f).can = s.can := rfl
@[simp] theorem State.modSmod_eth (s : State) (m : Nat) (f : ModSt → ModSt) : (s.modSmod m f).eth = s.eth := rfl
@[simp] theorem State.modSmod_time (s : State) (m : Nat) (f : ModSt → ModSt) : (s.modSmod m f).time = s.time := rfl
@[simp] theorem State.modSmod_tout (s : State) (m : Nat) (f : ModSt → ModSt) : (s.modSmod m f).tout = s.tout := rfl
@[simp] theorem State.modSmod_link (s : State) (m : Nat) (f : ModSt → ModSt) : (s.modSmod m f).link = s.link := rfl
@[simp] theorem State.modSmod_cap (s : State) (m : Nat) (f : ModSt → ModSt) : (s.modSmod m f).cap = s.cap := rfl
@[simp] theorem State.modSmod_timers (s : State) (m : Nat) (f : ModSt → ModSt) : (s.modSmod m f).timers = s.timers := rfl
@[simp] theorem State.modSmod_freeCtr (s : State) (m : Nat) (f : ModSt → ModSt) : (s.modSmod m f).freeCtr = s.freeCtr := rfl
@[simp] theorem State.modSmod_pending (s : State) (m : Nat) (f : ModSt → ModSt) : (s.modSmod m f).pending = s.pending := rfl
@[simp] theorem State.modSmod_w (s : State) (m : Nat) (f : ModSt → ModSt) (j : Nat) : (s.modSmod m f).w j = s.w j := rfl
@[simp] theorem State.modSmod_n (s : State) (m : Nat) (f : ModSt → ModSt) (j : Nat) : (s.modSmod m f).n j = s.n j := rfl
@[simp] theorem State.modSmod_z (s : State) (m : Nat) (f : ModSt → ModSt) (j : Nat) : (s.modSmod m f).z j = s.z j := rfl
@[simp] theorem State.modSmod_bit (s : State) (m : Nat) (f : ModSt → ModSt) (j k : Nat) : (s.modSmod m f).bit j k = s.bit j k := rfl

/-! ### modCan -/

@[simp] theorem State.modCan_now (s : State) (ch : Nat) (f : CanSt → CanSt) : (s.modCan ch f).now = s.now := rfl
@[simp] theorem State.modCan_fine (s : State) (ch : Nat) (f : CanSt → CanSt) : (s.modCan ch f).fine = s.fine := rfl
@[simp] theorem State.modCan_strFine (s : State) (ch : Nat) (f : CanSt → CanSt) : (s.modCan ch f).strFine = s.strFine := rfl
@[simp] theorem State.modCan_unit (s : State) (ch : Nat) (f : CanSt → CanSt) : (s.modCan ch f).unit = s.unit := rfl
@[simp] theorem State.modCan_regs (s : State) (ch : Nat) (f : CanSt → CanSt) : (s.modCan ch f).regs = s.regs := rfl
@[simp] theorem State.modCan_fuses (s : State) (ch : Nat) (f : CanSt → CanSt) : (s.modCan ch f).fuses = s.fuses := rfl
@[simp] theorem State.modCan_fram (s : State) (ch : Nat) (f : CanSt → CanSt) : (s.modCan ch f).fram = s.fram := rfl
@[simp] theorem State.modCan_flash (s : State) (ch : Nat) (f : CanSt → CanSt) : (s.modCan ch f).flash = s.flash := rfl
@[simp] theorem State.modCan_sfdpQuad (s : State) (ch : Nat) (f : CanSt → CanSt) : (s.modCan ch f).sfdpQuad = s.sfdpQuad := rfl
@[simp] theorem State.modCan_ref (s : State) (ch : Nat) (f : CanSt → CanSt) : (s.modCan ch f).ref = s.ref := rfl
@[simp] theorem State.modCan_img (s : State) (ch : Nat) (f : CanSt → CanSt) : (s.modCan ch f).img = s.img := rfl
@[simp] theorem State.modCan_ev (s : State) (ch : Nat) (f : CanSt → CanSt) : (s.modCan ch f).ev = s.ev := rfl
@[simp] theorem State.modCan_ports (s : State) (ch : Nat) (f : CanSt → CanSt) : (s.modCan ch f).ports = s.ports := rfl
@[simp] theorem State.modCan_eng (s : State) (ch : Nat) (f : CanSt → CanSt) : (s.modCan ch f).eng = s.eng := rfl
@[simp] theorem State.modCan_inj (s : State) (ch : Nat) (f : CanSt → CanSt) : (s.modCan ch f).inj = s.inj := rfl
@[simp] theorem State.modCan_prf (s : State) (ch : Nat) (f : CanSt → CanSt) : (s.modCan ch f).prf = s.prf := rfl
@[simp] theorem State.modCan_fast (s : State) (ch : Nat) (f : CanSt → CanSt) : (s.modCan ch f).fast = s.fast := rfl
@[simp] theorem State.modCan_slow (s : State) (ch : Nat) (f : CanSt → CanSt) : (s.modCan ch f).slow = s.slow := rfl
@[simp] theorem State.modCan_mods (s : State) (ch : Nat) (f : CanSt → CanSt) : (s.modCan ch f).mods = s.mods := rfl
@[simp] theorem State.modCan_legs (s : State) (ch : Nat) (f : CanSt → CanSt) : (s.modCan ch f).legs = s.legs := rfl
@[simp] theorem State.modCan_isl (s : State) (ch : Nat) (f : CanSt → CanSt) : (s.modCan ch f).isl = s.isl := rfl
@[simp] theorem State.modCan_seqRun (s : State) (ch : Nat) (f : CanSt → CanSt) : (s.modCan ch f).seqRun = s.seqRun := rfl
@[simp] theorem State.modCan_lines (s : State) (ch : Nat) (f : CanSt → CanSt) : (s.modCan ch f).lines = s.lines := rfl
@[simp] theorem State.modCan_dout (s : State) (ch : Nat) (f : CanSt → CanSt) : (s.modCan ch f).dout = s.dout := rfl
@[simp] theorem State.modCan_saf (s : State) (ch : Nat) (f : CanSt → CanSt) : (s.modCan ch f).saf = s.saf := rfl
@[simp] theorem State.modCan_pair (s : State) (ch : Nat) (f : CanSt → CanSt) : (s.modCan ch f).pair = s.pair := rfl
@[simp] theorem State.modCan_lat (s : State) (ch : Nat) (f : CanSt → CanSt) : (s.modCan ch f).lat = s.lat := rfl
@[simp] theorem State.modCan_eth (s : State) (ch : Nat) (f : CanSt → CanSt) : (s.modCan ch f).eth = s.eth := rfl
@[simp] theorem State.modCan_time (s : State) (ch : Nat) (f : CanSt → CanSt) : (s.modCan ch f).time = s.time := rfl
@[simp] theorem State.modCan_tout (s : State) (ch : Nat) (f : CanSt → CanSt) : (s.modCan ch f).tout = s.tout := rfl
@[simp] theorem State.modCan_link (s : State) (ch : Nat) (f : CanSt → CanSt) : (s.modCan ch f).link = s.link := rfl
@[simp] theorem State.modCan_cap (s : State) (ch : Nat) (f : CanSt → CanSt) : (s.modCan ch f).cap = s.cap := rfl
@[simp] theorem State.modCan_timers (s : State) (ch : Nat) (f : CanSt → CanSt) : (s.modCan ch f).timers = s.timers := rfl
@[simp] theorem State.modCan_freeCtr (s : State) (ch : Nat) (f : CanSt → CanSt) : (s.modCan ch f).freeCtr = s.freeCtr := rfl
@[simp] theorem State.modCan_pending (s : State) (ch : Nat) (f : CanSt → CanSt) : (s.modCan ch f).pending = s.pending := rfl
@[simp] theorem State.modCan_w (s : State) (ch : Nat) (f : CanSt → CanSt) (j : Nat) : (s.modCan ch f).w j = s.w j := rfl
@[simp] theorem State.modCan_n (s : State) (ch : Nat) (f : CanSt → CanSt) (j : Nat) : (s.modCan ch f).n j = s.n j := rfl
@[simp] theorem State.modCan_z (s : State) (ch : Nat) (f : CanSt → CanSt) (j : Nat) : (s.modCan ch f).z j = s.z j := rfl
@[simp] theorem State.modCan_bit (s : State) (ch : Nat) (f : CanSt → CanSt) (j k : Nat) : (s.modCan ch f).bit j k = s.bit j k := rfl

/-! ### modEth -/

@[simp] theorem State.modEth_now (s : State) (e : Nat) (f : EthSt → EthSt) : (s.modEth e f).now = s.now := rfl
@[simp] theorem State.modEth_fine (s : State) (e : Nat) (f : EthSt → EthSt) : (s.modEth e f).fine = s.fine := rfl
@[simp] theorem State.modEth_strFine (s : State) (e : Nat) (f : EthSt → EthSt) : (s.modEth e f).strFine = s.strFine := rfl
@[simp] theorem State.modEth_unit (s : State) (e : Nat) (f : EthSt → EthSt) : (s.modEth e f).unit = s.unit := rfl
@[simp] theorem State.modEth_regs (s : State) (e : Nat) (f : EthSt → EthSt) : (s.modEth e f).regs = s.regs := rfl
@[simp] theorem State.modEth_fuses (s : State) (e : Nat) (f : EthSt → EthSt) : (s.modEth e f).fuses = s.fuses := rfl
@[simp] theorem State.modEth_fram (s : State) (e : Nat) (f : EthSt → EthSt) : (s.modEth e f).fram = s.fram := rfl
@[simp] theorem State.modEth_flash (s : State) (e : Nat) (f : EthSt → EthSt) : (s.modEth e f).flash = s.flash := rfl
@[simp] theorem State.modEth_sfdpQuad (s : State) (e : Nat) (f : EthSt → EthSt) : (s.modEth e f).sfdpQuad = s.sfdpQuad := rfl
@[simp] theorem State.modEth_ref (s : State) (e : Nat) (f : EthSt → EthSt) : (s.modEth e f).ref = s.ref := rfl
@[simp] theorem State.modEth_img (s : State) (e : Nat) (f : EthSt → EthSt) : (s.modEth e f).img = s.img := rfl
@[simp] theorem State.modEth_ev (s : State) (e : Nat) (f : EthSt → EthSt) : (s.modEth e f).ev = s.ev := rfl
@[simp] theorem State.modEth_ports (s : State) (e : Nat) (f : EthSt → EthSt) : (s.modEth e f).ports = s.ports := rfl
@[simp] theorem State.modEth_eng (s : State) (e : Nat) (f : EthSt → EthSt) : (s.modEth e f).eng = s.eng := rfl
@[simp] theorem State.modEth_inj (s : State) (e : Nat) (f : EthSt → EthSt) : (s.modEth e f).inj = s.inj := rfl
@[simp] theorem State.modEth_prf (s : State) (e : Nat) (f : EthSt → EthSt) : (s.modEth e f).prf = s.prf := rfl
@[simp] theorem State.modEth_fast (s : State) (e : Nat) (f : EthSt → EthSt) : (s.modEth e f).fast = s.fast := rfl
@[simp] theorem State.modEth_slow (s : State) (e : Nat) (f : EthSt → EthSt) : (s.modEth e f).slow = s.slow := rfl
@[simp] theorem State.modEth_mods (s : State) (e : Nat) (f : EthSt → EthSt) : (s.modEth e f).mods = s.mods := rfl
@[simp] theorem State.modEth_legs (s : State) (e : Nat) (f : EthSt → EthSt) : (s.modEth e f).legs = s.legs := rfl
@[simp] theorem State.modEth_isl (s : State) (e : Nat) (f : EthSt → EthSt) : (s.modEth e f).isl = s.isl := rfl
@[simp] theorem State.modEth_seqRun (s : State) (e : Nat) (f : EthSt → EthSt) : (s.modEth e f).seqRun = s.seqRun := rfl
@[simp] theorem State.modEth_lines (s : State) (e : Nat) (f : EthSt → EthSt) : (s.modEth e f).lines = s.lines := rfl
@[simp] theorem State.modEth_dout (s : State) (e : Nat) (f : EthSt → EthSt) : (s.modEth e f).dout = s.dout := rfl
@[simp] theorem State.modEth_saf (s : State) (e : Nat) (f : EthSt → EthSt) : (s.modEth e f).saf = s.saf := rfl
@[simp] theorem State.modEth_pair (s : State) (e : Nat) (f : EthSt → EthSt) : (s.modEth e f).pair = s.pair := rfl
@[simp] theorem State.modEth_lat (s : State) (e : Nat) (f : EthSt → EthSt) : (s.modEth e f).lat = s.lat := rfl
@[simp] theorem State.modEth_can (s : State) (e : Nat) (f : EthSt → EthSt) : (s.modEth e f).can = s.can := rfl
@[simp] theorem State.modEth_time (s : State) (e : Nat) (f : EthSt → EthSt) : (s.modEth e f).time = s.time := rfl
@[simp] theorem State.modEth_tout (s : State) (e : Nat) (f : EthSt → EthSt) : (s.modEth e f).tout = s.tout := rfl
@[simp] theorem State.modEth_link (s : State) (e : Nat) (f : EthSt → EthSt) : (s.modEth e f).link = s.link := rfl
@[simp] theorem State.modEth_cap (s : State) (e : Nat) (f : EthSt → EthSt) : (s.modEth e f).cap = s.cap := rfl
@[simp] theorem State.modEth_timers (s : State) (e : Nat) (f : EthSt → EthSt) : (s.modEth e f).timers = s.timers := rfl
@[simp] theorem State.modEth_freeCtr (s : State) (e : Nat) (f : EthSt → EthSt) : (s.modEth e f).freeCtr = s.freeCtr := rfl
@[simp] theorem State.modEth_pending (s : State) (e : Nat) (f : EthSt → EthSt) : (s.modEth e f).pending = s.pending := rfl
@[simp] theorem State.modEth_w (s : State) (e : Nat) (f : EthSt → EthSt) (j : Nat) : (s.modEth e f).w j = s.w j := rfl
@[simp] theorem State.modEth_n (s : State) (e : Nat) (f : EthSt → EthSt) (j : Nat) : (s.modEth e f).n j = s.n j := rfl
@[simp] theorem State.modEth_z (s : State) (e : Nat) (f : EthSt → EthSt) (j : Nat) : (s.modEth e f).z j = s.z j := rfl
@[simp] theorem State.modEth_bit (s : State) (e : Nat) (f : EthSt → EthSt) (j k : Nat) : (s.modEth e f).bit j k = s.bit j k := rfl

/-! ### modTout -/

@[simp] theorem State.modTout_now (s : State) (k : Nat) (f : ToutSt → ToutSt) : (s.modTout k f).now = s.now := rfl
@[simp] theorem State.modTout_fine (s : State) (k : Nat) (f : ToutSt → ToutSt) : (s.modTout k f).fine = s.fine := rfl
@[simp] theorem State.modTout_strFine (s : State) (k : Nat) (f : ToutSt → ToutSt) : (s.modTout k f).strFine = s.strFine := rfl
@[simp] theorem State.modTout_unit (s : State) (k : Nat) (f : ToutSt → ToutSt) : (s.modTout k f).unit = s.unit := rfl
@[simp] theorem State.modTout_regs (s : State) (k : Nat) (f : ToutSt → ToutSt) : (s.modTout k f).regs = s.regs := rfl
@[simp] theorem State.modTout_fuses (s : State) (k : Nat) (f : ToutSt → ToutSt) : (s.modTout k f).fuses = s.fuses := rfl
@[simp] theorem State.modTout_fram (s : State) (k : Nat) (f : ToutSt → ToutSt) : (s.modTout k f).fram = s.fram := rfl
@[simp] theorem State.modTout_flash (s : State) (k : Nat) (f : ToutSt → ToutSt) : (s.modTout k f).flash = s.flash := rfl
@[simp] theorem State.modTout_sfdpQuad (s : State) (k : Nat) (f : ToutSt → ToutSt) : (s.modTout k f).sfdpQuad = s.sfdpQuad := rfl
@[simp] theorem State.modTout_ref (s : State) (k : Nat) (f : ToutSt → ToutSt) : (s.modTout k f).ref = s.ref := rfl
@[simp] theorem State.modTout_img (s : State) (k : Nat) (f : ToutSt → ToutSt) : (s.modTout k f).img = s.img := rfl
@[simp] theorem State.modTout_ev (s : State) (k : Nat) (f : ToutSt → ToutSt) : (s.modTout k f).ev = s.ev := rfl
@[simp] theorem State.modTout_ports (s : State) (k : Nat) (f : ToutSt → ToutSt) : (s.modTout k f).ports = s.ports := rfl
@[simp] theorem State.modTout_eng (s : State) (k : Nat) (f : ToutSt → ToutSt) : (s.modTout k f).eng = s.eng := rfl
@[simp] theorem State.modTout_inj (s : State) (k : Nat) (f : ToutSt → ToutSt) : (s.modTout k f).inj = s.inj := rfl
@[simp] theorem State.modTout_prf (s : State) (k : Nat) (f : ToutSt → ToutSt) : (s.modTout k f).prf = s.prf := rfl
@[simp] theorem State.modTout_fast (s : State) (k : Nat) (f : ToutSt → ToutSt) : (s.modTout k f).fast = s.fast := rfl
@[simp] theorem State.modTout_slow (s : State) (k : Nat) (f : ToutSt → ToutSt) : (s.modTout k f).slow = s.slow := rfl
@[simp] theorem State.modTout_mods (s : State) (k : Nat) (f : ToutSt → ToutSt) : (s.modTout k f).mods = s.mods := rfl
@[simp] theorem State.modTout_legs (s : State) (k : Nat) (f : ToutSt → ToutSt) : (s.modTout k f).legs = s.legs := rfl
@[simp] theorem State.modTout_isl (s : State) (k : Nat) (f : ToutSt → ToutSt) : (s.modTout k f).isl = s.isl := rfl
@[simp] theorem State.modTout_seqRun (s : State) (k : Nat) (f : ToutSt → ToutSt) : (s.modTout k f).seqRun = s.seqRun := rfl
@[simp] theorem State.modTout_lines (s : State) (k : Nat) (f : ToutSt → ToutSt) : (s.modTout k f).lines = s.lines := rfl
@[simp] theorem State.modTout_dout (s : State) (k : Nat) (f : ToutSt → ToutSt) : (s.modTout k f).dout = s.dout := rfl
@[simp] theorem State.modTout_saf (s : State) (k : Nat) (f : ToutSt → ToutSt) : (s.modTout k f).saf = s.saf := rfl
@[simp] theorem State.modTout_pair (s : State) (k : Nat) (f : ToutSt → ToutSt) : (s.modTout k f).pair = s.pair := rfl
@[simp] theorem State.modTout_lat (s : State) (k : Nat) (f : ToutSt → ToutSt) : (s.modTout k f).lat = s.lat := rfl
@[simp] theorem State.modTout_can (s : State) (k : Nat) (f : ToutSt → ToutSt) : (s.modTout k f).can = s.can := rfl
@[simp] theorem State.modTout_eth (s : State) (k : Nat) (f : ToutSt → ToutSt) : (s.modTout k f).eth = s.eth := rfl
@[simp] theorem State.modTout_time (s : State) (k : Nat) (f : ToutSt → ToutSt) : (s.modTout k f).time = s.time := rfl
@[simp] theorem State.modTout_link (s : State) (k : Nat) (f : ToutSt → ToutSt) : (s.modTout k f).link = s.link := rfl
@[simp] theorem State.modTout_cap (s : State) (k : Nat) (f : ToutSt → ToutSt) : (s.modTout k f).cap = s.cap := rfl
@[simp] theorem State.modTout_timers (s : State) (k : Nat) (f : ToutSt → ToutSt) : (s.modTout k f).timers = s.timers := rfl
@[simp] theorem State.modTout_freeCtr (s : State) (k : Nat) (f : ToutSt → ToutSt) : (s.modTout k f).freeCtr = s.freeCtr := rfl
@[simp] theorem State.modTout_pending (s : State) (k : Nat) (f : ToutSt → ToutSt) : (s.modTout k f).pending = s.pending := rfl
@[simp] theorem State.modTout_w (s : State) (k : Nat) (f : ToutSt → ToutSt) (j : Nat) : (s.modTout k f).w j = s.w j := rfl
@[simp] theorem State.modTout_n (s : State) (k : Nat) (f : ToutSt → ToutSt) (j : Nat) : (s.modTout k f).n j = s.n j := rfl
@[simp] theorem State.modTout_z (s : State) (k : Nat) (f : ToutSt → ToutSt) (j : Nat) : (s.modTout k f).z j = s.z j := rfl
@[simp] theorem State.modTout_bit (s : State) (k : Nat) (f : ToutSt → ToutSt) (j i : Nat) : (s.modTout k f).bit j i = s.bit j i := rfl

/-! ### modRef -/

@[simp] theorem State.modRef_now (s : State) (f : RefSt → RefSt) : (s.modRef f).now = s.now := rfl
@[simp] theorem State.modRef_fine (s : State) (f : RefSt → RefSt) : (s.modRef f).fine = s.fine := rfl
@[simp] theorem State.modRef_strFine (s : State) (f : RefSt → RefSt) : (s.modRef f).strFine = s.strFine := rfl
@[simp] theorem State.modRef_unit (s : State) (f : RefSt → RefSt) : (s.modRef f).unit = s.unit := rfl
@[simp] theorem State.modRef_regs (s : State) (f : RefSt → RefSt) : (s.modRef f).regs = s.regs := rfl
@[simp] theorem State.modRef_fuses (s : State) (f : RefSt → RefSt) : (s.modRef f).fuses = s.fuses := rfl
@[simp] theorem State.modRef_fram (s : State) (f : RefSt → RefSt) : (s.modRef f).fram = s.fram := rfl
@[simp] theorem State.modRef_flash (s : State) (f : RefSt → RefSt) : (s.modRef f).flash = s.flash := rfl
@[simp] theorem State.modRef_sfdpQuad (s : State) (f : RefSt → RefSt) : (s.modRef f).sfdpQuad = s.sfdpQuad := rfl
@[simp] theorem State.modRef_img (s : State) (f : RefSt → RefSt) : (s.modRef f).img = s.img := rfl
@[simp] theorem State.modRef_ev (s : State) (f : RefSt → RefSt) : (s.modRef f).ev = s.ev := rfl
@[simp] theorem State.modRef_ports (s : State) (f : RefSt → RefSt) : (s.modRef f).ports = s.ports := rfl
@[simp] theorem State.modRef_eng (s : State) (f : RefSt → RefSt) : (s.modRef f).eng = s.eng := rfl
@[simp] theorem State.modRef_inj (s : State) (f : RefSt → RefSt) : (s.modRef f).inj = s.inj := rfl
@[simp] theorem State.modRef_prf (s : State) (f : RefSt → RefSt) : (s.modRef f).prf = s.prf := rfl
@[simp] theorem State.modRef_fast (s : State) (f : RefSt → RefSt) : (s.modRef f).fast = s.fast := rfl
@[simp] theorem State.modRef_slow (s : State) (f : RefSt → RefSt) : (s.modRef f).slow = s.slow := rfl
@[simp] theorem State.modRef_mods (s : State) (f : RefSt → RefSt) : (s.modRef f).mods = s.mods := rfl
@[simp] theorem State.modRef_legs (s : State) (f : RefSt → RefSt) : (s.modRef f).legs = s.legs := rfl
@[simp] theorem State.modRef_isl (s : State) (f : RefSt → RefSt) : (s.modRef f).isl = s.isl := rfl
@[simp] theorem State.modRef_seqRun (s : State) (f : RefSt → RefSt) : (s.modRef f).seqRun = s.seqRun := rfl
@[simp] theorem State.modRef_lines (s : State) (f : RefSt → RefSt) : (s.modRef f).lines = s.lines := rfl
@[simp] theorem State.modRef_dout (s : State) (f : RefSt → RefSt) : (s.modRef f).dout = s.dout := rfl
@[simp] theorem State.modRef_saf (s : State) (f : RefSt → RefSt) : (s.modRef f).saf = s.saf := rfl
@[simp] theorem State.modRef_pair (s : State) (f : RefSt → RefSt) : (s.modRef f).pair = s.pair := rfl
@[simp] theorem State.modRef_lat (s : State) (f : RefSt → RefSt) : (s.modRef f).lat = s.lat := rfl
@[simp] theorem State.modRef_can (s : State) (f : RefSt → RefSt) : (s.modRef f).can = s.can := rfl
@[simp] theorem State.modRef_eth (s : State) (f : RefSt → RefSt) : (s.modRef f).eth = s.eth := rfl
@[simp] theorem State.modRef_time (s : State) (f : RefSt → RefSt) : (s.modRef f).time = s.time := rfl
@[simp] theorem State.modRef_tout (s : State) (f : RefSt → RefSt) : (s.modRef f).tout = s.tout := rfl
@[simp] theorem State.modRef_link (s : State) (f : RefSt → RefSt) : (s.modRef f).link = s.link := rfl
@[simp] theorem State.modRef_cap (s : State) (f : RefSt → RefSt) : (s.modRef f).cap = s.cap := rfl
@[simp] theorem State.modRef_timers (s : State) (f : RefSt → RefSt) : (s.modRef f).timers = s.timers := rfl
@[simp] theorem State.modRef_freeCtr (s : State) (f : RefSt → RefSt) : (s.modRef f).freeCtr = s.freeCtr := rfl
@[simp] theorem State.modRef_pending (s : State) (f : RefSt → RefSt) : (s.modRef f).pending = s.pending := rfl
@[simp] theorem State.modRef_w (s : State) (f : RefSt → RefSt) (j : Nat) : (s.modRef f).w j = s.w j := rfl
@[simp] theorem State.modRef_n (s : State) (f : RefSt → RefSt) (j : Nat) : (s.modRef f).n j = s.n j := rfl
@[simp] theorem State.modRef_z (s : State) (f : RefSt → RefSt) (j : Nat) : (s.modRef f).z j = s.z j := rfl
@[simp] theorem State.modRef_bit (s : State) (f : RefSt → RefSt) (j k : Nat) : (s.modRef f).bit j k = s.bit j k := rfl

/-! ### modCap -/

@[simp] theorem State.modCap_now (s : State) (f : CapSt → CapSt) : (s.modCap f).now = s.now := rfl
@[simp] theorem State.modCap_fine (s : State) (f : CapSt → CapSt) : (s.modCap f).fine = s.fine := rfl
@[simp] theorem State.modCap_strFine (s : State) (f : CapSt → CapSt) : (s.modCap f).strFine = s.strFine := rfl
@[simp] theorem State.modCap_unit (s : State) (f : CapSt → CapSt) : (s.modCap f).unit = s.unit := rfl
@[simp] theorem State.modCap_regs (s : State) (f : CapSt → CapSt) : (s.modCap f).regs = s.regs := rfl
@[simp] theorem State.modCap_fuses (s : State) (f : CapSt → CapSt) : (s.modCap f).fuses = s.fuses := rfl
@[simp] theorem State.modCap_fram (s : State) (f : CapSt → CapSt) : (s.modCap f).fram = s.fram := rfl
@[simp] theorem State.modCap_flash (s : State) (f : CapSt → CapSt) : (s.modCap f).flash = s.flash := rfl
@[simp] theorem State.modCap_sfdpQuad (s : State) (f : CapSt → CapSt) : (s.modCap f).sfdpQuad = s.sfdpQuad := rfl
@[simp] theorem State.modCap_ref (s : State) (f : CapSt → CapSt) : (s.modCap f).ref = s.ref := rfl
@[simp] theorem State.modCap_img (s : State) (f : CapSt → CapSt) : (s.modCap f).img = s.img := rfl
@[simp] theorem State.modCap_ev (s : State) (f : CapSt → CapSt) : (s.modCap f).ev = s.ev := rfl
@[simp] theorem State.modCap_ports (s : State) (f : CapSt → CapSt) : (s.modCap f).ports = s.ports := rfl
@[simp] theorem State.modCap_eng (s : State) (f : CapSt → CapSt) : (s.modCap f).eng = s.eng := rfl
@[simp] theorem State.modCap_inj (s : State) (f : CapSt → CapSt) : (s.modCap f).inj = s.inj := rfl
@[simp] theorem State.modCap_prf (s : State) (f : CapSt → CapSt) : (s.modCap f).prf = s.prf := rfl
@[simp] theorem State.modCap_fast (s : State) (f : CapSt → CapSt) : (s.modCap f).fast = s.fast := rfl
@[simp] theorem State.modCap_slow (s : State) (f : CapSt → CapSt) : (s.modCap f).slow = s.slow := rfl
@[simp] theorem State.modCap_mods (s : State) (f : CapSt → CapSt) : (s.modCap f).mods = s.mods := rfl
@[simp] theorem State.modCap_legs (s : State) (f : CapSt → CapSt) : (s.modCap f).legs = s.legs := rfl
@[simp] theorem State.modCap_isl (s : State) (f : CapSt → CapSt) : (s.modCap f).isl = s.isl := rfl
@[simp] theorem State.modCap_seqRun (s : State) (f : CapSt → CapSt) : (s.modCap f).seqRun = s.seqRun := rfl
@[simp] theorem State.modCap_lines (s : State) (f : CapSt → CapSt) : (s.modCap f).lines = s.lines := rfl
@[simp] theorem State.modCap_dout (s : State) (f : CapSt → CapSt) : (s.modCap f).dout = s.dout := rfl
@[simp] theorem State.modCap_saf (s : State) (f : CapSt → CapSt) : (s.modCap f).saf = s.saf := rfl
@[simp] theorem State.modCap_pair (s : State) (f : CapSt → CapSt) : (s.modCap f).pair = s.pair := rfl
@[simp] theorem State.modCap_lat (s : State) (f : CapSt → CapSt) : (s.modCap f).lat = s.lat := rfl
@[simp] theorem State.modCap_can (s : State) (f : CapSt → CapSt) : (s.modCap f).can = s.can := rfl
@[simp] theorem State.modCap_eth (s : State) (f : CapSt → CapSt) : (s.modCap f).eth = s.eth := rfl
@[simp] theorem State.modCap_time (s : State) (f : CapSt → CapSt) : (s.modCap f).time = s.time := rfl
@[simp] theorem State.modCap_tout (s : State) (f : CapSt → CapSt) : (s.modCap f).tout = s.tout := rfl
@[simp] theorem State.modCap_link (s : State) (f : CapSt → CapSt) : (s.modCap f).link = s.link := rfl
@[simp] theorem State.modCap_timers (s : State) (f : CapSt → CapSt) : (s.modCap f).timers = s.timers := rfl
@[simp] theorem State.modCap_freeCtr (s : State) (f : CapSt → CapSt) : (s.modCap f).freeCtr = s.freeCtr := rfl
@[simp] theorem State.modCap_pending (s : State) (f : CapSt → CapSt) : (s.modCap f).pending = s.pending := rfl
@[simp] theorem State.modCap_w (s : State) (f : CapSt → CapSt) (j : Nat) : (s.modCap f).w j = s.w j := rfl
@[simp] theorem State.modCap_n (s : State) (f : CapSt → CapSt) (j : Nat) : (s.modCap f).n j = s.n j := rfl
@[simp] theorem State.modCap_z (s : State) (f : CapSt → CapSt) (j : Nat) : (s.modCap f).z j = s.z j := rfl
@[simp] theorem State.modCap_bit (s : State) (f : CapSt → CapSt) (j k : Nat) : (s.modCap f).bit j k = s.bit j k := rfl

/-! ### modLat -/

@[simp] theorem State.modLat_now (s : State) (f : LatSt → LatSt) : (s.modLat f).now = s.now := rfl
@[simp] theorem State.modLat_fine (s : State) (f : LatSt → LatSt) : (s.modLat f).fine = s.fine := rfl
@[simp] theorem State.modLat_strFine (s : State) (f : LatSt → LatSt) : (s.modLat f).strFine = s.strFine := rfl
@[simp] theorem State.modLat_unit (s : State) (f : LatSt → LatSt) : (s.modLat f).unit = s.unit := rfl
@[simp] theorem State.modLat_regs (s : State) (f : LatSt → LatSt) : (s.modLat f).regs = s.regs := rfl
@[simp] theorem State.modLat_fuses (s : State) (f : LatSt → LatSt) : (s.modLat f).fuses = s.fuses := rfl
@[simp] theorem State.modLat_fram (s : State) (f : LatSt → LatSt) : (s.modLat f).fram = s.fram := rfl
@[simp] theorem State.modLat_flash (s : State) (f : LatSt → LatSt) : (s.modLat f).flash = s.flash := rfl
@[simp] theorem State.modLat_sfdpQuad (s : State) (f : LatSt → LatSt) : (s.modLat f).sfdpQuad = s.sfdpQuad := rfl
@[simp] theorem State.modLat_ref (s : State) (f : LatSt → LatSt) : (s.modLat f).ref = s.ref := rfl
@[simp] theorem State.modLat_img (s : State) (f : LatSt → LatSt) : (s.modLat f).img = s.img := rfl
@[simp] theorem State.modLat_ev (s : State) (f : LatSt → LatSt) : (s.modLat f).ev = s.ev := rfl
@[simp] theorem State.modLat_ports (s : State) (f : LatSt → LatSt) : (s.modLat f).ports = s.ports := rfl
@[simp] theorem State.modLat_eng (s : State) (f : LatSt → LatSt) : (s.modLat f).eng = s.eng := rfl
@[simp] theorem State.modLat_inj (s : State) (f : LatSt → LatSt) : (s.modLat f).inj = s.inj := rfl
@[simp] theorem State.modLat_prf (s : State) (f : LatSt → LatSt) : (s.modLat f).prf = s.prf := rfl
@[simp] theorem State.modLat_fast (s : State) (f : LatSt → LatSt) : (s.modLat f).fast = s.fast := rfl
@[simp] theorem State.modLat_slow (s : State) (f : LatSt → LatSt) : (s.modLat f).slow = s.slow := rfl
@[simp] theorem State.modLat_mods (s : State) (f : LatSt → LatSt) : (s.modLat f).mods = s.mods := rfl
@[simp] theorem State.modLat_legs (s : State) (f : LatSt → LatSt) : (s.modLat f).legs = s.legs := rfl
@[simp] theorem State.modLat_isl (s : State) (f : LatSt → LatSt) : (s.modLat f).isl = s.isl := rfl
@[simp] theorem State.modLat_seqRun (s : State) (f : LatSt → LatSt) : (s.modLat f).seqRun = s.seqRun := rfl
@[simp] theorem State.modLat_lines (s : State) (f : LatSt → LatSt) : (s.modLat f).lines = s.lines := rfl
@[simp] theorem State.modLat_dout (s : State) (f : LatSt → LatSt) : (s.modLat f).dout = s.dout := rfl
@[simp] theorem State.modLat_saf (s : State) (f : LatSt → LatSt) : (s.modLat f).saf = s.saf := rfl
@[simp] theorem State.modLat_pair (s : State) (f : LatSt → LatSt) : (s.modLat f).pair = s.pair := rfl
@[simp] theorem State.modLat_can (s : State) (f : LatSt → LatSt) : (s.modLat f).can = s.can := rfl
@[simp] theorem State.modLat_eth (s : State) (f : LatSt → LatSt) : (s.modLat f).eth = s.eth := rfl
@[simp] theorem State.modLat_time (s : State) (f : LatSt → LatSt) : (s.modLat f).time = s.time := rfl
@[simp] theorem State.modLat_tout (s : State) (f : LatSt → LatSt) : (s.modLat f).tout = s.tout := rfl
@[simp] theorem State.modLat_link (s : State) (f : LatSt → LatSt) : (s.modLat f).link = s.link := rfl
@[simp] theorem State.modLat_cap (s : State) (f : LatSt → LatSt) : (s.modLat f).cap = s.cap := rfl
@[simp] theorem State.modLat_timers (s : State) (f : LatSt → LatSt) : (s.modLat f).timers = s.timers := rfl
@[simp] theorem State.modLat_freeCtr (s : State) (f : LatSt → LatSt) : (s.modLat f).freeCtr = s.freeCtr := rfl
@[simp] theorem State.modLat_pending (s : State) (f : LatSt → LatSt) : (s.modLat f).pending = s.pending := rfl
@[simp] theorem State.modLat_w (s : State) (f : LatSt → LatSt) (j : Nat) : (s.modLat f).w j = s.w j := rfl
@[simp] theorem State.modLat_n (s : State) (f : LatSt → LatSt) (j : Nat) : (s.modLat f).n j = s.n j := rfl
@[simp] theorem State.modLat_z (s : State) (f : LatSt → LatSt) (j : Nat) : (s.modLat f).z j = s.z j := rfl
@[simp] theorem State.modLat_bit (s : State) (f : LatSt → LatSt) (j k : Nat) : (s.modLat f).bit j k = s.bit j k := rfl

/-! ### modTime -/

@[simp] theorem State.modTime_now (s : State) (f : TimeSt → TimeSt) : (s.modTime f).now = s.now := rfl
@[simp] theorem State.modTime_fine (s : State) (f : TimeSt → TimeSt) : (s.modTime f).fine = s.fine := rfl
@[simp] theorem State.modTime_strFine (s : State) (f : TimeSt → TimeSt) : (s.modTime f).strFine = s.strFine := rfl
@[simp] theorem State.modTime_unit (s : State) (f : TimeSt → TimeSt) : (s.modTime f).unit = s.unit := rfl
@[simp] theorem State.modTime_regs (s : State) (f : TimeSt → TimeSt) : (s.modTime f).regs = s.regs := rfl
@[simp] theorem State.modTime_fuses (s : State) (f : TimeSt → TimeSt) : (s.modTime f).fuses = s.fuses := rfl
@[simp] theorem State.modTime_fram (s : State) (f : TimeSt → TimeSt) : (s.modTime f).fram = s.fram := rfl
@[simp] theorem State.modTime_flash (s : State) (f : TimeSt → TimeSt) : (s.modTime f).flash = s.flash := rfl
@[simp] theorem State.modTime_sfdpQuad (s : State) (f : TimeSt → TimeSt) : (s.modTime f).sfdpQuad = s.sfdpQuad := rfl
@[simp] theorem State.modTime_ref (s : State) (f : TimeSt → TimeSt) : (s.modTime f).ref = s.ref := rfl
@[simp] theorem State.modTime_img (s : State) (f : TimeSt → TimeSt) : (s.modTime f).img = s.img := rfl
@[simp] theorem State.modTime_ev (s : State) (f : TimeSt → TimeSt) : (s.modTime f).ev = s.ev := rfl
@[simp] theorem State.modTime_ports (s : State) (f : TimeSt → TimeSt) : (s.modTime f).ports = s.ports := rfl
@[simp] theorem State.modTime_eng (s : State) (f : TimeSt → TimeSt) : (s.modTime f).eng = s.eng := rfl
@[simp] theorem State.modTime_inj (s : State) (f : TimeSt → TimeSt) : (s.modTime f).inj = s.inj := rfl
@[simp] theorem State.modTime_prf (s : State) (f : TimeSt → TimeSt) : (s.modTime f).prf = s.prf := rfl
@[simp] theorem State.modTime_fast (s : State) (f : TimeSt → TimeSt) : (s.modTime f).fast = s.fast := rfl
@[simp] theorem State.modTime_slow (s : State) (f : TimeSt → TimeSt) : (s.modTime f).slow = s.slow := rfl
@[simp] theorem State.modTime_mods (s : State) (f : TimeSt → TimeSt) : (s.modTime f).mods = s.mods := rfl
@[simp] theorem State.modTime_legs (s : State) (f : TimeSt → TimeSt) : (s.modTime f).legs = s.legs := rfl
@[simp] theorem State.modTime_isl (s : State) (f : TimeSt → TimeSt) : (s.modTime f).isl = s.isl := rfl
@[simp] theorem State.modTime_seqRun (s : State) (f : TimeSt → TimeSt) : (s.modTime f).seqRun = s.seqRun := rfl
@[simp] theorem State.modTime_lines (s : State) (f : TimeSt → TimeSt) : (s.modTime f).lines = s.lines := rfl
@[simp] theorem State.modTime_dout (s : State) (f : TimeSt → TimeSt) : (s.modTime f).dout = s.dout := rfl
@[simp] theorem State.modTime_saf (s : State) (f : TimeSt → TimeSt) : (s.modTime f).saf = s.saf := rfl
@[simp] theorem State.modTime_pair (s : State) (f : TimeSt → TimeSt) : (s.modTime f).pair = s.pair := rfl
@[simp] theorem State.modTime_lat (s : State) (f : TimeSt → TimeSt) : (s.modTime f).lat = s.lat := rfl
@[simp] theorem State.modTime_can (s : State) (f : TimeSt → TimeSt) : (s.modTime f).can = s.can := rfl
@[simp] theorem State.modTime_eth (s : State) (f : TimeSt → TimeSt) : (s.modTime f).eth = s.eth := rfl
@[simp] theorem State.modTime_tout (s : State) (f : TimeSt → TimeSt) : (s.modTime f).tout = s.tout := rfl
@[simp] theorem State.modTime_link (s : State) (f : TimeSt → TimeSt) : (s.modTime f).link = s.link := rfl
@[simp] theorem State.modTime_cap (s : State) (f : TimeSt → TimeSt) : (s.modTime f).cap = s.cap := rfl
@[simp] theorem State.modTime_timers (s : State) (f : TimeSt → TimeSt) : (s.modTime f).timers = s.timers := rfl
@[simp] theorem State.modTime_freeCtr (s : State) (f : TimeSt → TimeSt) : (s.modTime f).freeCtr = s.freeCtr := rfl
@[simp] theorem State.modTime_pending (s : State) (f : TimeSt → TimeSt) : (s.modTime f).pending = s.pending := rfl
@[simp] theorem State.modTime_w (s : State) (f : TimeSt → TimeSt) (j : Nat) : (s.modTime f).w j = s.w j := rfl
@[simp] theorem State.modTime_n (s : State) (f : TimeSt → TimeSt) (j : Nat) : (s.modTime f).n j = s.n j := rfl
@[simp] theorem State.modTime_z (s : State) (f : TimeSt → TimeSt) (j : Nat) : (s.modTime f).z j = s.z j := rfl
@[simp] theorem State.modTime_bit (s : State) (f : TimeSt → TimeSt) (j k : Nat) : (s.modTime f).bit j k = s.bit j k := rfl

/-! ### modLink -/

@[simp] theorem State.modLink_now (s : State) (f : LinkSt → LinkSt) : (s.modLink f).now = s.now := rfl
@[simp] theorem State.modLink_fine (s : State) (f : LinkSt → LinkSt) : (s.modLink f).fine = s.fine := rfl
@[simp] theorem State.modLink_strFine (s : State) (f : LinkSt → LinkSt) : (s.modLink f).strFine = s.strFine := rfl
@[simp] theorem State.modLink_unit (s : State) (f : LinkSt → LinkSt) : (s.modLink f).unit = s.unit := rfl
@[simp] theorem State.modLink_regs (s : State) (f : LinkSt → LinkSt) : (s.modLink f).regs = s.regs := rfl
@[simp] theorem State.modLink_fuses (s : State) (f : LinkSt → LinkSt) : (s.modLink f).fuses = s.fuses := rfl
@[simp] theorem State.modLink_fram (s : State) (f : LinkSt → LinkSt) : (s.modLink f).fram = s.fram := rfl
@[simp] theorem State.modLink_flash (s : State) (f : LinkSt → LinkSt) : (s.modLink f).flash = s.flash := rfl
@[simp] theorem State.modLink_sfdpQuad (s : State) (f : LinkSt → LinkSt) : (s.modLink f).sfdpQuad = s.sfdpQuad := rfl
@[simp] theorem State.modLink_ref (s : State) (f : LinkSt → LinkSt) : (s.modLink f).ref = s.ref := rfl
@[simp] theorem State.modLink_img (s : State) (f : LinkSt → LinkSt) : (s.modLink f).img = s.img := rfl
@[simp] theorem State.modLink_ev (s : State) (f : LinkSt → LinkSt) : (s.modLink f).ev = s.ev := rfl
@[simp] theorem State.modLink_ports (s : State) (f : LinkSt → LinkSt) : (s.modLink f).ports = s.ports := rfl
@[simp] theorem State.modLink_eng (s : State) (f : LinkSt → LinkSt) : (s.modLink f).eng = s.eng := rfl
@[simp] theorem State.modLink_inj (s : State) (f : LinkSt → LinkSt) : (s.modLink f).inj = s.inj := rfl
@[simp] theorem State.modLink_prf (s : State) (f : LinkSt → LinkSt) : (s.modLink f).prf = s.prf := rfl
@[simp] theorem State.modLink_fast (s : State) (f : LinkSt → LinkSt) : (s.modLink f).fast = s.fast := rfl
@[simp] theorem State.modLink_slow (s : State) (f : LinkSt → LinkSt) : (s.modLink f).slow = s.slow := rfl
@[simp] theorem State.modLink_mods (s : State) (f : LinkSt → LinkSt) : (s.modLink f).mods = s.mods := rfl
@[simp] theorem State.modLink_legs (s : State) (f : LinkSt → LinkSt) : (s.modLink f).legs = s.legs := rfl
@[simp] theorem State.modLink_isl (s : State) (f : LinkSt → LinkSt) : (s.modLink f).isl = s.isl := rfl
@[simp] theorem State.modLink_seqRun (s : State) (f : LinkSt → LinkSt) : (s.modLink f).seqRun = s.seqRun := rfl
@[simp] theorem State.modLink_lines (s : State) (f : LinkSt → LinkSt) : (s.modLink f).lines = s.lines := rfl
@[simp] theorem State.modLink_dout (s : State) (f : LinkSt → LinkSt) : (s.modLink f).dout = s.dout := rfl
@[simp] theorem State.modLink_saf (s : State) (f : LinkSt → LinkSt) : (s.modLink f).saf = s.saf := rfl
@[simp] theorem State.modLink_pair (s : State) (f : LinkSt → LinkSt) : (s.modLink f).pair = s.pair := rfl
@[simp] theorem State.modLink_lat (s : State) (f : LinkSt → LinkSt) : (s.modLink f).lat = s.lat := rfl
@[simp] theorem State.modLink_can (s : State) (f : LinkSt → LinkSt) : (s.modLink f).can = s.can := rfl
@[simp] theorem State.modLink_eth (s : State) (f : LinkSt → LinkSt) : (s.modLink f).eth = s.eth := rfl
@[simp] theorem State.modLink_time (s : State) (f : LinkSt → LinkSt) : (s.modLink f).time = s.time := rfl
@[simp] theorem State.modLink_tout (s : State) (f : LinkSt → LinkSt) : (s.modLink f).tout = s.tout := rfl
@[simp] theorem State.modLink_cap (s : State) (f : LinkSt → LinkSt) : (s.modLink f).cap = s.cap := rfl
@[simp] theorem State.modLink_timers (s : State) (f : LinkSt → LinkSt) : (s.modLink f).timers = s.timers := rfl
@[simp] theorem State.modLink_freeCtr (s : State) (f : LinkSt → LinkSt) : (s.modLink f).freeCtr = s.freeCtr := rfl
@[simp] theorem State.modLink_pending (s : State) (f : LinkSt → LinkSt) : (s.modLink f).pending = s.pending := rfl
@[simp] theorem State.modLink_w (s : State) (f : LinkSt → LinkSt) (j : Nat) : (s.modLink f).w j = s.w j := rfl
@[simp] theorem State.modLink_n (s : State) (f : LinkSt → LinkSt) (j : Nat) : (s.modLink f).n j = s.n j := rfl
@[simp] theorem State.modLink_z (s : State) (f : LinkSt → LinkSt) (j : Nat) : (s.modLink f).z j = s.z j := rfl
@[simp] theorem State.modLink_bit (s : State) (f : LinkSt → LinkSt) (j k : Nat) : (s.modLink f).bit j k = s.bit j k := rfl

/-! ### modSaf -/

@[simp] theorem State.modSaf_now (s : State) (f : SafSt → SafSt) : (s.modSaf f).now = s.now := rfl
@[simp] theorem State.modSaf_fine (s : State) (f : SafSt → SafSt) : (s.modSaf f).fine = s.fine := rfl
@[simp] theorem State.modSaf_strFine (s : State) (f : SafSt → SafSt) : (s.modSaf f).strFine = s.strFine := rfl
@[simp] theorem State.modSaf_unit (s : State) (f : SafSt → SafSt) : (s.modSaf f).unit = s.unit := rfl
@[simp] theorem State.modSaf_regs (s : State) (f : SafSt → SafSt) : (s.modSaf f).regs = s.regs := rfl
@[simp] theorem State.modSaf_fuses (s : State) (f : SafSt → SafSt) : (s.modSaf f).fuses = s.fuses := rfl
@[simp] theorem State.modSaf_fram (s : State) (f : SafSt → SafSt) : (s.modSaf f).fram = s.fram := rfl
@[simp] theorem State.modSaf_flash (s : State) (f : SafSt → SafSt) : (s.modSaf f).flash = s.flash := rfl
@[simp] theorem State.modSaf_sfdpQuad (s : State) (f : SafSt → SafSt) : (s.modSaf f).sfdpQuad = s.sfdpQuad := rfl
@[simp] theorem State.modSaf_ref (s : State) (f : SafSt → SafSt) : (s.modSaf f).ref = s.ref := rfl
@[simp] theorem State.modSaf_img (s : State) (f : SafSt → SafSt) : (s.modSaf f).img = s.img := rfl
@[simp] theorem State.modSaf_ev (s : State) (f : SafSt → SafSt) : (s.modSaf f).ev = s.ev := rfl
@[simp] theorem State.modSaf_ports (s : State) (f : SafSt → SafSt) : (s.modSaf f).ports = s.ports := rfl
@[simp] theorem State.modSaf_eng (s : State) (f : SafSt → SafSt) : (s.modSaf f).eng = s.eng := rfl
@[simp] theorem State.modSaf_inj (s : State) (f : SafSt → SafSt) : (s.modSaf f).inj = s.inj := rfl
@[simp] theorem State.modSaf_prf (s : State) (f : SafSt → SafSt) : (s.modSaf f).prf = s.prf := rfl
@[simp] theorem State.modSaf_fast (s : State) (f : SafSt → SafSt) : (s.modSaf f).fast = s.fast := rfl
@[simp] theorem State.modSaf_slow (s : State) (f : SafSt → SafSt) : (s.modSaf f).slow = s.slow := rfl
@[simp] theorem State.modSaf_mods (s : State) (f : SafSt → SafSt) : (s.modSaf f).mods = s.mods := rfl
@[simp] theorem State.modSaf_legs (s : State) (f : SafSt → SafSt) : (s.modSaf f).legs = s.legs := rfl
@[simp] theorem State.modSaf_isl (s : State) (f : SafSt → SafSt) : (s.modSaf f).isl = s.isl := rfl
@[simp] theorem State.modSaf_seqRun (s : State) (f : SafSt → SafSt) : (s.modSaf f).seqRun = s.seqRun := rfl
@[simp] theorem State.modSaf_lines (s : State) (f : SafSt → SafSt) : (s.modSaf f).lines = s.lines := rfl
@[simp] theorem State.modSaf_dout (s : State) (f : SafSt → SafSt) : (s.modSaf f).dout = s.dout := rfl
@[simp] theorem State.modSaf_pair (s : State) (f : SafSt → SafSt) : (s.modSaf f).pair = s.pair := rfl
@[simp] theorem State.modSaf_lat (s : State) (f : SafSt → SafSt) : (s.modSaf f).lat = s.lat := rfl
@[simp] theorem State.modSaf_can (s : State) (f : SafSt → SafSt) : (s.modSaf f).can = s.can := rfl
@[simp] theorem State.modSaf_eth (s : State) (f : SafSt → SafSt) : (s.modSaf f).eth = s.eth := rfl
@[simp] theorem State.modSaf_time (s : State) (f : SafSt → SafSt) : (s.modSaf f).time = s.time := rfl
@[simp] theorem State.modSaf_tout (s : State) (f : SafSt → SafSt) : (s.modSaf f).tout = s.tout := rfl
@[simp] theorem State.modSaf_link (s : State) (f : SafSt → SafSt) : (s.modSaf f).link = s.link := rfl
@[simp] theorem State.modSaf_cap (s : State) (f : SafSt → SafSt) : (s.modSaf f).cap = s.cap := rfl
@[simp] theorem State.modSaf_timers (s : State) (f : SafSt → SafSt) : (s.modSaf f).timers = s.timers := rfl
@[simp] theorem State.modSaf_freeCtr (s : State) (f : SafSt → SafSt) : (s.modSaf f).freeCtr = s.freeCtr := rfl
@[simp] theorem State.modSaf_pending (s : State) (f : SafSt → SafSt) : (s.modSaf f).pending = s.pending := rfl
@[simp] theorem State.modSaf_w (s : State) (f : SafSt → SafSt) (j : Nat) : (s.modSaf f).w j = s.w j := rfl
@[simp] theorem State.modSaf_n (s : State) (f : SafSt → SafSt) (j : Nat) : (s.modSaf f).n j = s.n j := rfl
@[simp] theorem State.modSaf_z (s : State) (f : SafSt → SafSt) (j : Nat) : (s.modSaf f).z j = s.z j := rfl
@[simp] theorem State.modSaf_bit (s : State) (f : SafSt → SafSt) (j k : Nat) : (s.modSaf f).bit j k = s.bit j k := rfl

/-! ### modPair -/

@[simp] theorem State.modPair_now (s : State) (f : PairSt → PairSt) : (s.modPair f).now = s.now := rfl
@[simp] theorem State.modPair_fine (s : State) (f : PairSt → PairSt) : (s.modPair f).fine = s.fine := rfl
@[simp] theorem State.modPair_strFine (s : State) (f : PairSt → PairSt) : (s.modPair f).strFine = s.strFine := rfl
@[simp] theorem State.modPair_unit (s : State) (f : PairSt → PairSt) : (s.modPair f).unit = s.unit := rfl
@[simp] theorem State.modPair_regs (s : State) (f : PairSt → PairSt) : (s.modPair f).regs = s.regs := rfl
@[simp] theorem State.modPair_fuses (s : State) (f : PairSt → PairSt) : (s.modPair f).fuses = s.fuses := rfl
@[simp] theorem State.modPair_fram (s : State) (f : PairSt → PairSt) : (s.modPair f).fram = s.fram := rfl
@[simp] theorem State.modPair_flash (s : State) (f : PairSt → PairSt) : (s.modPair f).flash = s.flash := rfl
@[simp] theorem State.modPair_sfdpQuad (s : State) (f : PairSt → PairSt) : (s.modPair f).sfdpQuad = s.sfdpQuad := rfl
@[simp] theorem State.modPair_ref (s : State) (f : PairSt → PairSt) : (s.modPair f).ref = s.ref := rfl
@[simp] theorem State.modPair_img (s : State) (f : PairSt → PairSt) : (s.modPair f).img = s.img := rfl
@[simp] theorem State.modPair_ev (s : State) (f : PairSt → PairSt) : (s.modPair f).ev = s.ev := rfl
@[simp] theorem State.modPair_ports (s : State) (f : PairSt → PairSt) : (s.modPair f).ports = s.ports := rfl
@[simp] theorem State.modPair_eng (s : State) (f : PairSt → PairSt) : (s.modPair f).eng = s.eng := rfl
@[simp] theorem State.modPair_inj (s : State) (f : PairSt → PairSt) : (s.modPair f).inj = s.inj := rfl
@[simp] theorem State.modPair_prf (s : State) (f : PairSt → PairSt) : (s.modPair f).prf = s.prf := rfl
@[simp] theorem State.modPair_fast (s : State) (f : PairSt → PairSt) : (s.modPair f).fast = s.fast := rfl
@[simp] theorem State.modPair_slow (s : State) (f : PairSt → PairSt) : (s.modPair f).slow = s.slow := rfl
@[simp] theorem State.modPair_mods (s : State) (f : PairSt → PairSt) : (s.modPair f).mods = s.mods := rfl
@[simp] theorem State.modPair_legs (s : State) (f : PairSt → PairSt) : (s.modPair f).legs = s.legs := rfl
@[simp] theorem State.modPair_isl (s : State) (f : PairSt → PairSt) : (s.modPair f).isl = s.isl := rfl
@[simp] theorem State.modPair_seqRun (s : State) (f : PairSt → PairSt) : (s.modPair f).seqRun = s.seqRun := rfl
@[simp] theorem State.modPair_lines (s : State) (f : PairSt → PairSt) : (s.modPair f).lines = s.lines := rfl
@[simp] theorem State.modPair_dout (s : State) (f : PairSt → PairSt) : (s.modPair f).dout = s.dout := rfl
@[simp] theorem State.modPair_saf (s : State) (f : PairSt → PairSt) : (s.modPair f).saf = s.saf := rfl
@[simp] theorem State.modPair_lat (s : State) (f : PairSt → PairSt) : (s.modPair f).lat = s.lat := rfl
@[simp] theorem State.modPair_can (s : State) (f : PairSt → PairSt) : (s.modPair f).can = s.can := rfl
@[simp] theorem State.modPair_eth (s : State) (f : PairSt → PairSt) : (s.modPair f).eth = s.eth := rfl
@[simp] theorem State.modPair_time (s : State) (f : PairSt → PairSt) : (s.modPair f).time = s.time := rfl
@[simp] theorem State.modPair_tout (s : State) (f : PairSt → PairSt) : (s.modPair f).tout = s.tout := rfl
@[simp] theorem State.modPair_link (s : State) (f : PairSt → PairSt) : (s.modPair f).link = s.link := rfl
@[simp] theorem State.modPair_cap (s : State) (f : PairSt → PairSt) : (s.modPair f).cap = s.cap := rfl
@[simp] theorem State.modPair_timers (s : State) (f : PairSt → PairSt) : (s.modPair f).timers = s.timers := rfl
@[simp] theorem State.modPair_freeCtr (s : State) (f : PairSt → PairSt) : (s.modPair f).freeCtr = s.freeCtr := rfl
@[simp] theorem State.modPair_pending (s : State) (f : PairSt → PairSt) : (s.modPair f).pending = s.pending := rfl
@[simp] theorem State.modPair_w (s : State) (f : PairSt → PairSt) (j : Nat) : (s.modPair f).w j = s.w j := rfl
@[simp] theorem State.modPair_n (s : State) (f : PairSt → PairSt) (j : Nat) : (s.modPair f).n j = s.n j := rfl
@[simp] theorem State.modPair_z (s : State) (f : PairSt → PairSt) (j : Nat) : (s.modPair f).z j = s.z j := rfl
@[simp] theorem State.modPair_bit (s : State) (f : PairSt → PairSt) (j k : Nat) : (s.modPair f).bit j k = s.bit j k := rfl

/-! ### Reading a part after its change -/

theorem getD_modify_same {α : Type} (l : List α) (i : Nat) (f : α → α) (d : α) (h : i < l.length) :
    (l.modify i f).getD i d = f (l.getD i d) := by
  simp [List.getD_eq_getElem?_getD, h]

theorem getD_modify_other {α : Type} (l : List α) {i j : Nat} (f : α → α) (d : α) (h : j ≠ i) :
    (l.modify i f).getD j d = l.getD j d := by
  simp [List.getD_eq_getElem?_getD, Ne.symm h]

theorem State.modPort_port (s : State) {p : Nat} (f : PortSt → PortSt) (h : p < s.ports.length) : (s.modPort p f).port p = f (s.port p) :=
  getD_modify_same _ _ _ _ h
theorem State.modPort_port_other (s : State) {p j : Nat} (f : PortSt → PortSt) (h : j ≠ p) : (s.modPort p f).port j = s.port j :=
  getD_modify_other _ _ _ h
theorem State.modLeg_leg (s : State) {l : Nat} (f : LegSt → LegSt) (h : l < s.legs.length) : (s.modLeg l f).leg l = f (s.leg l) :=
  getD_modify_same _ _ _ _ h
theorem State.modLeg_leg_other (s : State) {l j : Nat} (f : LegSt → LegSt) (h : j ≠ l) : (s.modLeg l f).leg j = s.leg j :=
  getD_modify_other _ _ _ h
theorem State.modIsl_island (s : State) {i : Nat} (f : IslSt → IslSt) (h : i < s.isl.length) : (s.modIsl i f).island i = f (s.island i) :=
  getD_modify_same _ _ _ _ h
theorem State.modIsl_island_other (s : State) {i j : Nat} (f : IslSt → IslSt) (h : j ≠ i) : (s.modIsl i f).island j = s.island j :=
  getD_modify_other _ _ _ h
theorem State.modCan_canCh (s : State) {ch : Nat} (f : CanSt → CanSt) (h : ch < s.can.length) : (s.modCan ch f).canCh ch = f (s.canCh ch) :=
  getD_modify_same _ _ _ _ h
theorem State.modCan_canCh_other (s : State) {ch j : Nat} (f : CanSt → CanSt) (h : j ≠ ch) : (s.modCan ch f).canCh j = s.canCh j :=
  getD_modify_other _ _ _ h
theorem State.modTout_touts (s : State) {k : Nat} (f : ToutSt → ToutSt) (h : k < s.tout.length) : (s.modTout k f).touts k = f (s.touts k) :=
  getD_modify_same _ _ _ _ h
theorem State.modTout_touts_other (s : State) {k j : Nat} (f : ToutSt → ToutSt) (h : j ≠ k) : (s.modTout k f).touts j = s.touts j :=
  getD_modify_other _ _ _ h

/-! ### Rows that recur -/

/-- A recurring row whose time has come runs, with its next instant set. -/
theorem State.recur_due {s : State} {k : Timer} {period : Nat} {f : State → State} (h : s.dueFrom k ≤ s.now) :
    s.recur k period f = f (s.again k period) := by
  unfold State.recur; rw [if_neg (Nat.not_lt.mpr h)]

/-- Before its time a recurring row leaves the state alone. -/
theorem State.recur_early {s : State} {k : Timer} {period : Nat} {f : State → State} (h : s.now < s.dueFrom k) :
    s.recur k period f = s := by
  unfold State.recur; rw [if_pos h]

end Sys2Proof.Machine
end

