-- ==== Sys2Proof/Laws/Audit.lean ====
section
/-! SUPPORT. What a row of a bare role comes to: done and logged, carried out by a pair at its next outer boundary, or refused
(R44, R324, R400, R409). -/

set_option Elab.async false

namespace Sys2Proof.Machine

variable {s next : State} {role named : Role} {kind id : Nat} {old v : Word} {ok : Bool}

/-- A request that can be logged is done. -/
theorem audited_eq {status : Nat} (h : s.canNote role kind id old v = true) :
    s.audited role kind id old v status next = s.noted role kind id old v status next := by
  unfold State.audited; rw [h]; rfl

/-- A request without a Q-LOG credit is refused. -/
theorem audited_full {status : Nat} (h : s.canNote role kind id old v = false) :
    s.audited role kind id old v status next = s.raise 0x8205 role.code 0 := by
  unfold State.audited; rw [h]; rfl

/-- Where nothing is forwarded, a request is what it comes to. -/
theorem inStep_alone (h : s.n Pid.pairState ≠ 1 ∨ s.forwards id = false) : s.inStep ok id v next = next := by
  unfold State.inStep; rcases h with h | h <;> simp [h]

/-- The commands that choose which unit of a pair holds the biscuit are never forwarded. -/
theorem forwards_own (h : [Pid.pairSolo, Pid.pairHandover].contains id = true) :
    s.forwards id = false := by
  unfold State.forwards; split <;> first | (rw [h]; simp) | rfl

/-- The status of a request that its role may make and its rule accepts. -/
theorem rowStatus_ok (h : s.roleOk role named = true) : s.rowStatus id role named true = 0 := by
  unfold State.roleOk at h; unfold State.rowStatus
  simp only [Bool.and_eq_true, decide_eq_true_eq] at h
  simp [h.1, h.2]

/-- An accepted request of a role, alone. -/
theorem roleRow_done (h : s.roleOk role named = true) (hk : ok = true) (ha : s.n Pid.pairState ≠ 1 ∨ s.forwards id = false)
    (hn : s.canNote role kind id old v = true) :
    s.roleRow role named kind id old v ok next = s.noted role kind id old v 0 next := by
  subst hk; unfold State.roleRow
  rw [audited_eq hn, rowStatus_ok h, h, if_pos rfl, inStep_alone ha]

/-- An accepted command of a role, alone. -/
theorem cmdRow_done (h : s.roleOk role named = true) (hk : ok = true) (ha : s.n Pid.pairState ≠ 1 ∨ s.forwards id = false)
    (hn : s.canNote role 2 id 0 v = true) :
    s.cmdRow role named id v ok next = s.noted role 2 id 0 v 0 next := by
  subst hk; exact roleRow_done h rfl ha hn

/-- An accepted request of a requester, alone. -/
theorem reqRow_done {req : Requester} (h : s.reqOk req named = true) (hk : ok = true) (ha : s.n Pid.pairState ≠ 1 ∨ s.forwards id = false)
    (hn : s.reqCanNote req id v = true) : s.reqRow req named id v ok next = s.reqNoted req id v next := by
  unfold State.reqRow State.reqNoted
  cases req with
  | role x => exact roleRow_done h hk ha hn
  | _ => simp only [h, if_true, inStep_alone ha]

/-- An accepted request of a holder with a partner is carried out at the next outer boundary. -/
theorem roleRow_forwarded (h : s.roleOk role named = true) (hk : ok = true) (hp : s.n Pid.pairState = 1) (hf : s.forwards id = true)
    (hl : id ≠ Pid.ladderCmd) (hn : s.canNote role kind id old v = true) :
    s.roleRow role named kind id old v ok next = s.noted role kind id old v 0 (s.forward id v) := by
  subst hk; unfold State.roleRow State.inStep
  rw [audited_eq hn, rowStatus_ok h, h, if_pos rfl]; simp [hp, hf, hl]

/-- An entry of the audit log leaves every word but the high-water mark of Q-LOG, and the Proofer. -/
theorem logNote_parts (b : State) (a : AuditNote) (status : Nat) :
    (b.logNote a status).prf = b.prf ∧ ∀ j, j ≠ Pid.qHighWater 0x11 → (b.logNote a status).w j = b.w j := by
  unfold State.logNote State.highWater State.onlyIf
  dsimp only
  split
  · exact ⟨rfl, fun j hj => State.setW_other _ _ hj⟩
  · exact ⟨rfl, fun _ _ => rfl⟩

/-- A request that is done and noted leaves what it comes to, but for Q-LOG and its high-water mark. -/
theorem noted_parts (status : Nat) :
    (s.noted role kind id old v status next).prf = next.prf ∧
      ∀ j, j ≠ Pid.qHighWater 0x11 → (s.noted role kind id old v status next).w j = next.w j := by
  unfold State.noted State.logAfter
  split
  · split
    · exact ⟨rfl, fun _ _ => rfl⟩
    · exact logNote_parts _ _ _
  · exact ⟨rfl, fun _ _ => rfl⟩

end Sys2Proof.Machine
end

