-- ==== Sys2Proof/Laws/Link.lean ====
section
/-! SUPPORT. What a command row of an open link session does, said once: the request it stands for, with and without a
log entry (R400-R409), and how sessions are found after updates. -/

set_option Elab.async false

namespace Sys2Proof.Machine

/-- Finding a session among updated sessions. -/
theorem find_sid (l : List SessSt) (k j : Nat) (f : SessSt → SessSt) (hf : ∀ y, (f y).sid = y.sid) :
    (l.map fun x => if x.sid = k then f x else x).find? (fun x => decide (x.sid = j)) =
      (l.find? fun x => decide (x.sid = j)).map fun x => if x.sid = k then f x else x := by
  induction l with
  | nil => rfl
  | cons x xs ih =>
    have e : (if x.sid = k then f x else x).sid = x.sid := by split <;> simp [hf]
    simp only [List.map_cons, List.find?_cons, e]
    split <;> simp [ih]

/-- A session after an update of one session. -/
theorem sess_modSess (a : State) (k j : Nat) (f : SessSt → SessSt) (hf : ∀ y, (f y).sid = y.sid) :
    (a.modSess k f).sess? j = (a.sess? j).map fun x => if x.sid = k then f x else x := find_sid _ _ _ f hf

/-- The session found has the identifier sought. -/
theorem sess_sid {a : State} {j : Nat} {x : SessSt} (h : a.sess? j = some x) : x.sid = j := by
  have := List.find?_some h
  simpa using this

/-- The session stays when its request is accepted. -/
theorem heard_sess (a : State) (x : SessSt) (seq sid : Nat) (h : a.sess? sid = some x) :
    ((a.heard x seq).sess? x.sid).isSome = true := by
  unfold State.heard
  rw [sess_modSess _ _ _ _ (fun y => by rfl)]
  have := sess_sid h; subst this
  simp [h]

/-- A command row of an open session is the request with the next sequence. -/
theorem direct_eq (a : State) (sid : Nat) (io rb : Bool) (c : LinkCmd) (x : SessSt)
    (h : a.sess? sid = some x) (hf : c.formed = c) (hq : a.rspCredit = true) :
    a.direct sid io rb c = a.request x x.path x.ip x.port x.nextSeq none io rb c := by
  unfold State.direct; rw [h]; dsimp only; rw [hf, hq]; rfl

/-- A command that needs no log entry is judged by running it. -/
theorem judge_quiet (s : State) (x : SessSt) (path ip seq : Nat) (io rb : Bool) (c : LinkCmd)
    (h1 : s.cmdRole x.role c.code = true) (h2 : s.noteOf x.role path ip x.sid seq c = none) :
    s.judge x path ip seq io rb c = s.runCmd x path io rb c := by
  simp [State.judge, h1, h2]

/-- A command that needs a log entry and has room for it is run and noted. -/
theorem judge_logged (s : State) (x : SessSt) (path ip seq : Nat) (io rb : Bool) (c : LinkCmd) (a : AuditNote)
    (h1 : s.cmdRole x.role c.code = true) (h2 : s.noteOf x.role path ip x.sid seq c = some a) (h3 : s.logRoom a = true)
    (h4 : (s.runCmd x path io rb c).st.unit.st = s.unit.st) :
    s.judge x path ip seq io rb c =
      (let r := s.runCmd x path io rb c
       { r with st := r.st.logNote a r.status }) := by
  simp only [State.judge, State.logAfter, h1, h2, h3, h4]
  simp

/-- A note changes no session. -/
theorem logNote_sess (s : State) (a : AuditNote) (st j : Nat) : (s.logNote a st).sess? j = s.sess? j := by
  unfold State.logNote State.highWater State.onlyIf
  dsimp only
  split <;> rfl

/-- Accepting a request changes only the sessions of the link. -/
theorem heard_link (a : State) (x : SessSt) (q : Nat) :
    (a.heard x q).link = { a.link with sess := (a.heard x q).link.sess } := rfl

/-- A command that writes no log entry. -/
theorem direct_quiet (a : State) (sid : Nat) (io rb : Bool) (c : LinkCmd) (x : SessSt) (r : Reply)
    (h : a.sess? sid = some x) (hf : c.formed = c) (hc : c ≠ .close) (hq : a.rspCredit = true)
    (h1 : (a.heard x x.nextSeq).cmdRole x.role c.code = true)
    (h2 : (a.heard x x.nextSeq).noteOf x.role x.path x.ip x.sid x.nextSeq c = none)
    (hr : (a.heard x x.nextSeq).runCmd x x.path io rb c = r) (hs : (r.st.sess? x.sid).isSome = true) :
    a.direct sid io rb c = r.st.answer x x.path x.ip x.port c.code x.nextSeq r.status r.payload none := by
  rw [direct_eq a sid io rb c x h hf hq]
  unfold State.request
  dsimp only
  rw [judge_quiet _ _ _ _ _ _ _ _ h1 h2, hr, if_pos hs]
  cases c <;> first | rfl | exact absurd rfl hc

/-- A command that writes a log entry. -/
theorem direct_logged (a : State) (sid : Nat) (io rb : Bool) (c : LinkCmd) (x : SessSt) (r : Reply) (n : AuditNote)
    (h : a.sess? sid = some x) (hf : c.formed = c) (hc : c ≠ .close) (hq : a.rspCredit = true)
    (h1 : (a.heard x x.nextSeq).cmdRole x.role c.code = true)
    (h2 : (a.heard x x.nextSeq).noteOf x.role x.path x.ip x.sid x.nextSeq c = some n) (h3 : (a.heard x x.nextSeq).logRoom n = true)
    (hr : (a.heard x x.nextSeq).runCmd x x.path io rb c = r) (hu : r.st.unit.st = a.unit.st)
    (hs : (r.st.sess? x.sid).isSome = true) :
    a.direct sid io rb c = (r.st.logNote n r.status).answer x x.path x.ip x.port c.code x.nextSeq r.status r.payload none := by
  rw [direct_eq a sid io rb c x h hf hq]
  unfold State.request
  dsimp only
  rw [judge_logged _ _ _ _ _ _ _ _ n h1 h2 h3 (by rw [hr]; exact hu), hr]
  dsimp only
  rw [logNote_sess, if_pos hs]
  cases c <;> first | rfl | exact absurd rfl hc

/-- Room for one entry. -/
theorem logRoom_single (a : State) (x : SessSt) (q : Nat) (n : AuditNote) (hn : n.items = []) (h : a.link.log.length + 1 ≤ 32) :
    (a.heard x q).logRoom n = true := by
  unfold State.logRoom AuditNote.count
  rw [hn]
  have e : (a.heard x q).link.log = a.link.log := rfl
  rw [e]
  simpa [twelves] using h

/-- No identifier of a known list is unknown. -/
theorem ids_known (f : Bool) (ids : List Nat) (h : ∀ k < ids.length, (findParam f (ids.getD k 0)).isSome) :
    ((List.range ids.length).find? fun k => (findParam f (ids.getD k 0)).isNone) = none := by
  rw [List.find?_eq_none]
  intro k hk
  have h2 := h k (by simpa using hk)
  simp only [Option.isNone_iff_eq_none]
  intro h3
  rw [h3] at h2
  simp at h2

/-- A session stays open under an update. -/
theorem modSess_isSome (b : State) (k j : Nat) (f : SessSt → SessSt) (hf : ∀ y, (f y).sid = y.sid) (h : (b.sess? j).isSome = true) :
    ((b.modSess k f).sess? j).isSome = true := by
  rw [sess_modSess _ _ _ _ hf]; simpa using h

/-- Sessions are found in the link state alone. -/
theorem sess_of_link {b c : State} (h : b.link.sess = c.link.sess) (j : Nat) : b.sess? j = c.sess? j := by
  unfold State.sess?; rw [h]

/-- An event leaves the unit and the link. -/
theorem raise_parts (b : State) (c d e : Nat) : (b.raise c d e).unit = b.unit ∧ (b.raise c d e).link = b.link := by
  unfold State.raise
  dsimp only
  split
  · exact ⟨rfl, rfl⟩
  · unfold State.highWater State.onlyIf
    split <;> exact ⟨rfl, rfl⟩

/-- Bulk write begin to a slot that does not run. -/
theorem linkBegin_slot (b : State) (sid target total : Nat) (digest : List Byte) (h3 : target < 2)
    (h4 : b.img.loaded = false ∨ b.n Pid.bootSlot ≠ target) (h5 : b.lat.pendingX = false) (h6 : b.n Pid.flashSize ≠ 0)
    (h7 : total ≤ b.slotBytes) (h8 : b.link.bulk = none) :
    b.linkBegin sid target total digest =
      (let c := b.modLink fun l => { l with bulk := some { sid := sid, target := target, total := total, digest := digest, erasing := true, lastAt := b.now } }
       ⟨0, [], ((c.setN (slotPid target) 1).setN Pid.bulkState (target * 256 + 1)).flashErase (c.slotAt target) c.slotBytes⟩) := by
  have gm : b.bulkMax target = b.slotBytes := by
    unfold State.bulkMax
    rw [if_neg (by omega), if_neg h6]
  unfold State.linkBegin
  rw [h8, gm, if_neg (by omega), if_neg (by rcases h4 with h | h <;> simp [h]), if_neg (by simp [h5]),
    if_neg (by omega), if_neg (by simp)]
  simp only [h3, decide_true, if_true]
  rfl

/-- A row of the link changes the flash only through the command it stands for. -/
theorem direct_flash (a : State) (sid : Nat) (io rb : Bool) (c : LinkCmd) :
    (a.direct sid io rb c).flash = a.flash ∨
      ∃ x, a.sess? sid = some x ∧ (a.direct sid io rb c).flash = ((a.heard x x.nextSeq).runCmd x x.path io rb c.formed).st.flash := by
  unfold State.direct
  cases hx : a.sess? sid with
  | none => exact .inl rfl
  | some x =>
    dsimp only
    have ha : ∀ (b : State) (cd st : Nat) (pl : List Byte), (if (b.sess? x.sid).isSome then b.answer x x.path x.ip x.port cd x.nextSeq st pl none else b).flash = b.flash := by
      intro b cd st pl
      split
      · exact (State.answer_evo (K := {}) (.start)).sameFlash rfl
      · rfl
    have hq : (a.request x x.path x.ip x.port x.nextSeq none io rb c.formed).flash =
        ((a.heard x x.nextSeq).judge x x.path x.ip x.nextSeq io rb c.formed).st.flash := by
      unfold State.request; dsimp only
      split
      · exact ((State.endSession_evo (K := {}) (.start)).sameFlash rfl).trans (ha _ _ _ _)
      · exact ha _ _ _ _
    split
    · exact .inl rfl
    rw [hq]
    unfold State.judge
    split
    · exact .inl rfl
    · split
      · split
        · left
          exact (State.raise_evo (K := {}) (s0 := a.heard x x.nextSeq) (.start)).sameFlash rfl
        · right
          refine ⟨x, rfl, ?_⟩
          exact (State.logAfter_evo (K := {}) (.start)).sameFlash rfl
      · exact .inr ⟨x, rfl, rfl⟩

end Sys2Proof.Machine
end

