-- ==== Sys2Proof/Laws/Ports.lean ====
section
/-! SUPPORT. The shared operations that leave the safety state and every port's state as they were, and the one that changes a
port's state (R110, R286-R291). -/

set_option Elab.async false

namespace Sys2Proof.Machine

/-- The safety state, and of every port its state and whether it is used. -/
def State.view (s : State) : SafSt × List (PortState × Bool) := (s.saf, s.ports.map fun q => (q.st, q.used))

/-- An operation leaves the safety state and the states of the ports as they were. -/
def Same (s0 s : State) : Prop := s.view = s0.view

variable {s0 s : State}

theorem same_setW {i w} (h : Same s0 s) : Same s0 (s.setW i w) := h

theorem same_setN {i w} (h : Same s0 s) : Same s0 (s.setN i w) := h

theorem same_setZ {i w} (h : Same s0 s) : Same s0 (s.setZ i w) := h

theorem same_setBit {i k w} (h : Same s0 s) : Same s0 (s.setBit i k w) := h

theorem same_bumpBy {i k} (h : Same s0 s) : Same s0 (s.bumpBy i k) := h

theorem same_bump {i} (h : Same s0 s) : Same s0 (s.bump i) := h

theorem same_latOut {i k w} (h : Same s0 s) : Same s0 (s.latOut i k w) := h

theorem same_onlyIf {b : Bool} {f : State → State} (h : Same s0 s) (hf : ∀ s, Same s0 s → Same s0 (f s)) : Same s0 (s.onlyIf b f) := by
  unfold State.onlyIf; split <;> [exact hf _ h; exact h]

theorem same_each {l : List Nat} {f : State → Nat → State} (h : Same s0 s) (hf : ∀ s k, Same s0 s → Same s0 (f s k)) : Same s0 (s.each l f) := by
  unfold State.each
  induction l generalizing s with
  | nil => exact h
  | cons x l ih => exact ih (hf _ _ h)

theorem same_fold {α} {l : List α} {f : State → α → State} (h : Same s0 s) (hf : ∀ s k, Same s0 s → Same s0 (f s k)) : Same s0 (l.foldl f s) := by
  induction l generalizing s with
  | nil => exact h
  | cons x l ih => exact ih (hf _ _ h)

theorem same_ite {c : Prop} [Decidable c] {a b : State} (ha : c → Same s0 a) (hb : ¬c → Same s0 b) : Same s0 (if c then a else b) := by
  split <;> [exact ha ‹_›; exact hb ‹_›]

theorem same_raise {c i x} (h : Same s0 s) : Same s0 (s.raise c i x) := by
  rw [State.raise_eq]; unfold State.qLost State.highWater
  refine same_ite (fun _ => same_bump h) (fun _ => same_onlyIf h fun s h => same_setN h)

theorem same_modLeg {l f} (h : Same s0 s) : Same s0 (s.modLeg l f) := h

theorem same_modIsl {l f} (h : Same s0 s) : Same s0 (s.modIsl l f) := h

theorem same_modTime {f} (h : Same s0 s) : Same s0 (s.modTime f) := h

theorem same_modTout {k f} (h : Same s0 s) : Same s0 (s.modTout k f) := h

theorem same_modLat {f} (h : Same s0 s) : Same s0 (s.modLat f) := h

theorem same_modStation {k f} (h : Same s0 s) : Same s0 (s.modStation k f) := h

theorem same_modCan {k f} (h : Same s0 s) : Same s0 (s.modCan k f) := h

theorem same_forget {k} (h : Same s0 s) : Same s0 (s.forget k) := h

theorem same_modLink {f} (h : Same s0 s) : Same s0 (s.modLink f) := h

theorem map_modify {α β} (l : List α) (k : Nat) (f : α → α) (g : α → β) (hf : ∀ x, g (f x) = g x) : (l.modify k f).map g = l.map g := by
  apply List.ext_getElem
  · simp
  · intro i h1 h2
    simp only [List.getElem_map, List.getElem_modify]
    split <;> simp [hf]

theorem same_modPort {p f} (h : Same s0 s) (hf : ∀ q : PortSt, (f q).st = q.st ∧ (f q).used = q.used) : Same s0 (s.modPort p f) := by
  unfold Same State.view State.modPort at *
  rw [map_modify _ _ _ _ (fun q => by simp [hf])]; exact h

theorem same_showIsl {i} (h : Same s0 s) : Same s0 (s.showIsl i) := h

theorem same_chgIsl {i f} (h : Same s0 s) : Same s0 (s.chgIsl i f) := h

theorem same_showLeg {i} (h : Same s0 s) : Same s0 (s.showLeg i) := h

theorem same_islDown {i} (h : Same s0 s) : Same s0 (s.islDown i) := h

theorem same_islOff {i} (h : Same s0 s) : Same s0 (s.islOff i) := h

theorem same_dropPending {i} (h : Same s0 s) : Same s0 (s.dropPending i) := h

theorem same_legOff {i} (h : Same s0 s) : Same s0 (s.legOff i) := by
  unfold State.legOff; dsimp only
  exact same_showLeg (same_setBit (same_modLeg (same_ite (fun _ => same_modLeg (same_dropPending (same_dropPending h)))
    (fun _ => same_islOff (same_islOff h)))))

theorem same_legsOff {p} (h : Same s0 s) : Same s0 (s.legsOff p) := same_each h fun _ _ h => same_legOff h

theorem same_dtReset {p l} (h : Same s0 s) : Same s0 (s.dtReset p l) := by
  unfold State.dtReset; exact same_modLeg (same_each h fun _ _ h => same_setN h)

theorem same_dtCauseEnd {p l k} (h : Same s0 s) : Same s0 (s.dtCauseEnd p l k) := by
  unfold State.dtCauseEnd; dsimp only
  exact same_ite (fun _ => same_onlyIf (same_setBit h) fun _ h => same_raise (same_dtReset h)) (fun _ => h)

theorem same_dtStart {p l} (h : Same s0 s) : Same s0 (s.dtStart p l) := by
  unfold State.dtStart; dsimp only
  exact same_dtCauseEnd (same_onlyIf (same_dtReset h) fun _ h => same_dtCauseEnd h)

theorem same_modOnState {p st} (h : Same s0 s) : Same s0 (s.modOnState p st) := by
  unfold State.modOnState
  split
  all_goals first
    | with_reducible exact h
    | with_reducible exact same_legsOff (same_onlyIf h fun _ h => same_setN h)
    | (dsimp only
       with_reducible refine same_each (same_each (same_onlyIf (same_modPort (same_onlyIf h fun _ h => same_raise h) ?_)
         fun _ h => same_setN h) fun _ _ h => same_modLeg h) fun _ _ h => same_setBit (same_modLeg (same_dtStart h))
       exact fun _ => ⟨rfl, rfl⟩)

theorem same_dropExcursion {p} (h : Same s0 s) : Same s0 (s.dropExcursion p) := by
  unfold State.dropExcursion
  exact same_ite (fun _ => same_setN (same_modPort h fun _ => ⟨rfl, rfl⟩)) (fun _ => h)

theorem same_glzHold {p} (h : Same s0 s) : Same s0 (s.glzHold p) := by
  unfold State.glzHold; dsimp only
  exact same_setBit (same_setN (same_setZ (same_setZ (same_setZ (same_setZ (same_modPort h fun _ => ⟨rfl, rfl⟩))))))

theorem same_lawRest {p} (h : Same s0 s) : Same s0 (s.lawRest p) := by
  unfold State.lawRest; exact same_setBit (same_setBit (same_setBit (same_modPort h fun _ => ⟨rfl, rfl⟩)))

theorem same_fbShow {p} (h : Same s0 s) : Same s0 (s.fbShow p) := h

theorem same_injAbort {c} (h : Same s0 s) : Same s0 (s.injAbort c) := by
  unfold State.injAbort; exact same_ite (fun _ => same_raise (same_setN (same_setN h))) (fun _ => h)

theorem same_dropClose {p} (h : Same s0 s) : Same s0 (s.dropClose p) := by
  unfold State.dropClose; exact same_modPort (same_latOut (same_latOut h)) fun _ => ⟨rfl, rfl⟩

theorem same_askOpen {p} (h : Same s0 s) : Same s0 (s.askOpen p) := by
  unfold State.askOpen; exact same_modPort (same_latOut h) fun _ => ⟨rfl, rfl⟩

theorem same_stationLost {k c} (h : Same s0 s) : Same s0 (s.stationLost k c) := by
  unfold State.stationLost; dsimp only
  exact same_raise (same_bump (same_setN (same_setN (same_modStation h))))

theorem same_canShow (h : Same s0 s) : Same s0 s.canShow := by
  unfold State.canShow
  refine same_each h fun s k h => ?_
  dsimp only
  exact same_ite (fun _ => same_setN h) (fun _ => same_each (same_modCan (same_setN h)) fun _ _ h => same_stationLost h)

theorem same_ethShow (h : Same s0 s) : Same s0 s.ethShow := same_each h fun _ _ h => same_setN h

theorem same_showValid {c} (h : Same s0 s) : Same s0 (s.showValid c) := by
  unfold State.showValid; dsimp only; exact same_setN (same_onlyIf h fun _ h => same_raise h)

theorem same_toutStep {k a b} (h : Same s0 s) : Same s0 (s.toutStep k a b) := by
  unfold State.toutStep; dsimp only
  refine same_ite (fun _ => h) fun _ => same_ite (fun _ => same_modTout (same_bumpBy h)) fun _ => same_ite (fun _ => ?_) fun _ => h
  exact same_raise (same_bump (same_setN (same_modTout (same_modTout h))))

theorem same_timeStepBy {d m} (h : Same s0 s) : Same s0 (s.timeStepBy d m) := by
  unfold State.timeStepBy; dsimp only
  exact same_showValid (same_each (same_raise (same_bump (same_setZ (same_setZ (same_modTime h))))) fun _ _ h => same_toutStep h)

theorem same_bulkAbort {w} (h : Same s0 s) : Same s0 (s.bulkAbort w) := by
  unfold State.bulkAbort
  split
  · exact h
  · dsimp only; exact same_raise (same_onlyIf (same_setN (same_modLink h)) fun _ h => same_setN (same_modLat h))

theorem same_endSession {a b} (h : Same s0 s) : Same s0 (s.endSession a b) := by
  unfold State.endSession
  split
  · exact h
  · dsimp only
    split
    · exact same_ite (fun _ => same_bulkAbort (same_raise (same_setN (same_modLink h)))) fun _ => same_raise (same_setN (same_modLink h))
    · exact same_raise (same_setN (same_modLink h))

theorem same_endSessions {b} (h : Same s0 s) : Same s0 (s.endSessions b) := same_fold h fun _ _ h => same_endSession h

theorem same_gotoUnit {u c} (h : Same s0 s) : Same s0 (s.gotoUnit u c) := by
  unfold State.gotoUnit; dsimp only
  refine same_ite (fun _ => h) fun _ => same_ethShow (same_canShow (same_onlyIf (same_onlyIf (same_onlyIf (same_setN (same_setN ?_)) fun _ h => same_forget h)
    fun s h => ?_) fun _ h => same_endSessions h))
  · exact same_onlyIf (f := fun s => (s.setN Pid.pairState 0).setN Pid.sbFit 0) h fun _ h => same_setN (same_setN h)
  · split <;> [exact same_timeStepBy h; exact h]

theorem same_recompute {c} (h : Same s0 s) : Same s0 (s.recompute c) := by
  unfold State.recompute
  split <;> first | exact h | exact same_ite (fun _ => same_gotoUnit h) fun _ => same_gotoUnit h

theorem same_setEnable {b i} (h : Same s0 s) : Same s0 (s.setEnable b i) := by
  unfold State.setEnable; dsimp only
  exact same_ite (fun _ => h) fun _ => same_showLeg (same_chgIsl (same_onlyIf h fun _ h => same_islDown h))

theorem same_setEnables {b} (h : Same s0 s) : Same s0 (s.setEnables b) := by
  unfold State.setEnables; exact same_each (s := { s with unit := _ }) h fun _ _ h => same_setEnable h

theorem same_autoPrune {p} (h : Same s0 s) : Same s0 (s.autoPrune p) := by
  unfold State.autoPrune; dsimp only; exact same_setN (same_modPort h fun _ => ⟨rfl, rfl⟩)

theorem same_autoArm {p} (h : Same s0 s) : Same s0 (s.autoArm p) := by
  unfold State.autoArm; dsimp only
  exact same_ite (fun _ => same_setBit (same_modPort (same_autoPrune h) fun _ => ⟨rfl, rfl⟩)) fun _ =>
    same_raise (same_setBit (same_setBit (same_modPort (same_autoPrune h) fun _ => ⟨rfl, rfl⟩)))

theorem same_autoStart {p k} (h : Same s0 s) : Same s0 (s.autoStart p k) := by
  unfold State.autoStart; exact same_ite (fun _ => same_autoArm h) fun _ => h
/-- A change of port state writes that state, and nothing else of the view. -/
theorem same_setPort {p : Nat} {st : PortState} (h : (s.port p).st ≠ st) : Same ({ s with ports := s.ports.modify p fun q => { q with st := st } }) (s.setPort p st) := by
  unfold State.setPort State.setPortBy; dsimp only
  rw [if_neg h]
  refine same_recompute ?_
  refine same_onlyIf (same_onlyIf (same_onlyIf (same_latOut (same_latOut (same_modOnState (same_onlyIf (same_onlyIf (same_onlyIf (same_onlyIf (same_onlyIf (same_setN ?_) ?_) ?_) ?_) ?_) ?_)))) ?_) ?_) ?_
  · unfold Same State.view State.modPort
    have e : (s.raise 0x0801 p ((s.port p).st.code * 256 + st.code)).view = s.view := same_raise (s0 := s) rfl
    have e1 : (s.raise 0x0801 p ((s.port p).st.code * 256 + st.code)).saf = s.saf := congrArg Prod.fst e
    have e2 : (s.raise 0x0801 p ((s.port p).st.code * 256 + st.code)).ports = s.ports := by
      have := congrArg State.ports (State.raise_frame s 0x0801 p ((s.port p).st.code * 256 + st.code))
      exact this
    dsimp only
    rw [e1, e2]
    congr 1
    apply List.ext_getElem
    · simp
    · intro i h1 h2
      simp only [List.getElem_map, List.getElem_modify]
      split <;> simp
  all_goals intro s h
  · exact same_setN (same_modPort h fun _ => ⟨rfl, rfl⟩)
  · exact same_dropExcursion h
  · exact same_glzHold h
  · exact same_lawRest h
  · exact same_injAbort h
  · exact same_modPort (same_dropClose h) fun _ => ⟨rfl, rfl⟩
  · exact same_fbShow (same_setW (same_latOut (same_modPort h fun _ => ⟨rfl, rfl⟩)))
  · exact same_setW (same_fbShow (same_modPort h fun _ => ⟨rfl, rfl⟩))

/-- The state of a port and its use. -/
theorem view_port {s0 s : State} (h : Same s0 s) (p : Nat) : (s.port p).st = (s0.port p).st ∧ (s.port p).used = (s0.port p).used := by
  have h2 := congrArg Prod.snd h
  have h3 := congrArg (fun l => l.getD p (({} : PortSt).st, ({} : PortSt).used)) h2
  have k : ∀ t : State, (t.view.2).getD p (({} : PortSt).st, ({} : PortSt).used) = ((t.port p).st, (t.port p).used) := by
    intro t
    unfold State.view State.port
    simp only [List.getD_eq_getElem?_getD, List.getElem?_map]
    cases t.ports[p]? <;> rfl
  have h4 : ((s.port p).st, (s.port p).used) = ((s0.port p).st, (s0.port p).used) := by rw [← k, ← k]; exact h3
  exact ⟨congrArg Prod.fst h4, congrArg Prod.snd h4⟩

/-- The safety state. -/
theorem view_saf {s0 s : State} (h : Same s0 s) : s.saf = s0.saf := congrArg Prod.fst h

/-- A used port is one of the ports. -/
theorem used_lt {s : State} {p : Nat} (h : p ∈ s.usedPorts) : p < s.ports.length := by
  have := (List.mem_filter.1 h).2
  by_contra hp
  unfold State.port at this
  rw [List.getD_eq_default _ _ (by omega)] at this
  cases this

/-- The number of ports. -/
theorem same_len {s0 s : State} (h : Same s0 s) : s.ports.length = s0.ports.length := by
  have k := congrArg (fun v => v.2.length) h
  simpa only [State.view, List.length_map] using k

/-- The used ports. -/
theorem same_used {s0 s : State} (h : Same s0 s) : s.usedPorts = s0.usedPorts := by
  unfold State.usedPorts
  congr 1
  funext p
  exact (view_port h p).2

/-- The onset of one cause. -/
theorem same_safCause {s0 s : State} {c} (h : Same s0 s) : Same s0 (s.safCause c) := by
  unfold State.safCause; dsimp only; exact same_raise (same_onlyIf h fun _ h => same_setN h)

/-- The onset of causes. -/
theorem same_safOnset {s0 s : State} {cs} (h : Same s0 s) : Same s0 (s.safOnset cs) := by
  unfold State.safOnset
  refine same_ite (fun _ => h) fun _ => ?_
  dsimp only
  have k := same_fold (l := ((List.range 16).flatMap fun c => cs.filter fun x => x.1 = c)) (f := State.safCause) h fun _ _ h => same_safCause h
  exact same_ite (fun _ => same_bump (same_gotoUnit k)) fun _ => same_ite (fun _ => k) fun _ => k

/-- Abandoning a holding test keeps the faults and the used ports. -/
theorem same_holdAbort {s0 s : State} {c} (h : Same s0 s) : (s.holdAbort c).saf.faults = s0.saf.faults ∧ (s.holdAbort c).usedPorts = s0.usedPorts ∧ (s.holdAbort c).ports.length = s0.ports.length := by
  unfold State.holdAbort
  split
  · have k : Same (s.modSaf fun f => { f with test := none }) (((s.modSaf fun f => { f with test := none }).setN Pid.holdTestResult 3).raise 0x1C2B 0 c) := same_raise (same_setN rfl)
    refine ⟨?_, ?_, ?_⟩
    · rw [view_saf k]; have h2 := congrArg SafSt.faults (view_saf h); exact h2
    · rw [same_used k]; have h2 := same_used h; exact h2
    · rw [same_len k]; have h2 := same_len h; exact h2
  · exact ⟨congrArg SafSt.faults (view_saf h), same_used h, same_len h⟩

end Sys2Proof.Machine
end

