-- ==== Sys2Proof/Laws/Units.lean ====
section
/-! SUPPORT. The shared operations that leave the unit's state and the words that show it as they were (R84-R86). -/

set_option Elab.async false

namespace Sys2Proof.Machine

/-- The unit's state and the words unit_state and last_cause are as before. -/
def KeptU (s0 s : State) : Prop :=
  s.unit.st = s0.unit.st ∧ s.w Pid.unitState = s0.w Pid.unitState ∧ s.w Pid.lastCause = s0.w Pid.lastCause

/-- An indexed word beyond the unit's block is neither of the two. -/
theorem unit_ne {b k : Nat} (h : 0x020001 < b) : Pid.unitState ≠ b + 0x100 * k ∧ Pid.lastCause ≠ b + 0x100 * k := by
  simp only [Pid.unitState, Pid.lastCause]; omega

variable {s0 s : State}

/-- Writing another word. -/
theorem keptU_setW {i w} (h : KeptU s0 s) (h1 : Pid.unitState ≠ i := by decide) (h2 : Pid.lastCause ≠ i := by decide) : KeptU s0 (s.setW i w) :=
  ⟨h.1, (State.setW_other s w h1).trans h.2.1, (State.setW_other s w h2).trans h.2.2⟩

/-- Writing another word. -/
theorem keptU_setN {i w} (h : KeptU s0 s) (h1 : Pid.unitState ≠ i := by decide) (h2 : Pid.lastCause ≠ i := by decide) : KeptU s0 (s.setN i w) := keptU_setW h h1 h2

/-- Writing another word. -/
theorem keptU_setZ {i w} (h : KeptU s0 s) (h1 : Pid.unitState ≠ i := by decide) (h2 : Pid.lastCause ≠ i := by decide) : KeptU s0 (s.setZ i w) := keptU_setW h h1 h2

/-- A guarded operation. -/
theorem keptU_onlyIf {b : Bool} {f : State → State} (h : KeptU s0 s) (hf : ∀ s, KeptU s0 s → KeptU s0 (f s)) : KeptU s0 (s.onlyIf b f) := by
  unfold State.onlyIf; split <;> [exact hf _ h; exact h]

/-- Operations over a list. -/
theorem keptU_fold {α} {l : List α} {f : State → α → State} (h : KeptU s0 s) (hf : ∀ s k, KeptU s0 s → KeptU s0 (f s k)) : KeptU s0 (l.foldl f s) := by
  induction l generalizing s with
  | nil => exact h
  | cons x l ih => exact ih (hf _ _ h)

/-- Operations over a list. -/
theorem keptU_each {l : List Nat} {f : State → Nat → State} (h : KeptU s0 s) (hf : ∀ s k, KeptU s0 s → KeptU s0 (f s k)) : KeptU s0 (s.each l f) := keptU_fold h hf

/-- Either branch. -/
theorem keptU_ite {c : Prop} [Decidable c] {a b : State} (ha : c → KeptU s0 a) (hb : ¬c → KeptU s0 b) : KeptU s0 (if c then a else b) := by
  split <;> [exact ha ‹_›; exact hb ‹_›]

/-- Raising an event. -/
theorem keptU_raise {c i x} (h : KeptU s0 s) : KeptU s0 (s.raise c i x) := by
  rw [State.raise_eq]; unfold State.qLost State.highWater State.bump State.bumpBy
  refine keptU_ite (fun _ => ?_) (fun _ => ?_)
  · exact keptU_setN (s := { s with ev := _ }) h
  · exact keptU_onlyIf (s := { s with ev := _ }) h fun s h => keptU_setN h

/-- Counting. -/
theorem keptU_bumpBy {i w} (h : KeptU s0 s) (h1 : Pid.unitState ≠ i := by decide) (h2 : Pid.lastCause ≠ i := by decide) : KeptU s0 (s.bumpBy i w) := keptU_setN h h1 h2

/-- Counting. -/
theorem keptU_bump {i} (h : KeptU s0 s) (h1 : Pid.unitState ≠ i := by decide) (h2 : Pid.lastCause ≠ i := by decide) : KeptU s0 (s.bump i) := keptU_setN h h1 h2

/-- A lost station. -/
theorem keptU_stationLost {k c} (h : KeptU s0 s) : KeptU s0 (s.stationLost k c) := by
  unfold State.stationLost; dsimp only
  exact keptU_raise (keptU_bump (keptU_setN (keptU_setN (s := s.modStation k _) h (unit_ne (by decide)).1
    (unit_ne (by decide)).2) (unit_ne (by decide)).1 (unit_ne (by decide)).2) (unit_ne (by decide)).1 (unit_ne (by decide)).2)

/-- Showing the CAN states. -/
theorem keptU_canShow (h : KeptU s0 s) : KeptU s0 s.canShow := by
  unfold State.canShow
  refine keptU_each h fun s k h => ?_
  dsimp only
  refine keptU_ite (fun _ => keptU_setN h (unit_ne (by decide)).1 (unit_ne (by decide)).2) (fun _ => keptU_each ?_ fun _ _ h => keptU_stationLost h)
  have := keptU_setN (i := Pid.canState k) (w := s.canCode k) h (unit_ne (by decide)).1 (unit_ne (by decide)).2
  exact this

/-- Showing the link states. -/
theorem keptU_ethShow (h : KeptU s0 s) : KeptU s0 s.ethShow := keptU_each h fun _ _ h => keptU_setN h (unit_ne (by decide)).1 (unit_ne (by decide)).2

/-- Showing time validity. -/
theorem keptU_showValid {c} (h : KeptU s0 s) : KeptU s0 (s.showValid c) := by
  unfold State.showValid; dsimp only; exact keptU_setN (keptU_onlyIf h fun _ h => keptU_raise h)

/-- A timed output over a step of time. -/
theorem keptU_toutStep {k a b} (h : KeptU s0 s) : KeptU s0 (s.toutStep k a b) := by
  unfold State.toutStep; dsimp only
  refine keptU_ite (fun _ => h) fun _ => keptU_ite (fun _ => ?_) fun _ => keptU_ite (fun _ => ?_) fun _ => h
  · exact keptU_bumpBy (s := s.modTout k _) h (unit_ne (by decide)).1 (unit_ne (by decide)).2
  · refine keptU_raise (keptU_bump (keptU_setN (s := (s.toutFire k).modTout k _) h (unit_ne (by decide)).1 (unit_ne (by decide)).2) (unit_ne (by decide)).1 (unit_ne (by decide)).2)

/-- A step of internal time. -/
theorem keptU_timeStepBy {d m} (h : KeptU s0 s) : KeptU s0 (s.timeStepBy d m) := by
  unfold State.timeStepBy; dsimp only
  refine keptU_showValid (keptU_each (keptU_raise (keptU_bump (keptU_setZ (keptU_setZ ?_)))) fun _ _ h => keptU_toutStep h)
  exact h

/-- Abandoning a bulk write. -/
theorem keptU_bulkAbort {w} (h : KeptU s0 s) : KeptU s0 (s.bulkAbort w) := by
  unfold State.bulkAbort
  split
  · exact h
  · dsimp only
    refine keptU_raise (keptU_onlyIf (keptU_setN (s := s.modLink _) h) fun s h => keptU_setN (s := s.modLat _) h)

/-- Ending a session. -/
theorem keptU_endSession {a b} (h : KeptU s0 s) : KeptU s0 (s.endSession a b) := by
  unfold State.endSession
  split
  · exact h
  · dsimp only
    split
    · exact keptU_ite (fun _ => keptU_bulkAbort (keptU_raise (keptU_setN (s := s.modLink _) h))) fun _ => keptU_raise (keptU_setN (s := s.modLink _) h)
    · exact keptU_raise (keptU_setN (s := s.modLink _) h)

end Sys2Proof.Machine
end

