-- ==== Sys2Proof/WellFormed.lean ====
section
/-! DEFINITION. Well-formed commands: every index names a part that the 4P has (R2, R20), and every operand fits its field. The
meanings are total: an ill-formed command names nothing and has no effect of its own. -/

namespace Sys2Proof

/-- One of four ports (R20). -/
def portOk (p : Nat) : Bool := decide (p < 4)
/-- One of 24 legs (R24). -/
def legOk (l : Nat) : Bool := decide (l < 24)
/-- One of 48 gate islands or switches (R256). -/
def islandOk (i : Nat) : Bool := decide (i < 48)
/-- One of four leg groups. -/
def groupOk (g : Nat) : Bool := decide (g < 4)
/-- A conversion of a period beyond the first (R208). -/
def convOk (i : Nat) : Bool := decide (1 ≤ i ∧ i < 10)
/-- The codes of one group's channels (R206). -/
def rawsOk (l : List Int) : Bool := decide (l.length = 12)
/-- One of 48 fast channels (R206). -/
def fastOk (ch : Nat) : Bool := decide (ch < 48)
/-- One of 32 slow channels (R219). -/
def slowOk (ch : Nat) : Bool := decide (ch < 32)
/-- One of four slow modulators (R219). -/
def smodOk (m : Nat) : Bool := decide (m < 4)
/-- A role of a quantity (R92). -/
def fbRoleOk (r : Nat) : Bool := decide (1 ≤ r ∧ r ≤ 7)
/-- One of six extra compares of a leg (R246). -/
def compareOk (k : Nat) : Bool := decide (k < 6)
/-- One of eight trip inputs (R267). -/
def tripOk (n : Nat) : Bool := decide (n < 8)
/-- One of eight safe inputs (R299). -/
def sinOk (n : Nat) : Bool := decide (n < 8)
/-- One of six safety outputs (R302). -/
def soutOk (k : Nat) : Bool := decide (k < 6)
/-- One of two brake coils (R293). -/
def coilOk (k : Nat) : Bool := decide (k < 2)
/-- One of four paths: ETHA, ETHB, CAN1, CAN2 (R410). -/
def pathOk (q : Nat) : Bool := decide (q < 4)
/-- One of two CAN channels (R364). -/
def canOk (ch : Nat) : Bool := decide (ch < 2)
/-- One of two Ethernet ports (R376). -/
def ethOk (e : Nat) : Bool := decide (e < 2)
/-- One of four time outputs (R387). -/
def toutOk (k : Nat) : Bool := decide (k < 4)
/-- One of two capture functions (R421): instance 0x01 or 0x02 (R434). -/
def capOk (f : Nat) : Bool := decide (f = 1 ∨ f = 2)
/-- One of eight remote stations (R351). -/
def stationOk (st : Nat) : Bool := decide (st < 8)
/-- TPDO1 or TPDO2 (R351). -/
def tpdoOk (n : Nat) : Bool := decide (n = 1 ∨ n = 2)
/-- One of two image slots (R67). -/
def slotOk (k : Nat) : Bool := decide (k < 2)
/-- One of 32 peers (R415). -/
def peerOk (i : Nat) : Bool := decide (i < 32)
/-- A 32-bit field. -/
def wordOk (n : Nat) : Bool := decide (n < 2 ^ 32)
/-- A UDP port. -/
def udpOk (n : Nat) : Bool := decide (n < 65536)
/-- A parameter identifier has 24 bits (R7). -/
def idOk (id : Nat) : Bool := decide (id < 2 ^ 24)
/-- The identifiers of a Read or Subscribe. -/
def idsOk (l : List Nat) : Bool := decide (l.length ≤ 350) && l.all wordOk
/-- The items of a Write (R402). -/
def itemsOk (l : List (Nat × Word)) : Bool := decide (1 ≤ l.length ∧ l.length ≤ 175) && l.all fun e => wordOk e.1
/-- A SHA-256 digest. -/
def digestOk (l : List Byte) : Bool := decide (l.length = 32)
/-- The row conflicts of the two capture functions (R425). -/
def lostOk (l : List Bool) : Bool := decide (l.length ≤ 2)
/-- A CAN frame (R364): its identifier fits its format, its data the frame. -/
def frameOk (f : CanFrame) : Bool :=
  decide (f.id < if f.ext then 2 ^ 29 else 2 ^ 11) && decide (f.data.length ≤ if f.fd then 64 else 8)
/-- The partitions of a comparison: each port's inner and outer one at most once (R165). -/
def partsOk (l : List PartIn) : Bool := l.all (fun x => portOk x.port) && decide (l.map fun x => (x.port, x.outer)).Nodup
/-- The declared ports of an image (R26): each at most once, owning groups. -/
def contentOk (c : ContentIn) : Bool :=
  c.ports.all (fun d => portOk d.port && d.groups.all groupOk) && decide (c.ports.map fun d => d.port).Nodup

/-- A well-formed command. -/
def Instr.wf (c : Instr) : Bool :=
  match c with
  | .vinRise _ => true
  | .vinUndervoltage _ => true
  | .shellWatchdogExpiry _ => true
  | .resetComplete _ => true
  | .bootReferenceSelect _ _ _ => true
  | .lockDeclared _ _ => true
  | .lockAttemptTimeout _ => true
  | .referenceLoss _ _ => true
  | .phaseWindowLoss _ _ => true
  | .relockAttempt _ _ => true
  | .attemptCountReset _ => true
  | .safeCrossMonitor _ => true
  | .sfdpRead _ _ => true
  | .slotCheck _ slot => slotOk slot
  | .contentCheck _ c => contentOk c
  | .selfTestComplete _ _ => true
  | .restart _ _ _ => true
  | .nextSlotWrite _ _ _ => true
  | .parameterWrite _ _ id _ => idOk id
  | .periodTick _ _ _ lost => lostOk lost
  | .fastConversion _ g i raws => groupOk g && convOk i && rawsOk raws
  | .sampleEntry _ p _ _ => portOk p
  | .feedbackLost _ p role _ => portOk p && fbRoleOk role
  | .feedbackRecover _ p role => portOk p && fbRoleOk role
  | .laneCompletion _ _ _ => true
  | .computeDeadline _ => true
  | .compareWindowEnd _ parts => partsOk parts
  | .outerStep _ p _ => portOk p
  | .excursionClose _ p => portOk p
  | .limReleaseExpiry _ p => portOk p
  | .hardBudgetExhausted _ p => portOk p
  | .hardBudgetRefilled _ p => portOk p
  | .energise _ _ p _ => portOk p
  | .stopPort _ _ p => portOk p
  | .stopUnit _ _ => true
  | .armTimeout _ p => portOk p
  | .busDeadDetected _ p => portOk p
  | .busLiveDetected _ p _ _ => portOk p
  | .backoffExpiry _ p => portOk p
  | .coordinatedStart _ p => portOk p
  | .scheduleCancel _ p => portOk p
  | .syncDwellComplete _ p => portOk p
  | .closeTimeout _ p => portOk p
  | .syncTimeout _ p => portOk p
  | .stopTimeout _ p => portOk p
  | .injStart _ _ => true
  | .injStop _ _ => true
  | .frPointComplete _ _ _ _ _ => true
  | .injectionComplete _ => true
  | .railWindowEnd _ => true
  | .railReadbackFault _ _ => true
  | .prooferSecond _ => true
  | .ladderChange _ => true
  | .ladderCmdRung _ _ _ => true
  | .ladderRestore _ _ => true
  | .datedWarningRepeat _ => true
  | .prooferHour _ => true
  | .vceMeasurement _ sw _ _ => islandOk sw
  | .vceRebase _ _ p _ => portOk p
  | .windowComparatorFire _ ch _ => fastOk ch
  | .windowComparatorRelease _ ch => fastOk ch
  | .faClear _ _ ch _ => fastOk ch
  | .slowScanStart _ m => smodOk m
  | .slowConversionDone _ ch _ => slowOk ch
  | .slowOverRange _ ch _ => slowOk ch
  | .slowResultStale _ ch => slowOk ch
  | .carrierBoundary _ l => legOk l
  | .legEdge _ l => legOk l
  | .deadTimeExpiry _ l => legOk l
  | .extraCompareFire _ l k _ => legOk l && compareOk k
  | .modRelease _ _ p _ => portOk p
  | .nsCrossingReport _ l _ _ _ => legOk l
  | .dtAdaptiveResume _ l => legOk l
  | .keepAliveSend _ => true
  | .islandOnCommand _ i => islandOk i
  | .islandOffCommand _ i => islandOk i
  | .offConfirm _ i => islandOk i
  | .turnOnTimeout _ i => islandOk i
  | .gateNotOff _ i => islandOk i
  | .islandWatchdogExpiry _ i => islandOk i
  | .islandLost _ i => islandOk i
  | .desaturation _ i => islandOk i
  | .gatePlateauMissing _ i => islandOk i
  | .gateNotOn _ i => islandOk i
  | .islandUndervoltage _ i _ _ => islandOk i
  | .islandSupplyRecover _ i => islandOk i
  | .softOffFullStrength _ i => islandOk i
  | .legFaultRunEnd _ p => portOk p
  | .islPulse _ _ i _ => islandOk i
  | .islPulseEnd _ i => islandOk i
  | .tripInputAssert _ n => tripOk n
  | .tripInputRelease _ n => tripOk n
  | .protClear _ _ p _ => portOk p
  | .autoClear _ p => portOk p
  | .istCmd _ _ i _ => islandOk i
  | .istComplete _ i _ => islandOk i
  | .safetyEvaluation _ _ _ => true
  | .sgoDemand _ _ input => sinOk input
  | .safeInputChange _ n _ _ => sinOk n
  | .inputDiscrepancy _ n => sinOk n
  | .inputTestPulse _ n _ _ => sinOk n
  | .outputOffPulse _ k _ => soutOk k
  | .outputReadbackFault _ k => soutOk k
  | .vsoUndervoltage _ => true
  | .coilCheck _ k _ _ _ => coilOk k
  | .holdingTestEnd _ => true
  | .mirrorTimeExpiry _ => true
  | .strapRead _ _ _ => true
  | .safetyCommit _ _ _ _ => true
  | .safetyPacketCopy _ path _ => pathOk path
  | .safetyWindowClose _ => true
  | .packetTimeout _ => true
  | .statusPacketSend _ => true
  | .safetyReset _ _ => true
  | .pairFrameReceive _ _ _ _ => true
  | .pairAnnounce _ => true
  | .mismatchRepeat _ => true
  | .leaseMarkReceive _ _ => true
  | .renewalUnconfirmedLimit _ => true
  | .leaseExpiryTakeover _ => true
  | .biscuitTake _ => true
  | .pairSolo _ _ _ => true
  | .pairHandover _ _ _ => true
  | .standbyIslandTest _ _ => true
  | .standbyHealthTimeout _ => true
  | .pairFrameSilence _ => true
  | .latticeCycleStart _ _ => true
  | .latticeExecutionEnd _ _ => true
  | .latticeWatchdog _ => true
  | .latticeForce _ _ _ => true
  | .latticeUnforce _ _ _ => true
  | .latFlagsClear _ _ _ => true
  | .latActivate _ _ _ => true
  | .programExchange _ _ => true
  | .heartbeatReceive _ st _ => stationOk st
  | .heartbeatTimeout _ st => stationOk st
  | .tpdoReceive _ st n _ => stationOk st && tpdoOk n
  | .canFrameReceive _ ch f _ => canOk ch && frameOk f
  | .canSubmit _ ch f _ => canOk ch && frameOk f
  | .canTxAttemptEnd _ ch _ _ => canOk ch
  | .busOffRecovery _ ch => canOk ch
  | .canBusoffCmd _ _ ch _ => canOk ch
  | .timeReferenceSend _ ch => canOk ch
  | .canSourceTimeout _ ch => canOk ch
  | .ethLinkUp _ e => ethOk e
  | .ethLinkDown _ e => ethOk e
  | .ethFrameReceive _ e _ _ => ethOk e
  | .ptpSyncLoss _ e => ethOk e
  | .ptpFailback _ => true
  | .txtsDiscard _ e => ethOk e
  | .holdoverExpiry _ => true
  | .timeStep _ _ _ => true
  | .toutArm _ _ k _ => toutOk k
  | .timeOutPulse _ k => toutOk k
  | .timeOutPulseEnd _ k => toutOk k
  | .blDatagramReceive _ e ip port _ => ethOk e && wordOk ip && udpOk port
  | .blSegmentReceive _ ch _ => canOk ch
  | .blReassemblyTimeout _ ch => canOk ch
  | .blPacketProcess _ _ _ => true
  | .sessionOpen _ path ip port _ => pathOk path && wordOk ip && udpOk port
  | .sessionIdle _ sid => wordOk sid
  | .read _ sid ids => wordOk sid && idsOk ids
  | .write _ sid items => wordOk sid && itemsOk items
  | .bulkRead _ sid _ _ _ => wordOk sid
  | .bulkWriteBegin _ sid _ _ digest => wordOk sid && digestOk digest
  | .bulkWriteData _ sid _ _ => wordOk sid
  | .bulkWriteEnd _ sid _ => wordOk sid
  | .slotEraseDone _ => true
  | .bulkWriteTimeout _ => true
  | .subscribe _ sid _ _ ids => wordOk sid && idsOk ids
  | .readEvents _ sid _ _ => wordOk sid
  | .reBind _ sid _ _ => wordOk sid
  | .replaceIntegratorKey _ sid _ _ => wordOk sid
  | .raiseFloor _ sid _ _ => wordOk sid
  | .closeSession _ sid => wordOk sid
  | .telemetrySend _ sid => wordOk sid
  | .announceSend _ => true
  | .peerAbsent _ i => peerOk i
  | .auditEntryWrite _ => true
  | .responseSegmentRetry _ => true
  | .eventWriterTake _ => true
  | .captureTrigger _ f _ => capOk f
  | .crumbComplete _ f => capOk f
  | .captureRearm _ f => capOk f
  | .crArm _ _ f => capOk f
  | .crDisarm _ _ f => capOk f
  | .crForce _ _ f _ => capOk f
  | .crumbLockExpiry _ => true
  | .controlSupplyLost _ => true
  | .canErrorDetected _ ch _ => canOk ch
  | .bulkReadCopyExpiry _ sid => wordOk sid
  | .midPeriodLoad _ l => legOk l
  | .ilMinTimeElapsed _ i => islandOk i
  | .gateAbovePlateau _ i => islandOk i
  | .pdelayReqSend _ => true
  | .grandmasterSyncSend _ => true
  | .autoWindowAgeOut _ p => portOk p

end Sys2Proof
end

