-- ==== Sys2Proof/Tests/Slice0.lean ====
section
/-! SUPPORT. Tests of the model: well-formedness, published vectors and the spec's worked examples, single steps, and for every
statement of Certificates/Slice0 with hypotheses a state and operands that meet them (one part per clause, in the clauses' order). -/

set_option Elab.async false

open Sys2Proof Sys2Proof.Machine

/-! ### States -/

/-- READY, crystal locked. -/
def wReady : State := { State.reset with unit := { st := .ready }, ref := { boot := .crystal, lockedTo := some .crystal } }
/-- READY with a two-level port 1 on group 0. -/
def wPort : State := (wReady.modPort 1 fun q => { q with used := true, stepAt := some (10 ^ 18) }).setN Pid.safetyState 0
def wSelfTest : State := { State.reset with unit := { st := .selfTest }, ref := { boot := .crystal, lockedTo := some .crystal }, img := { loaded := true } }
def wArmed : State := wPort.modPort 1 fun q => { q with st := .armed, mode := 1, accepted := true }
def wSync : State := wPort.modPort 1 fun q => { q with st := .syncing, dwellFrom := some 0, accepted := true }
/-- RUN with port 1 running. -/
def wRun : State := { (wPort.modPort 1 fun q => { q with st := .run, accepted := true }) with unit := { st := .run } }
def wInj : State := { ([(Pid.injPort, 1), (Pid.injWave, 3), (Pid.ssFStart, 1000), (Pid.ssFStop, 2000), (Pid.injDest, 2), (Pid.injAllow, 1), (Pid.respPointA, 0xFFFFFFFF),
  (Pid.injAmp, 0), (Pid.injPoint, 0), (Pid.respPointB, 0)].foldl (fun s w => s.setN w.1 w.2) wRun) with
  img := { graphs := [{ port := 1, outer := false, blocks := [{ typ := 1, optional := false, bypass := false, rank := 0, cost := 1, ins := 1, outs := 1, key := 0 }] }] } }
def wConv : State := (({ wRun with img := { loaded := true }, eng := { count := 1 } }).setN (Pid.grpOs 0) 4).setN Pid.engineState 1
def wEdge : State := (((wRun.setN (Pid.modState 1) 3).setN (Pid.dActive 0) 134217728).setN (Pid.pActive 1) 1000)
def wCmp (k : Nat) : State := (wRun.setN (Pid.modState 1) 3).modLeg 0 fun x => { x with xcNow := [BitVec.ofNat 32 (k * 2 ^ 24), 0, 0, 0, 0, 0] }
def wMid : State := (((wRun.setN (Pid.modState 1) 3).setN (Pid.updMode 1) 1).setN (Pid.shPeriod 1) 5000)
def wIsl : State := wRun.modIsl 3 fun x => { x with enable := true }
def wPulse : State := ((wPort.modIsl 3 fun x => { x with enable := true }).setN (Pid.modState 1) 1)
/-- Safety profile in force. -/
def wSaf : State := (wReady.modSaf fun f => { f with inForce := true }).setN Pid.profileWord 0x348
/-- Its safety block confirmed. -/
def wSafC : State := { wSaf with img := { loaded := true } }
def wSafOut : State := wSaf.modSaf fun f => { f with sout := f.sout.set 2 { cmd := true } }
def wStill : State := wSaf.modSaf fun f => { f with sin := (f.sin.set 2 { perm := true }).set 3 { perm := true } }
def wPkt : State := [(Pid.spPeer 0, 1)].foldl (fun s w => s.setN w.1 w.2) wSaf
def wCommit : State := ({ wReady with unit := { st := .safeStop }, saf := { blkProfile := 0x2148, blkCrc := 5, strapLast := some 0x2148 } }.setN Pid.safetyCommitsLeft 3).setN Pid.safetyFormat 1
def wSafeStop : State := { wReady with unit := { st := .safeStop }, img := { loaded := true }, saf := { resetIn := true, sin := (List.replicate 8 ({} : SinSt)).set 0 { perm := true } } }.setN Pid.safetyFormat 2
def wVce : State := ((((wRun.modIsl 3 fun x => { x with on := true }).setN (Pid.saRole 0) 0x0102).setN (Pid.saStatus 0) 0).setZ (Pid.saValue 0) 25000).modSch 0 fun x => { x with at_ := some 0 }
def wLat : State := (wRun.setN Pid.latState 1).modLat fun x => { x with may := true, present := true }
def wSt : State := [(Pid.rioNode 0, 5), (Pid.rioState 0, 1), (Pid.rioCan 0, 1), (Pid.canMode 0, 1)].foldl (fun s w => s.setN w.1 w.2) wLat
def wCan : State := wReady.setN (Pid.canMode 0) 1
def wEth : State := (wReady.setN (Pid.ethEnable 1) 1).setN (Pid.ethLink 1) 2
def wFail : State := ([(Pid.ethEnable 0, 1), (Pid.ethLink 0, 2), (Pid.ptpAsCapable 0, 1), (Pid.ptpPort, 2), (Pid.ptpActive, 1)].foldl (fun s w => s.setN w.1 w.2) wReady).modPtp 0 fun p => { p with gm := some (1, 2) }
def wSessSt (r : Role) : SessSt := { sid := 7, role := r, krq := 0, krs := 0, path := 1, ip := 9, port := 9, lastAt := 0 }
def wSess (r : Role) : State := wEth.modLink fun l => { l with sess := [wSessSt r] }
def wPeerSt : PeerSt := { ip := 1, serial := 2, heardAt := 0, present := true }
def wPeer : State := (wReady.setN Pid.annPeriod 1).modLink fun l => { l with peers := [wPeerSt] }
def wCap : State := [(Pid.crCh 0 0, 0x10000)].foldl (fun s w => s.setN w.1 w.2) wReady

/-! ### Helpers -/

/-- The next state of a command (every command answers one). -/
def out (c : Instr) (s : State) : State := match exec c s with
  | .next t => t
  | _ => s
/-- Code, instance and context of the newest event. -/
def lastEvent (s : State) : Option (Nat × Nat × Nat) := s.ev.q.getLast?.map fun e => (e.code, e.inst, e.ctx.toNat)

/-! ### Well-formedness: for each check a term that it refuses, and one at the boundary that it admits -/

theorem test_wf_port : (Instr.armTimeout 0 4).wf = false ∧ (Instr.armTimeout 0 3).wf = true := by decide
theorem test_wf_leg : (Instr.legEdge 0 24).wf = false ∧ (Instr.legEdge 0 23).wf = true := by decide
theorem test_wf_island : (Instr.offConfirm 0 48).wf = false ∧ (Instr.offConfirm 0 47).wf = true := by decide
theorem test_wf_group : (Instr.fastConversion 0 4 1 (List.replicate 12 0)).wf = false := by decide
theorem test_wf_conversion : (Instr.fastConversion 0 0 0 (List.replicate 12 0)).wf = false ∧
    (Instr.fastConversion 0 0 10 (List.replicate 12 0)).wf = false ∧ (Instr.fastConversion 0 3 9 (List.replicate 12 0)).wf = true := by decide
theorem test_wf_codes_of_a_group : (Instr.fastConversion 0 0 1 (List.replicate 11 0)).wf = false := by decide
theorem test_wf_fast_channel : (Instr.windowComparatorFire 0 48 true).wf = false ∧ (Instr.windowComparatorFire 0 47 true).wf = true := by decide
theorem test_wf_slow_channel : (Instr.slowResultStale 0 32).wf = false ∧ (Instr.slowResultStale 0 31).wf = true := by decide
theorem test_wf_slow_modulator : (Instr.slowScanStart 0 4).wf = false ∧ (Instr.slowScanStart 0 3).wf = true := by decide
theorem test_wf_quantity_role : (Instr.feedbackRecover 0 0 0).wf = false ∧ (Instr.feedbackRecover 0 0 8).wf = false ∧
    (Instr.feedbackRecover 0 0 7).wf = true := by decide
theorem test_wf_extra_compare : (Instr.extraCompareFire 0 0 6 false).wf = false ∧ (Instr.extraCompareFire 0 0 5 false).wf = true := by decide
theorem test_wf_trip_input : (Instr.tripInputAssert 0 8).wf = false ∧ (Instr.tripInputAssert 0 7).wf = true := by decide
theorem test_wf_safe_input : (Instr.inputDiscrepancy 0 8).wf = false ∧ (Instr.inputDiscrepancy 0 7).wf = true := by decide
theorem test_wf_safety_output : (Instr.outputReadbackFault 0 6).wf = false ∧ (Instr.outputReadbackFault 0 5).wf = true := by decide
theorem test_wf_coil : (Instr.coilCheck 0 2 0 0 0).wf = false ∧ (Instr.coilCheck 0 1 0 0 0).wf = true := by decide
theorem test_wf_path : (Instr.safetyPacketCopy 0 4 []).wf = false ∧ (Instr.safetyPacketCopy 0 3 []).wf = true := by decide
theorem test_wf_can_channel : (Instr.busOffRecovery 0 2).wf = false ∧ (Instr.busOffRecovery 0 1).wf = true := by decide
theorem test_wf_ethernet_port : (Instr.ethLinkUp 0 2).wf = false ∧ (Instr.ethLinkUp 0 1).wf = true := by decide
theorem test_wf_time_output : (Instr.timeOutPulse 0 4).wf = false ∧ (Instr.timeOutPulse 0 3).wf = true := by decide
theorem test_wf_capture_function : (Instr.captureRearm 0 0).wf = false ∧ (Instr.captureRearm 0 3).wf = false ∧
    (Instr.captureRearm 0 2).wf = true := by decide
theorem test_wf_station : (Instr.heartbeatTimeout 0 8).wf = false ∧ (Instr.heartbeatTimeout 0 7).wf = true := by decide
theorem test_wf_tpdo : (Instr.tpdoReceive 0 0 0 []).wf = false ∧ (Instr.tpdoReceive 0 0 3 []).wf = false ∧
    (Instr.tpdoReceive 0 0 2 []).wf = true := by decide
theorem test_wf_slot : (Instr.slotCheck 0 2).wf = false ∧ (Instr.slotCheck 0 1).wf = true := by decide
theorem test_wf_peer : (Instr.peerAbsent 0 32).wf = false ∧ (Instr.peerAbsent 0 31).wf = true := by decide
theorem test_wf_word : (Instr.closeSession 0 (2 ^ 32)).wf = false ∧ (Instr.closeSession 0 (2 ^ 32 - 1)).wf = true := by decide
theorem test_wf_udp_port : (Instr.blDatagramReceive 0 0 0 65536 []).wf = false ∧ (Instr.blDatagramReceive 0 0 0 65535 []).wf = true := by decide
theorem test_wf_identifier : (Instr.parameterWrite 0 .service (2 ^ 24) 0).wf = false ∧
    (Instr.parameterWrite 0 .service (2 ^ 24 - 1) 0).wf = true := by decide
theorem test_wf_read_identifiers : (Instr.read 0 0 (List.replicate 351 0)).wf = false ∧ (Instr.read 0 0 [2 ^ 32]).wf = false ∧
    (Instr.read 0 0 (List.replicate 350 0)).wf = true := by decide +kernel
theorem test_wf_write_items : (Instr.write 0 0 []).wf = false ∧ (Instr.write 0 0 (List.replicate 176 (0, 0))).wf = false ∧
    (Instr.write 0 0 (List.replicate 175 (0, 0))).wf = true := by decide +kernel
theorem test_wf_digest : (Instr.bulkWriteBegin 0 0 0 0 (List.replicate 31 0)).wf = false ∧
    (Instr.bulkWriteBegin 0 0 0 0 (List.replicate 32 0)).wf = true := by decide
theorem test_wf_capture_rows : (Instr.periodTick 0 false false [false, false, false]).wf = false ∧
    (Instr.periodTick 0 false false [false, false]).wf = true := by decide
theorem test_wf_can_frame : (Instr.canSubmit 0 0 { id := 2 ^ 11 } .lattice).wf = false ∧
    (Instr.canSubmit 0 0 { id := 0, data := List.replicate 9 0 } .lattice).wf = false ∧
    (Instr.canSubmit 0 0 { id := 2 ^ 29 - 1, ext := true, fd := true, data := List.replicate 64 0 } .lattice).wf = true := by decide
theorem test_wf_partitions : (Instr.compareWindowEnd 0 [⟨1, false, []⟩, ⟨1, false, []⟩]).wf = false ∧
    (Instr.compareWindowEnd 0 [⟨4, false, []⟩]).wf = false ∧
    (Instr.compareWindowEnd 0 [⟨1, false, []⟩, ⟨1, true, []⟩]).wf = true := by decide
theorem test_wf_image_content :
    (Instr.contentCheck 0 ⟨[⟨1, .twoLevel, [0]⟩, ⟨1, .twoLevel, [1]⟩], [], [], [], true, 0⟩).wf = false ∧
    (Instr.contentCheck 0 ⟨[⟨4, .twoLevel, [0]⟩], [], [], [], true, 0⟩).wf = false ∧
    (Instr.contentCheck 0 ⟨[⟨1, .twoLevel, [4]⟩], [], [], [], true, 0⟩).wf = false ∧
    (Instr.contentCheck 0 ⟨[⟨1, .twoLevel, [0]⟩, ⟨2, .twoLevel, [1]⟩], [], [], [], true, 0⟩).wf = true := by decide

/-! ### Published vectors and the spec's worked examples -/

/-- RFC 4493, example 2. -/
theorem test_cmac : aesCmac 0x2b7e151628aed2a6abf7158809cf4f3c#128 (beBytes 16 0x6bc1bee22e409f96e93d7e117393172a) =
    0x070a16b46b4d4144f79bdd9dd04a287c#128 := by decide +kernel
/-- RFC 3394, section 4.1. -/
theorem test_key_unwrap : keyUnwrap 0x000102030405060708090A0B0C0D0E0F#128
    (beBytes 24 0x1FA68B0A8112B447AEF34BD8FB5A7B829D3E862371D2CFE5) = some 0x00112233445566778899AABBCCDDEEFF#128 := by decide +kernel
/-- RFC 8032, section 7.1, test 1. -/
theorem test_ed25519 : ed25519Verify (beBytes 32 0xd75a980182b10ab7d54bfed3c964073a0ee172f3daa62325af021a68f707511a) []
    (beBytes 64 0xe5564300c360ac729086e2cc806e828a84877f1eb8e5d974d873e065224901555fb8821590a33bacc61e39701cf9b46bd25bf5f0595bbe24655141438e7a100b) =
    true := by decide +kernel
/-- FIPS 180-4, the digest of "abc". -/
theorem test_sha256 : beNat (sha256 [0x61, 0x62, 0x63]) =
    0xba7816bf8f01cfea414140de5dae2223b00361a396177a9cb410ff61f20015ad := by decide +kernel
/-- CRC-32C of the nine digits (the check value of RFC 3720's polynomial). -/
theorem test_crc32c : crc32c [0x31, 0x32, 0x33, 0x34, 0x35, 0x36, 0x37, 0x38, 0x39] = 0xE3069283#32 := by decide +kernel
/-- Stamp extension: 0x400 after the epoch record 0xFFFFFC00 is 2,048 ns later (the example under R19). -/
theorem test_stamp_extension : extendStamp 0xFFFFFC00 1700000000999998976 0x400 = 1700000001000001024 := by decide
/-- The conflict of two exclusive claims on extra compare 3 of leg 13, and its bytes on the wire (the example under R50). -/
theorem test_claim_conflict : claimContexts true [⟨4, false, 81, 0x08, 1⟩, ⟨4, false, 81, 0x2C, 0⟩] = [0x04005108012C0001] ∧
    leBytes 8 0x04005108012C0001 = [0x01, 0x00, 0x2C, 0x01, 0x08, 0x51, 0x00, 0x04] := by decide
/-- Two shared claims of different kinds do not conflict (the same example). -/
theorem test_shared_claims : claimContexts true [⟨4, true, 81, 0x08, 1⟩, ⟨4, true, 81, 0x2C, 0⟩] = [] := by decide
/-- Conversion times of slow channels: 60.04 ms, 200.04 ms and 71.25 µs (the example under R227). -/
theorem test_slow_conversion_times :
    ((wReady.setN (Pid.saOrder 24) 3).setN (Pid.saDecim 24) 1024 |>.setN (Pid.saDiv 24) 160).convPs 24 = 60040000000 ∧
    ((wReady.setN (Pid.saOrder 28) 2).setN (Pid.saDecim 28) 1024 |>.setN (Pid.saDiv 28) 800).convPs 28 = 200040000000 ∧
    ((wReady.setN (Pid.saOrder 29) 4).setN (Pid.saDecim 29) 64 |>.setN (Pid.saDiv 29) 1).convPs 29 = 71250000 := by decide
/-- Realignment at 1.2 µs, 56.0 µs after the first new tick: 640 ticks (the example under R248). -/
theorem test_realignment : (wRun.setN Pid.tInner 1200).realignTicks 1 56000000 = 640 := by decide
/-- The compare count of duty 0.75 at 153,600 ticks is 19,200 (the example under R252). -/
theorem test_compare_count : compareCount false 100663296 153600 = 19200 := by decide
/-- The word of an over-range code of channel 7: code 0x1FFF in bits [31:18], over-range in bit 17 (R209). -/
theorem test_sample_word : sampleWord 0x1FFF true false false 7 0 = 0x7FFE0700#32 ∧ sampleCode 0x7FFE0700#32 = 8191 := by decide

/-! ### Single steps, with values from the spec -/

/-- R427: `TRIG_IN[2]` triggers on the edge that `trg_in_edge` selects, falling by default. -/
theorem test_trigger_edge : (wReady.trigFires 2 && !wReady.trigFires (2 + 256) && (wReady.setN Pid.trgInEdge 4).trigFires (2 + 256)) = true := by
  decide +kernel

/-- R427, R429: triggers of one row are missed as one. -/
theorem test_missed_once : (((wReady.setN (Pid.crState 0) 4).trigger 0 1).trigger 0 2).n (Pid.crMissedCount 0) = 1 := by decide +kernel

/-- The reset state is in RESET, code 0x01, with an empty queue (R84). -/
theorem test_reset_state : State.reset.unit.st = .reset ∧ State.reset.n Pid.unitState = 1 ∧ State.reset.pending = [] := by decide +kernel
/-- A rise of VIN leaves OFF for RESET (R85). -/
theorem test_vin_rise : (out (.vinRise 0) { State.reset with unit := { st := .off } }).unit.st = .reset := by decide +kernel
/-- A restart from the role Operator is refused: only time passes (R85). -/
theorem test_restart_role : out (.restart 5 .operator 1) wPort = wPort.advance 5 ∧
    (out (.restart 5 .service 1) wPort).unit.st = .reset := by decide +kernel
/-- A loss of the reference in RUN counts and starts the relock (R64). -/
theorem test_reference_loss : (out (.referenceLoss 0 []) wReady).ref.relocking = true := by decide +kernel
/-- An arm timeout of a port without bus sense raises 0x1803 with cause 0x02 and gives IDLE (R112). -/
theorem test_arm_timeout : (((out (.armTimeout 100000000000000000 1) wArmed).port 1).st = .idle) ∧
    ((out (.armTimeout 100000000000000000 1) wArmed).ev.q.any fun e => e.code = 0x1803 && e.inst = 1 && e.ctx = 2) = true := by decide +kernel
/-- A used-up hard-current budget raises 0x2A03 (R126). -/
theorem test_hard_budget : (lastEvent (out (.hardBudgetExhausted 0 1)
    ((wRun.setN (Pid.iHardTime 1) 1).modPort 1 fun q => { q with budget := 1000000000000000 }))).map Prod.fst = some 0x2A03 := by decide +kernel
/-- A window comparator at its upper threshold: 0x1003 with the channel, and bit 5 of fa_status live (R214). -/
theorem test_window_comparator : (out (.windowComparatorFire 0 5 true) wRun).bit (Pid.faStatus 5) 5 = true ∧
    ((out (.windowComparatorFire 0 5 true) wRun).ev.q.any fun e => e.code = 0x1003 && e.inst = 5) = true := by decide +kernel
/-- A lane that completes 300 ns into the period; the deadline lies 140 ns before its end: the slack is a multiple of 0.625 ns (R184). -/
theorem test_lane_slack : (out (.laneCompletion 300000 true ()) { (wRun.setN Pid.engineState 1) with eng := { count := 1 } }).z Pid.slackYLast =
    ((wRun.periodEnd : Int) - 140000 - 300000) / 625 * 625 := by decide +kernel
/-- A lane that completes within 1 ns of its deadline is late: the tie is the deadline's (R47, R154). -/
theorem test_tie_at_the_deadline : let s : State := { (wRun.setN Pid.engineState 1) with eng := { count := 1, doneX := some 625 } }
    (out (.computeDeadline s.deadlineAt) (out (.laneCompletion (s.deadlineAt - 625) true ()) s)).n Pid.lateCount = 1 ∧
    (out (.computeDeadline s.deadlineAt) (out (.laneCompletion (s.deadlineAt - 1875) true ()) s)).n Pid.lateCount = 0 := by decide +kernel
/-- A lane still out at the deadline counts late and raises 0x1C02 (R168); 1 ps before it nothing happens. -/
theorem test_compute_deadline : let s : State := { (wRun.setN Pid.engineState 1) with eng := { count := 1 } }
    (out (.computeDeadline s.deadlineAt) s).n Pid.lateCount = 1 ∧ (out (.computeDeadline (s.deadlineAt - 1)) s).n Pid.lateCount = 0 := by
  decide +kernel
/-- A rail window below the target by more than 20 ns raises the rail by 2.5 mV, never past rail_max (R188). -/
theorem test_rail_up : (out (.railWindowEnd 1000000000) { ((((wReady.setN Pid.railNow 780000).setN Pid.railMax 900000).setN Pid.slackTarget 160000)) with
    prf := { winMin := some 139000 } }).n Pid.railNow = 782500 := by decide +kernel
theorem test_rail_max : (out (.railWindowEnd 1000000000) { ((((wReady.setN Pid.railNow 899000).setN Pid.railMax 900000).setN Pid.slackTarget 160000)) with
    prf := { winMin := some 139000 } }).n Pid.railNow = 900000 := by decide +kernel
/-- A desaturation inside the blanking time does nothing, after it faults the leg with cause 0x01 (R267). -/
theorem test_desaturation :
    (out (.desaturation 999999 3) ((wIsl.setN (Pid.dsBlank 3) 1000).modIsl 3 fun x => { x with on := true })).n (Pid.dsCount 3) = 0 ∧
    (out (.desaturation 1000000 3) ((wIsl.setN (Pid.dsBlank 3) 1000).modIsl 3 fun x => { x with on := true })).n (Pid.dsCount 3) = 1 ∧
    (out (.desaturation 1000000 3) ((wIsl.setN (Pid.dsBlank 3) 1000).modIsl 3 fun x => { x with on := true })).bit (Pid.legProt 1) 0 = true := by
  decide +kernel
/-- A trip input stops the ports that it names with 0x4702 (R273). -/
theorem test_trip_input : ((out (.tripInputAssert 0 2) (wRun.setN (Pid.tripPorts 2) 2)).ev.q.any fun e => e.code = 0x4702 && e.inst = 1) = true ∧
    (out (.tripInputAssert 0 2) (wRun.setN (Pid.tripPorts 2) 2)).n (Pid.tripLevel 2) = 1 := by decide +kernel
/-- A packet timeout brings SAFE-STOP: 0x6C28 is raised and the gate enables are withdrawn (R311). -/
theorem test_packet_timeout : ((out (.packetTimeout 100000000000) (wPkt.modSaf fun f => { f with timer := some 0, gates := true })).ev.q.any fun e =>
      e.code = 0x6C28) = true ∧
    (out (.packetTimeout 100000000000) (wPkt.modSaf fun f => { f with timer := some 0, gates := true })).saf.gates = false := by decide +kernel
/-- The straps as read, with the pattern of the hauler (the example under R313). -/
theorem test_strap_read : (out (.strapRead 0 0xA1C8 0) ({ wReady with img := { loaded := true } }.setN Pid.safetyFormat 1)).n Pid.strapRead =
    0xA1C8 := by decide +kernel
/-- An acknowledge error raises the TEC by 8; at 128 the node is error-passive and stays there (R370). -/
theorem test_can_ack_error :
    (out (.canTxAttemptEnd 0 0 (.ackError false) 0) (out (.canSubmit 0 0 { id := 5 } .lattice) wCan)).n (Pid.canTec 0) = 8 ∧
    (out (.canTxAttemptEnd 0 0 (.ackError false) 0) (((out (.canSubmit 0 0 { id := 5 } .lattice) wCan).setN (Pid.canTec 0) 128).setN
      (Pid.canState 0) 2)).n (Pid.canTec 0) = 128 := by decide +kernel
/-- A frame with a bad FCS is counted and goes nowhere (R390). -/
theorem test_eth_error : (out (.ethFrameReceive 0 1 false []) wEth).n (Pid.ethRxErrCount 1) = 1 ∧
    (out (.ethFrameReceive 0 1 false []) wEth).n (Pid.ethRxCount 1) = 0 := by decide +kernel
/-- The end of the holdover enters time state 4 (R381). -/
theorem test_holdover_end : (out (.holdoverExpiry 100000000000000000)
    { (wReady.setN Pid.timeState 3) with time := { heldFrom := some 0 } }).n Pid.timeState = 4 := by decide +kernel
/-- A session is closed when idle (R400); closing an open one answers it (R402). -/
theorem test_session_idle : (out (.sessionIdle 100000000000000000 7) (wSess .operator)).link.sess = [] ∧
    (out (.closeSession 0 7) (wSess .operator)).link.sess = [] := by decide +kernel
/-- A bulk write without data for 60 s is abandoned (R405). -/
theorem test_bulk_timeout : (out (.bulkWriteTimeout 60000000000000) (wReady.modLink fun l =>
    { l with bulk := some { sid := 7, target := 1, total := 1, digest := [] } })).link.bulk = none := by decide +kernel
/-- The event writer takes the oldest record (R408). -/
theorem test_event_writer : (out (.eventWriterTake 0) (wReady.raise 0x0301 0 0)).ev.q = [] := by decide +kernel
/-- Lattice's watchdog stops the program (R342). -/
theorem test_lattice_watchdog : (out (.latticeWatchdog 1000000000000) ((wLat.setN Pid.latWd 10).modLat fun x =>
    { x with busy := true, startAt := 0 })).n Pid.latState ≠ 1 := by decide +kernel
/-- A parameter of class LIVE written by its role holds the value (R7, R181). -/
theorem test_live_write : (out (.parameterWrite 0 .operator (Pid.pSet 1) 5) wPort).n (Pid.pSet 1) = 5 := by decide +kernel
/-- A restart of the torn modulator by MOD_RELEASE needs the role Service (R253). -/
theorem test_mod_release_role : out (.modRelease 0 .operator 1 1) wRun = wRun.advance 0 := by decide +kernel
/-- A scan that ends 381,038.75 µs after its start shows 381,039 µs (R221, the example of R227). -/
theorem test_scan_time : (({ (wReady.modSmod 3 fun x => { x with scanFrom := some 0 }) with now := 381038750000 } : State).nextSlow 3 31).n
    (Pid.smScanTime 3) = 381039 := by decide +kernel
/-- A sum of two words beyond 16.0 saturates at the most positive word, and counts once (R162). -/
theorem test_block_saturates : (blockFn 0x01 1000000 1 [] [2147483647, 2147483647] []).outs = [2147483647] ∧
    (blockFn 0x01 1000000 1 [] [134217728, 134217728] []).outs = [268435456] := by decide +kernel

/-! ### Witnesses of the general statements: states and operands that meet their hypotheses -/

/-- A locked unit with one command waiting. -/
def wQueue : State := { wReady with pending := [.vinRise 3, .resetComplete 4] }

theorem witness_StepKeepsInvariant : wQueue.Inv ∧ step wQueue = .next (out (.vinRise 3) { wQueue with pending := [.resetComplete 4] }) :=
  ⟨⟨by decide, by decide, by unfold State.shape; decide⟩, rfl⟩
theorem witness_StepIdlesOnEmptyQueue : State.reset.pending = [] := by decide
theorem witness_RunDrainsQueueInOrder : wQueue.pending = [.vinRise 3] ++ [.resetComplete 4] := by decide
/-- A next state, for the statements about every next state (the instant, the keys of the part). -/
theorem witness_TimeNeverRunsBack : exec (.vinRise 3) wReady = .next (out (.vinRise 3) wReady) := rfl
theorem witness_PartKeysNeverChange : exec (.vinRise 3) wReady = .next (out (.vinRise 3) wReady) := rfl
theorem witness_FlashAndFuseFrame :
    ((Instr.vinRise 3).mayWriteFlash = false ∧ exec (.vinRise 3) wReady = .next (out (.vinRise 3) wReady)) ∧
    ((Instr.auditEntryWrite 3).mayFuse = false ∧ exec (.auditEntryWrite 3) wReady = .next (out (.auditEntryWrite 3) wReady)) ∧
    ((Instr.sfdpRead 3 none).mayWriteFram = false ∧ exec (.sfdpRead 3 none) wReady = .next (out (.sfdpRead 3 none) wReady)) :=
  ⟨⟨rfl, rfl⟩, ⟨rfl, by unfold out exec execAuditEntryWrite; rfl⟩, ⟨rfl, rfl⟩⟩
theorem witness_ImageAndOutputFrame :
    ((Instr.outerStep 3 1 ⟨none⟩).mayChangeImage = false ∧
      exec (.outerStep 3 1 ⟨none⟩) wRun = .next (out (.outerStep 3 1 ⟨none⟩) wRun)) ∧
    ((Instr.desaturation 3 3).mayDriveOutputs = false ∧ exec (.desaturation 3 3) wIsl = .next (out (.desaturation 3 3) wIsl)) :=
  ⟨⟨rfl, rfl⟩, ⟨rfl, rfl⟩⟩
theorem witness_UnitStateFrame : (Instr.legEdge 3 0).mayMoveUnit = false ∧ exec (.legEdge 3 0) wRun = .next (out (.legEdge 3 0) wRun) :=
  ⟨rfl, rfl⟩
theorem witness_RoleGate : ((Instr.restart 0 .operator 1).gate = some ⟨0, .operator, .service, 2, Pid.restart, 1⟩ ∧
      Role.meets .operator .service = false ∧ wReady.unknownId Pid.restart = false) ∧
    ((Instr.restart 0 .service 1).gate = some ⟨0, .service, .service, 2, Pid.restart, 1⟩ ∧
      ({ wReady with unit := { st := .standby } } : State).unit.st = .standby) ∧
    ((Instr.crArm 0 .operator 1).gate = some ⟨0, .operator, crArmRole 0, 2, Pid.crArm 0, 1⟩ ∧ wReady.unknownId (Pid.crArm 0) = false) ∧
    ((Instr.vceRebase 0 .operator 3 1).gate = some ⟨0, .operator, .commissioner, 2, Pid.vceRebase 3, 1⟩ ∧
      Role.meets .operator .commissioner = false ∧ (wReady.setN Pid.variant 2).unknownId (Pid.vceRebase 3) = true) := by decide +kernel
theorem witness_UnusedPortIsInert : ((Instr.stopPort 0 .lattice 2).portServed = some (0, 2) ∧ (wPort.port 2).used = false) ∧
    ((Instr.stopPort 0 (.role .operator) 2).gate = some ⟨0, .operator, .operator, 2, Pid.stop 2, 1⟩ ∧
      (Instr.stopPort 0 (.role .operator) 2).portAsked = some 2 ∧ (wPort.port 2).used = false) := by decide
theorem witness_FlashReadsWhatWasWritten : Memory.wf [(3, 1)] = true ∧
    memGet (memWrite [(3, 1)] 4 [7, 0xFF]) 4 = 7 ∧ memGet (memWrite [(3, 1)] 4 [7, 0xFF]) 5 = 0xFF ∧
    memGet (memWrite [(3, 1)] 4 [7, 0xFF]) 6 = flashErased ∧ memGet (memWrite [(3, 1)] 4 [7, 0xFF]) 3 = 1 ∧
    memGet (memErase [(3, 1), (4, 2)] 3 1) 3 = flashErased ∧ memGet (memErase [(3, 1), (4, 2)] 3 1) 4 = 2 := by decide
/-- A state for each clause: a session, a load into a slot, a load of data, a log entry at a sector's start. -/
theorem witness_LinkFlashFrame :
    exec (.read 0 7 [Pid.railNow]) (wSess .operator) = .next (out (.read 0 7 [Pid.railNow]) (wSess .operator)) ∧
    exec (.bulkWriteBegin 0 7 1 5 (List.replicate 32 0)) (wSess .commissioner) =
      .next (out (.bulkWriteBegin 0 7 1 5 (List.replicate 32 0)) (wSess .commissioner)) ∧
    (Memory.wf wReady.flash = true ∧ exec (.bulkWriteData 0 7 0 [1]) wReady = .next (out (.bulkWriteData 0 7 0 [1]) wReady)) ∧
    (Memory.wf wReady.flash = true ∧ exec (.auditEntryWrite 0) wReady = .next (out (.auditEntryWrite 0) wReady)) :=
  ⟨rfl, rfl, ⟨by decide, rfl⟩, ⟨by decide, by unfold out exec execAuditEntryWrite; rfl⟩⟩
/-- An address just past the bytes a load of data writes, and the byte itself. -/
theorem witness_LinkFlashFrame_bytes :
    let s := (wSess .commissioner).modLink fun l => { l with bulk := some { sid := 7, target := 1, total := 5, digest := [] } }
    let u := out (.bulkWriteData 0 7 0 [1]) (s.setN Pid.flashSize 64)
    memGet u.flash ((s.setN Pid.flashSize 64).slotAt 1) = 1 ∧ memGet u.flash ((s.setN Pid.flashSize 64).slotAt 1 + 1) = flashErased := by
  decide
theorem witness_PortTransition : 3 < wRun.ports.length ∧ ((wRun.setPort 3 .armed).port 3).st = .armed ∧ ((wRun.setPort 3 .armed).port 1).st = .run := by
  decide
theorem witness_UnitTransition : wReady.unit.st ≠ .safeStop ∧ wReady.unit.st = .ready := by decide
theorem witness_SafetyDemandStopsEverything : State.reset.unit.st.safetyLive = false ∧ (wSaf.unit.st.safetyLive = true ∧ wRun.saf.inForce = false) ∧
    (wSaf.modSaf fun f => { f with faults := [(5, 0)] }).saf.faults ≠ [] ∧ (wSaf.modSaf fun f => { f with dem := [(3, 7)] }).saf.dem ≠ [] := by
  decide
/-- At the timeout itself, 1 ps before it, and with packets not used. -/
theorem witness_PacketTimeout :
    let s := wPkt.modSaf fun f => { f with timer := some 0 }
    (s.packetsUsed = true ∧ s.packetPs ≤ (s.advance s.packetPs).now ∧ s.packetPs ≠ 0) ∧
    ((s.advance (s.packetPs - 1)).saf.timer = some 0 ∧ (s.advance (s.packetPs - 1)).now < 0 + s.packetPs) ∧ wReady.packetsUsed = false := by
  decide
theorem witness_WordReadsWhatWasWritten : regsWf State.reset.regs = true := by decide
/-- Room for a common event, the last kept slot, a full queue. -/
theorem witness_EventQueue :
    let e : EvRec := wReady.evRec 0x0301 0 0
    (wReady.ev.coalescing (evKept 0x0301) = false ∧ wReady.ev.q.length < 240) ∧
    (({ wReady.ev with q := List.replicate 255 e }).coalescing (evKept 0x5201) = false ∧
      ({ wReady.ev with q := List.replicate 255 e }).q.length < 256) ∧
    (240 ≤ ({ wReady.ev with q := List.replicate 240 e }).q.length) := by decide +kernel
theorem witness_AccumulatorRounding : rneDiv 5 2 = 2 ∧ rneDiv 7 2 = 4 ∧ rneDiv (-5) 2 = -2 ∧ isqrt (2 ^ 100) = 2 ^ 50 ∧ (2 ^ 100 < 2 ^ 200) := by decide +kernel
theorem witness_EventRecordLayout :
    let e : EvRec := ⟨2 ^ 64 - 1, 0x5201, 255, 0x15, 0x04005108012C0001, 0xFFFFFC00⟩
    e.timeNs < 2 ^ 64 ∧ e.code < 2 ^ 16 ∧ e.inst < 2 ^ 8 ∧ e.sev < 2 ^ 8 := by decide
/-- A Read never logs, a Write of a logged parameter does: with a free log and with a full one. -/
theorem witness_AuditLogBusy :
    let x := wSessSt .service
    let c : LinkCmd := .write [(Pid.faClear 0, 1)]
    let b := wReady.modLink fun l => { l with log := List.replicate 32 [] }
    wReady.cmdRole x.role c.code = true ∧ (wReady.noteOf x.role 0 0 x.sid 0 c).any wReady.logRoom = true ∧
    b.cmdRole x.role c.code = true ∧ (b.noteOf x.role 0 0 x.sid 0 c).any (fun n => !b.logRoom n) = true := by decide
theorem witness_RungOneRecord : (wReady.n Pid.railHighWater < 780000 / 10000 * 10000 ∧ 780000 / 10000 * 10000 < 2 ^ 32) ∧
    ((wReady.setN Pid.railHighWater 780000).n Pid.railHighWater ≥ 789999 / 10000 * 10000) := by decide
theorem witness_VceRebase : (Role.meets .commissioner .commissioner = true ∧ wPort.unit.st ≠ .standby ∧ (wPort.port 1).used = true ∧
      (wPort.port 1).st = .idle ∧ wPort.n Pid.pairState ≠ 1 ∧ wPort.canNote .commissioner 2 (Pid.vceRebase 1) 0 1 = true) ∧ ((wPort.modPort 1 fun q => { q with st := .portStop }).port 1).st = .portStop ∧
    Role.meets .operator .commissioner = false ∧ (wPort.port 2).used = false ∧ ((wRun.port 1).st ≠ .idle ∧ (wRun.port 1).st ≠ .portStop) := by
  decide
/-- The edges of the bins: 0, 1 ps, 20 ns, 280 ns and 1 ps above. -/
theorem witness_SlackBins : slackBin 0 = 0 ∧ slackBin 1 = 1 ∧ slackBin 20000 = 1 ∧ slackBin 20001 = 2 ∧ slackBin 280000 = 14 ∧
    slackBin 280001 = 15 := by decide
/-- A partition of one sink, whose only word commits. -/
def wSink : State := { wRun with img := { graphs := [{ port := 1, outer := false, blocks :=
  [{ typ := 0x27, optional := false, bypass := false, rank := 0, cost := 1, ins := 1, outs := 0, key := 0, refs := [0], consts := [1] }] }] } }
/-- A lane fault in bit 0 of that word makes the lanes differ; without one they agree. -/
theorem witness_HealthyLanesAgree : (⟨1, false, []⟩ : PartIn).hits = [] ∧
    wSink.unequal ⟨1, false, [⟨0, 0, 1, false⟩]⟩ ≠ none := by decide +kernel
/-- A holder with a partner, for each of the five commands. -/
def wHolder : State := wPort.setN Pid.pairState 1
theorem witness_HolderForwards :
    (1 < 4 ∧ (wHolder.port 1).used = true ∧ (wHolder.setN (Pid.vSet 1) 0).energiseCode 1 1 = 0 ∧
      wHolder.roleOk .operator .operator = true ∧ wHolder.n Pid.pairState = 1 ∧ wHolder.forwards (Pid.energise 1) = true ∧
      wHolder.canNote .operator 2 (Pid.energise 1) 0 1 = true) ∧
    ((wHolder.port 1).used = true ∧ wHolder.forwards (Pid.stop 1) = true ∧ wHolder.canNote .operator 2 (Pid.stop 1) 0 1 = true) ∧
    (wHolder.faClearOk 0 1 = true ∧ wHolder.roleOk .service .service = true ∧ wHolder.forwards (Pid.faClear 0) = true ∧
      wHolder.canNote .service 2 (Pid.faClear 0) 0 1 = true) ∧
    (wHolder.restartOk 1 = true ∧ wHolder.canNote .service 2 Pid.restart 0 1 = true ∧ wHolder.forwards Pid.restart = true) ∧
    ((wHolder.setN Pid.ladderPending 1).ladderCmdOk 3 = true ∧ wHolder.roleOk .commissioner .commissioner = true ∧
      wHolder.forwards Pid.ladderCmd = true ∧ wHolder.canNote .commissioner 2 Pid.ladderCmd 0 3 = true) := by decide +kernel

/-! ### Witnesses of the completion statements -/

/-- The CRC register after some bytes. -/
def crcRun (c : BitVec 32) (bs : List Byte) : BitVec 32 := bs.foldl (fun c b => crcBits 8 (c ^^^ b.zeroExtend 32)) c
theorem pair_frame_crc0 : crcRun 0xFFFFFFFF#32 (1#8 :: List.replicate 43 0#8) = 4152747676#32 := by decide +kernel
theorem pair_frame_crc1 : crcRun 4152747676#32 (List.replicate 44 0#8) = 4068675596#32 := by decide +kernel
theorem pair_frame_crc2 : crcRun 4068675596#32 (List.replicate 44 0#8) = 1630234136#32 := by decide +kernel
theorem pair_frame_crc3 : ~~~ (crcRun 1630234136#32 (List.replicate 44 0#8)) = 497197520#32 := by decide +kernel
/-- A pair frame of kind 1, all else zero, with its CRC. -/
def wFrame : List Byte := 1#8 :: (List.replicate 175 0#8 ++ leBytes 4 497197520)
theorem pair_frame_crc : crc32c (wFrame.take 176) = 497197520#32 := by
  have e : wFrame.take 176 = (1#8 :: List.replicate 43 0#8) ++ (List.replicate 44 0#8 ++ (List.replicate 44 0#8 ++ List.replicate 44 0#8)) := by decide +kernel
  have k : crc32c (wFrame.take 176) = ~~~ (crcRun 0xFFFFFFFF#32 (wFrame.take 176)) := rfl
  rw [k, e]
  unfold crcRun
  rw [List.foldl_append, List.foldl_append, List.foldl_append]
  show ~~~ (crcRun (crcRun (crcRun (crcRun 0xFFFFFFFF#32 _) _) _) _) = _
  rw [pair_frame_crc0, pair_frame_crc1, pair_frame_crc2, pair_frame_crc3]

theorem witness_CompletesPower :
    -- vinRise
    (let t : Nat := 0
     let s : State := { State.reset with unit := { st := .off } }
     let a := s.advance t
     a.unit.st = .off) ∧
    -- vinUndervoltage
    (let t : Nat := 0
     let s : State := State.reset
     let a := s.advance t
     a.unit.st ≠ .off ∧ a.unit.vinUv = false) ∧
    -- shellWatchdogExpiry
    (let t : Nat := 0
     let s : State := wReady
     let a := s.advance t
     a.unit.st ≠ .off) ∧
    -- restart
    (let t : Nat := 0
     let role : Role := .service
     let v : Word := 1
     let s : State := wPort
     let a := s.advance t
     a.roleOk role .service = true ∧ a.restartOk v = true ∧ (a.n Pid.pairState ≠ 1 ∨ a.forwards Pid.restart = false) ∧
     a.canNote role 2 (Pid.restart) (0) (v) = true) ∧
    -- resetComplete
    (let t : Nat := 0
     let s : State := State.reset
     let a := s.advance t
     a.unit.st = .reset ∧ a.unit.vinUv = false) :=
  ⟨by decide, by decide, by decide, by decide, by decide⟩

theorem witness_CompletesLocking :
    -- bootReferenceSelect
    (let t : Nat := 0
     let crystal : Bool := true
     let s : State := { State.reset with unit := { st := .refLock } }
     let a := s.advance t
     a.unit.st = .refLock ∧ a.ref.attempt = none ∧ a.ref.lockedTo = none ∧ a.ref.relocking = false ∧ crystal = true ∧
     a.now ≤ a.unit.resetEnd + 8 * psMs) ∧
    -- lockDeclared
    (let t : Nat := 1000000000
     let s : State := { State.reset with unit := { st := .refLock }, ref := { attempt := some ⟨.crystal, .boot, 0⟩ } }
     let x : Attempt := ⟨.crystal, .boot, 0⟩
     let a := s.advance t
     a.ref.attempt = some x ∧ a.now ≤ x.start + 2 * psMs ∧ a.lockDue x = true) ∧
    -- lockAttemptTimeout
    (let t : Nat := 2000000000
     let s : State := { State.reset with unit := { st := .refLock }, ref := { attempt := some ⟨.crystal, .boot, 0⟩ } }
     let x : Attempt := ⟨.crystal, .boot, 0⟩
     let a := s.advance t
     a.ref.attempt = some x ∧ x.start + 2 * psMs ≤ a.now) ∧
    -- relockAttempt
    (let t : Nat := 100000000000
     let refValid : Bool := true
     let s : State := { wReady with ref := { relocking := true } }
     let a := s.advance t
     a.ref.relocking = true ∧ a.ref.attempt = none ∧ a.ref.lastAttempt + 100 * psMs ≤ a.now ∧
     a.n Pid.relockAttempts < 8 ∧ refValid = true) ∧
    -- attemptCountReset
    (let t : Nat := 60000000000000
     let s : State := wReady
     let a := s.advance t
     a.refLocked = true ∧ a.ref.relocking = false ∧ a.ref.lockedAt + 60 * psS ≤ a.now) ∧
    -- referenceLoss
    (let t : Nat := 0
     let s : State := wReady
     let src : RefSrc := .crystal
     let a := s.advance t
     a.ref.attempt = none ∧ a.ref.lockedTo = some src ∧ src ≠ .fallback) ∧
    -- phaseWindowLoss
    (let t : Nat := 0
     let s : State := wReady
     let src : RefSrc := .crystal
     let a := s.advance t
     a.ref.attempt = none ∧ a.ref.lockedTo = some src ∧ src ≠ .fallback) :=
  ⟨by decide, by decide, by decide, by decide, by decide, by decide, by decide⟩

theorem witness_CompletesImageStart :
    -- sfdpRead
    (let t : Nat := 0
     let info : Option Sfdp := some ⟨64, true⟩
     let s : State := { State.reset with unit := { st := .imageLoad } }
     let x : Sfdp := ⟨64, true⟩
     let a := s.advance t
     a.unit.st = .imageLoad ∧ a.n Pid.flashSize = 0 ∧ a.n Pid.slotAStatus = 0 ∧ a.n Pid.slotBStatus = 0 ∧
     info = some x ∧ (x.mbit = 64 ∨ x.mbit = 128 ∨ x.mbit = 256 ∨ x.mbit = 512)) ∧
    -- slotCheck
    (let t : Nat := 0
     let slot : Nat := 0
     let s : State := ({ State.reset with unit := { st := .imageLoad } }.setN Pid.flashSize 64)
     let a := s.advance t
     a.unit.st = .imageLoad ∧ a.n Pid.flashSize ≠ 0 ∧ a.n Pid.bootSlot = 0xFF ∧
     slot = (if a.n (slotPid a.preferred) = 0 then a.preferred else 1 - a.preferred) ∧ a.n (slotPid slot) = 0) ∧
    -- contentCheck
    (let t : Nat := 0
     let s : State := ({ State.reset with unit := { st := .imageLoad } }.setN Pid.bootSlot 0)
     let a := s.advance t
     a.unit.st = .imageLoad ∧ a.n Pid.bootSlot < 2 ∧ a.img.loaded = false) ∧
    -- selfTestComplete
    (let t : Nat := 0
     let r : SelfTest := ⟨[], [], [], [], [200000], []⟩
     let s : State := wSelfTest
     let S : Int := 200000
     let a := s.advance t
     a.unit.st = .selfTest ∧ ((a.setRail 780000).railSearch r.slacks).1 = some S ∧ 120000 ≤ S ∧ r.failed = [] ∧
     r.fastFailed = [] ∧ r.slowFailed = [] ∧ r.islandsFailed = [] ∧
     ((a.setRail 780000).railSearch r.slacks).2.configOk = true ∧
     ((((a.setRail 780000).railSearch r.slacks).2.setN Pid.selftestResult 0).testMarks r).configOk = true) ∧
    -- nextSlotWrite
    (let t : Nat := 0
     let role : Role := .commissioner
     let v : Word := 1
     let s : State := wReady.setN Pid.slotBStatus 9
     let a := s.advance t
     a.unit.st.factory = false ∧ v.toNat < 2 ∧ a.n (slotPid v.toNat) = 9 ∧ a.roleOk role .commissioner = true ∧
     (a.n Pid.pairState ≠ 1 ∨ a.forwards (Pid.nextSlot) = false) ∧
     a.canNote role 1 (Pid.nextSlot) (a.w Pid.nextSlot) (v) = true) :=
  ⟨by decide, by decide, by decide, by decide, by decide⟩

theorem witness_CompletesPortRequests :
    -- energise
    (let t : Nat := 0
     let req : Requester := .role .operator
     let p : Nat := 1
     let v : Word := 1
     let s : State := (wPort.setN (Pid.vSet 1) 0)
     let a := s.advance t
     (a.port p).used = true ∧ a.energiseCode p v.toNat = 0 ∧ a.reqOk req .operator = true ∧
     (a.n Pid.pairState ≠ 1 ∨ a.forwards (Pid.energise p) = false) ∧ a.reqCanNote req (Pid.energise p) (v) = true) ∧
    -- stopPort
    (let t : Nat := 0
     let req : Requester := .lattice
     let p : Nat := 1
     let s : State := wRun
     let a := s.advance t
     (a.port p).used = true ∧ (a.port p).st.atRest = false ∧ (a.port p).stopAt = none ∧ a.reqOk req .operator = true ∧
     (a.n Pid.pairState ≠ 1 ∨ a.forwards (Pid.stop p) = false) ∧ a.reqCanNote req (Pid.stop p) (1) = true) ∧
    -- stopUnit
    (let t : Nat := 0
     let req : Requester := .role .operator
     let s : State := wRun
     let a := s.advance t
     (a.each a.usedPorts State.doStop).unit.st ∈ [.ready, .energise, .run, .limited, .rideThrough, .standby] ∧
     a.reqOk req .operator = true ∧ (a.n Pid.pairState ≠ 1 ∨ a.forwards (Pid.stop 0) = false) ∧
     a.reqCanNote req (Pid.stop 0) (2) = true) ∧
    -- coordinatedStart
    (let t : Nat := 0
     let p : Nat := 1
     let s : State := ((wArmed.setN (Pid.hasContactor 1) 0).modPort 1 fun q => { q with arm := .scheduled 0 })
     let n : Nat := 0
     let a := s.advance t
     (a.port p).arm = .scheduled n ∧ (a.port p).used = true ∧ (a.port p).st = .armed ∧ n ≤ a.intNs ∧
     ((a.latOut p 1 false).setBit (Pid.lawFlags p) 6 false).belowDead p = true ∧
     (((a.latOut p 1 false).setBit (Pid.lawFlags p) 6 false).contactorDeclared p && !(a.port p).contactor) = false ∧
     (a.port p).stopAt = none) ∧
    -- scheduleCancel
    (let t : Nat := 0
     let p : Nat := 1
     let s : State := (wArmed.modPort 1 fun q => { q with arm := .scheduled 5 })
     let n : Nat := 5
     let a := s.advance t
     (a.port p).arm = .scheduled n ∧ (a.port p).used = true ∧ (a.port p).st = .armed ∧ a.netValid = false ∧
     a.intNs < n) :=
  ⟨by decide, by decide, by decide, by decide, by decide⟩

theorem witness_CompletesPortTimers :
    -- armTimeout
    (let t : Nat := 100000000000000000
     let p : Nat := 1
     let s : State := wArmed
     let a := s.advance t
     (a.port p).st = .armed ∧ (a.port p).arm = .waiting ∧ a.n (Pid.busSense p) ≠ 1 ∧ (a.port p).stopAt = none ∧
     (a.port p).timerDue ((a.port p).since + a.n (Pid.armTimeout p) * psS) = true) ∧
    -- busDeadDetected
    (let t : Nat := 100000000000000
     let p : Nat := 1
     let s : State := (wArmed.setN (Pid.busSense 1) 1).modPort 1 fun q => { q with busLow := some 0 }
     let a := s.advance t
     (a.port p).used = true ∧ a.n (Pid.busSense p) = 1 ∧ a.held (a.port p).busLow (a.n (Pid.deadTime p)) = true) ∧
    -- busLiveDetected
    (let t : Nat := 100000000000000
     let p : Nat := 1
     let s : State := (wArmed.setN (Pid.busSense 1) 1).modPort 1 fun q => { q with busHigh := some 0 }
     let a := s.advance t
     (a.port p).used = true ∧ a.n (Pid.busSense p) = 1 ∧ a.held (a.port p).busHigh 20 = true) ∧
    -- backoffExpiry
    (let t : Nat := 0
     let p : Nat := 1
     let s : State := (wArmed.modPort 1 fun q => { q with arm := .backoff 0, bus := .dead })
     let u : Nat := 0
     let a := s.advance t
     (a.port p).arm = .backoff u ∧ (a.port p).used = true ∧ (a.port p).st = .armed ∧ u ≤ a.now ∧
     (a.port p).bus = .dead ∧ (a.port p).stopAt = none) ∧
    -- syncDwellComplete
    (let t : Nat := 100000000000000
     let p : Nat := 1
     let s : State := wSync
     let f : Nat := 0
     let a := s.advance t
     (a.port p).dwellFrom = some f ∧ (a.port p).used = true ∧ (a.port p).st = .syncing ∧
     (a.port p).permissiveAt = none ∧ (a.port p).stopAt = none ∧ a.syncWindows p = true ∧
     f + a.n (Pid.syncDwell p) * psMs ≤ a.now) ∧
    -- closeTimeout
    (let t : Nat := 100000000000000
     let p : Nat := 1
     let s : State := (wArmed.modPort 1 fun q => { q with arm := .closing 0 })
     let c : Nat := 0
     let a := s.advance t
     (a.port p).st = .armed ∧ (a.port p).arm = .closing c ∧ (a.port p).stopAt = none ∧
     (a.port p).timerDue (c + a.n (Pid.closeTimeout p) * psMs) = true ∧ (a.port p).confirmIn ≠ some true) ∧
    -- closeTimeout
    (let t : Nat := 100000000000000
     let p : Nat := 1
     let s : State := (wSync.modPort 1 fun q => { q with permissiveAt := some 0 })
     let c : Nat := 0
     let a := s.advance t
     (a.port p).st = .syncing ∧ (a.port p).permissiveAt = some c ∧ (a.port p).stopAt = none ∧
     (a.port p).timerDue (c + a.n (Pid.closeTimeout p) * psMs) = true ∧ (a.port p).confirmIn ≠ some true) ∧
    -- syncTimeout
    (let t : Nat := 100000000000000000
     let p : Nat := 1
     let s : State := wSync
     let a := s.advance t
     (a.port p).st = .syncing ∧ (a.port p).stopAt = none ∧ (a.port p).confirmIn ≠ some true ∧
     (a.port p).timerDue ((a.port p).since + a.n (Pid.syncTimeout p) * psS) = true) ∧
    -- stopTimeout
    (let t : Nat := 100000000000000000
     let p : Nat := 1
     let s : State := (wRun.modPort 1 fun q => { q with stopAt := some 0 })
     let f : Nat := 0
     let a := s.advance t
     (a.port p).stopAt = some f ∧ (a.port p).st.running = true ∧ (a.port p).openAsked = false ∧
     (a.port p).timerDue (f + a.n (Pid.stopTimeout p) * psMs) = true) :=
  ⟨by decide, by decide, by decide, by decide, by decide, by decide, by decide, by decide, by decide⟩

theorem witness_CompletesOuterLaw :
    -- outerStep
    (let t : Nat := 0
     let p : Nat := 1
     let s : State := { wRun with eng := { bounds := 2 } }
     let a := s.advance t
     (a.port p).used = true ∧ (a.port p).outerRan = false ∧ 2 ≤ a.eng.bounds) ∧
    -- excursionClose
    (let t : Nat := 1000000000000000
     let p : Nat := 1
     let s : State := (wRun.modPort 1 fun q => { q with rtBandFrom := some 0, rtOpen := true })
     let f : Nat := 0
     let a := s.advance t
     (a.port p).rtBandFrom = some f ∧ (a.port p).rtOpen = true ∧
     (a.port p).timerDue (f + a.n (Pid.rtReset p) * psMs) = true) ∧
    -- limReleaseExpiry
    (let t : Nat := 1000000000000000
     let p : Nat := 1
     let s : State := (wRun.modPort 1 fun q => { q with st := .limited, outerRan := true })
     let a := s.advance t
     (a.port p).st = .limited ∧ (a.port p).timerDue ((a.port p).satAt + a.n (Pid.limRelease p) * psMs) = true) ∧
    -- hardBudgetExhausted
    (let t : Nat := 0
     let p : Nat := 1
     let s : State := ((wRun.setN (Pid.iHardTime 1) 1).modPort 1 fun q => { q with budget := 1000000000000000 })
     let a := s.advance t
     (a.port p).used = true ∧ (a.port p).exhausted = false ∧ 0 < a.n (Pid.iHardTime p) ∧
     a.budgetFull p ≤ (a.port p).budget) ∧
    -- hardBudgetRefilled
    (let t : Nat := 0
     let p : Nat := 1
     let s : State := (wRun.modPort 1 fun q => { q with exhausted := true })
     let a := s.advance t
     (a.port p).used = true ∧ (a.port p).exhausted = true ∧ (a.port p).budget = 0) :=
  ⟨by decide, by decide, by decide, by decide, by decide⟩

theorem witness_CompletesFeedback :
    -- feedbackLost
    (let t : Nat := 0
     let p : Nat := 1
     let role : Nat := 1
     let elem : Nat := 0
     let s : State := (wRun.modPort 1 fun q => { q with fb := [{ role := 1, elem := 0, bad := 16 }] })
     let e : FbEl := { role := 1, elem := 0, bad := 16 }
     let a := s.advance t
     ((a.port p).fb.find? (fun e => e.role = role ∧ e.elem = elem ∧ 16 ≤ e.bad ∧ e.lost = false) = some e) ∧
     (a.port p).used = true ∧ (a.port p).st.atRest = false) ∧
    -- feedbackRecover
    (let t : Nat := 0
     let p : Nat := 1
     let role : Nat := 2
     let s : State := wRun.modPort 1 fun q => { q with openLoop := some 0, fb := [{ role := 2, elem := 0, lost := true, good := 100000 }] }
     let c : Nat := 0
     let a := s.advance t
     (a.port p).used = true ∧ (a.port p).st.atRest = false ∧ (a.port p).openLoop = some c ∧ a.lossOpens p role = true ∧
     ((((a.port p).fb.filter fun e => e.role = role).any fun e => e.lost) = true) ∧
     ((((a.port p).fb.filter fun e => e.role = role).all fun e => a.n (Pid.fbRecover p) ≤ e.good) = true)) ∧
    -- feedbackRecover
    (let t : Nat := 0
     let p : Nat := 1
     let role : Nat := 4
     let s : State := wRun
     let a := s.advance t
     (a.port p).used = true ∧ (a.port p).st.atRest = false ∧ (a.port p).openLoop = none ∧ (role = 4 ∨ role = 7)) :=
  ⟨by decide, by decide, by decide⟩

theorem witness_CompletesInjections :
    -- injStart
    (let t : Nat := 0
     let role : Role := .commissioner
     let s : State := wInj
     let a := s.advance t
     a.n Pid.injState ≠ 1 ∧ a.injCode = 0 ∧ a.injCapBusy = false ∧ a.roleOk role .commissioner = true ∧
     (a.n Pid.pairState ≠ 1 ∨ a.forwards (Pid.injCmd) = false) ∧ a.canNote role 2 (Pid.injCmd) (0) (1) = true) ∧
    -- injStop
    (let t : Nat := 0
     let role : Role := .commissioner
     let s : State := wReady.setN Pid.injState 1
     let a := s.advance t
     a.n Pid.injState = 1 ∧ a.roleOk role .commissioner = true ∧
     (a.n Pid.pairState ≠ 1 ∨ a.forwards (Pid.injCmd) = false) ∧ a.canNote role 2 (Pid.injCmd) (0) (2) = true) ∧
    -- frPointComplete
    (let t : Nat := 0
     let s : State := { ((((((wReady.setN Pid.injState 1).setN Pid.ssPoints 10).setN Pid.ssFStart 1000).setN Pid.ssFStop 2000).setN Pid.ssCycles 1)) with inj := { wave := 3, dest := 2, at_ := 100000000 } }
     let a := s.advance t
     a.injTable = true ∧ a.injOver 0 = false ∧ a.ssEnded = true) ∧
    -- injectionComplete
    (let t : Nat := 0
     let s : State := { (wReady.setN Pid.injState 1) with inj := { wave := 3, dest := 1, idx := 300 } }
     let a := s.advance t
     a.n Pid.injState = 1 ∧ a.injDone = true) :=
  ⟨by decide, by decide, by decide +kernel, by decide⟩

theorem witness_CompletesEnginePeriod :
    -- laneCompletion
    (let t : Nat := 0
     let laneY : Bool := true
     let s : State := { (wRun.setN Pid.engineState 1) with eng := { count := 1 } }
     let a := s.advance t
     a.engineOn = true ∧ a.eng.count ≠ 0 ∧ laneY = true ∧ a.eng.doneY = none ∧ a.now < a.periodEnd) ∧
    -- laneCompletion
    (let t : Nat := 0
     let laneY : Bool := false
     let s : State := { (wRun.setN Pid.engineState 1) with eng := { count := 1 } }
     let a := s.advance t
     a.engineOn = true ∧ a.eng.count ≠ 0 ∧ laneY = false ∧ a.eng.doneX = none ∧ a.now < a.periodEnd) ∧
    -- computeDeadline
    (let t : Nat := 1000000000
     let s : State := { (wRun.setN Pid.engineState 1) with eng := { count := 1 } }
     let a := s.advance t
     a.n Pid.engineState = 1 ∧ a.eng.judged = false ∧ a.eng.count ≠ 0 ∧ a.deadlineAt ≤ a.now ∧
     (lateLane a.eng.doneX = true ∨ lateLane a.eng.doneY = true)) ∧
    -- compareWindowEnd
    (let t : Nat := 1000000000
     let s : State := { (wRun.setN Pid.engineState 1) with eng := { count := 1, doneX := some 625, doneY := some 625 } }
     let a := s.advance t
     a.n Pid.engineState = 1 ∧ a.eng.judged = false ∧ a.eng.count ≠ 0 ∧ a.compareAt ≤ a.now ∧
     lateLane a.eng.doneX = false ∧ lateLane a.eng.doneY = false) ∧
    -- compareWindowEnd
    (let t : Nat := 1000000000
     let s : State := { wRun with eng := { count := 1, running := true } }
     let a := s.advance t
     a.eng.count ≠ 0 ∧ a.compareAt ≤ a.now ∧
     (a.n Pid.engineState ≠ 1 ∨ a.eng.judged = true ∨ lateLane a.eng.doneX = true ∨ lateLane a.eng.doneY = true)) ∧
    -- periodTick
    (let t : Nat := 0
     let s : State := { wRun with img := { loaded := true } }
     let a := s.advance t
     a.img.loaded = true ∧ a.ref.lockedTo ≠ none ∧ a.tickDue = true) :=
  ⟨by decide, by decide, by decide, by decide, by decide, by decide⟩

theorem witness_CompletesConversion :
    -- fastConversion
    (let t : Nat := 1000000000
     let g : Nat := 0
     let i : Nat := 1
     let s : State := wConv
     let a := s.advance t
     a.sampling = true ∧ a.portOfGroup g ≠ none ∧ i ≠ 0 ∧ i < a.n (Pid.grpOs g) ∧ a.convInst g i ≤ a.now) ∧
    -- sampleEntry
    (let t : Nat := 1000000000
     let p : Nat := 1
     let s : State := wConv
     let a := s.advance t
     a.sampling = true ∧ (a.port p).used = true ∧ a.eng.tickAt + a.convWin ≤ a.now) ∧
    -- slowScanStart
    (let t : Nat := 0
     let m : Nat := 1
     let s : State := { (wRun.setN (Pid.saRole 8) 2) with img := { loaded := true } }
     let c : Nat := 8
     let cs : List Nat := []
     let a := s.advance t
     a.smChans m = c :: cs ∧ m < 4 ∧ a.img.loaded = true ∧ a.ref.lockedTo ≠ none ∧ (a.smod m).scanFrom = none ∧
     (a.smod m).lastScan = none) ∧
    -- slowConversionDone
    (let t : Nat := 100000000000000
     let ch : Nat := 8
     let code : Int := 0
     let s : State := wRun.modSmod 1 fun x => { x with chan := some 8 }
     let a := s.advance t
     (a.smod (ch / 8)).chan = some ch ∧ (a.smod (ch / 8)).chanFrom + a.convPs ch ≤ a.now ∧ code ≤ 8388607 ∧
     -8388608 ≤ code) ∧
    -- slowOverRange
    (let t : Nat := 100000000000000
     let ch : Nat := 8
     let s : State := wRun.modSmod 1 fun x => { x with chan := some 8 }
     let a := s.advance t
     (a.smod (ch / 8)).chan = some ch ∧
     (a.smod (ch / 8)).chanFrom + 40 * psUs + 32 * a.n (Pid.saDiv ch) * psS / 8192000 ≤ a.now) ∧
    -- slowResultStale
    (let t : Nat := 100000000000000
     let ch : Nat := 8
     let s : State := (wRun.setN (Pid.saRole 8) 2).modSch 8 fun x => { x with at_ := some 0 }
     let n : Nat := 0
     let a := s.advance t
     (a.slow.getD ch {}).at_ = some n ∧ (a.slow.getD ch {}).staleTold = false ∧ a.n (Pid.saRole ch) ≠ 0 ∧
     n + 2 * a.n (Pid.smScan (ch / 8)) * psMs < a.now) :=
  ⟨by decide, by decide, by decide, by decide, by decide, by decide⟩

theorem witness_CompletesFastInputs :
    -- windowComparatorFire
    (let t : Nat := 0
     let ch : Nat := 11
     let s : State := wRun
     let p : Nat := 1
     let a := s.advance t
     a.portOfGroup (ch / 12) = some p ∧ a.bit (Pid.faStatus ch) 5 = false) ∧
    -- windowComparatorRelease
    (let t : Nat := 0
     let ch : Nat := 11
     let s : State := wRun
     let p : Nat := 1
     let a := s.advance t
     a.portOfGroup (ch / 12) = some p) ∧
    -- faClear
    (let t : Nat := 0
     let role : Role := .service
     let ch : Nat := 3
     let v : Word := 1
     let s : State := wRun
     let a := s.advance t
     a.roleOk role .service = true ∧ a.faClearOk ch v = true ∧
     (a.n Pid.pairState ≠ 1 ∨ a.forwards (Pid.faClear ch) = false) ∧ a.canNote role 2 (Pid.faClear ch) (0) (v) = true) :=
  ⟨by decide, by decide, by decide⟩

theorem witness_CompletesModulation :
    -- carrierBoundary
    (let t : Nat := 0
     let l : Nat := 0
     let s : State := (wRun.setN (Pid.modState 1) 1).modLeg 0 fun x => { x with nextB := some 0 }
     let p : Nat := 1
     let b : Nat := 0
     let a := s.advance t
     a.portOfLeg l = some p ∧ (a.leg l).nextB = some b ∧ a.n (Pid.modState p) ≠ 0 ∧ b ≤ a.now ∧
     (l ≠ (a.port p).refLeg ∨ (a.port p).realign = false)) ∧
    -- legEdge
    (let t : Nat := 0
     let l : Nat := 0
     let s : State := wEdge
     let p : Nat := 1
     let y : Bool := true
     let a := s.advance t
     a.portOfLeg l = some p ∧ a.n (Pid.modState p) ≠ 0 ∧ a.hasSet p l = true ∧ (a.leg l).delayed = none ∧
     a.edgeDue p l = some y ∧ a.edgeFree p l ≤ ((a.leg l).ticks a.now).2) ∧
    -- legEdge
    (let t : Nat := 0
     let l : Nat := 0
     let s : State := wEdge.modLeg 0 fun x => { x with lastEdge := some 5 }
     let p : Nat := 1
     let y : Bool := true
     let a := s.advance t
     a.portOfLeg l = some p ∧ a.n (Pid.modState p) ≠ 0 ∧ a.hasSet p l = true ∧ (a.leg l).delayed = none ∧
     a.edgeDue p l = some y ∧ ((a.leg l).ticks a.now).2 < a.edgeFree p l) ∧
    -- legEdge
    (let t : Nat := 0
     let l : Nat := 0
     let s : State := wEdge.modLeg 0 fun x => { x with delayed := some (true, 0) }
     let p : Nat := 1
     let y : Bool := true
     let b : Nat := 0
     let a := s.advance t
     a.portOfLeg l = some p ∧ a.n (Pid.modState p) ≠ 0 ∧ a.hasSet p l = true ∧ (a.leg l).delayed = some (y, b) ∧
     a.edgeFree p l ≤ a.now) ∧
    -- deadTimeExpiry
    (let t : Nat := 0
     let l : Nat := 2
     let s : State := wRun.modLeg 2 fun x => { x with onAt := some 0 }
     let u : Nat := 0
     let p : Nat := 1
     let a := s.advance t
     (a.leg l).onAt = some u ∧ a.portOfLeg l = some p ∧ u ≤ a.now) ∧
    -- extraCompareFire
    (let t : Nat := 0
     let l : Nat := 0
     let k : Nat := 0
     let share : Bool := false
     let s : State := wCmp 2
     let p : Nat := 1
     let i : Nat := 0
     let a := s.advance t
     a.portOfLeg l = some p ∧ a.xDue p l k share = some i ∧ a.n (Pid.modState p) ≠ 0 ∧ share = false ∧
     (((a.leg l).fires.any fun f => f.1 / 2 = k && within10ns f.2 i) = false) ∧ xKind ((a.leg l).xcNow.getD k 0) = 2) ∧
    -- extraCompareFire
    (let t : Nat := 0
     let l : Nat := 0
     let k : Nat := 0
     let share : Bool := false
     let s : State := wCmp 3
     let p : Nat := 1
     let i : Nat := 0
     let a := s.advance t
     a.portOfLeg l = some p ∧ a.xDue p l k share = some i ∧ a.n (Pid.modState p) ≠ 0 ∧ share = false ∧
     (((a.leg l).fires.any fun f => f.1 / 2 = k && within10ns f.2 i) = false) ∧ xKind ((a.leg l).xcNow.getD k 0) = 3) ∧
    -- extraCompareFire
    (let t : Nat := 0
     let l : Nat := 0
     let k : Nat := 0
     let share : Bool := false
     let s : State := wCmp 1
     let p : Nat := 1
     let i : Nat := 0
     let a := s.advance t
     a.portOfLeg l = some p ∧ a.xDue p l k share = some i ∧ a.n (Pid.modState p) ≠ 0 ∧ share = false ∧
     (((a.leg l).fires.any fun f => f.1 / 2 = k && within10ns f.2 i) = false) ∧ xKind ((a.leg l).xcNow.getD k 0) = 1) ∧
    -- modRelease
    (let t : Nat := 0
     let role : Role := .service
     let p : Nat := 1
     let v : Word := 1
     let s : State := wRun.setN (Pid.modState 1) 4
     let a := s.advance t
     a.roleOk role .service = true ∧ a.modReleaseOk p v = true ∧
     (a.n Pid.pairState ≠ 1 ∨ a.forwards (Pid.modRelease p) = false) ∧
     a.canNote role 2 (Pid.modRelease p) (0) (v) = true) ∧
    -- midPeriodLoad
    (let t : Nat := 10000000000
     let l : Nat := 0
     let s : State := wMid
     let p : Nat := 1
     let a := s.advance t
     a.portOfLeg l = some p ∧ l = (a.port p).refLeg ∧ a.n (Pid.modState p) = 3 ∧ a.n (Pid.updMode p) = 1 ∧
     ((((a.port p).legs.filter fun k => a.hasPhase p k).all fun k => decide (fitPhase (a.fitPeriod p (a.n (Pid.shPeriod p))) (a.n (Pid.shPhase k)) = a.n (Pid.phActive k))) = true) ∧
     a.fitPeriod p (a.n (Pid.shPeriod p)) ≠ a.n (Pid.pActive p) ∧
     (a.leg l).boundary + a.n (Pid.pActive p) / 2 * tickPs ≤ a.now ∧
     ((a.leg l).nextB.all (fun b => decide (a.now < b)) = true)) :=
  ⟨by decide, by decide, by decide, by decide, by decide, by decide, by decide, by decide, by decide, by decide⟩

theorem witness_CompletesDeadTime :
    -- nsCrossingReport
    (let t : Nat := 0
     let l : Nat := 0
     let fault : Bool := true
     let s : State := wRun
     let p : Nat := 1
     let a := s.advance t
     a.portOfLeg l = some p ∧ fault = true) ∧
    -- nsCrossingReport
    (let t : Nat := 0
     let l : Nat := 0
     let near : Option Nat := none
     let fault : Bool := false
     let s : State := wRun.modLeg 0 fun x => { x with measuring := true }
     let p : Nat := 1
     let a := s.advance t
     a.portOfLeg l = some p ∧ fault = false ∧ (a.leg l).measuring = true ∧ a.bit (Pid.legProt l) 0 = false ∧
     near = none ∧ (a.leg l).onAt = none) ∧
    -- dtAdaptiveResume
    (let t : Nat := 0
     let l : Nat := 0
     let s : State := wRun.modPort 1 fun q => { q with dcOk := 1000, thrOk := 1000 }
     let p : Nat := 1
     let a := s.advance t
     a.portOfLeg l = some p) :=
  ⟨by decide, by decide, by decide⟩

theorem witness_CompletesIslandCommands :
    -- keepAliveSend
    (let t : Nat := 0
     let s : State := wRun
     let a := s.advance t
     a.unit.st ∉ [.off, .reset, .refLock, .imageLoad, .selfTest] ∧ a.ref.lockedTo ≠ none) ∧
    -- islandOnCommand
    (let t : Nat := 0
     let i : Nat := 3
     let s : State := wIsl.modIsl 3 fun x => { x with onDue := some 0 }
     let a := (s.advance t).innerEnables
     ((a.island i).onDue.any (fun u => decide (u ≤ a.now)) = true)) ∧
    -- islandOnCommand
    (let t : Nat := 0
     let i : Nat := 3
     let s : State := wIsl.modIsl 3 fun x => { x with onDue := some 0 }
     let b : State := ((wIsl.modIsl 3 fun x => { x with onDue := some 0 }).advance 0).modIsl 3 fun x => { x with onDue := none }
     let c : State := (((wIsl.modIsl 3 fun x => { x with onDue := some 0 }).advance 0).modIsl 3 fun x => { x with onDue := none }).keepIsl 3
     let a := (s.advance t).innerEnables
     ((a.island i).onDue.any (fun u => decide (u ≤ a.now)) = true) ∧
     (b = a.modIsl i fun x => { x with onDue := none }) ∧ b.islUsed i = true ∧ b.enabled i = true ∧
     (b.island (b.partner i)).onCmd = false ∧ c = b.keepIsl i ∧ c.isTType (legOfIsl i) = false ∧
     (c.island i).on = false) ∧
    -- ilMinTimeElapsed
    (let t : Nat := 0
     let i : Nat := 3
     let s : State := wIsl.modIsl 3 fun x => { x with pendAt := some 0 }
     let a := s.advance t
     a.turnOnLate i tiePs = false ∧ a.mayTurnOn i = true) ∧
    -- gateAbovePlateau
    (let t : Nat := 0
     let i : Nat := 3
     let s : State := wIsl.modIsl 3 fun x => { x with on := true }
     let a := s.advance t
     (a.island i).on = true) ∧
    -- islandOffCommand
    (let t : Nat := 0
     let i : Nat := 3
     let s : State := wIsl.modIsl 3 fun x => { x with offDue := some 0 }
     let b : State := (((wIsl.modIsl 3 fun x => { x with offDue := some 0 }).advance 0).innerEnables.keepIsl 3).modIsl 3 fun x => { x with offDue := none }
     let a := s.advance t
     a.islUsed i = true ∧ a.isTType (legOfIsl i) = false ∧
     (b = (a.innerEnables.keepIsl i).modIsl i fun x => { x with offDue := none }) ∧
     ((a.innerEnables.island i).offDue.any (fun u => decide (u ≤ a.innerEnables.now)) = true)) ∧
    -- offConfirm
    (let t : Nat := 0
     let i : Nat := 3
     let s : State := wIsl.modIsl 3 fun x => { x with offConf := false }
     let b : State := ((wIsl.modIsl 3 fun x => { x with offConf := false }).advance 0).gateNotOff 3
     let c : State := (((wIsl.modIsl 3 fun x => { x with offConf := false }).advance 0).gateNotOff 3).chgIsl 3 fun x => { x with offConf := true, offAt := none, soft := none, softFull := false, lost := false }
     let a := s.advance t
     b = a.gateNotOff i ∧ (b.island i).on = false ∧ (b.island i).offConf = false ∧ (b.island i).soft = none ∧
     (c = b.chgIsl i fun x => { x with offConf := true, offAt := none, soft := none, softFull := false, lost := false }) ∧
     c.isTType (legOfIsl i) = false) ∧
    -- turnOnTimeout
    (let t : Nat := 2000000
     let i : Nat := 3
     let s : State := wIsl.modIsl 3 fun x => { x with pendAt := some 0 }
     let a := s.advance t
     a.turnOnLate i 0 = true) ∧
    -- islPulse
    (let t : Nat := 0
     let role : Role := .service
     let i : Nat := 3
     let v : Word := 10
     let s : State := wPulse
     let a := s.advance t
     a.roleOk role .service = true ∧ a.pulseOk i v = true ∧
     (a.n Pid.pairState ≠ 1 ∨ a.forwards (Pid.islPulse i) = false) ∧ a.canNote role 2 (Pid.islPulse i) (0) (v) = true) ∧
    -- islPulseEnd
    (let t : Nat := 0
     let i : Nat := 3
     let s : State := wIsl.modIsl 3 fun x => { x with pulseEnd := some 0 }
     let n : Nat := 0
     let a := s.advance t
     (a.island i).pulseEnd = some n ∧ n ≤ a.now ∧ (a.innerSw i = false ∨ (a.island (orderMate i)).offConf = true)) ∧
    -- softOffFullStrength
    (let t : Nat := 5000000
     let i : Nat := 3
     let s : State := wIsl.modIsl 3 fun x => { x with soft := some 0 }
     let n : Nat := 0
     let a := s.advance t
     (a.island i).soft = some n ∧ n + 5 * psUs ≤ a.now ∧ a.mayDrive = true) :=
  ⟨by decide, by decide, by decide, by decide, by decide, by decide, by decide, by decide, by decide, by decide, by decide⟩

theorem witness_CompletesIslandFaults :
    -- desaturation
    (let t : Nat := 1000000000
     let i : Nat := 3
     let s : State := wIsl.modIsl 3 fun x => { x with on := true }
     let a := s.advance t
     a.detects i = true ∧ (a.island i).cmdAt + a.n (Pid.dsBlank i) * 1000 ≤ a.now) ∧
    -- gatePlateauMissing
    (let t : Nat := 0
     let i : Nat := 3
     let s : State := (wIsl.setN (Pid.gsPlateauMin 3) 50).modIsl 3 fun x => { x with on := true }
     let a := s.advance t
     a.detects i = true ∧ a.n (Pid.gsPlateauMin i) ≠ 0 ∧
     a.now < (a.island i).cmdAt + (a.n (Pid.gsPlateauMin i) + 30) * 1000) ∧
    -- gateNotOn
    (let t : Nat := 1000000000
     let i : Nat := 3
     let s : State := wIsl.modIsl 3 fun x => { x with on := true }
     let a := s.advance t
     a.islUsed i = true ∧ (a.island i).on = true ∧ (a.island i).above = false ∧
     (a.island i).cmdAt + a.n (Pid.dsBlank i) * 1000 ≤ a.now) ∧
    -- gateNotOff
    (let t : Nat := 2000000
     let i : Nat := 3
     let s : State := wIsl.modIsl 3 fun x => { x with offAt := some 0, offConf := false }
     let n : Nat := 0
     let a := s.advance t
     (a.island i).offAt = some n ∧ a.islUsed i = true ∧ (a.island i).on = false ∧ (a.island i).offConf = false ∧
     (a.island i).soft = none ∧ n + 2 * psUs ≤ a.now ∧ bitAt (a.island i).flags 10 = false) ∧
    -- islandWatchdogExpiry
    (let t : Nat := 2600001
     let i : Nat := 3
     let s : State := wIsl.modIsl 3 fun x => { x with keepAt := 1 }
     let a := s.advance t
     a.islUsed i = true ∧ (a.island i).keepAt ≠ 0 ∧ (a.island i).wdExpired = false ∧
     (a.island i).keepAt + (a.wdTimes i).1 ≤ a.now) ∧
    -- islandLost
    (let t : Nat := 0
     let i : Nat := 3
     let s : State := wIsl
     let a := s.advance t
     a.islUsed i = true ∧ a.ref.lockedTo ≠ none ∧ (a.island i).lost = false) ∧
    -- islandUndervoltage
    (let vpLow : Bool := true
     let vnLow : Bool := false
     (vpLow = true ∨ vnLow = true)) :=
  ⟨by decide, by decide, by decide, by decide, by decide, by decide, by decide⟩

theorem witness_CompletesProtection :
    -- legFaultRunEnd
    (let t : Nat := 10000000
     let p : Nat := 1
     let s : State := wRun.modPort 1 fun q => { q with runFrom := some 0 }
     let n : Nat := 0
     let a := s.advance t
     (a.port p).runFrom = some n ∧ n + 10 * psUs ≤ a.now) ∧
    -- tripInputAssert
    (let t : Nat := 0
     let n : Nat := 2
     let s : State := wRun.setN (Pid.tripPorts 2) 2
     let a := s.advance t
     n < 8 ∧ a.n (Pid.tripPorts n) ≠ 0 ∧ a.n (Pid.tripLevel n) ≠ 1) ∧
    -- tripInputRelease
    (let t : Nat := 0
     let n : Nat := 2
     let s : State := wRun.setN (Pid.tripPorts 2) 2
     let a := s.advance t
     n < 8 ∧ a.n (Pid.tripPorts n) ≠ 0) ∧
    -- protClear
    (let t : Nat := 0
     let req : Requester := .role .operator
     let p : Nat := 1
     let v : Word := 1
     let s : State := wRun.modPort 1 fun q => { q with st := .portStop }
     let a := s.advance t
     (a.port p).used = true ∧ a.clearCode req p v = 0 ∧ a.reqOk req .operator = true ∧
     (a.n Pid.pairState ≠ 1 ∨ a.forwards (Pid.protClear p) = false) ∧ a.reqCanNote req (Pid.protClear p) (v) = true) ∧
    -- autoClear
    (let t : Nat := 0
     let p : Nat := 1
     let s : State := wRun.modPort 1 fun q => { q with st := .portStop, autoAt := some 0 }
     let n : Nat := 0
     let a := s.advance t
     (a.port p).autoAt = some n ∧ n ≤ a.now ∧
     (((a.modPort p fun q => { q with tries := a.now :: q.tries, autoAt := none }).autoPrune p).clearCode .auto p 1#32 = 0)) ∧
    -- autoWindowAgeOut
    (let t : Nat := 0
     let p : Nat := 1
     let s : State := wRun
     let a := s.advance t
     (a.port p).used = true) ∧
    -- istCmd
    (let t : Nat := 0
     let role : Role := .service
     let i : Nat := 3
     let v : Word := 1
     let s : State := wIsl
     let a := s.advance t
     a.roleOk role .service = true ∧ a.istOk i v = true ∧ (a.n Pid.pairState ≠ 1 ∨ a.forwards (Pid.istCmd i) = false) ∧
     a.canNote role 2 (Pid.istCmd i) (0) (v) = true) ∧
    -- istComplete
    (let t : Nat := 0
     let i : Nat := 3
     let s : State := wIsl.modIsl 3 fun x => { x with testing := some 0 }
     let a := s.advance t
     (a.island i).testing ≠ none) :=
  ⟨by decide, by decide, by decide, by decide, by decide, by decide, by decide, by decide⟩

theorem witness_CompletesSafetyInputs :
    -- safeInputChange
    (let t : Nat := 0
     let n : Nat := 0
     let ca : Bool := false
     let cb : Bool := false
     let s : State := wSaf
     let b : State := ((wSaf.advance 0).modSaf fun f => { f with raw := f.raw.set 0 (some (false, false)) }).discrepant 0 tiePs
     let a := s.advance t
     n < 8 ∧ a.sinFn n = .sgo ∧
     (b = (a.modSaf fun f => { f with raw := f.raw.set n (some (ca, cb)) }).discrepant n tiePs) ∧ b.sinFn n = .sgo) ∧
    -- inputDiscrepancy
    (let t : Nat := 100000000000000
     let n : Nat := 0
     let s : State := wSafC.modSin 0 fun x => { x with diffAt := some 0 }
     let d : Nat := 0
     let a := s.advance t
     (a.sin n).diffAt = some d ∧ a.sinFn n ≠ .unused ∧ a.blockConfirmed = true ∧ (a.sin n).disc ≠ 1 ∧
     (a.sin n).disc ≠ 2 ∧ d + a.n Pid.sinDiscTime * psMs ≤ a.now) ∧
    -- inputTestPulse
    (let t : Nat := 0
     let n : Nat := 0
     let chB : Bool := false
     let passed : Bool := true
     let s : State := wSafC.setN Pid.sinTpEn 1
     let a := s.advance t
     n < 8 ∧ a.sinFn n ≠ .unused ∧ a.blockConfirmed = true ∧ a.bit Pid.sinTpEn n = true ∧
     a.dueFrom (.testPulse n chB) ≤ a.now ∧ passed = true) ∧
    -- inputTestPulse
    (let t : Nat := 0
     let n : Nat := 0
     let chB : Bool := true
     let passed : Bool := false
     let s : State := wSafC.setN Pid.sinTpEn 1
     let a := s.advance t
     n < 8 ∧ a.sinFn n ≠ .unused ∧ a.blockConfirmed = true ∧ a.bit Pid.sinTpEn n = true ∧
     a.dueFrom (.testPulse n chB) ≤ a.now ∧ passed = false ∧ chB = true ∧ (a.sin n).tpMissB = false) ∧
    -- outputOffPulse
    (let t : Nat := 0
     let k : Nat := 2
     let s : State := wSafOut
     let a := s.advance t
     k < 6 ∧ (a.sout k).cmd = true ∧ a.dueFrom (.offPulse k) ≤ a.now) ∧
    -- outputReadbackFault
    (let t : Nat := 0
     let k : Nat := 2
     let s : State := wSafOut
     let a := s.advance t
     k < 6 ∧ a.unit.st ≠ .off ∧ (a.sout k).cmd = true) ∧
    -- vsoUndervoltage
    (let t : Nat := 0
     let s : State := wSafOut
     let k : Nat := 2
     let a := s.advance t
     ((List.range 6).find? (fun k => (a.sout k).cmd) = some k)) ∧
    -- coilCheck
    (let t : Nat := 0
     let k : Nat := 3
     let s : State := wSaf
     let a := s.advance t
     a.sbcUsed = true ∧ (k = 2 ∨ k = 3) ∧ (a.sout k).cmd = false ∧ a.dueFrom (.coil k) ≤ a.now) ∧
    -- holdingTestEnd
    (let t : Nat := 100000000000000
     let s : State := wStill.modSaf fun x => { x with test := some 0 }
     let f : Nat := 0
     let a := s.advance t
     a.saf.test = some f ∧ f + a.n Pid.sbcHoldTime * psMs ≤ a.now ∧ a.standstill = true) ∧
    -- mirrorTimeExpiry
    (let t : Nat := 100000000000000
     let s : State := (wSaf.modSaf fun x => { x with sccOn := true }).modSin 4 fun x => { x with perm := true }
     let a := s.advance t
     a.sccUsed = true ∧ a.saf.sccAt + a.n Pid.sccMirrorTime * psMs ≤ a.now ∧ a.sccJudged = true ∧
     a.saf.sccClosed = false ∧ a.saf.sccFail = false ∧ ((a.sin 4).perm = true ∨ (a.sin 5).perm = true)) :=
  ⟨by decide, by decide, by decide, by decide, by decide, by decide, by decide, by decide, by decide, by decide⟩

theorem witness_CompletesSafetyFunctions :
    -- safetyEvaluation
    (let t : Nat := 0
     let s : State := wSaf
     let a := s.advance t
     a.unit.st ≠ .off ∧ a.dueFrom .safety ≤ a.now) ∧
    -- sgoDemand
    (let t : Nat := 0
     let cause : Nat := 1
     let input : Nat := 0
     let s : State := wSaf
     let a := s.advance t
     (a.demandNow true).contains (cause, input) = true ∧ a.saf.dem.contains (cause, input) = false) ∧
    -- strapRead
    (let t : Nat := 0
     let pattern : Nat := 7
     let faulty : Nat := 0
     let s : State := { wReady with img := { loaded := true }, saf := { strapLast := some 7, blkProfile := 7 } }.setN Pid.safetyFormat 1
     let b : State := ({ wReady with img := { loaded := true }, saf := { strapLast := some 7, blkProfile := 7 } }.setN Pid.safetyFormat 1).advance 0 |>.again .strap (100 * psMs)
     let a := s.advance t
     a.img.loaded = true ∧ a.nativeStraps = true ∧ faulty = 0 ∧ pattern < 65536 ∧ a.saf.strapLast = some pattern ∧
     a.dueFrom .strap ≤ a.now ∧ b = a.again .strap (100 * psMs) ∧
     pattern = (if b.saf.inForce then b.n Pid.profileWord else b.saf.blkProfile)) ∧
    -- safetyCommit
    (let t : Nat := 0
     let role : Role := .commissioner
     let v : Word := 1
     let readbackOk : Bool := true
     let s : State := wCommit
     let a := s.advance t
     v.toNat = 1 ∧ a.commitCode = 0 ∧ readbackOk = true ∧ a.roleOk role .commissioner = true ∧
     (a.n Pid.pairState ≠ 1 ∨ a.forwards Pid.safetyCommit = false) ∧
     a.canNote role 2 (Pid.safetyCommit) (0) (v) = true) ∧
    -- safetyPacketCopy
    (let t : Nat := 0
     let path : Nat := 0
     let bytes : List Byte := packetBytes 1 0 1 0 0
     let s : State := wPkt.setN (Pid.spPeer 1) 1
     let a := s.advance t
     a.paths.contains path = true ∧ a.unit.st ≠ .off ∧ a.copyValid bytes = true ∧ a.saf.win = none ∧
     a.saf.closedSeq = none ∧ a.saf.lastSeq = none ∧ a.saf.cmd = none ∧
     (((a.bump (Pid.spRxCount path)).paths.all fun q => q = path) = false)) ∧
    -- safetyWindowClose
    (let t : Nat := 1000000000000
     let s : State := wPkt.modSaf fun f => { f with win := some (0, []) }
     let a := s.advance t
     a.windowDue 0 = true) ∧
    -- packetTimeout
    (let t : Nat := 1000000000000
     let s : State := wPkt.modSaf fun f => { f with timer := some 0 }
     let a := s.advance t
     a.packetDue 0 = true) ∧
    -- statusPacketSend
    (let t : Nat := 0
     let s : State := wPkt
     let b : State := (wPkt.advance 0).again .status ((wPkt.advance 0).n Pid.spPeriod * psMs)
     let a := s.advance t
     a.paths ≠ [] ∧ a.unit.st ≠ .off ∧ a.dueFrom .status ≤ a.now ∧ b = a.again .status (a.n Pid.spPeriod * psMs)) ∧
    -- safetyReset
    (let t : Nat := 0
     let source : Nat := 1
     let s : State := wSafeStop
     let a := s.advance t
     source = 1 ∧ a.saf.resetIn = true ∧
     ((a.modSaf fun f => { f with resetIn := false, resetPkt := f.resetPkt }).resetCode 1 = 0)) ∧
    -- safetyReset
    (let t : Nat := 0
     let source : Nat := 2
     let s : State := wReady.modSaf fun f => { f with resetPkt := true }
     let c : Nat := 1
     let a := s.advance t
     source = 2 ∧ a.saf.resetPkt = true ∧
     ((a.modSaf fun f => { f with resetIn := f.resetIn, resetPkt := false }).resetCode 2 = c) ∧ c ≠ 0) :=
  ⟨by decide, by decide, by decide, by decide, by decide +kernel, by decide, by decide, by decide, by decide, by decide⟩

theorem witness_CompletesPair :
    -- pairFrameReceive
    (let t : Nat := 0
     let bytes : List Byte := wFrame
     let s : State := wReady.setN Pid.pairEnable 1
     let a := s.advance t
     a.pairOn = true ∧ frameValid bytes = true) ∧
    -- pairFrameReceive
    (let t : Nat := 0
     let bytes : List Byte := []
     let s : State := wReady.setN Pid.pairEnable 1
     let a := s.advance t
     a.pairOn = true ∧ frameValid bytes = false) ∧
    -- pairFrameReceive
    (let t : Nat := 0
     let bytes : List Byte := wFrame
     let s : State := wReady
     let a := s.advance t
     a.pairOn = false ∧ frameValid bytes = true) ∧
    -- pairAnnounce
    (let t : Nat := 0
     let s : State := wReady.setN Pid.pairEnable 1
     let a := s.advance t
     a.pairOn = true ∧ (a.pair.holds = true ∨ a.unit.st.mayHold = true) ∧ a.n Pid.pairState ≠ 1 ∧
     a.n Pid.pairState ≠ 2 ∧ a.dueFrom .pairAnnounce ≤ a.now) ∧
    -- mismatchRepeat
    (let t : Nat := 10000000000000
     let s : State := { wReady with pair := { mismatchAt := some 0, annAt := some 10000000000000 } }.setN Pid.pairState 4
     let m : Nat := 0
     let a := s.advance t
     (a.pair.mismatchAt = some m) ∧ a.n Pid.pairState = 4 ∧ m + 10 * psS ≤ a.now ∧ a.annSilent = false) ∧
    -- leaseMarkReceive
    (let t : Nat := 0
     let s : State := { wReady with unit := { st := .standby } }.setN Pid.pairEnable 1
     let a := s.advance t
     a.pairOn = true ∧ a.pair.holds = false ∧ a.unit.st = .standby ∧
     (a.eng.running = false ∨ a.now + a.innerTicks * tickPs / 2 ≤ a.periodEnd)) ∧
    -- leaseMarkReceive
    (let t : Nat := 1000000000
     let s : State := { wReady with unit := { st := .standby }, eng := { running := true } }.setN Pid.pairEnable 1
     let a := s.advance t
     a.pairOn = true ∧ a.pair.holds = false ∧ a.unit.st = .standby ∧ a.eng.running = true ∧
     a.periodEnd < a.now + a.innerTicks * tickPs / 2) ∧
    -- renewalUnconfirmedLimit
    (let t : Nat := 0
     let s : State := ({ wReady with pair := { holds := true } }.setN Pid.pairState 1).setN Pid.periodSeq 16
     let a := s.advance t
     a.pair.holds = true ∧ seqAhead (a.n Pid.periodSeq) (a.n Pid.leaseRenewed) 16 = true) ∧
    -- leaseExpiryTakeover
    (let t : Nat := 0
     let s : State := { wReady with unit := { st := .standby } }.setN Pid.periodSeq 18
     let a := s.advance t
     a.unit.st = .standby ∧ seqAhead (a.n Pid.periodSeq) (a.n Pid.leaseRenewed) 18 = true) ∧
    -- biscuitTake
    (let t : Nat := 0
     let s : State := { wReady with unit := { st := .standby }, pair := { release := some (0, 0) }, eng := { tickAt := 200000 } }.setN Pid.periodSeq 2
     let f : Nat := 0
     let m : Nat := 0
     let a := s.advance t
     a.pair.release = some (f, m) ∧ a.unit.st = .standby ∧ seqAhead (a.n Pid.periodSeq) f 2 = true ∧
     m + 100000 < a.eng.tickAt) ∧
    -- pairSolo
    (let t : Nat := 0
     let role : Role := .commissioner
     let v : Word := 1
     let s : State := wReady.setN Pid.pairEnable 1
     let a := s.advance t
     a.roleOk role .commissioner = true ∧ a.soloOk v = true ∧ a.canNote role 2 (Pid.pairSolo) (0) (v) = true) ∧
    -- pairHandover
    (let t : Nat := 0
     let role : Role := .commissioner
     let v : Word := 1
     let s : State := ({ wReady with pair := { holds := true } }.setN Pid.pairState 1).setN Pid.sbFit 1
     let a := s.advance t
     a.roleOk role .commissioner = true ∧ a.handoverOk v = true ∧ a.canNote role 2 (Pid.pairHandover) (0) (v) = true) ∧
    -- standbyIslandTest
    (let t : Nat := 0
     let s : State := { wPort with unit := { st := .standby } }
     let a := s.advance t
     a.unit.st = .standby ∧ a.usedIsls ≠ [] ∧ a.dueFrom .islandTest ≤ a.now) ∧
    -- standbyHealthTimeout
    (let t : Nat := 3000000000000
     let s : State := wReady.setN Pid.pairState 1
     let a := s.advance t
     a.n Pid.pairState = 1 ∧ a.pair.reportAt + 3 * psS ≤ a.now) ∧
    -- pairFrameSilence
    (let t : Nat := 0
     let s : State := (wReady.setN Pid.pairState 1).setN Pid.periodSeq 16
     let a := s.advance t
     (a.n Pid.pairState = 1 ∨ a.n Pid.pairState = 2) ∧ a.pair.silenceTold = false ∧
     seqAhead (a.n Pid.periodSeq) a.pair.frameSeq 16 = true) :=
  ⟨⟨by decide +kernel, by unfold frameValid; rw [pair_frame_crc]; decide +kernel⟩, by decide, ⟨by decide +kernel, by unfold frameValid; rw [pair_frame_crc]; decide +kernel⟩, by decide, by decide, by decide, by decide, by decide, by decide, by decide, by decide, by decide, by decide, by decide, by decide⟩

theorem witness_CompletesProofer :
    -- railWindowEnd
    (let t : Nat := 1000000000
     let s : State := { (wReady.setN Pid.railMax 800000) with prf := { winMin := some (-1000000) } }
     let m : Int := -1000000
     let a := s.advance t
     a.prf.winAt + psMs ≤ a.now ∧ a.unit.st ≠ .selfTest ∧ a.prf.winMin = some m ∧ m < a.z Pid.slackTarget - 20000 ∧
     a.prf.winEmergency = false ∧ a.n Pid.railNow < a.n Pid.railMax) ∧
    -- railWindowEnd
    (let t : Nat := 1000000000
     let s : State := { wReady with prf := { winMin := some 1000000, goodWins := 999 } }
     let m : Int := 1000000
     let a := s.advance t
     a.prf.winAt + psMs ≤ a.now ∧ a.unit.st ≠ .selfTest ∧ a.prf.winMin = some m ∧ a.z Pid.slackTarget + 20000 < m ∧
     a.prf.winEmergency = false ∧ 999 ≤ a.prf.goodWins) ∧
    -- railReadbackFault
    (let t : Nat := 0
     let uV : Nat := 700000
     let s : State := wReady
     let a := s.advance t
     10000 < ((uV : Int) - a.n Pid.railNow).natAbs) ∧
    -- prooferSecond
    (let t : Nat := 0
     let s : State := { wReady with prf := { secNo := 7 } }
     let a := s.advance t
     a.intSec ≠ a.prf.secNo) ∧
    -- ladderChange
    (let t : Nat := 0
     let s : State := { wReady with prf := { pendRungs := [(.restore, 0)] } }
     let a := s.advance t
     a.eng.outerIdx = 0) ∧
    -- ladderCmdRung
    (let t : Nat := 0
     let role : Role := .commissioner
     let v : Word := 3
     let s : State := wReady.setN Pid.ladderPending 3
     let a := s.advance t
     a.roleOk role .commissioner = true ∧ a.ladderCmdOk v = true ∧ a.canNote role 2 (Pid.ladderCmd) (0) (v) = true ∧
     (a.prf.pendRungs.any (fun e => sameRung e.1 (if v.toNat = 3 then .three true else .four true)) = false) ∧
     (a.n Pid.pairState ≠ 1 ∨ a.forwards Pid.ladderCmd = false)) ∧
    -- ladderRestore
    (let t : Nat := 0
     let role : Role := .commissioner
     let s : State := wReady
     let a := s.advance t
     ((a.usedPorts.all fun p => (a.port p).st.atRest) = true) ∧ a.roleOk role .commissioner = true ∧
     a.canNote role 2 (Pid.ladderCmd) (0) (0x10) = true ∧
     (a.prf.pendRungs.any (fun e => sameRung e.1 .restore) = false) ∧
     (a.n Pid.pairState ≠ 1 ∨ a.forwards Pid.ladderCmd = false)) ∧
    -- datedWarningRepeat
    (let t : Nat := 86400000000000000
     let s : State := { wReady with prf := { datedAt := some 0 } }
     let n : Nat := 0
     let a := s.advance t
     a.prf.datedAt = some n ∧ n + 86400 * psS ≤ a.now) ∧
    -- prooferHour
    (let t : Nat := 3600000000000000
     let s : State := wReady
     let a := s.advance t
     a.unit.st ≠ .off ∧ a.prf.hourAt + 3600 * psS ≤ a.now) ∧
    -- vceMeasurement
    (let t : Nat := 0
     let sw : Nat := 3
     let i : Int := 50000000
     let s : State := wVce
     let T : Int := 25000
     let a := s.advance t
     a.swTemp sw = some T ∧ a.islUsed sw = true ∧ (a.island sw).on = true ∧ (a.prf.sw.getD sw {}).lastAt = none ∧
     a.bit (Pid.legProt (legOfIsl sw)) 0 = false ∧ 40265318 ≤ i.natAbs ∧ i.natAbs ≤ 93952410) ∧
    -- vceRebase
    (let t : Nat := 0
     let role : Role := .commissioner
     let p : Nat := 1
     let v : Word := 1
     let s : State := wPort
     let a := s.advance t
     a.roleOk role .commissioner = true ∧ a.rebaseOk p v = true ∧
     (a.n Pid.pairState ≠ 1 ∨ a.forwards (Pid.vceRebase p) = false) ∧
     a.canNote role 2 (Pid.vceRebase p) (0) (v) = true) :=
  ⟨by decide, by decide, by decide, by decide, by decide, by decide, by decide, by decide, by decide, by decide, by decide⟩

theorem witness_CompletesLattice :
    -- latticeCycleStart
    (let t : Nat := 0
     let s : State := wLat
     let b : State := (wLat.advance 0).setN Pid.latCycleM (wLat.advance 0).latM
     let a := s.advance t
     a.lat.may = true ∧ a.n Pid.latState = 1 ∧ a.ref.lockedTo ≠ none ∧ b = a.setN Pid.latCycleM a.latM ∧
     b.n Pid.periodSeq % b.latM = 0 ∧ b.lat.tick ≠ some b.eng.count ∧ b.lat.busy = false) ∧
    -- latticeCycleStart
    (let t : Nat := 0
     let s : State := wLat.modLat fun x => { x with busy := true }
     let b : State := ((wLat.modLat fun x => { x with busy := true }).advance 0).setN Pid.latCycleM ((wLat.modLat fun x => { x with busy := true }).advance 0).latM
     let a := s.advance t
     a.lat.may = true ∧ a.n Pid.latState = 1 ∧ a.ref.lockedTo ≠ none ∧ b = a.setN Pid.latCycleM a.latM ∧
     b.n Pid.periodSeq % b.latM = 0 ∧ b.lat.tick ≠ some b.eng.count ∧ b.lat.busy = true) ∧
    -- latticeExecutionEnd
    (let t : Nat := 0
     let s : State := wLat.modLat fun x => { x with busy := true }
     let a := s.advance t
     a.lat.busy = true ∧ a.n Pid.latState = 1 ∧ a.now - a.lat.startAt ≤ a.n Pid.latWd * psMs) ∧
    -- latticeWatchdog
    (let t : Nat := 1000000000000000
     let s : State := wLat.modLat fun x => { x with busy := true }
     let a := s.advance t
     a.lat.busy = true ∧ a.n Pid.latState = 1 ∧ a.n Pid.latWd * psMs < a.now - a.lat.startAt) ∧
    -- latticeForce
    (let t : Nat := 0
     let role : Role := .service
     let v : Word := 0x10003
     let s : State := wLat
     let a := s.advance t
     forceWordOk v 1 = true ∧ a.latForceOk v = true ∧ a.roleOk role .service = true ∧
     (a.n Pid.pairState ≠ 1 ∨ a.forwards (Pid.latForce) = false) ∧ a.canNote role 2 (Pid.latForce) (0) (v) = true) ∧
    -- latticeUnforce
    (let t : Nat := 0
     let role : Role := .service
     let v : Word := 3
     let s : State := wLat
     let a := s.advance t
     a.roleOk role .service = true ∧ forceWordOk v 0 = true ∧
     (a.n Pid.pairState ≠ 1 ∨ a.forwards (Pid.latForce) = false) ∧ a.canNote role 2 (Pid.latForce) (0) (v) = true) ∧
    -- latFlagsClear
    (let t : Nat := 0
     let role : Role := .service
     let v : Word := 0
     let s : State := wLat
     let a := s.advance t
     role.meets .service = true ∧ v = 0 ∧ a.canNote role 1 Pid.latFlags (a.w Pid.latFlags) v = true) ∧
    -- latActivate
    (let t : Nat := 0
     let role : Role := .commissioner
     let v : Word := 1
     let s : State := wLat.modLat fun x => { x with bank := some {} }
     let a := s.advance t
     v = 1 ∧ a.activateCode = 0 ∧ a.roleOk role .commissioner = true ∧
     (a.n Pid.pairState ≠ 1 ∨ a.forwards (Pid.latActivate) = false) ∧
     a.canNote role 2 (Pid.latActivate) (0) (v) = true) ∧
    -- programExchange
    (let t : Nat := 0
     let crcOk : Bool := true
     let s : State := wLat.modLat fun x => { x with bank := some {}, pendingX := true }
     let g : LatProg := {}
     let a := s.advance t
     a.lat.pendingX = true ∧ a.lat.busy = false ∧ a.lat.bank = some g ∧ crcOk = true) ∧
    -- heartbeatReceive
    (let t : Nat := 0
     let st : Nat := 0
     let state : Nat := 5
     let s : State := wSt
     let a := s.advance t
     a.stationOn st = true ∧ a.hbDue st tiePs = false ∧ state = 5 ∧ a.n (Pid.rioState st) = 1 ∧
     (a.station st).back = false ∧ a.canCode (a.n (Pid.rioCan st) - 1) = 1) ∧
    -- heartbeatTimeout
    (let t : Nat := 100000000000000
     let st : Nat := 0
     let s : State := wSt.modStation 0 fun x => { x with lastHb := some 0 }
     let a := s.advance t
     a.stationOn st = true ∧ a.hbDue st 0 = true) ∧
    -- tpdoReceive
    (let t : Nat := 0
     let st : Nat := 0
     let n : Nat := 1
     let bytes : List Byte := [1, 2]
     let s : State := wSt
     let a := s.advance t
     n = 1 ∧ a.stationOn st = true ∧ a.n (Pid.rioDiLen st) ≤ bytes.length) :=
  ⟨by decide, by decide, by decide, by decide, by decide, by decide, by decide, by decide, by decide, by decide, by decide, by decide⟩

theorem witness_CompletesCanBus :
    -- canSubmit
    (let t : Nat := 0
     let ch : Nat := 0
     let f : CanFrame := { id := 5 }
     let src : CanSrc := .lattice
     let s : State := wCan
     let a := s.advance t
     ch < 2 ∧ f.rtr = false ∧ a.canCode ch = 1 ∧ (src = .lattice ∨ src = .link) ∧ (a.canCh ch).q.length < 32) ∧
    -- canSubmit
    (let t : Nat := 0
     let ch : Nat := 0
     let f : CanFrame := { id := 5 }
     let src : CanSrc := .safety
     let s : State := wCan
     let a := s.advance t
     ch < 2 ∧ f.rtr = false ∧ a.canCode ch = 1 ∧ src = .safety ∧ (a.canCh ch).safety = none) ∧
    -- canTxAttemptEnd
    (let t : Nat := 0
     let ch : Nat := 0
     let durPs : Nat := 0
     let s : State := wCan.modCan 0 fun x => { x with q := [⟨{ id := 5 }, .lattice, 0, 0⟩] }
     let place : Nat := 0
     let e : CanEnt := ⟨{ id := 5 }, .lattice, 0, 0⟩
     let a := s.advance t
     (a.canCode ch = 1 ∨ a.canCode ch = 2) ∧ ch < 2 ∧ (a.canCh ch).joinAt + durPs ≤ a.now ∧
     lowestOffer ((a.canCh ch).offers (a.now - durPs)) = some (place, e)) ∧
    -- busOffRecovery
    (let t : Nat := 1000000000000
     let ch : Nat := 0
     let s : State := wCan.modCan 0 fun x => { x with busOff := some 0, counting := true }
     let n : Nat := 0
     let a := s.advance t
     (a.canCh ch).busOff = some n ∧ (a.canCh ch).counting = true ∧ a.canCode ch = 3 ∧
     (a.canCh ch).countFrom + 128 * 11 * a.canBitPs ch ≤ a.now) ∧
    -- canBusoffCmd
    (let t : Nat := 0
     let role : Role := .service
     let ch : Nat := 0
     let v : Word := 1
     let s : State := (wCan.setN (Pid.canBusoffAuto 0) 0).modCan 0 fun x => { x with busOff := some 0 }
     let a := s.advance t
     a.roleOk role .service = true ∧ a.busoffCmdOk ch v = true ∧
     (a.n Pid.pairState ≠ 1 ∨ a.forwards (Pid.canBusoffCmd ch) = false) ∧
     a.canNote role 2 (Pid.canBusoffCmd ch) (0) (v) = true) ∧
    -- canErrorDetected
    (let t : Nat := 0
     let ch : Nat := 0
     let s : State := wCan
     let a := s.advance t
     ch < 2 ∧ (a.canCode ch = 1 ∨ a.canCode ch = 2) ∧ (a.canCh ch).joinAt ≤ a.now) ∧
    -- timeReferenceSend
    (let t : Nat := 0
     let ch : Nat := 0
     let s : State := wCan.setN (Pid.canTimeRole 0) 1
     let b : State := ((wCan.setN (Pid.canTimeRole 0) 1).advance 0).again (.tref 0) (10 * psMs)
     let c : State := ((((wCan.setN (Pid.canTimeRole 0) 1).advance 0).again (.tref 0) (10 * psMs)).canSubmit 0 ((((wCan.setN (Pid.canTimeRole 0) 1).advance 0).again (.tref 0) (10 * psMs)).trefFrame 0 0) .timeMaster).2
     let a := s.advance t
     a.trefActive ch = true ∧ a.dueFrom (.tref ch) ≤ a.now ∧ b = a.again (.tref ch) (10 * psMs) ∧
     (b.canCh ch).trefPending = none ∧ b.canSubmit ch (b.trefFrame ch (b.canCh ch).txSeq) .timeMaster = (.accepted, c)) ∧
    -- canFrameReceive
    (let t : Nat := 0
     let ch : Nat := 0
     let f : CanFrame := { id := 1 }
     let durPs : Nat := 0
     let s : State := wCan
     let a := s.advance t
     ch < 2 ∧ (a.canCode ch = 1 ∨ a.canCode ch = 2 ∨ a.canCode ch = 4) ∧ (a.canCh ch).joinAt + durPs ≤ a.now ∧
     f.crcOk = true) ∧
    -- canFrameReceive
    (let t : Nat := 0
     let ch : Nat := 0
     let f : CanFrame := { id := 1, crcOk := false }
     let durPs : Nat := 0
     let s : State := wCan
     let a := s.advance t
     ch < 2 ∧ (a.canCode ch = 1 ∨ a.canCode ch = 2) ∧ (a.canCh ch).joinAt + durPs ≤ a.now ∧ f.crcOk = false) ∧
    -- canSourceTimeout
    (let t : Nat := 30000000000
     let ch : Nat := 0
     let s : State := wCan.modCan 0 fun x => { x with pairs := 2 }
     let a := s.advance t
     ch < 2 ∧ 2 ≤ (a.canCh ch).pairs ∧ (a.canCh ch).usedAt + 30 * psMs ≤ a.now) :=
  ⟨by decide, by decide, by decide, by decide, by decide, by decide, by decide, by decide, by decide, by decide⟩

theorem witness_CompletesInternalTime :
    -- holdoverExpiry
    (let t : Nat := 100000000000000000
     let s : State := { (wReady.setN Pid.timeState 3) with time := { heldFrom := some 0 } }
     let n : Nat := 0
     let a := s.advance t
     a.time.heldFrom = some n ∧ a.n Pid.timeState = 3 ∧ n + a.n Pid.timeHoldover * psMs ≤ a.now) ∧
    -- timeStep
    (let t : Nat := 0
     let role : Role := .service
     let v : Word := 1
     let s : State := { wReady with time := { pendNs := some 5 } }
     let d : Int := 5
     let a := s.advance t
     v = 1 ∧ a.time.pendNs = some d ∧ a.roleOk role .service = true ∧
     (a.n Pid.pairState ≠ 1 ∨ a.forwards (Pid.timeStep) = false) ∧ a.canNote role 2 (Pid.timeStep) (0) (v) = true) ∧
    -- toutArm
    (let t : Nat := 0
     let role : Role := .service
     let k : Nat := 0
     let v : Word := 1
     let s : State := wReady.setN (Pid.toutStartS 0) 1
     let a := s.advance t
     a.unit.st.factory = false ∧ k < 4 ∧ v = 1 ∧ a.intNs + 10000 ≤ a.toutStartNs k ∧
     (a.setW (Pid.toutMode k) 1).toutStartNs k = a.toutStartNs k ∧ a.roleOk role .service = true ∧
     (a.n Pid.pairState ≠ 1 ∨ a.forwards (Pid.toutMode k) = false) ∧
     a.canNote role 1 (Pid.toutMode k) (a.w (Pid.toutMode k)) (v) = true) ∧
    -- timeOutPulse
    (let t : Nat := 0
     let k : Nat := 2
     let s : State := wReady.modTout 2 fun x => { x with armed := true }
     let a := s.advance t
     (a.touts k).armed = true ∧ a.timeStopped = false ∧ (a.touts k).nextNs ≤ a.intNs ∧ (a.touts k).periodic = false) ∧
    -- timeOutPulse
    (let t : Nat := 0
     let k : Nat := 2
     let s : State := wReady.modTout 2 fun x => { x with armed := true, periodic := true }
     let a := s.advance t
     (a.touts k).armed = true ∧ a.timeStopped = false ∧ (a.touts k).nextNs ≤ a.intNs ∧ (a.touts k).periodic = true) ∧
    -- timeOutPulseEnd
    (let t : Nat := 0
     let k : Nat := 2
     let s : State := wReady.modTout 2 fun x => { x with pulseEnd := some 0 }
     let n : Nat := 0
     let a := s.advance t
     (a.touts k).pulseEnd = some n ∧ n ≤ a.now) :=
  ⟨by decide, by decide, by decide, by decide, by decide, by decide⟩

theorem witness_CompletesEthernet :
    -- ethLinkUp
    (let t : Nat := 0
     let e : Nat := 1
     let s : State := (wReady.setN (Pid.ethEnable 1) 1).setN (Pid.ethLink 1) 1
     let a := s.advance t
     e < 2 ∧ a.n (Pid.ethLink e) = 1 ∧ a.ethMay e = true) ∧
    -- ethLinkDown
    (let t : Nat := 0
     let e : Nat := 1
     let s : State := wEth
     let a := s.advance t
     a.ethUp e = true) ∧
    -- ethFrameReceive
    (let t : Nat := 0
     let e : Nat := 1
     let fcsOk : Bool := true
     let bytes : List Byte := List.replicate 60 0
     let s : State := wEth
     let a := s.advance t
     a.ethUp e = true ∧ fcsOk = true ∧ 60 ≤ bytes.length ∧
     bytes.length ≤ (if beAt bytes 12 2 = 0x8100 then 1518 else 1514)) ∧
    -- ethFrameReceive
    (let t : Nat := 0
     let e : Nat := 1
     let fcsOk : Bool := false
     let bytes : List Byte := []
     let s : State := wEth
     let a := s.advance t
     a.ethUp e = true ∧ (fcsOk = false ∨ bytes.length < 60)) ∧
    -- ptpSyncLoss
    (let t : Nat := 100000000000000
     let e : Nat := 1
     let s : State := wEth.modPtp 1 fun p => { p with syncAt := some 0 }
     let n : Nat := 0
     let a := s.advance t
     (a.ptp e).syncAt = some n ∧ n + (a.ptp e).syncPs ≤ a.now) ∧
    -- ptpFailback
    (let t : Nat := 10000000000000
     let s : State := wFail
     let a := s.advance t
     a.n Pid.ptpPort = 2 ∧ a.n Pid.ptpActive = 1 ∧ a.ptpUsable 0 = true ∧ (a.ptp 0).gmAt + 10 * psS ≤ a.now) ∧
    -- pdelayReqSend
    (let t : Nat := 0
     let s : State := wEth
     let a := s.advance t
     a.unit.st.factory = false ∧ a.dueFrom .pdelay ≤ a.now) ∧
    -- grandmasterSyncSend
    (let t : Nat := 0
     let s : State := wEth.setN Pid.ptpPriority1 100
     let a := s.advance t
     a.gmCapable = true ∧ a.unit.st.factory = false ∧ (a.ptp 0).gm = none ∧ (a.ptp 1).gm = none) :=
  ⟨by decide, by decide, by decide, by decide, by decide, by decide, by decide, by decide⟩

theorem witness_CompletesLinkTransport :
    -- blDatagramReceive
    (let t : Nat := 0
     let e : Nat := 1
     let bytes : List Byte := List.replicate 32 0
     let s : State := wEth
     let a := s.advance t
     a.ethUp e = true ∧ 32 ≤ bytes.length ∧ bytes.length = 32 + leAt bytes 0xC 2 ∧ a.link.cmds.length < 16) ∧
    -- blSegmentReceive
    (let t : Nat := 0
     let ch : Nat := 0
     let bytes : List Byte := 0xC0 :: List.replicate 63 0
     let s : State := ((wCan.setN Pid.blCanEn 1))
     let a := s.advance t
     a.blOnCan ch = true ∧ bytes.length = 64 ∧ leAt bytes 0 1 = 0xC0 ∧ leAt (bytes.drop 2) 0xC 2 ≤ 30 ∧
     a.link.reasm.getD ch none = none ∧ a.link.cmds.length < 16) ∧
    -- blReassemblyTimeout
    (let t : Nat := 60000000000
     let ch : Nat := 0
     let s : State := wReady.modLink fun l => { l with reasm := [some ⟨0, 0, 1, []⟩, none] }
     let r : ReasmSt := ⟨0, 0, 1, []⟩
     let a := s.advance t
     a.link.reasm.getD ch none = some r ∧ r.since + 50 * psMs < a.now) ∧
    -- blPacketProcess
    (let t : Nat := 0
     let s : State := wReady.modLink fun l => { l with cmds := [⟨0, 0, 0, []⟩] }
     let b : State := ((wReady.modLink fun l => { l with cmds := [⟨0, 0, 0, []⟩] }).advance 0).serveEvents
     let p : CmdPkt := ⟨0, 0, 0, []⟩
     let ps : List CmdPkt := []
     let a := s.advance t
     b = a.serveEvents ∧ b.link.cmds = p :: ps ∧ b.rspCredit = true) ∧
    -- responseSegmentRetry
    (let t : Nat := 0
     let s : State := wReady
     let a := s.advance t
     a.dueFrom .segRetry ≤ a.now) ∧
    -- sessionOpen
    (let t : Nat := 0
     let path : Nat := 1
     let bytes : List Byte := pktBytes 5 0 0 0 0 0 (1#8 :: List.replicate 19 0#8) 5#128
     let s : State := { wEth with img := { keys := [⟨1, true, some 5#128⟩] } }
     let r : Role := .observer
     let key : BitVec 128 := 5#128
     let a := s.advance t
     a.pathUp path = true ∧ a.rspCredit = true ∧ pktOk bytes = true ∧ leAt bytes 1 1 = 5 ∧
     roleOf (leAt (pktPayload bytes) 0 1) = some r ∧ a.roleKey r = some key ∧ tagOk key bytes = true ∧
     leAt bytes 2 2 = 0 ∧ (pktPayload bytes).length = 20 ∧ leAt (pktPayload bytes) 1 3 = 0 ∧ a.openRefused r = false ∧
     (r.meets .service = false ∨ a.link.log.length + 1 ≤ 32)) ∧
    -- sessionIdle
    (let t : Nat := 100000000000000000
     let sid : Nat := 7
     let s : State := wSess .operator
     let x : SessSt := wSessSt .operator
     let a := s.advance t
     a.sess? sid = some x ∧ x.lastAt + a.n Pid.sessIdle * psS ≤ a.now ∧
     (a.now ≠ x.lastAt + a.n Pid.sessIdle * psS ∨ a.requestWaits x = false)) ∧
    -- telemetrySend
    (let t : Nat := 1000000000
     let sid : Nat := 7
     let s : State := (wSess .operator).modSess 7 fun y => { y with sub := some { period := 1, flags := 0, ids := [] } }
     let b : State := (((wSess .operator).modSess 7 fun y => { y with sub := some { period := 1, flags := 0, ids := [] } }).advance 1000000000).serveEvents
     let x : SessSt := { (wSessSt .operator) with sub := some { period := 1, flags := 0, ids := [] } }
     let u : SubSt := { period := 1, flags := 0, ids := [] }
     let a := s.advance t
     b = a.serveEvents ∧ b.sess? sid = some x ∧ x.sub = some u ∧ u.lastAt + u.period * psMs ≤ b.now ∧
     bitAt u.flags 1 = false ∧ b.ethUp x.path = true ∧ b.link.tel = [] ∧ b.cmdReady = false) ∧
    -- announceSend
    (let t : Nat := 0
     let s : State := { (wReady.setN Pid.annPeriod 1) with img := { keys := [⟨0x10, true, some 5⟩] } }
     let key : BitVec 128 := 5
     let a := s.advance t
     a.domainKey = some key ∧ a.n Pid.annPeriod ≠ 0 ∧ a.unit.st.startUp = false ∧ a.dueFrom .announce ≤ a.now) ∧
    -- peerAbsent
    (let t : Nat := 100000000000000000
     let i : Nat := 0
     let s : State := wPeer
     let p : PeerSt := wPeerSt
     let a := s.advance t
     a.link.peers[i]? = some p ∧ p.present = true ∧ a.n Pid.annPeriod ≠ 0 ∧
     p.heardAt + 10 * a.n Pid.annPeriod * psS ≤ a.now) ∧
    -- auditEntryWrite
    (let t : Nat := 0
     let s : State := (((wReady.setN Pid.flashSize 64).setN Pid.auditNext 1).modLink fun l => { l with log := [[1]] })
     let b : State := ((((wReady.setN Pid.flashSize 64).setN Pid.auditNext 1).modLink fun l => { l with log := [[1]] }).advance 0).serveEvents
     let e : List Byte := [1]
     let es : List (List Byte) := []
     let a := s.advance t
     b = a.serveEvents ∧ b.link.log = e :: es ∧ b.aboveLog = false ∧ b.n Pid.flashSize ≠ 0 ∧ b.ref.lockedTo ≠ none ∧
     b.n Pid.auditNext % 16 ≠ 0) :=
  ⟨by decide, by decide, by decide, by decide +kernel, by decide, by decide +kernel, by decide, by decide +kernel, by decide, by decide, by decide +kernel⟩

theorem witness_CompletesLinkReads :
    -- read
    (let t : Nat := 0
     let sid : Nat := 7
     let ids : List Nat := [Pid.railNow]
     let s : State := wSess .operator
     let x : SessSt := wSessSt .operator
     let a := s.advance t
     a.sess? sid = some x ∧ (1 ≤ ids.length ∧ ids.length ≤ 350) ∧
     (∀ k < ids.length, (findParam a.fourP (ids.getD k 0)).isSome) ∧ a.rspCredit = true) ∧
    -- write
    (let t : Nat := 0
     let sid : Nat := 7
     let items : List (Nat × Word) := [(Pid.pSet 1, 5)]
     let s : State := (wSess .operator).modPort 1 fun q => { q with used := true }
     let x : SessSt := wSessSt .operator
     let a := s.advance t
     a.sess? sid = some x ∧ (1 ≤ items.length ∧ items.length ≤ 175) ∧ x.role.meets .service = false ∧
     ((items.any fun e => a.loggedId e.1) = false) ∧ ((a.heard x x.nextSeq).writeAll x.role true items).bad = none ∧
     (((a.heard x x.nextSeq).writeAll x.role true items).st.sess? x.sid).isSome ∧ a.rspCredit = true) ∧
    -- bulkRead
    (let t : Nat := 0
     let sid : Nat := 7
     let target : Nat := Pid.healthReport
     let offset : Nat := 0
     let length : Nat := 10
     let s : State := wSess .operator
     let x : SessSt := wSessSt .operator
     let bs : List Byte := []
     let a := s.advance t
     a.sess? sid = some x ∧ (1 ≤ length ∧ length ≤ 1392) ∧ offset = 0 ∧ (findParam a.fourP target).isSome ∧
     crumbOf target = none ∧ target ≠ Pid.auditLog ∧ (a.heard x x.nextSeq).bulkTarget target = some bs ∧
     a.rspCredit = true) ∧
    -- subscribe
    (let t : Nat := 0
     let sid : Nat := 7
     let period : Nat := 10
     let flags : Nat := 0
     let ids : List Nat := [Pid.railNow]
     let s : State := wSess .operator
     let x : SessSt := wSessSt .operator
     let a := s.advance t
     a.sess? sid = some x ∧ x.path < 2 ∧ (1 ≤ period ∧ period ≤ 1000) ∧ flags < 4 ∧ ids.length ≤ 64 ∧
     (∀ k < ids.length, (findParam a.fourP (ids.getD k 0)).isSome) ∧
     (∀ k < ids.length, a.absentPort (ids.getD k 0) = false) ∧
     ((a.link.sess.filter fun y => y.sid ≠ sid && y.sub.isSome).length < 4) ∧ a.rspCredit = true) ∧
    -- readEvents
    (let t : Nat := 0
     let sid : Nat := 7
     let count : Nat := 1
     let s : State := wSess .operator
     let x : SessSt := wSessSt .operator
     let a := s.advance t
     a.sess? sid = some x ∧ (1 ≤ count ∧ count ≤ 58) ∧ a.rspCredit = true) ∧
    -- closeSession
    (let t : Nat := 0
     let sid : Nat := 7
     let s : State := wSess .operator
     let x : SessSt := wSessSt .operator
     let a := s.advance t
     a.sess? sid = some x ∧ a.rspCredit = true) :=
  ⟨by decide, by decide, by decide, by decide, by decide, by decide⟩

theorem witness_CompletesLinkChanges :
    -- bulkWriteBegin
    (let t : Nat := 0
     let sid : Nat := 7
     let target : Nat := 1
     let total : Nat := 5
     let digest : List Byte := List.replicate 32 0
     let s : State := (wSess .commissioner).setN Pid.flashSize 64
     let x : SessSt := wSessSt .commissioner
     let a := s.advance t
     a.sess? sid = some x ∧ digest.length = 32 ∧ x.role.meets .commissioner = true ∧ target < 2 ∧
     (a.img.loaded = false ∨ a.n Pid.bootSlot ≠ target) ∧ a.lat.pendingX = false ∧ a.n Pid.flashSize ≠ 0 ∧
     total ≤ a.slotBytes ∧ a.link.bulk = none ∧ a.link.log.length + 1 ≤ 32 ∧ a.rspCredit = true) ∧
    -- bulkWriteData
    (let t : Nat := 0
     let sid : Nat := 7
     let offset : Nat := 0
     let bytes : List Byte := [1]
     let s : State := (wSess .commissioner).modLink fun l => { l with bulk := some { sid := 7, target := 16, total := 10, digest := [] } }
     let x : SessSt := wSessSt .commissioner
     let k : BulkSt := { sid := 7, target := 16, total := 10, digest := [] }
     let a := s.advance t
     a.sess? sid = some x ∧ (1 ≤ bytes.length ∧ bytes.length ≤ 1396) ∧ x.role.meets .commissioner = true ∧
     a.link.bulk = some k ∧ k.sid = sid ∧ k.erasing = false ∧ offset = k.got ∧ k.got + bytes.length ≤ k.total ∧
     a.rspCredit = true) ∧
    -- bulkWriteEnd
    (let t : Nat := 0
     let sid : Nat := 7
     let s : State := (wSess .commissioner).modLink fun l => { l with bulk := some { sid := 7, target := 16, total := 0, digest := sha256 [] } }
     let x : SessSt := wSessSt .commissioner
     let k : BulkSt := { sid := 7, target := 16, total := 0, digest := sha256 [] }
     let a := s.advance t
     a.sess? sid = some x ∧ x.role.meets .commissioner = true ∧ a.link.bulk = some k ∧ k.sid = sid ∧ k.erasing = false ∧
     k.total ≤ k.got ∧ k.target = 0x10 ∧ sha256 k.bytes = k.digest ∧ a.link.log.length + 1 ≤ 32 ∧ a.rspCredit = true) ∧
    -- reBind
    (let t : Nat := 0
     let sid : Nat := 7
     let bytes : List Byte := List.replicate 32 0
     let s : State := { (wSess .commissioner) with unit := { st := .readyUnbound } }
     let x : SessSt := wSessSt .commissioner
     let a := s.advance t
     a.sess? sid = some x ∧ bytes.length = 32 ∧ x.role.meets .commissioner = true ∧ a.unit.st = .readyUnbound ∧
     a.img.boundSerial = leAt bytes 0 8 ∧ a.link.log.length + 1 ≤ 32 ∧ a.rspCredit = true) ∧
    -- replaceIntegratorKey
    (let t : Nat := 0
     let sid : Nat := 7
     let bytes : List Byte := List.replicate 96 0
     let readbackOk : Bool := true
     let s : State := { (wSess .commissioner) with unit := { st := .readyRefused } }
     let x : SessSt := wSessSt .commissioner
     let a := s.advance t
     a.sess? sid = some x ∧ bytes.length = 96 ∧ x.role = .commissioner ∧ a.unit.st = .readyRefused ∧
     ((a.fingerprint.all fun b => b = 0) = true) ∧ (((bytes.drop 32).all fun b => b = 0) = true) ∧ readbackOk = true ∧
     a.link.log.length + 1 ≤ 32 ∧ a.rspCredit = true) ∧
    -- raiseFloor
    (let t : Nat := 0
     let sid : Nat := 7
     let floor : Nat := 3
     let readbackOk : Bool := true
     let s : State := ((wSess .integrator).setN Pid.imageCounter 3).setN Pid.floorStepsLeft 2
     let x : SessSt := wSessSt .integrator
     let a := s.advance t
     a.sess? sid = some x ∧ floor < 256 ∧ x.role.meets .integrator = true ∧ a.n Pid.rollbackFloor < floor ∧
     floor ≤ a.n Pid.imageCounter ∧ a.n Pid.floorStepsLeft ≠ 0 ∧ readbackOk = true ∧ a.link.log.length + 1 ≤ 32 ∧
     a.rspCredit = true) :=
  ⟨by decide, by decide, by decide +kernel, by decide, by decide, by decide⟩

theorem witness_CompletesLinkTimers :
    -- slotEraseDone
    (let t : Nat := 0
     let s : State := wReady.modLink fun l => { l with bulk := some { sid := 7, target := 1, total := 1, digest := [], erasing := true } }
     let k : BulkSt := { sid := 7, target := 1, total := 1, digest := [], erasing := true }
     let a := s.advance t
     a.link.bulk = some k ∧ k.erasing = true) ∧
    -- bulkWriteTimeout
    (let t : Nat := 60000000000000
     let s : State := wReady.modLink fun l => { l with bulk := some { sid := 7, target := 1, total := 1, digest := [] } }
     let k : BulkSt := { sid := 7, target := 1, total := 1, digest := [] }
     let a := s.advance t
     a.link.bulk = some k ∧ k.lastAt + 60 * psS ≤ a.now) ∧
    -- bulkReadCopyExpiry
    (let t : Nat := 10000000000000
     let sid : Nat := 7
     let s : State := wReady.modLink fun l => { l with sess := [{ wSessSt .operator with copy := some (1, [], 0) }] }
     let x : SessSt := { wSessSt .operator with copy := some (1, [], 0) }
     let i : Nat := 1
     let bs : List Byte := []
     let n : Nat := 0
     let a := s.advance t
     a.sess? sid = some x ∧ x.copy = some (i, bs, n) ∧ n + 10 * psS ≤ a.now) ∧
    -- eventWriterTake
    (let t : Nat := 0
     let s : State := wReady.raise 0x0301 0 0
     let r : EvRec := wReady.evRec 0x0301 0 0
     let q : List EvRec := []
     let a := s.advance t
     a.ev.q = r :: q) ∧
    -- parameterWrite
    (let t : Nat := 0
     let role : Role := .operator
     let id : Nat := Pid.pSet 1
     let v : Word := 5
     let s : State := wPort
     let a := s.advance t
     (a.writeAll role true [(id, v)]).bad = none ∧
     a.canNote role (if a.clsOf id = some .cmd then 2 else 1) id (a.readWord id) v = true) :=
  ⟨by decide, by decide, by decide, by decide, by decide⟩

theorem witness_CompletesCapture :
    -- captureTrigger
    (let t : Nat := 0
     let f : Nat := 1
     let line : Nat := 3
     let s : State := wReady.setN (Pid.crTrigMask 0) 8
     let b : Nat := 3
     let a := s.advance t
     trigMaskBit (line % 256) = some b ∧ 1 ≤ f ∧ f ≤ 2 ∧ a.bit (Pid.crTrigMask (f - 1)) b = true ∧ a.trigFires line = true) ∧
    -- crumbComplete
    (let t : Nat := 0
     let f : Nat := 1
     let s : State := wReady.modFn 0 fun c => { c with cur := some 4 }
     let no : Nat := 4
     let a := s.advance t
     (a.capFn (f - 1)).cur = some no ∧ f ≠ 0 ∧ (a.capFn (f - 1)).inj = false ∧ (a.capFn (f - 1)).postLeft = 0 ∧
     (a.cap.q.any (fun e => e.1 = f - 1) = false)) ∧
    -- captureRearm
    (let t : Nat := 0
     let f : Nat := 1
     let s : State := wReady.setN (Pid.crState 0) 4
     let a := s.advance t
     f = 1 ∧ a.n (Pid.crState 0) = 4 ∧ a.timeStopped = false) ∧
    -- crArm
    (let t : Nat := 0
     let role : Role := .service
     let f : Nat := 1
     let s : State := wCap
     let a := s.advance t
     1 ≤ f ∧ a.crArmOk (f - 1) 1 = true ∧ a.roleOk role (crArmRole (f - 1)) = true ∧
     (a.n Pid.pairState ≠ 1 ∨ a.forwards (Pid.crArm (f - 1)) = false) ∧
     a.canNote role 2 (Pid.crArm (f - 1)) (0) (1) = true) ∧
    -- crDisarm
    (let t : Nat := 0
     let role : Role := .service
     let f : Nat := 1
     let s : State := wCap
     let a := s.advance t
     1 ≤ f ∧ a.crArmOk (f - 1) 2 = true ∧ a.roleOk role (crArmRole (f - 1)) = true ∧
     (a.n Pid.pairState ≠ 1 ∨ a.forwards (Pid.crArm (f - 1)) = false) ∧
     a.canNote role 2 (Pid.crArm (f - 1)) (0) (2) = true) ∧
    -- crForce
    (let t : Nat := 0
     let role : Role := .service
     let f : Nat := 1
     let v : Word := 1
     let s : State := wReady.setN (Pid.crState 0) 2
     let a := s.advance t
     1 ≤ f ∧ a.crForceOk (f - 1) v = true ∧ a.roleOk role .service = true ∧
     (a.n Pid.pairState ≠ 1 ∨ a.forwards (Pid.crForce (f - 1)) = false) ∧
     a.canNote role 2 (Pid.crForce (f - 1)) (0) (v) = true) :=
  ⟨by decide, by decide, by decide, by decide, by decide, by decide⟩
end

section
/-! What one step can do, and with it the invariant of the machine and the order of its instants (R17, R18; logs 1 and 3). -/

namespace Sys2Proof.Machine

/-- A step idles on an empty queue, or is the command at its front, run with the rest of the queue. -/
theorem step_cases {s t : State} (h : step s = .next t) :
    (s.pending = [] ∧ t = s) ∨ ∃ c cs, s.pending = c :: cs ∧ exec c { s with pending := cs } = .next t := by
  unfold step at h
  split at h
  next hp => exact .inl ⟨hp, (Host.Outcome.next.inj h).symm⟩
  next c cs hp => exact .inr ⟨c, cs, hp, h⟩

/-- The invariant holds after everything that `Evolve` admits. -/
theorem Evolve.inv {k : Kinds} {s0 s : State} (h : Evolve k s0 s) (h0 : s0.Inv) : s.Inv := by
  obtain ⟨hregs, hflash, hshape⟩ := h0
  exact ⟨h.regs hregs, h.memory hflash, h.lengths hshape⟩

/-- The queue is no part of the invariant. -/
theorem State.Inv.withPending {s : State} (h : s.Inv) (cs : List Instr) : ({ s with pending := cs } : State).Inv := h

/-- Settles O1: a step runs one command or none, and every command stays within `Evolve`, which keeps the invariant. -/
theorem stepKeepsInvariant : Obligations.StepKeepsInvariant := by
  unfold Obligations.StepKeepsInvariant
  intro s t hs h
  obtain ⟨-, rfl⟩ | ⟨c, cs, -, hc⟩ := step_cases h
  · exact hs
  · exact (exec_next_evo hc).inv (hs.withPending cs)

/-- Settles O7: nothing that `Evolve` admits turns the clock back. -/
theorem timeNeverRunsBack : Obligations.TimeNeverRunsBack := fun _ _ _ h => (exec_next_evo h).time

end Sys2Proof.Machine
end

section
/-! The gate of roles: every request of a role is a row of that role, and a row whose role does not pass leaves its log entry alone
(R9, R324, R409). -/

namespace Sys2Proof.Machine

/-! ### The passing of time -/

/-- The passing of time changes the three clocks and nothing else. -/
theorem State.advance_frame (s : State) (t : Nat) :
    { s.advance t with now := s.now, fine := s.fine, strFine := s.strFine } = s := by
  unfold State.advance
  split
  · rfl
  · split <;> rfl

@[simp] theorem State.advance_unit (s : State) (t : Nat) : (s.advance t).unit = s.unit :=
  (congrArg State.unit (s.advance_frame t) :)

@[simp] theorem State.advance_regs (s : State) (t : Nat) : (s.advance t).regs = s.regs :=
  (congrArg State.regs (s.advance_frame t) :)

@[simp] theorem State.advance_w (s : State) (t id : Nat) : (s.advance t).w id = s.w id := by
  unfold State.w; rw [State.advance_regs]

@[simp] theorem State.advance_n (s : State) (t id : Nat) : (s.advance t).n id = s.n id := by
  unfold State.n; rw [State.advance_w]

@[simp] theorem State.advance_unknownId (s : State) (t id : Nat) : (s.advance t).unknownId id = s.unknownId id := by
  unfold State.unknownId State.fourP; rw [State.advance_n]

/-! ### A row whose role does not pass -/

/-- A role does not pass exactly where it lacks the role named or the unit is in STANDBY. -/
theorem roleOk_eq_false {s : State} {role named : Role} :
    s.roleOk role named = false ↔ role.meets named = false ∨ s.unit.st = .standby := by
  simp [State.roleOk, or_iff_not_imp_left]

/-- A row whose role does not pass changes nothing but what its log entry does. -/
theorem roleRow_refused {s next : State} {role named : Role} {kind id : Nat} {old v : Word} {ok : Bool}
    (h : s.roleOk role named = false) :
    s.roleRow role named kind id old v ok next = s.audited role kind id old v (s.rowStatus id role named ok) s := by
  unfold State.roleRow
  rw [h, if_neg Bool.false_ne_true]

/-- The status of a row whose role does not pass: an identifier that the part lacks may come first (log 8), else the role or STANDBY. -/
theorem rowStatus_refused {s : State} {role named : Role} {id : Nat} {ok : Bool} (h : s.roleOk role named = false) :
    s.rowStatus id role named ok = if !ok && s.unknownId id then 2 else if role.meets named then 9 else 3 := by
  unfold State.rowStatus
  by_cases hm : role.meets named = true
  · have hst : s.unit.st = .standby := (roleOk_eq_false.1 h).resolve_left (by simp [hm])
    simp [hm, hst]
  · simp [hm]

/-! ### Every request of a role is a row of that role -/

/-- A request of a role as a row: `ok` tells that its rule accepts it, `next` what it then comes to. -/
def State.requestRow (a : State) (q : RoleRequest) (ok : Bool) (next : State) : State :=
  a.roleRow q.sender q.named q.kind q.id (if q.kind = 1 then a.w q.id else 0) q.v ok next

/-- Each request of `Instr.gate` is the row of its role at its instant. -/
theorem exec_gate {c : Instr} {q : RoleRequest} (h : c.gate = some q) (s : State) :
    ∃ ok next, exec c s = .next ((s.advance q.t).requestRow q ok next) := by
  unfold Instr.gate at h
  split at h <;> cases h <;> exact ⟨_, _, rfl⟩

/-- A request whose role does not pass comes to its log entry, with the status of the refusal. -/
theorem exec_gate_refused {c : Instr} {q : RoleRequest} (h : c.gate = some q) {s : State}
    (hr : q.sender.meets q.named = false ∨ s.unit.st = .standby) :
    ∃ ok, exec c s = .next ((s.advance q.t).refusedRequest q
      (if !ok && s.unknownId q.id then 2 else if q.sender.meets q.named then 9 else 3)) := by
  obtain ⟨ok, next, hc⟩ := exec_gate h s
  have hrole : (s.advance q.t).roleOk q.sender q.named = false := by
    rw [roleOk_eq_false, State.advance_unit]; exact hr
  refine ⟨ok, hc.trans (congrArg _ ?_)⟩
  unfold State.requestRow State.refusedRequest
  rw [roleRow_refused hrole, rowStatus_refused hrole, State.advance_unknownId]

/-- A LAT_FLAGS_CLEAR of a role below Service comes to its log entry. -/
theorem exec_latFlagsClear_refused {r : Role} (h : r.meets .service = false) (t : Nat) (v : Word) (s : State) :
    exec (.latFlagsClear t r v) s =
      .next ((s.advance t).audited r 1 Pid.latFlags ((s.advance t).w Pid.latFlags) v 3 (s.advance t)) := by
  unfold exec execLatFlagsClear
  simp [h]

/-- Settles O12: every request of a role is a row of that role, and the row's refusal is its log entry. -/
theorem roleGate : Obligations.RoleGate := by
  unfold Obligations.RoleGate
  refine ⟨fun c s q h hr hid => ?_, fun c s q h hr _ => ?_, fun t r v s a ha hm => ?_⟩
  · obtain ⟨ok, hc⟩ := exec_gate_refused h hr
    simpa [hid] using hc
  · obtain ⟨ok, hc⟩ := exec_gate_refused h hr
    refine ⟨_, ?_, hc⟩
    split
    · exact .inl rfl
    · exact .inr rfl
  · subst ha
    exact exec_latFlagsClear_refused hm t v s

end Sys2Proof.Machine
end

section
/-! Words and counters (R7, R10, R11). -/

namespace Sys2Proof.Machine

/-- Writing a word changes the word file and nothing else. -/
theorem State.setW_frame (s : State) (id : Nat) (w : Word) : { s.setW id w with regs := s.regs } = s := rfl

/-- Settles O21: a word reads back after its write, and the write is confined to it. -/
theorem wordReadsWhatWasWritten : Obligations.WordReadsWhatWasWritten := fun s id w =>
  ⟨s.setW_same id w, fun _ hj => s.setW_other w hj, s.setW_frame id w, regsWf_put⟩

/-- Settles O20: a counter reads the saturated sum, and 32 bits bound it before as after (R11). -/
theorem countersSaturate : Obligations.CountersSaturate := by
  unfold Obligations.CountersSaturate
  intro s id k
  have hsum : (s.bumpBy id k).n id = min (s.n id + k) 0xFFFFFFFF := by rw [State.bumpBy_n, if_pos rfl]
  have hlt := s.n_lt id
  exact ⟨hsum, by omega, fun j hj => s.setN_other _ hj, s.setW_frame id _⟩

end Sys2Proof.Machine
end

section
/-! Rounding and saturation of the accumulators (R12, R13, R161). -/

namespace Sys2Proof.Machine

/-- rneDiv answers the quotient or the next integer, by where twice the remainder stands to the divisor. -/
theorem rneDiv_cases (n : Int) {d : Nat} (hd : 0 < d) :
    (rneDiv n d = n / d ∧ (2 * (n % d) < d ∨ 2 * (n % d) = d ∧ n / d % 2 = 0)) ∨
    (rneDiv n d = n / d + 1 ∧ ((d : Int) < 2 * (n % d) ∨ 2 * (n % d) = d ∧ n / d % 2 = 1)) := by
  unfold rneDiv
  dsimp only
  split
  next h => exact .inr ⟨rfl, .inl h⟩
  next h =>
    split
    next ht => exact .inr ⟨rfl, .inr ⟨ht.1, ht.2.1⟩⟩
    next ht => exact .inl ⟨rfl, by omega⟩

/-- rneDiv answers a nearest integer, and the even one where two are equally near. -/
theorem rneDiv_nearest (n : Int) {d : Nat} (hd : 0 < d) :
    2 * (n - d * rneDiv n d).natAbs ≤ d ∧ (2 * (n - d * rneDiv n d).natAbs = d → rneDiv n d % 2 = 0) := by
  have hn : d * (n / d) + n % d = n := Int.mul_ediv_add_emod n d
  have h0 : 0 ≤ n % d := Int.emod_nonneg n (by omega)
  have h1 : n % d < d := Int.emod_lt_of_pos n (by omega)
  obtain ⟨hq, hr⟩ | ⟨hq, hr⟩ := rneDiv_cases n hd
  · have hrem : n - d * rneDiv n d = n % d := by rw [hq]; omega
    rw [hrem, hq]; omega
  · have hrem : n - d * rneDiv n d = n % d - d := by rw [hq, mul_add]; omega
    rw [hrem, hq]; omega

/-- The halving search keeps the root between its candidate and the candidate plus the step. -/
theorem isqrtGo_floor {fuel n r : Nat} (hlo : r * r ≤ n) (hhi : n < (r + 2 ^ fuel) * (r + 2 ^ fuel)) :
    isqrtGo fuel n r * isqrtGo fuel n r ≤ n ∧ n < (isqrtGo fuel n r + 1) * (isqrtGo fuel n r + 1) := by
  induction fuel generalizing r with
  | zero => exact ⟨hlo, hhi⟩
  | succ fuel ih =>
    simp only [isqrtGo]
    split
    next hc => exact ih hc (by rwa [add_assoc, ← two_mul, ← pow_succ'])
    next hc => exact ih hlo (not_le.1 hc)

/-- SQRT rounds down. -/
theorem isqrt_floor {n : Nat} (h : n < 2 ^ 200) : isqrt n * isqrt n ≤ n ∧ n < (isqrt n + 1) * (isqrt n + 1) :=
  isqrtGo_floor (Nat.zero_le n) (by rwa [zero_add, ← pow_add])

/-- Settles O23: the halves of rounding are `rneDiv_nearest` and `isqrt_floor`; saturation is the clamp of `satQ27` and `satAcc`. -/
theorem accumulatorRounding : Obligations.AccumulatorRounding :=
  ⟨fun n _ hd => rneDiv_nearest n hd, fun _ => rfl, fun _ _ => rfl, fun _ => isqrt_floor⟩

end Sys2Proof.Machine
end

section
/-! The state after reset (R20, R65). -/

namespace Sys2Proof.Machine

/-- Settles O2: after reset the word file and the flash hold no entry, and every array is the replica of its length. -/
theorem resetMeetsInvariant : Obligations.ResetMeetsInvariant := by
  unfold Obligations.ResetMeetsInvariant State.Inv
  refine ⟨?words, ?flash, ?lengths⟩
  case words => rfl
  case flash => rfl
  case lengths => rfl

end Sys2Proof.Machine
end

section
/-! The ports absent from the image: what a command or a request on one comes to (R26, R409). -/

namespace Sys2Proof.Machine

/-! ### What a port that is not used reads -/

@[simp] theorem State.advance_ports (s : State) (t : Nat) : (s.advance t).ports = s.ports :=
  (congrArg State.ports (s.advance_frame t) :)

@[simp] theorem State.advance_port (s : State) (t p : Nat) : (s.advance t).port p = s.port p := by
  unfold State.port; rw [State.advance_ports]

/-- No timer of a port that is not used is due. -/
theorem PortSt.timerDue_unused {q : PortSt} (h : q.used = false) (inst : Nat) : q.timerDue inst = false := by
  unfold PortSt.timerDue
  split
  · simp [h]
  · rfl

/-! ### A request that its rule does not accept -/

/-- A request that is not accepted is not forwarded (R324). -/
@[simp] theorem State.inStep_refused (s next : State) (id : Nat) (v : Word) : s.inStep false id v next = next := by
  simp [State.inStep]

/-- A request of Lattice that is not accepted and has no effect of its own leaves the state (R44: it is never logged). -/
@[simp] theorem State.reqRow_lattice_inert (s : State) (named : Role) (id : Nat) (v : Word) :
    s.reqRow .lattice named id v false s = s := by
  simp [State.reqRow]

/-- A request of a role that is not accepted and has no effect of its own comes to the log entry of its refusal (R409). -/
theorem State.requestRow_inert (a : State) (q : RoleRequest) :
    a.requestRow q false a = a.refusedRequest q (a.rowStatus q.id q.sender q.named false) := by
  simp [State.requestRow, State.refusedRequest, State.roleRow]

/-! ### Commands on a port that is not used -/

/-- A command that serves one used port finds its guard false on any other port, and only time passes. -/
theorem exec_portServed_unused {c : Instr} {s : State} {t p : Nat} (hc : c.portServed = some (t, p)) (hu : (s.port p).used = false) :
    exec c s = .next (s.advance t) := by
  unfold Instr.portServed at hc
  split at hc <;> cases hc
  · simp [exec, execOuterStep, hu]
  · simp [exec, execLimReleaseExpiry, PortSt.timerDue_unused hu]
  · simp [exec, execHardBudgetExhausted, hu]
  · simp [exec, execHardBudgetRefilled, hu]
  · simp [exec, execEnergise, hu]
  · simp [exec, execStopPort, hu]
  · simp [exec, execProtClear, hu]
  · simp [exec, execBusDeadDetected, hu]
  · simp [exec, execBusLiveDetected, hu]
  · simp [exec, execSyncTimeout, PortSt.timerDue_unused hu]
  · simp [exec, execAutoWindowAgeOut, hu]
  · simp [exec, execSampleEntry, hu]

/-- A request of a role that names a port which is not used is a row that its rule does not accept and that has no effect. -/
theorem exec_portAsked_unused {c : Instr} {s : State} {q : RoleRequest} {p : Nat} (hg : c.gate = some q) (hc : c.portAsked = some p)
    (hu : (s.port p).used = false) : exec c s = .next ((s.advance q.t).requestRow q false (s.advance q.t)) := by
  unfold Instr.portAsked at hc
  split at hc <;> cases hc <;> cases hg
  · simp [exec, execEnergise, hu, State.requestRow, State.reqRow]
  · simp [exec, execStopPort, hu, State.requestRow, State.reqRow]
  · simp [exec, execProtClear, hu, State.requestRow, State.reqRow]
  · simp [exec, execVceRebase, State.rebaseOk, hu, State.requestRow, State.cmdRow]
  · simp [exec, execModRelease, State.modReleaseOk, hu, State.requestRow, State.cmdRow]

/-- Settles O13: without its port in the image a command that serves one lets time pass, and a request that names one is refused. -/
theorem unusedPortIsInert : Obligations.UnusedPortIsInert := by
  unfold Obligations.UnusedPortIsInert
  refine ⟨fun c s t p hc hu => exec_portServed_unused hc hu, fun c s a q p hg hc hu ha => ?_⟩
  subst ha
  rw [exec_portAsked_unused hg hc hu, State.requestRow_inert]

end Sys2Proof.Machine
end

section
/-! The queue of commands: a step takes the command at its front, every command completes, and so a run drains the queue in order
(R36, R40, R46; log 3). -/

namespace Sys2Proof.Machine

/-- A step runs the command at the front of the queue, with the rest of the queue still waiting. -/
theorem step_front {s : State} {c : Instr} {cs : List Instr} (h : s.pending = c :: cs) :
    step s = exec c { s with pending := cs } := by
  unfold step; rw [h]

/-- A step idles on an empty queue. -/
theorem step_idle {s : State} (h : s.pending = []) : step s = .next s := by
  unfold step; rw [h]

/-- Settles O3: the command put in front is the front of the queue. -/
theorem stepRunsFrontCommand : Obligations.StepRunsFrontCommand := fun _ _ _ => step_front rfl

/-- Settles O4: it is the empty case of a step. -/
theorem stepIdlesOnEmptyQueue : Obligations.StepIdlesOnEmptyQueue := fun _ => step_idle

/-- Every command completes, and nothing that `Evolve` admits touches the queue. -/
theorem exec_completes (c : Instr) (s : State) : ∃ t, exec c s = .next t ∧ t.pending = s.pending := by
  obtain ⟨t, ht, hevo⟩ := exec_evo c s
  exact ⟨t, ht, hevo.queue⟩

/-- Settles O5: every command completes and leaves the queue. -/
theorem everyCommandAnswersNextState : Obligations.EveryCommandAnswersNextState := exec_completes

/-- A step on a queue that is not empty completes, and takes one command from the queue. -/
theorem step_pops {s : State} {c : Instr} {cs : List Instr} (h : s.pending = c :: cs) : ∃ t, step s = .next t ∧ t.pending = cs := by
  rw [step_front h]
  exact exec_completes c { s with pending := cs }

/-- A run whose first step answers next goes on from there. -/
theorem run_succ {s t : State} (h : step s = .next t) (k : Nat) : core.run (k + 1) s = core.run k t := by
  have hcore : core.step s = .next t := h
  simp only [Host.Core.run, hcore]

/-- Settles O6, by induction on the commands to run: each step takes the front one and leaves a queue for the rest of the run. -/
theorem runDrainsQueueInOrder : Obligations.RunDrainsQueueInOrder := by
  unfold Obligations.RunDrainsQueueInOrder
  intro cs ds
  induction cs with
  | nil => exact fun s hq => ⟨s, rfl, hq⟩
  | cons c cs ih =>
    intro s hq
    obtain ⟨s', hstep, hrest⟩ := step_pops hq
    obtain ⟨t, hrun, hds⟩ := ih s' hrest
    exact ⟨t, (run_succ hstep cs.length).trans hrun, hds⟩

end Sys2Proof.Machine
end

section
/-! Q-EVT: an event enters the queue or coalesces into the counters (R38, R41, R52, R54, R408). -/

namespace Sys2Proof.Machine

/-- The low four bits of a severity byte are the class of the code (R408). -/
theorem severity_mod (code : Nat) (valid stopped : Bool) : severity code valid stopped % 16 = code / 4096 % 16 := by
  unfold severity evClass fld
  omega

/-- An event must coalesce exactly where its group is coalescing or has no room. -/
theorem mustCoalesce_evRec {s : State} {code inst ctx : Nat} :
    s.ev.mustCoalesce (s.evRec code inst ctx) = true ↔
      s.ev.coalescing (evKept code) = true ∨ (if evKept code then 256 else 240) ≤ s.ev.q.length := by
  unfold EvSt.mustCoalesce
  rw [Bool.or_eq_true, decide_eq_true_iff]
  rfl

/-- Coalescing leaves the queue of records. -/
theorem coalesce_q (e : EvSt) (r : EvRec) : (e.coalesce r).q = e.q := by
  unfold EvSt.coalesce
  split
  · rfl
  · split <;> rfl

/-- Recording an occupancy leaves the events. -/
theorem highWater_ev (s : State) (q occ : Nat) : (s.highWater q occ).ev = s.ev := by
  unfold State.highWater State.onlyIf
  split <;> rfl

section
variable {s : State} {code inst ctx : Nat}

/-- An event that need not coalesce becomes the last record of Q-EVT, and no counter changes. -/
theorem raise_ev_queued (h : s.ev.mustCoalesce (s.evRec code inst ctx) = false) :
    (s.raise code inst ctx).ev = { s.ev with q := s.ev.q ++ [s.evRec code inst ctx] } := by
  rw [State.raise_eq, if_neg (by simp [h]), highWater_ev]

/-- An event that must coalesce goes into the counters. -/
theorem raise_ev_coalesced (h : s.ev.mustCoalesce (s.evRec code inst ctx) = true) :
    (s.raise code inst ctx).ev = s.ev.coalesce (s.evRec code inst ctx) := by
  rw [State.raise_eq, if_pos h]
  rfl

/-- An event that must coalesce counts as a loss of Q-EVT (R54). -/
theorem raise_qLoss_coalesced (h : s.ev.mustCoalesce (s.evRec code inst ctx) = true) :
    (s.raise code inst ctx).n (Pid.qLoss 12) = min (s.n (Pid.qLoss 12) + 1) 0xFFFFFFFF := by
  rw [State.raise_eq, if_pos h]
  unfold State.qLost
  rw [State.bump_n, if_pos rfl]
  rfl

end

/-- Q-EVT never exceeds its 256 entries: a record enters only below the bound of its group (R38, R41). -/
theorem raise_q_bound {s : State} (code inst ctx : Nat) (h : s.ev.q.length ≤ 256) : (s.raise code inst ctx).ev.q.length ≤ 256 := by
  cases hm : s.ev.mustCoalesce (s.evRec code inst ctx)
  case true =>
    rw [raise_ev_coalesced hm, coalesce_q]
    exact h
  case false =>
    have hroom : s.ev.q.length < if evKept code then 256 else 240 :=
      not_le.1 fun hfull => by simp [mustCoalesce_evRec.2 (.inr hfull)] at hm
    rw [raise_ev_queued hm, List.length_append, List.length_singleton]
    split at hroom <;> omega

/-- Settles O22: the split is whether the event must coalesce. -/
theorem eventQueue : Obligations.EventQueue := by
  unfold Obligations.EventQueue
  intro s code inst ctx
  refine ⟨severity_mod code _ _, fun hc hroom => raise_ev_queued ?_, fun hfull => ?_, raise_q_bound code inst ctx,
    s.raise_frame code inst ctx⟩
  · rw [Bool.eq_false_iff, ne_eq, mustCoalesce_evRec, not_or]
    exact ⟨Bool.eq_false_iff.1 hc, not_le.2 hroom⟩
  · have hm : s.ev.mustCoalesce (s.evRec code inst ctx) = true := mustCoalesce_evRec.2 hfull
    have hev := raise_ev_coalesced hm
    exact ⟨hev, by rw [hev, coalesce_q], raise_qLoss_coalesced hm⟩

end Sys2Proof.Machine
end

section
/-! Q-LOG: a command that needs a log entry is run only with a credit for it (R44, R400). -/

namespace Sys2Proof.Machine

section
variable {s : State} {x : SessSt} {path ip seq : Nat} {io rb : Bool} {c : LinkCmd} {n : AuditNote}

/-- A command that needs a log entry and finds no room answers busy and raises 0x8205. -/
theorem judge_busy (hrole : s.cmdRole x.role c.code = true) (hnote : s.noteOf x.role path ip x.sid seq c = some n)
    (hroom : s.logRoom n = false) : s.judge x path ip seq io rb c = ⟨4, [], s.raise 0x8205 x.role.code seq⟩ := by
  simp [State.judge, hrole, hnote, hroom, State.reply]

/-- A command that needs a log entry and finds room is run, and its entry follows. -/
theorem judge_noted (hrole : s.cmdRole x.role c.code = true) (hnote : s.noteOf x.role path ip x.sid seq c = some n)
    (hroom : s.logRoom n = true) :
    s.judge x path ip seq io rb c =
      { s.runCmd x path io rb c with st := s.logAfter n (s.runCmd x path io rb c).status (s.runCmd x path io rb c).st } := by
  simp [State.judge, hrole, hnote, hroom]

end

/-- Settles O25: the log entry is the only part of the answer that a credit adds to the command's own. -/
theorem auditLogBusy : Obligations.AuditLogBusy := by
  unfold Obligations.AuditLogBusy
  intro s x path ip seq io rb c n hrole hnote
  refine ⟨judge_busy hrole hnote, fun hroom => ?_⟩
  rw [judge_noted hrole hnote hroom]
  exact ⟨rfl, rfl⟩

end Sys2Proof.Machine
end

section
/-! The timers of Bergil link, the event writer and the parameter write: where each completes (R42, R403, R404, R405, R433). -/

namespace Sys2Proof.Machine

/-- A bulk write that ends early: the load is dropped, a program bank with it, and 0x1288 names the target and the reason (R405). -/
theorem bulkAbort_loading {s : State} {k : BulkSt} (h : s.link.bulk = some k) (why : Nat) :
    s.bulkAbort why =
      (let b := (s.modLink fun x => { x with bulk := none }).setN Pid.bulkState 0
       (if k.target = 0x10 then (b.modLat fun x => { x with bank := none }).setN Pid.latBankStatus 2 else b).raise 0x1288 k.target why) := by
  simp [State.bulkAbort, State.onlyIf, h]

/-- The event writer moves the oldest record of Q-EVT to the store (R42). -/
theorem evTake_cons {s : State} {r : EvRec} {q : List EvRec} (h : s.ev.q = r :: q) :
    s.evTake = (({ s with ev := { s.ev with q := q } }).evStore r).evSummaries := by
  unfold State.evTake
  rw [h]

/-- An erase that ends opens its bulk write for data (R405). -/
theorem exec_slotEraseDone_erasing {s : State} {t : Nat} {k : BulkSt} (hk : (s.advance t).link.bulk = some k)
    (he : k.erasing = true) :
    exec (.slotEraseDone t) s = .next (((s.advance t).modLink fun l =>
      { l with bulk := some { k with erasing := false, lastAt := (s.advance t).now } }).showBulk 2 k.target) := by
  simp [exec, execSlotEraseDone, hk, he]

/-- A bulk write without data for 60 s is aborted (R405). -/
theorem exec_bulkWriteTimeout_due {s : State} {t : Nat} {k : BulkSt} (hk : (s.advance t).link.bulk = some k)
    (hdue : k.lastAt + 60 * psS ≤ (s.advance t).now) : exec (.bulkWriteTimeout t) s = .next ((s.advance t).bulkAbort 2) := by
  simp [exec, execBulkWriteTimeout, hk, hdue]

/-- The copy of a bulk read is dropped after 10 s (R404). -/
theorem exec_bulkReadCopyExpiry_due {s : State} {t sid i n : Nat} {x : SessSt} {bs : List Byte}
    (hx : (s.advance t).sess? sid = some x) (hcopy : x.copy = some (i, bs, n)) (hdue : n + 10 * psS ≤ (s.advance t).now) :
    exec (.bulkReadCopyExpiry t sid) s = .next ((s.advance t).modSess sid fun x => { x with copy := none }) := by
  simp [exec, execBulkReadCopyExpiry, hx, hcopy, hdue]

/-- A parameter write that is done and can be logged is applied and noted (R403). -/
theorem exec_parameterWrite_done {s : State} {t id : Nat} {role : Role} {v : Word}
    (hok : ((s.advance t).writeAll role true [(id, v)]).bad = none)
    (hnote : (s.advance t).canNote role (if (s.advance t).clsOf id = some .cmd then 2 else 1) id ((s.advance t).readWord id) v = true) :
    exec (.parameterWrite t role id v) s = .next ((s.advance t).noted role (if (s.advance t).clsOf id = some .cmd then 2 else 1) id
      ((s.advance t).readWord id) v 0 ((s.advance t).writeAll role true [(id, v)]).st) := by
  unfold exec execParameterWrite
  dsimp only
  rw [audited_eq hnote, hok]

/-- Settles O59: each clause is the branch of its command that the hypotheses choose. -/
theorem completesLinkTimers : Obligations.CompletesLinkTimers := by
  unfold Obligations.CompletesLinkTimers
  refine ⟨?slotEraseDone, ?bulkWriteTimeout, ?bulkReadCopyExpiry, ?eventWriterTake, ?crumbLockExpiry, ?parameterWrite⟩
  case slotEraseDone =>
    rintro t s k _ rfl hk he
    exact exec_slotEraseDone_erasing hk he
  case bulkWriteTimeout =>
    rintro t s k _ rfl hk hdue
    rw [exec_bulkWriteTimeout_due hk hdue, bulkAbort_loading hk]
  case bulkReadCopyExpiry =>
    rintro t sid s x i bs n _ rfl hx hcopy hdue
    exact exec_bulkReadCopyExpiry_due hx hcopy hdue
  case eventWriterTake =>
    rintro t s r q _ rfl hq
    exact congrArg Host.Outcome.next (evTake_cons hq)
  case crumbLockExpiry =>
    rintro t s _ rfl
    rfl
  case parameterWrite =>
    rintro t role id v s _ rfl hok hnote
    exact exec_parameterWrite_done hok hnote

end Sys2Proof.Machine
end

section
/-! The frames of a command: what it may touch beyond the ordinary is on the lists of Safety.lean, and the rest is as before
(R68, R80, R85, R121, R396, R405, R410, R414). -/

namespace Sys2Proof.Machine

/-! ### The kinds of each command stay on the lists of Safety.lean -/

theorem commandKinds_flash {c : Instr} (h : c.mayWriteFlash = false) : (commandKinds c).flash = false := by
  have hlist : (c.mayWriteFlash || !(commandKinds c).flash) = true := by cases c <;> rfl
  simpa [h] using hlist

theorem commandKinds_fuse {c : Instr} (h : c.mayFuse = false) : (commandKinds c).fuse = false := by
  have hlist : (c.mayFuse || !(commandKinds c).fuse) = true := by cases c <;> rfl
  simpa [h] using hlist

theorem commandKinds_fram {c : Instr} (h : c.mayWriteFram = false) : (commandKinds c).fram = false := by
  have hlist : (c.mayWriteFram || !(commandKinds c).fram) = true := by cases c <;> rfl
  simpa [h] using hlist

/-- A reset drops the image too. -/
theorem commandKinds_img {c : Instr} (h : c.mayChangeImage = false) :
    (commandKinds c).img = false ∧ (commandKinds c).reset = false := by
  have hlist : (c.mayChangeImage || !((commandKinds c).img || (commandKinds c).reset)) = true := by cases c <;> rfl
  simpa [h] using hlist

/-- A reset returns the outputs too. -/
theorem commandKinds_outputs {c : Instr} (h : c.mayDriveOutputs = false) :
    ((commandKinds c).dout = false ∧ (commandKinds c).lines = false) ∧ (commandKinds c).reset = false := by
  have hlist : (c.mayDriveOutputs || !((commandKinds c).dout || (commandKinds c).lines || (commandKinds c).reset)) = true := by
    cases c <;> rfl
  simpa [h] using hlist

/-- A reset is a change of the unit's state too. -/
theorem commandKinds_unit {c : Instr} (h : c.mayMoveUnit = false) :
    (commandKinds c).unit = false ∧ (commandKinds c).reset = false := by
  have hlist : (c.mayMoveUnit || !((commandKinds c).unit || (commandKinds c).reset)) = true := by cases c <;> rfl
  simpa [h] using hlist

/-! ### The frames -/

/-- Settles O9: a command outside a list is not of the kind that may write that memory. -/
theorem flashAndFuseFrame : Obligations.FlashAndFuseFrame := by
  unfold Obligations.FlashAndFuseFrame
  refine ⟨fun c s t hc h a => ?flash, fun c s t hc h => ?fuses, fun c s t hc h => ?fram⟩
  case flash => rw [(exec_next_evo h).sameFlash (commandKinds_flash hc)]
  case fuses => exact (exec_next_evo h).sameFuses (commandKinds_fuse hc)
  case fram => exact (exec_next_evo h).sameFram (commandKinds_fram hc)

/-- Settles O10: a command outside a list neither resets nor is of the kind that may change the image, or drive an output. -/
theorem imageAndOutputFrame : Obligations.ImageAndOutputFrame := by
  unfold Obligations.ImageAndOutputFrame
  refine ⟨fun c s t hc h => ?image, fun c s t hc h => ?outputs⟩
  case image =>
    obtain ⟨himg, hreset⟩ := commandKinds_img hc
    exact (exec_next_evo h).sameImg himg hreset
  case outputs =>
    obtain ⟨⟨hdout, hlines⟩, hreset⟩ := commandKinds_outputs hc
    exact ⟨(exec_next_evo h).sameDout hdout hreset, (exec_next_evo h).sameLines hlines hreset⟩

/-- Settles O11: a command outside the list neither resets nor is of the kind that may move the unit. -/
theorem unitStateFrame : Obligations.UnitStateFrame := by
  unfold Obligations.UnitStateFrame
  intro c s t hc h
  obtain ⟨hunit, hreset⟩ := commandKinds_unit hc
  exact (exec_next_evo h).sameUnit hunit hreset

end Sys2Proof.Machine
end

section
/-! The flash reads what was written, and an erase only its range (R65, R68; log 5). -/

namespace Sys2Proof.Machine

/-- What an address reads after a write of bytes, by induction on the bytes: the first stands at the start, the rest follows it. -/
theorem memGet_write {m : List Host.Cell} {a x : Nat} {bs : List Byte} (h : Memory.wf m = true) :
    memGet (memWrite m a bs) x = if a ≤ x ∧ x < a + bs.length then bs.getD (x - a) 0 else memGet m x := by
  induction bs generalizing m a with
  | nil => exact (if_neg (by simp)).symm
  | cons b bs ih =>
    rw [memWrite, ih (memWf_put h), memGet_put m a b h, List.length_cons]
    obtain hx | rfl | hx := Nat.lt_trichotomy x a
    · rw [if_neg (by omega), if_neg (by omega), if_neg (by omega)]
    · rw [if_neg (by omega), if_pos rfl, if_pos (by omega), Nat.sub_self, List.getD_cons_zero]
    · rw [show x - a = x - (a + 1) + 1 by omega, List.getD_cons_succ, if_neg (show x ≠ a by omega)]
      exact if_congr (by omega) rfl rfl

/-- What an address reads after an erase, by induction on the listed bytes: one inside the range is dropped, one outside stays. -/
theorem memGet_erase (m : List Host.Cell) (a n x : Nat) :
    memGet (memErase m a n) x = if a ≤ x ∧ x < a + n then flashErased else memGet m x := by
  induction m with
  | nil => exact (ite_self _).symm
  | cons c m ih =>
    unfold memErase at ih ⊢
    rw [List.filter_cons]
    split
    next hkeep =>
      simp only [Bool.or_eq_true, decide_eq_true_eq] at hkeep
      simp only [memGet, ih]
      split
      · rw [if_neg (by omega)]
      · rfl
    next hdrop =>
      simp only [Bool.or_eq_true, decide_eq_true_eq] at hdrop
      simp only [memGet, ih]
      split
      · rfl
      · rw [if_neg (by omega)]

/-- Settles O14: reading after a write and after an erase, and the canonical form that both keep. -/
theorem flashReadsWhatWasWritten : Obligations.FlashReadsWhatWasWritten :=
  ⟨fun _ _ _ _ h => memGet_write h, memGet_erase, fun _ _ _ _ h => ⟨memWf_write h, memWf_erase h⟩⟩

end Sys2Proof.Machine
end

section
/-! A change of unit state: the unit is in it, and its words name it and its cause (R85, R86). -/

namespace Sys2Proof.Machine

/-- The code of a unit state is one byte (R85). -/
theorem UnitState.code_lt (u : UnitState) : u.code < 2 ^ 8 := by cases u <;> decide

/-- A change to the present state changes nothing. -/
theorem gotoUnit_present {s : State} {u : UnitState} (h : s.unit.st = u) (cause : Nat) : s.gotoUnit u cause = s := if_pos h

/-- The unit in a state, with the words that show it and its cause. -/
def State.showUnit (s : State) (u : UnitState) (cause : Nat) : State :=
  ({ s with unit := { s.unit with st := u } }.setN Pid.unitState u.code).setN Pid.lastCause cause

theorem showUnit_st (s : State) (u : UnitState) (cause : Nat) : (s.showUnit u cause).unit.st = u := rfl

theorem showUnit_unitState (s : State) (u : UnitState) (cause : Nat) : (s.showUnit u cause).n Pid.unitState = u.code := by
  unfold State.showUnit
  rw [State.setN_other _ _ (by decide), State.setN_same]
  have := u.code_lt
  omega

theorem showUnit_lastCause (s : State) (u : UnitState) (cause : Nat) :
    (s.showUnit u cause).n Pid.lastCause = min cause 0xFFFFFFFF := State.setN_same _ _ _

/-- Ending every session. -/
theorem keptU_endSessions {s0 s : State} {why : Nat} (h : KeptU s0 s) : KeptU s0 (s.endSessions why) :=
  keptU_fold h fun _ _ h => keptU_endSession h

/-- A change to another state shows the unit in it, and what follows from it (announcement, a pending time step, the sessions, the
CAN and Ethernet states) leaves that. -/
theorem gotoUnit_keptU {s : State} {u : UnitState} (h : s.unit.st ≠ u) (cause : Nat) :
    ∃ b : State, KeptU (b.showUnit u cause) (s.gotoUnit u cause) := by
  unfold State.gotoUnit
  rw [if_neg h]
  refine ⟨s.onlyIf (s.unit.st = .standby && u ≠ .run) fun s => (s.setN Pid.pairState 0).setN Pid.sbFit 0, ?_⟩
  refine keptU_ethShow (keptU_canShow (keptU_onlyIf (keptU_onlyIf (keptU_onlyIf ⟨rfl, rfl, rfl⟩ ?announce) ?timeStep) ?sessions))
  case announce => exact fun _ h => h
  case timeStep =>
    intro s h
    split
    · exact keptU_timeStepBy h
    · exact h
  case sessions => exact fun _ h => keptU_endSessions h

/-- Settles O17: a new state is shown and then kept; the present one changes nothing. -/
theorem unitTransition : Obligations.UnitTransition := by
  unfold Obligations.UnitTransition
  intro s u cause
  by_cases h : s.unit.st = u
  case pos =>
    rw [gotoUnit_present h]
    exact ⟨h, fun hne => absurd h hne, fun _ => rfl⟩
  case neg =>
    obtain ⟨b, hst, hunit, hcause⟩ := gotoUnit_keptU h cause
    refine ⟨hst.trans (showUnit_st b u cause), fun _ => ⟨?_, ?_⟩, fun he => absurd he h⟩
    · exact (congrArg BitVec.toNat hunit).trans (showUnit_unitState b u cause)
    · exact (congrArg BitVec.toNat hcause).trans (showUnit_lastCause b u cause)

end Sys2Proof.Machine
end

section
/-! The safety outputs where the safety functions may not energise: all off, and every used port at rest (R84, R286-R293). -/

namespace Sys2Proof.Machine

/-! ### Ports that are brought to rest -/

/-- A port is in IDLE or in PORT-STOP. -/
def State.Rests (s : State) (p : Nat) : Prop := (s.port p).st = .idle ∨ (s.port p).st = .portStop

/-- What leaves the ports' states leaves a port at rest. -/
theorem Same.rests {s u : State} (h : Same s u) {p : Nat} (hp : s.Rests p) : u.Rests p := by
  unfold State.Rests
  rwa [(view_port h p).1]

/-- From `s` to `u` the listed ports come to rest and no port leaves it, and the safety state is as before. -/
structure Halts (ps : List Nat) (s u : State) : Prop where
  saf : u.saf = s.saf
  len : u.ports.length = s.ports.length
  keeps : ∀ {j}, s.Rests j → u.Rests j
  halts : ∀ p ∈ ps, u.Rests p

theorem Same.halted {s u : State} (h : Same s u) : Halts [] s u := ⟨view_saf h, same_len h, h.rests, nofun⟩

theorem Halts.trans {ps qs : List Nat} {s t u : State} (h1 : Halts ps s t) (h2 : Halts qs t u) : Halts (ps ++ qs) s u where
  saf := h2.saf.trans h1.saf
  len := h2.len.trans h1.len
  keeps hj := h2.keeps (h1.keeps hj)
  halts p hp := (List.mem_append.1 hp).elim (fun hp => h2.keeps (h1.halts p hp)) (h2.halts p)

/-- A port put in PORT-STOP. -/
theorem modPort_portStop_halts {s : State} {p : Nat} (hp : p < s.ports.length) :
    Halts [p] s (s.modPort p fun q => { q with st := .portStop }) where
  saf := rfl
  len := List.length_modify ..
  keeps {j} hj := by
    by_cases h : j = p
    · subst h; exact .inr (by rw [State.modPort_port _ _ hp])
    · unfold State.Rests; rwa [State.modPort_port_other _ _ h]
  halts j hj := by
    obtain rfl := List.mem_singleton.1 hj
    exact .inr (by rw [State.modPort_port _ _ hp])

/-- A fault of a port halts it (R110). -/
theorem portFault_halts {s : State} {p : Nat} (hp : p < s.ports.length) (code : Nat) (open_ auto : Bool) :
    Halts [p] s (s.portFault p code open_ auto) := by
  by_cases hst : (s.port p).st = .portStop
  case pos =>
    rw [show s.portFault p code open_ auto = s from if_pos hst]
    exact ⟨rfl, rfl, id, fun j hj => .inr (List.mem_singleton.1 hj ▸ hst)⟩
  case neg =>
    unfold State.portFault
    rw [if_neg hst]
    dsimp only
    generalize hb : ((s.setN (Pid.stopCause p) code).modPort p fun q => { q with autoAt := none }).setBit (Pid.protState p) 4 false = b
    have hsame : Same s b := hb ▸ same_setBit (same_modPort (same_setN rfl) fun _ => ⟨rfl, rfl⟩)
    have hset : Same (b.modPort p fun q => { q with st := .portStop }) (b.setPort p .portStop) :=
      same_setPort ((view_port hsame p).1 ▸ hst)
    have hlast := same_onlyIf (b := auto) (same_onlyIf (b := open_) hset fun _ h => same_askOpen (p := p) h)
      fun _ h => same_autoStart (p := p) (k := 3) h
    exact (hsame.halted.trans (modPort_portStop_halts (same_len hsame ▸ hp))).trans hlast.halted

/-- What a safety stop does to one port: it faults unless it is in IDLE (R291). -/
def State.safHalt (s : State) (p : Nat) : State := if (s.port p).st = .idle then s else s.portFault p 0x6C20 false false

theorem safHalt_halts {s : State} {p : Nat} (hp : p < s.ports.length) : Halts [p] s (s.safHalt p) := by
  unfold State.safHalt
  split
  next hst => exact ⟨rfl, rfl, id, fun j hj => .inl (List.mem_singleton.1 hj ▸ hst)⟩
  next => exact portFault_halts hp _ _ _

theorem each_safHalt_halts {ps : List Nat} {s : State} (hps : ∀ p ∈ ps, p < s.ports.length) : Halts ps s (s.each ps State.safHalt) := by
  induction ps generalizing s with
  | nil => exact Same.halted rfl
  | cons p ps ih =>
    have hone := safHalt_halts (hps p List.mem_cons_self)
    exact hone.trans (ih fun q hq => hone.len ▸ hps q (List.mem_cons_of_mem p hq))

/-! ### The outputs -/

/-- The safety functions may energise (R84, R286-R288). -/
def State.safOk (s : State) : Bool := s.unit.st.safetyLive && s.saf.inForce && s.saf.faults.isEmpty && s.saf.dem.isEmpty

theorem safOk_eq_false {s : State} :
    s.safOk = false ↔ s.unit.st.safetyLive = false ∨ s.saf.inForce = false ∨ s.saf.faults ≠ [] ∨ s.saf.dem ≠ [] := by
  simp [State.safOk, ← Bool.not_eq_true, imp_iff_not_or, or_assoc]

/-- Gate enables withdrawn, no safety output commanded, brake and contactor released. -/
structure SafSt.Off (f : SafSt) : Prop where
  gates : f.gates = false
  sout : ∀ x ∈ f.sout, x.cmd = false
  sbc : f.sbcOn = none
  scc : f.sccOn = false

/-- Outputs whose decisions are all off are not commanded. -/
theorem zipWith_cmd_off {g : SoutSt → Bool → SoutSt} (hg : ∀ x b, (g x b).cmd = b) {xs : List SoutSt} {c : List Bool}
    (hc : ∀ b ∈ c, b = false) : ∀ x ∈ xs.zipWith g c, x.cmd = false := by
  intro x hx
  obtain ⟨i, hi, rfl⟩ := List.getElem_of_mem hx
  rw [List.getElem_zipWith, hg]
  exact hc _ (List.getElem_mem _)

/-- Where the safety functions may not energise, the outputs are put off, the enables follow, every used port is halted, and the words
are shown. -/
theorem safApply_stages {s : State} (h : s.safOk = false) :
    ∃ b c : State, b.saf.Off ∧ b.ports = s.ports ∧ Same b c ∧ Same (c.each c.usedPorts State.safHalt) s.safApply := by
  unfold State.safOk at h
  unfold State.safApply
  simp only [h, State.onlyIf, Bool.not_false, if_true]
  refine ⟨_, _, ?off, ?ports, same_ite (fun _ => same_setEnables rfl) (fun _ => rfl), same_setN (same_each rfl fun _ _ h => same_setN h)⟩
  case off => exact ⟨rfl, zipWith_cmd_off (fun _ _ => rfl) (by simp [State.modSaf]), rfl, rfl⟩
  case ports => rfl

/-- Settles O18: the outputs are put off, and the used ports halt. -/
theorem safetyDemandStopsEverything : Obligations.SafetyDemandStopsEverything := by
  unfold Obligations.SafetyDemandStopsEverything
  intro s h
  obtain ⟨b, c, hoff, hports, hbc, hlast⟩ := safApply_stages (safOk_eq_false.2 h)
  have hused : c.usedPorts = s.usedPorts := by rw [same_used hbc]; unfold State.usedPorts State.port; rw [hports]
  have hhalt := (each_safHalt_halts fun _ => used_lt).trans hlast.halted
  rw [hhalt.saf, view_saf hbc, ← hused]
  exact ⟨hoff.gates, hoff.sout, hoff.sbc, hoff.scc, fun p hp => hhalt.halts p (List.mem_append_left _ hp)⟩

end Sys2Proof.Machine
end

section
/-! Power, RESET, the reference and the lock: where each command completes (R57-R64, R85, R86, R454). -/

namespace Sys2Proof.Machine

/-! ### Power and RESET -/

section
variable {s : State} {t : Nat}

theorem exec_vinRise_off (h : (s.advance t).unit.st = .off) : exec (.vinRise t) s = .next ((s.advance t).toReset 0 false) :=
  congrArg _ (if_pos h)

theorem exec_vinUndervoltage_new (h : (s.advance t).unit.st ≠ .off) (huv : (s.advance t).unit.vinUv = false) :
    exec (.vinUndervoltage t) s = .next ((s.advance t).toReset 0 true) :=
  congrArg _ (if_neg (not_or.2 ⟨h, Bool.eq_false_iff.1 huv⟩))

theorem exec_shellWatchdogExpiry_on (h : (s.advance t).unit.st ≠ .off) :
    exec (.shellWatchdogExpiry t) s = .next ((s.advance t).toReset 0 (s.advance t).unit.vinUv) :=
  congrArg _ (if_neg h)

theorem exec_resetComplete_good (h : (s.advance t).unit.st = .reset) (huv : (s.advance t).unit.vinUv = false) :
    exec (.resetComplete t) s = .next (({ s.advance t with
      unit := { (s.advance t).unit with resetEnd := (s.advance t).now } }).gotoUnit .refLock 0) :=
  congrArg _ (if_pos ⟨h, by rw [huv]; rfl⟩)

end

/-- Settles O32: each clause is the branch of its command that the hypotheses choose; RESTART is a row of Service. -/
theorem completesPower : Obligations.CompletesPower := by
  unfold Obligations.CompletesPower
  refine ⟨?vinRise, ?vinUndervoltage, ?shellWatchdogExpiry, ?restart, ?controlSupplyLost, ?resetComplete⟩
  case vinRise =>
    rintro t s _ rfl h
    exact exec_vinRise_off h
  case vinUndervoltage =>
    rintro t s _ rfl h huv
    exact exec_vinUndervoltage_new h huv
  case shellWatchdogExpiry =>
    rintro t s _ rfl h
    exact exec_shellWatchdogExpiry_on h
  case restart =>
    rintro t role v s _ rfl hrole hok halone hnote
    exact congrArg Host.Outcome.next (cmdRow_done hrole hok halone hnote)
  case controlSupplyLost =>
    rintro t s _ rfl
    rfl
  case resetComplete =>
    rintro t s _ rfl h huv
    exact exec_resetComplete_good h huv

/-! ### Lock and relock -/

section
variable {s : State} {t : Nat}

theorem exec_bootReferenceSelect_crystal {refIn : Nat} (hst : (s.advance t).unit.st = .refLock)
    (hidle : (s.advance t).ref.attempt = none) (hfree : (s.advance t).ref.lockedTo = none)
    (hfirst : (s.advance t).ref.relocking = false) (hin : (s.advance t).now ≤ (s.advance t).unit.resetEnd + 8 * psMs) :
    exec (.bootReferenceSelect t true refIn) s =
      .next (((s.advance t).modRef fun r => { r with boot := .crystal, bootKHz := 25000 }).attemptOn .crystal .boot) :=
  congrArg _ ((if_neg (by simp only [hst, hidle, hfree, hfirst]; decide)).trans
    (if_pos (by simp only [hin, decide_true, Bool.and_self])))

/-- A lock that is due within 2 ms of its attempt is not refused (R59). -/
theorem lockDue_not_refused {a : State} {x : Attempt} (hin : a.now ≤ x.start + 2 * psMs) (hdue : a.lockDue x = true) :
    ¬(x.start + 2 * psMs < a.now ∨ !a.lockDue x) := by
  rw [hdue]
  exact not_or.2 ⟨Nat.not_lt.2 hin, nofun⟩

theorem exec_lockAttemptTimeout_due {x : Attempt} (hx : (s.advance t).ref.attempt = some x)
    (hdue : x.start + 2 * psMs ≤ (s.advance t).now) : exec (.lockAttemptTimeout t) s = .next ((s.advance t).attemptFailed x) := by
  simp [exec, execLockAttemptTimeout, hx, hdue]

/-- A numbered attempt that is due on a valid reference is counted and starts (R64 step 3). -/
theorem exec_relockAttempt_due (hre : (s.advance t).ref.relocking = true) (hidle : (s.advance t).ref.attempt = none)
    (hdue : (s.advance t).ref.lastAttempt + 100 * psMs ≤ (s.advance t).now) :
    exec (.relockAttempt t true) s =
      .next ((((s.advance t).modRef fun q => { q with lastAttempt := q.lastAttempt + 100 * psMs }).countAttempt).attemptOn
        (s.advance t).refTarget .attempt) := by
  simp [exec, execRelockAttempt, hre, hidle, hdue]

theorem exec_attemptCountReset_due (hlock : (s.advance t).refLocked = true) (hre : (s.advance t).ref.relocking = false)
    (hdue : (s.advance t).ref.lockedAt + 60 * psS ≤ (s.advance t).now) :
    exec (.attemptCountReset t) s = .next (((s.advance t).setN Pid.relockAttempts 0).modRef fun r => { r with fails := 0 }) :=
  congrArg _ (if_pos (by simp [hlock, hre, hdue]))

end

/-- A loss with no attempt running loses the lock that the PLL holds on a reference of the board (R58, R60). -/
theorem refLost_locked {s : State} {src : RefSrc} (hidle : s.ref.attempt = none) (hlock : s.ref.lockedTo = some src)
    (hsrc : src ≠ .fallback) (cause : Nat) (discards : List Nat) : s.refLost cause discards = s.lockLoss src cause discards := by
  unfold State.refLost
  rw [hidle]
  dsimp only
  rw [hlock]
  cases src <;> trivial

/-- Settles O33: each clause is the branch of its command that the hypotheses choose. -/
theorem completesLocking : Obligations.CompletesLocking := by
  unfold Obligations.CompletesLocking
  refine ⟨?bootReferenceSelect, ?lockDeclared, ?lockAttemptTimeout, ?relockAttempt, ?attemptCountReset, ?referenceLoss,
    ?phaseWindowLoss, ?safeCrossMonitor⟩
  case bootReferenceSelect =>
    rintro t _ refIn s _ rfl hst hidle hfree hfirst rfl hin
    exact exec_bootReferenceSelect_crystal hst hidle hfree hfirst hin
  case lockDeclared =>
    rintro t band s x _ rfl hx hin hdue
    unfold exec execLockDeclared
    dsimp only
    rw [hx]
    exact congrArg Host.Outcome.next (if_neg (lockDue_not_refused hin hdue))
  case lockAttemptTimeout =>
    rintro t s x _ rfl hx hdue
    exact exec_lockAttemptTimeout_due hx hdue
  case relockAttempt =>
    rintro t _ s _ rfl hre hidle hdue - rfl
    exact exec_relockAttempt_due hre hidle hdue
  case attemptCountReset =>
    rintro t s _ rfl hlock hre hdue
    exact exec_attemptCountReset_due hlock hre hdue
  case referenceLoss =>
    rintro t discards s src _ rfl hidle hlock hsrc
    exact congrArg Host.Outcome.next (refLost_locked hidle hlock hsrc 2 discards)
  case phaseWindowLoss =>
    rintro t discards s src _ rfl hidle hlock hsrc
    exact congrArg Host.Outcome.next (refLost_locked hidle hlock hsrc 1 discards)
  case safeCrossMonitor =>
    rintro t s _ rfl
    rfl

end Sys2Proof.Machine
end

section
/-! Image load, content check and self-test: where each command completes (R65, R66, R77-R79, R82, R88). -/

namespace Sys2Proof.Machine

section
variable {s : State} {t : Nat}

/-- An SFDP table of an accepted density, read before any slot, sets the flash size and checks the audit log (R65, R411). -/
theorem exec_sfdpRead_accepted {x : Sfdp} (hst : (s.advance t).unit.st = .imageLoad) (hsize : (s.advance t).n Pid.flashSize = 0)
    (hA : (s.advance t).n Pid.slotAStatus = 0) (hB : (s.advance t).n Pid.slotBStatus = 0)
    (hx : x.mbit = 64 ∨ x.mbit = 128 ∨ x.mbit = 256 ∨ x.mbit = 512) :
    exec (.sfdpRead t (some x)) s =
      .next (({ s.advance t with sfdpQuad := x.quad }.setN Pid.flashSize x.mbit).auditCheck) := by
  have hfilter : (some x).filter (fun y : Sfdp => [64, 128, 256, 512].contains y.mbit) = some x := by simpa using hx
  unfold exec execSfdpRead
  dsimp only
  rw [if_neg (by simp only [hst, hsize, hA, hB]; decide), hfilter]

/-- A slot that is due is not refused. -/
theorem slotCheck_open {a : State} {slot : Nat} (hst : a.unit.st = .imageLoad) (hsize : a.n Pid.flashSize ≠ 0)
    (hboot : a.n Pid.bootSlot = 0xFF) (hopen : a.n (slotPid slot) = 0) :
    ¬(a.unit.st ≠ .imageLoad ∨ a.n Pid.flashSize = 0 ∨ a.n Pid.bootSlot ≠ 0xFF ∨ slot ≠ slot ∨ a.n (slotPid slot) ≠ 0) := by
  simp [hst, hsize, hboot, hopen]

/-- The slot that is due is checked, shown and judged (R77, R78). -/
theorem exec_slotCheck_due {slot : Nat} (hst : (s.advance t).unit.st = .imageLoad) (hsize : (s.advance t).n Pid.flashSize ≠ 0)
    (hboot : (s.advance t).n Pid.bootSlot = 0xFF)
    (hdue : slot = if (s.advance t).n (slotPid (s.advance t).preferred) = 0 then (s.advance t).preferred else 1 - (s.advance t).preferred)
    (hopen : (s.advance t).n (slotPid slot) = 0) :
    exec (.slotCheck t slot) s = .next (((s.advance t).showSlot slot ((s.advance t).checkSlot slot)).slotChoice slot) := by
  unfold exec execSlotCheck
  dsimp only
  rw [← hdue, if_neg (slotCheck_open hst hsize hboot hopen)]

/-- The content of a chosen slot that is not yet loaded is not refused before it is judged (R79). -/
theorem contentCheck_open {a : State} (hst : a.unit.st = .imageLoad) (hslot : a.n Pid.bootSlot < 2) (hload : a.img.loaded = false) :
    ¬(a.unit.st ≠ .imageLoad ∨ 2 ≤ a.n Pid.bootSlot ∨ a.img.loaded) := by
  simp [hst, hslot, hload]

/-- SELF-TEST with no finding, in a configured unit, whose rail search reaches 120 ns (R82, R190). -/
theorem exec_selfTestComplete_pass {r : SelfTest} {S : Int} (hst : (s.advance t).unit.st = .selfTest)
    (hS : (((s.advance t).setRail 780000).railSearch r.slacks).1 = some S) (hpass : 120000 ≤ S) (hitems : r.failed = [])
    (hfast : r.fastFailed = []) (hslow : r.slowFailed = []) (hisl : r.islandsFailed = [])
    (hcfg : (((s.advance t).setRail 780000).railSearch r.slacks).2.configOk = true)
    (hcfg' : (((((s.advance t).setRail 780000).railSearch r.slacks).2.setN Pid.selftestResult 0).testMarks r).configOk = true) :
    exec (.selfTestComplete t r) s = .next (((((((s.advance t).setRail 780000).railSearch r.slacks).2.setN Pid.selftestResult 0).testMarks
      r).adoptProfile.safDemands true).testEnd false) := by
  have hrail : ((((s.advance t).setRail 780000).railSearch r.slacks).1.any fun S => decide (120000 ≤ S)) = true := by
    rw [hS]; exact decide_eq_true hpass
  -- no bit of the result is set
  have hzero : (List.range 9).foldl (fun a k => a + 2 ^ k * b01 false) 0 = 0 := by decide
  unfold exec execSelfTestComplete
  dsimp only
  rw [if_neg (not_not.2 hst)]
  simp [hitems, hfast, hslow, hisl, hrail, hcfg, hcfg', hzero, State.onlyIf]

end

/-- Settles O34: each clause is the branch of its command that the hypotheses choose; NEXT_SLOT_WRITE is a row of Commissioner. -/
theorem completesImageStart : Obligations.CompletesImageStart := by
  unfold Obligations.CompletesImageStart
  refine ⟨?sfdpRead, ?slotCheck, ?contentCheck, ?selfTestComplete, ?nextSlotWrite⟩
  case sfdpRead =>
    rintro t _ s x _ rfl hst hsize hA hB rfl hx
    exact exec_sfdpRead_accepted hst hsize hA hB hx
  case slotCheck =>
    rintro t slot s _ rfl hst hsize hboot hdue hopen
    exact exec_slotCheck_due hst hsize hboot hdue hopen
  case contentCheck =>
    rintro t c s _ rfl hst hslot hload
    exact congrArg Host.Outcome.next (if_neg (contentCheck_open hst hslot hload))
  case selfTestComplete =>
    rintro t r s S _ rfl hst hS hpass hitems hfast hslow hisl hcfg hcfg'
    exact exec_selfTestComplete_pass hst hS hpass hitems hfast hslow hisl hcfg hcfg'
  case nextSlotWrite =>
    rintro t role v s _ rfl hst hv hvalid hrole halone hnote
    unfold exec execNextSlotWrite
    have hok : (!(s.advance t).unit.st.factory && (s.advance t).nextSlotOk v) = true := by
      rw [hst, State.nextSlotOk, decide_eq_true hv, decide_eq_true hvalid]; rfl
    dsimp only
    rw [roleRow_done hrole hok halone hnote, if_pos hok]
    rfl

end Sys2Proof.Machine
end

section
/-! A change of port state: that port takes it, and the other ports, their use and the safety state stay (R110). -/

namespace Sys2Proof.Machine

/-- A change to the present state changes nothing. -/
theorem setPort_present {s : State} {p : Nat} {st : PortState} (h : (s.port p).st = st) : s.setPort p st = s := if_pos h

section
variable {s : State} {p : Nat} (st : PortState) (hp : p < s.ports.length) (j : Nat)
include hp

/-- Writing the state of one port writes the state of that port only. -/
theorem modPort_st : ((s.modPort p fun q => { q with st := st }).port j).st = if j = p then st else (s.port j).st := by
  split
  next h => rw [h, State.modPort_port _ _ hp]
  next h => rw [State.modPort_port_other _ _ h]

/-- Writing the state of one port leaves which ports are used. -/
theorem modPort_st_used : ((s.modPort p fun q => { q with st := st }).port j).used = (s.port j).used := by
  by_cases h : j = p
  · rw [h, State.modPort_port _ _ hp]
  · rw [State.modPort_port_other _ _ h]

end

/-- Settles O16: a new state is written and what follows from it leaves the view; the present one changes nothing. -/
theorem portTransition : Obligations.PortTransition := by
  unfold Obligations.PortTransition
  intro s p j st hp
  by_cases h : (s.port p).st = st
  case pos =>
    rw [setPort_present h]
    refine ⟨?_, rfl, rfl⟩
    split
    next hj => rw [hj, h]
    next => rfl
  case neg =>
    have hview : Same (s.modPort p fun q => { q with st := st }) (s.setPort p st) := same_setPort h
    obtain ⟨hst, hused⟩ := view_port hview j
    exact ⟨hst.trans (modPort_st st hp j), hused.trans (modPort_st_used st hp j), (view_saf hview :)⟩

end Sys2Proof.Machine
end

section
/-! Requests to energise and to stop, and scheduled starts: where each completes (R111, R115, R116, R121). -/

namespace Sys2Proof.Machine

/-- An operation under a decidable condition is the choice between its answer and the state. -/
theorem State.onlyIf_decide (s : State) (c : Prop) [Decidable c] (f : State → State) :
    s.onlyIf (decide c) f = if c then f s else s := by
  unfold State.onlyIf
  exact if_congr decide_eq_true_iff rfl rfl

section
variable {s : State} {p : Nat}

/-- Stopping a port that is in operation and has no stop begun begins its stop (R121). -/
theorem doStop_begins (hst : (s.port p).st.atRest = false) (hstop : (s.port p).stopAt = none) :
    s.doStop p =
      (let b := s.modPort p fun q => { q with stopAt := some s.now, rampDown := decide (q.st = .energising) }
       if (s.port p).st = .armed ∨ (s.port p).st = .syncing then b.dropClose p else b) := by
  have hopen : ¬((s.port p).st.atRest ∨ (s.port p).stopAt.isSome) := by simp [hst, hstop]
  unfold State.doStop
  dsimp only
  rw [if_neg hopen, State.onlyIf_decide]

/-- The stop of a unit that is ready or in operation takes it to STOPPING (R85, R121). -/
theorem doStopUnit_stopping (cause : Nat)
    (h : (s.each s.usedPorts State.doStop).unit.st ∈ [.ready, .energise, .run, .limited, .rideThrough, .standby]) :
    s.doStopUnit cause = (s.each s.usedPorts State.doStop).gotoUnit .stopping cause := by
  unfold State.doStopUnit
  simp only [List.mem_cons, List.not_mem_nil, or_false] at h
  dsimp only
  rcases h with h | h | h | h | h | h <;> rw [h]

end

/-- Settles O35: a request is a row whose rule accepts it; each other clause is the branch that the hypotheses choose. -/
theorem completesPortRequests : Obligations.CompletesPortRequests := by
  unfold Obligations.CompletesPortRequests
  refine ⟨?energise, ?stopPort, ?stopUnit, ?coordinatedStart, ?scheduleCancel⟩
  case energise =>
    intro t req p v s a ha hused hcode hreq halone hnote
    have hok : ((a.port p).used && decide (a.energiseCode p v.toNat = 0)) = true := by simp [hused, hcode]
    unfold exec execEnergise
    dsimp only
    rw [← ha, reqRow_done hreq hok halone hnote, if_pos hused]
    unfold State.doEnergise
    dsimp only
    rw [if_neg (not_not.2 hcode), State.onlyIf_decide, State.onlyIf_decide]
  case stopPort =>
    intro t req p s a ha hused hst hstop hreq halone hnote
    unfold exec execStopPort
    dsimp only
    rw [← ha, reqRow_done hreq hused halone hnote, if_pos hused, doStop_begins hst hstop]
  case stopUnit =>
    intro t req s a ha hst hreq halone hnote
    unfold exec execStopUnit
    dsimp only
    rw [← ha, reqRow_done hreq rfl halone hnote, doStopUnit_stopping 0 hst]
  case coordinatedStart =>
    intro t p s n a ha harm hused hst hdue hdead hclose hstop
    unfold exec execCoordinatedStart
    dsimp only
    rw [← ha, harm]
    dsimp only
    rw [if_pos (by simp [hused, hst, hstop, hdue]), hdead, hclose]
    rfl
  case scheduleCancel =>
    intro t p s n a ha harm hused hst hnet hearly
    unfold exec execScheduleCancel
    dsimp only
    rw [← ha, harm]
    exact congrArg _ (if_pos (by simp [hused, hst, hnet, hearly]))

end Sys2Proof.Machine
end

section
/-! The timers and detections of a port that is armed, synchronising or stopping: where each completes (R112-R121). -/

namespace Sys2Proof.Machine

/-- Settles O36: each clause is the branch of its command that the hypotheses choose. -/
theorem completesPortTimers : Obligations.CompletesPortTimers := by
  unfold Obligations.CompletesPortTimers
  refine ⟨?armTimeout, ?busDeadDetected, ?busLiveDetected, ?backoffExpiry, ?syncDwellComplete, ?closeTimeoutArmed,
    ?closeTimeoutSyncing, ?syncTimeout, ?stopTimeout⟩
  case armTimeout =>
    intro t p s a ha hst harm hsense hstop hdue
    unfold exec execArmTimeout
    dsimp only
    rw [← ha, if_pos (by simp [hst, harm, hstop, hdue]), if_neg fun h => hsense h.1]
  case busDeadDetected =>
    intro t p s a ha hused hsense hheld
    unfold exec execBusDeadDetected
    dsimp only
    rw [← ha, if_pos (by simp [hused, hsense, hheld])]
  case busLiveDetected =>
    intro t p f ang s a ha hused hsense hheld
    unfold exec execBusLiveDetected
    dsimp only
    rw [← ha, if_pos (by simp [hused, hsense, hheld])]
    rfl
  case backoffExpiry =>
    intro t p s u a ha harm hused hst hdue hbus hstop
    unfold exec execBackoffExpiry
    dsimp only
    rw [← ha, harm]
    dsimp only
    rw [if_pos (by simp [hused, hst, hstop, hdue]), hbus]
  case syncDwellComplete =>
    intro t p s f a ha hdwell hused hst hperm hstop hwin hdue
    unfold exec execSyncDwellComplete
    dsimp only
    rw [← ha, hdwell]
    exact congrArg _ (if_pos (by simp [hused, hst, hperm, hstop, hwin, hdue]))
  case closeTimeoutArmed =>
    intro t p s c a ha hst harm hstop hdue hconfirm
    unfold exec execCloseTimeout
    dsimp only
    rw [← ha, hst, harm]
    exact congrArg _ (if_pos (by simp [hstop, hdue, hconfirm]))
  case closeTimeoutSyncing =>
    intro t p s c a ha hst hperm hstop hdue hconfirm
    unfold exec execCloseTimeout
    dsimp only
    rw [← ha, hst, hperm]
    exact congrArg _ (if_pos (by simp [hstop, hdue, hconfirm]))
  case syncTimeout =>
    intro t p s a ha hst hstop hconfirm hdue
    unfold exec execSyncTimeout
    dsimp only
    rw [← ha, if_pos (by simp [hst, hstop, hconfirm, hdue])]
  case stopTimeout =>
    intro t p s f a ha hstop hst hopen hdue
    unfold exec execStopTimeout
    dsimp only
    rw [← ha, hstop]
    exact congrArg _ (if_pos (by simp [hst, hopen, hdue]))

end Sys2Proof.Machine
end

section
/-! The outer step, the limit, its budget and the excursions: where each completes (R110, R126, R133, R138, R153). -/

namespace Sys2Proof.Machine

/-- Settles O37: each clause is the branch of its command that the hypotheses choose. -/
theorem completesOuterLaw : Obligations.CompletesOuterLaw := by
  unfold Obligations.CompletesOuterLaw
  refine ⟨?outerStep, ?excursionClose, ?limReleaseExpiry, ?hardBudgetExhausted, ?hardBudgetRefilled⟩
  case outerStep =>
    intro t p m s a ha hused hran hbounds
    unfold exec execOuterStep
    dsimp only
    rw [← ha, if_pos (by simp [hused, hran, hbounds])]
    rfl
  case excursionClose =>
    intro t p s f a ha hband hopen hdue
    unfold exec execExcursionClose
    dsimp only
    rw [← ha, hband]
    exact congrArg _ (if_pos (by simp [hopen, hdue]))
  case limReleaseExpiry =>
    intro t p s a ha hst hdue
    unfold exec execLimReleaseExpiry
    dsimp only
    rw [← ha, if_pos (by simp [hst, hdue])]
  case hardBudgetExhausted =>
    intro t p s a ha hused hnew htime hfull
    unfold exec execHardBudgetExhausted
    dsimp only
    rw [← ha, if_pos (by simp [hused, hnew, htime, hfull])]
  case hardBudgetRefilled =>
    intro t p s a ha hused hmark hzero
    unfold exec execHardBudgetRefilled
    dsimp only
    rw [← ha, if_pos (by simp [hused, hmark, hzero])]

end Sys2Proof.Machine
end

section
/-! The two lanes: Lane Y's encoding (R164), and what the comparator finds where no fault befalls them (R164-R166). -/

namespace Sys2Proof.Machine

/-- Settles O28: complement and offset are undone one by one. -/
theorem laneYEncoding : Obligations.LaneYEncoding :=
  ⟨fun _ _ _ => ⟨by simp [laneDec, laneEnc], by simp [laneDec, laneEnc]⟩, fun _ _ _ => rfl, by decide⟩

/-! ### A lane that no fault befalls -/

section
variable {x : LaneIn}

/-- A lane that no fault befalls holds a word as it is, encoded or not. -/
theorem LaneIn.word32_unhit (h : x.hits = []) (block word : Nat) (v : Int) : x.word32 block word v = v := by
  simp [LaneIn.word32, LaneIn.strikes, h]

/-- A lane that no fault befalls holds a state word as it is, encoded or not. -/
theorem LaneIn.word48_unhit (h : x.hits = []) (block word : Nat) (v : Int) : x.word48 block word v = v := by
  simp [LaneIn.word48, LaneIn.strikes, h]

/-- Only a fault makes the lanes execute a block differently: nothing else that a block reads names its lane. -/
theorem runBlock_unhit (h : x.hits = []) (s : State) (y : Bool) (r : LaneRun) (k : Nat) (b : GraphBlock) :
    s.runBlock { x with laneY := y } r k b = s.runBlock x r k b := by
  have hy : ({ x with laneY := y } : LaneIn).hits = [] := h
  simp only [State.runBlock, LaneIn.word32_unhit h, LaneIn.word48_unhit h, LaneIn.word32_unhit hy, LaneIn.word48_unhit hy]
  rfl

theorem runBlocks_unhit (h : x.hits = []) (s : State) (y : Bool) (bs : List GraphBlock) (r : LaneRun) (k : Nat) :
    s.runBlocks { x with laneY := y } r k bs = s.runBlocks x r k bs := by
  induction bs generalizing r k with
  | nil => rfl
  | cons b bs ih => simp only [State.runBlocks, runBlock_unhit h, ih]

/-- The two lanes execute a partition that no fault befalls alike. -/
theorem runLane_unhit (h : x.hits = []) (s : State) (y : Bool) : s.runLane { x with laneY := y } = s.runLane x :=
  runBlocks_unhit h s y _ _ 0

end

/-! ### The comparator -/

/-- Words do not differ from themselves. -/
theorem firstUnequal_self (l : List (Nat × Nat × Int)) : firstUnequal l l = none := by
  induction l with
  | nil => rfl
  | cons a l ih => rw [firstUnequal, if_pos rfl, ih]

section
variable {x : PartIn}

/-- The comparator finds no difference in a partition that no fault befalls (R165). -/
theorem unequal_unhit (h : x.hits = []) (s : State) : s.unequal x = none := by
  have hlanes : s.runLane (s.laneIn x true) = s.laneX x := runLane_unhit (x := s.laneIn x false) h s true
  rw [State.unequal, hlanes, firstUnequal_self]

/-- A partition that no fault befalls commits Lane X's words (R165). -/
theorem comparePart_unhit (h : x.hits = []) (s : State) (first : Bool) : s.comparePart first x = s.agree x := by
  rw [State.comparePart, unequal_unhit h]

end

/-- Where no fault befalls a partition the comparison fails nowhere, and commits each in order (R165). -/
theorem compareParts_unhit (xs : List PartIn) (s : State) (h : ∀ x ∈ xs, x.hits = []) :
    s.compareParts false xs = (false, xs.foldl State.agree s) := by
  induction xs generalizing s with
  | nil => rfl
  | cons x xs ih =>
    obtain ⟨hx, hxs⟩ := List.forall_mem_cons.1 h
    rw [State.compareParts, comparePart_unhit hx, unequal_unhit hx]
    exact ih _ hxs

/-- Settles O30: without a fault both lanes execute the same blocks on the same values; a difference therefore shows a fault. -/
theorem healthyLanesAgree : Obligations.HealthyLanesAgree :=
  ⟨fun s _ first h => ⟨unequal_unhit h s, comparePart_unhit h s first⟩, compareParts_unhit,
    fun s _ hdiff h => hdiff (unequal_unhit h s)⟩

end Sys2Proof.Machine
end

section
/-! Loss and recovery of feedback: where each completes (R173-R175). -/

namespace Sys2Proof.Machine

/-- Settles O38: each clause is the branch of its command that the hypotheses choose. -/
theorem completesFeedback : Obligations.CompletesFeedback := by
  unfold Obligations.CompletesFeedback
  refine ⟨?feedbackLost, ?openLoopLeft, ?lossCleared⟩
  case feedbackLost =>
    intro t p role elem s e a ha hfind hused hrest
    unfold exec execFeedbackLost
    dsimp only
    rw [← ha, hfind]
    exact congrArg _ (if_neg (by simp [hused, hrest]))
  case openLoopLeft =>
    intro t p role s c a ha hused hrest hopen hrole hlost hgood
    unfold exec execFeedbackRecover
    dsimp only
    rw [← ha, if_neg (by simp [hused, hrest]), hopen]
    exact congrArg _ (if_pos (by rw [hrole, hlost, hgood]; rfl))
  case lossCleared =>
    intro t p role s a ha hused hrest hclosed hrole
    unfold exec execFeedbackRecover
    dsimp only
    rw [← ha, if_neg (by simp [hused, hrest]), hclosed]
    exact congrArg _ (if_pos (by simpa using hrole))

end Sys2Proof.Machine
end

section
/-! Test-signal injections: where each command completes (R179, R180). -/

namespace Sys2Proof.Machine

section
variable {s : State}

/-- A start whose conditions hold begins the injection (R179). -/
theorem doInjStart_begins (hidle : s.n Pid.injState ≠ 1) (hcode : s.injCode = 0) (hcap : s.injCapBusy = false) :
    s.doInjStart = s.injBegin := by
  simp [State.doInjStart, hidle, hcode, hcap]

/-- The abort of a running injection shows state 3 with its code, and 0x1E03 (R179). -/
theorem injAbort_running (hrun : s.n Pid.injState = 1) (code : Nat) :
    s.injAbort code = ((s.setN Pid.injState 3).setN Pid.injAbort code).raise 0x1E03 s.inj.port code :=
  if_pos hrun

end

/-- Settles O39: a request is a row whose rule accepts it; each other clause is the branch that the hypotheses choose. -/
theorem completesInjections : Obligations.CompletesInjections := by
  unfold Obligations.CompletesInjections
  refine ⟨?injStart, ?injStop, ?frPointComplete, ?injectionComplete⟩
  case injStart =>
    intro t role s a ha hidle hcode hcap hrole halone hnote
    have hok : a.injCmdOk 1 = true := by simp [State.injCmdOk, hidle, hcode, hcap]
    have hdo : a.doInjCmd 1 = a.injBegin := doInjStart_begins hidle hcode hcap
    unfold exec execInjStart
    dsimp only
    rw [← ha, roleRow_done hrole hok halone hnote, hdo]
  case injStop =>
    intro t role s a ha hrun hrole halone hnote
    have hok : a.injCmdOk 2 = true := by simp [State.injCmdOk, hrun]
    have hdo : a.doInjCmd 2 = a.injAbort 1 := rfl
    unfold exec execInjStop
    dsimp only
    rw [← ha, roleRow_done hrole hok halone hnote, hdo, injAbort_running hrun]
  case frPointComplete =>
    intro t freq gain phase magA s a ha htable hover hended
    unfold exec execFrPointComplete
    dsimp only
    rw [← ha]
    exact congrArg _ (if_pos (by simp [htable, hover, hended]))
  case injectionComplete =>
    intro t s a ha hrun hdone
    unfold exec execInjectionComplete
    dsimp only
    rw [← ha, if_pos ⟨hrun, hdone⟩]

end Sys2Proof.Machine
end

section
/-! The two lanes and the period: where each command completes (R154, R155, R165, R168, R184, R230). -/

namespace Sys2Proof.Machine

section
variable {s : State}

/-- Nothing is compared where the engine does not run, the period is judged or a lane is late (R165, R168). -/
theorem noCompare_of (h : s.n Pid.engineState ≠ 1 ∨ s.eng.judged = true ∨ lateLane s.eng.doneX = true ∨ lateLane s.eng.doneY = true) :
    s.noCompare = true := by
  simp only [State.noCompare, Bool.or_eq_true, decide_eq_true_eq]
  tauto

/-- A running engine compares a period that is not judged and whose lanes are both in time (R165). -/
theorem noCompare_open (hrun : s.n Pid.engineState = 1) (hopen : s.eng.judged = false) (hx : lateLane s.eng.doneX = false)
    (hy : lateLane s.eng.doneY = false) : s.noCompare = false := by
  simp [State.noCompare, hrun, hopen, hx, hy]

/-- A completion is captured up to the update point, once for each lane, while the engine measures (R154, R184). -/
theorem exec_laneCompletion_open {t : Nat} {laneY : Bool} {hs : Unit} (hon : (s.advance t).engineOn = true)
    (hcount : (s.advance t).eng.count ≠ 0)
    (hfirst : (if laneY then (s.advance t).eng.doneY else (s.advance t).eng.doneX) = none)
    (hin : (s.advance t).now < (s.advance t).periodEnd) :
    exec (.laneCompletion t laneY hs) s = .next (
      let a := s.advance t
      let S := a.slackNow
      let b := { a with eng := if laneY then { a.eng with doneY := some S } else { a.eng with doneX := some S } }.setZ
        (if laneY then Pid.slackYLast else Pid.slackXLast) S
      b.onlyIf b.eng.read fun b => b.each b.usedPorts State.takeSmp) :=
  congrArg _ (if_neg (by rw [hfirst]; simp [hon, hcount, hin]))

end

/-- Settles O40: each clause is the branch of its command that the hypotheses choose. -/
theorem completesEnginePeriod : Obligations.CompletesEnginePeriod := by
  unfold Obligations.CompletesEnginePeriod
  refine ⟨?laneY, ?laneX, ?computeDeadline, ?compared, ?notCompared, ?periodTick⟩
  case laneY =>
    rintro t _ hs s _ rfl hon hcount rfl hfirst hin
    exact exec_laneCompletion_open hon hcount hfirst hin
  case laneX =>
    rintro t _ hs s _ rfl hon hcount rfl hfirst hin
    exact exec_laneCompletion_open hon hcount hfirst hin
  case computeDeadline =>
    intro t s a ha hrun hopen hcount hdue hlate
    unfold exec execComputeDeadline
    dsimp only
    rw [← ha]
    exact congrArg _ (if_neg (by rcases hlate with hlate | hlate <;> simp [hrun, hopen, hcount, hdue, hlate, b01]))
  case compared =>
    intro t parts s a ha hrun hopen hcount hdue hx hy
    have hearly : ¬(a.eng.count = 0 ∨ a.now < a.compareAt) := by simp [hcount, hdue]
    unfold exec execCompareWindowEnd
    dsimp only
    rw [← ha, if_neg hearly, noCompare_open hrun hopen hx hy]
    rfl
  case notCompared =>
    intro t parts s a ha hcount hdue hshut
    have hearly : ¬(a.eng.count = 0 ∨ a.now < a.compareAt) := by simp [hcount, hdue]
    unfold exec execCompareWindowEnd
    dsimp only
    rw [← ha, if_neg hearly, if_pos (noCompare_of hshut)]
  case periodTick =>
    intro t markBack frameSent lost s a ha himg hlock hdue
    unfold exec execPeriodTick
    dsimp only
    rw [← ha]
    exact congrArg _ (if_neg (by simp [himg, hlock, hdue]))

end Sys2Proof.Machine
end

section
/-! Rail, slack, ladder and ageing: where each command completes (R187-R202). -/

namespace Sys2Proof.Machine

/-- The rail window that begins at an instant, with nothing measured yet (R188). -/
def State.windowFrom (s : State) (at_ : Nat) : State :=
  { s with prf := { s.prf with winAt := at_, winMin := none, winEmergency := false } }

section
variable {s : State}

/-- A window that misses the target by more than 20 ns ends the run of good windows and raises the rail by 2.5 mV (R188). -/
theorem windowJudge_low {m : Int} (hlow : m < s.z Pid.slackTarget - 20000) (hroom : s.n Pid.railNow < s.n Pid.railMax) (at_ : Nat) :
    (s.windowFrom at_).windowJudge m false =
      (let b := { s with prf := { s.prf with winAt := at_, winMin := none, winEmergency := false, goodWins := 0 } }
       (b.setRail (min (b.n Pid.railMax) (b.n Pid.railNow + 2500))).bump Pid.railStepCount) := by
  have hgood : ¬ (s.windowFrom at_).z Pid.slackTarget + 20000 < m := by
    change ¬ s.z Pid.slackTarget + 20000 < m
    omega
  unfold State.windowJudge
  dsimp only
  rw [if_neg hgood]
  exact (if_neg Bool.false_ne_true).trans ((if_pos hlow).trans (if_pos hroom))

/-- The thousandth good window in a row lowers the rail by 2.5 mV, and a new run begins (R188). -/
theorem windowJudge_lowers {m : Int} (hgood : s.z Pid.slackTarget + 20000 < m) (hrun : 999 ≤ s.prf.goodWins) (at_ : Nat) :
    (s.windowFrom at_).windowJudge m false =
      ({ s with prf := { s.prf with winAt := at_, winMin := none, winEmergency := false, goodWins := 0 } }).setRail
        (max 720000 (s.n Pid.railNow - 2500)) := by
  have hlow : ¬ m < s.z Pid.slackTarget - 20000 := by omega
  have hfull : 1000 ≤ s.prf.goodWins + 1 := by omega
  have hcount : (if (s.windowFrom at_).z Pid.slackTarget + 20000 < m then (s.windowFrom at_).prf.goodWins + 1 else 0) =
      s.prf.goodWins + 1 := if_pos hgood
  unfold State.windowJudge
  dsimp only
  rw [hcount]
  exact (if_neg Bool.false_ne_true).trans ((if_neg hlow).trans (if_pos hfull))

/-- A 1 ms window without an emergency raise that ends outside SELF-TEST is judged by its minimum (R188, R190). -/
theorem exec_railWindowEnd_judged {t : Nat} {m : Int} (hdue : (s.advance t).prf.winAt + psMs ≤ (s.advance t).now)
    (hst : (s.advance t).unit.st ≠ .selfTest) (hmin : (s.advance t).prf.winMin = some m)
    (hcalm : (s.advance t).prf.winEmergency = false) :
    exec (.railWindowEnd t) s = .next (
      let a := s.advance t
      (a.windowFrom (a.prf.winAt + (a.now - a.prf.winAt) / psMs * psMs)).windowJudge m false) := by
  unfold exec execRailWindowEnd
  dsimp only
  rw [if_neg (not_lt.2 hdue), hmin, hcalm]
  exact congrArg _ (if_neg hst)

/-- A rung that does not wait yet is made pending for the next outer boundary, in a pair for the second one (R191, R334). -/
theorem pendRung_new {r : Rung} (h : (s.prf.pendRungs.any fun e => sameRung e.1 r) = false) :
    s.pendRung r = { s with prf := { s.prf with pendRungs := s.prf.pendRungs ++
      [(r, if s.n Pid.pairState = 1 ∨ s.n Pid.pairState = 2 then 2 else 1)] } } :=
  if_neg (by simp [h])

end

/-- Settles O51: a request is a row whose rule accepts it; each other clause is the branch that the hypotheses choose. -/
theorem completesProofer : Obligations.CompletesProofer := by
  unfold Obligations.CompletesProofer
  refine ⟨?railRaised, ?railLowered, ?railReadbackFault, ?prooferSecond, ?ladderChange, ?ladderCmdRung, ?ladderRestore,
    ?datedWarningRepeat, ?prooferHour, ?vceMeasurement, ?vceRebase⟩
  case railRaised =>
    rintro t s m _ rfl hdue hst hmin hlow hcalm hroom
    rw [exec_railWindowEnd_judged hdue hst hmin hcalm]
    exact congrArg _ (windowJudge_low hlow hroom _)
  case railLowered =>
    rintro t s m _ rfl hdue hst hmin hgood hcalm hrun
    rw [exec_railWindowEnd_judged hdue hst hmin hcalm]
    exact congrArg _ (windowJudge_lowers hgood hrun _)
  case railReadbackFault =>
    intro t uV s a ha hoff
    unfold exec execRailReadbackFault
    dsimp only
    rw [← ha, if_pos hoff]
  case prooferSecond =>
    intro t s a ha hnew
    unfold exec execProoferSecond
    dsimp only
    rw [← ha]
    exact congrArg _ (if_neg hnew)
  case ladderChange =>
    intro t s a ha hbound
    unfold exec execLadderChange
    dsimp only
    rw [← ha]
    exact congrArg _ (if_neg (not_not.2 hbound))
  case ladderCmdRung =>
    intro t role v s a ha hrole hok hnote hnew halone
    unfold exec execLadderCmdRung State.doLadderCmd
    dsimp only
    rw [← ha, cmdRow_done hrole hok halone hnote, pendRung_new hnew]
  case ladderRestore =>
    intro t role s a ha hrest hrole hnote hnew halone
    have hok : a.restoreOk = true := hrest
    unfold exec execLadderRestore State.doRestore
    dsimp only
    rw [← ha, cmdRow_done hrole hok halone hnote, pendRung_new hnew]
  case datedWarningRepeat =>
    intro t s n a ha hdated hdue
    unfold exec execDatedWarningRepeat
    dsimp only
    rw [← ha, hdated]
    exact congrArg _ (if_pos hdue)
  case prooferHour =>
    intro t s a ha hon hdue
    unfold exec execProoferHour
    dsimp only
    rw [← ha]
    exact congrArg _ (if_neg (by simp [hon, hdue]))
  case vceMeasurement =>
    intro t sw raw i s T a ha htemp hused hon hnever hsound hlo hhi
    unfold exec execVceMeasurement
    dsimp only
    rw [← ha, htemp]
    dsimp only
    rw [hnever, if_pos (by simp [hused, hon, hsound, hlo, hhi])]
    simp
  case vceRebase =>
    intro t role p v s a ha hrole hok halone hnote
    unfold exec execVceRebase
    dsimp only
    rw [← ha, cmdRow_done hrole hok halone hnote]

end Sys2Proof.Machine
end

section
/-! The slack histogram and rung 1 of the rail (R187, R188, R192, R203). -/

namespace Sys2Proof.Machine

/-! ### The bins of the histogram -/

/-- A slack above 0 counts in the bin of its 20 ns, each bin with its upper edge, and in bin 15 at most (R187). -/
theorem slackBin_of_pos {S : Int} (h : 0 < S) : slackBin S = min 15 ((S + 19999) / 20000).toNat :=
  if_neg (not_le.2 h)

/-- Settles O29: bin 0 is the branch at or below 0, and above 0 the quotient lies in the bounds of its bin. -/
theorem slackBins : Obligations.SlackBins := by
  unfold Obligations.SlackBins
  refine fun S => ⟨fun h => if_pos h, fun b hb hb' hlo hhi => ?_, fun h => ?_⟩
  · rw [slackBin_of_pos (by omega)]
    omega
  · rw [slackBin_of_pos (by omega)]
    omega

/-! ### A rung entry of the health report (R203) -/

/-- A rung entry changes no word. -/
theorem rungEntry_n (s : State) (rung detail j : Nat) : (s.rungEntry rung detail).n j = s.n j := by
  unfold State.n State.w
  rfl

/-- The last rung entry names its rung at offset 8. -/
theorem rungEntry_last (s : State) {rung : Nat} (h : rung < 2 ^ 8) (detail : Nat) :
    ∃ e, (s.rungEntry rung detail).fram.rungs.getLast? = some e ∧ leAt e 8 1 = rung := by
  unfold State.rungEntry
  rw [List.getLast?_drop, if_neg (by simp only [List.length_append, List.length_singleton]; omega), List.getLast?_concat]
  exact ⟨_, rfl, by simpa [leAt, leBytes, leNat] using h⟩

/-! ### Setting the rail -/

/-- The rail set and the forecast that its setting ends, before any record of a new high (R188, R198). -/
def State.railShown (s : State) (uV : Nat) : State :=
  let a := { s with prf := { s.prf with secAllMax := s.prf.secAllMax && decide (s.n Pid.railMax ≤ uV) } }.setN Pid.railNow uV
  a.setN (if a.n Pid.railMax ≤ uV then Pid.fcRailHours else Pid.fcFloorHours) 0xFFFFFFFF

/-- The record of rung 1 at a multiple of 10 mV (R192). -/
def State.rungOne (s : State) (m : Nat) : State := ((s.setN Pid.railHighWater m).raise 0x0D01 0 m).rungEntry 1 0

section
variable {s : State} {uV j : Nat}

/-- Setting the rail touches the rail's word and the forecasts alone. -/
theorem railShown_n_other (hnow : j ≠ Pid.railNow) (hmax : j ≠ Pid.fcRailHours) (hfloor : j ≠ Pid.fcFloorHours) :
    (s.railShown uV).n j = s.n j := by
  unfold State.railShown
  dsimp only
  rw [State.setN_other _ _ (by split <;> assumption), State.setN_other _ _ hnow]
  rfl

/-- The rail set is shown in `rail_now`. -/
theorem railShown_railNow : (s.railShown uV).n Pid.railNow = min uV 0xFFFFFFFF := by
  unfold State.railShown
  dsimp only
  rw [State.setN_other _ _ (by split <;> decide), State.setN_same]

/-- The high water is the one before the rail was set. -/
theorem railShown_railHighWater : (s.railShown uV).n Pid.railHighWater = s.n Pid.railHighWater :=
  railShown_n_other (by decide) (by decide) (by decide)

/-- Below a new lifetime high at a multiple of 10 mV, setting the rail records nothing. -/
theorem setRail_below (h : uV / 10000 * 10000 ≤ s.n Pid.railHighWater) : s.setRail uV = s.railShown uV :=
  if_neg (not_lt.2 (h.trans_eq railShown_railHighWater.symm))

/-- A new lifetime high at a multiple of 10 mV, also one that the raise passes without stopping on it, is recorded (R192; log 33). -/
theorem setRail_high (h : s.n Pid.railHighWater < uV / 10000 * 10000) :
    s.setRail uV = (s.railShown uV).rungOne (uV / 10000 * 10000) :=
  if_pos (railShown_railHighWater.trans_lt h)

/-- The record of rung 1 touches the high water and the words of Q-EVT alone. -/
theorem rungOne_n_other {m : Nat} (h : j ≠ Pid.railHighWater) (hq : j ≠ Pid.qHighWater 12) (hl : j ≠ Pid.qLoss 12) :
    (s.rungOne m).n j = s.n j := by
  unfold State.rungOne
  rw [rungEntry_n, State.raise_n _ _ _ _ _ hq hl, State.setN_other _ _ h]

/-- The record of rung 1 keeps the new high. -/
theorem rungOne_railHighWater {m : Nat} (h : m < 2 ^ 32) : (s.rungOne m).n Pid.railHighWater = m := by
  unfold State.rungOne
  rw [rungEntry_n, State.raise_n _ _ _ _ _ (by decide) (by decide), State.setN_same]
  omega

end

/-- Settles O26: the multiple of 10 mV at or below the rail is a new high and is recorded, or it is not and nothing is. -/
theorem rungOneRecord : Obligations.RungOneRecord := by
  unfold Obligations.RungOneRecord
  intro s uV
  refine ⟨?shown, fun hnew hfits => ?recorded, fun hold => ?quiet⟩
  case shown =>
    obtain hold | hnew := le_or_gt (uV / 10000 * 10000) (s.n Pid.railHighWater)
    · rw [setRail_below hold, railShown_railNow]
    · rw [setRail_high hnew, rungOne_n_other (by decide) (by decide) (by decide), railShown_railNow]
  case recorded =>
    rw [setRail_high hnew]
    exact ⟨rungOne_railHighWater hfits, ⟨_, rfl⟩, rungEntry_last _ (by decide) 0⟩
  case quiet =>
    rw [setRail_below hold]
    exact ⟨railShown_railHighWater, rfl, rfl⟩

end Sys2Proof.Machine
end

section
/-! The rebase of a port's ageing baselines: every switch of its legs reads 0, or only the entry of the refusal is left
(R202, R324, R403, R409; log 33). -/

namespace Sys2Proof.Machine

/-! ### One switch -/

/-- The sums behind a baseline, cleared. -/
def VceSt.rebased (x : VceSt) : VceSt := { x with baseHours := 0, baseSum := 0, baseN := 0 }

/-- What the rebase does to one switch. -/
def State.rebaseSwitch (s : State) (sw : Nat) : State :=
  (({ s with prf := { s.prf with sw := s.prf.sw.modify sw VceSt.rebased } } : State).setN (Pid.vceBaseline sw) 0).setN (Pid.vceShare sw) 0

/-- A switch whose baseline and share read 0, and whose sums are cleared. -/
def State.Rebased (s : State) (sw : Nat) : Prop :=
  s.n (Pid.vceBaseline sw) = 0 ∧ s.n (Pid.vceShare sw) = 0 ∧
    ∀ x, s.prf.sw[sw]? = some x → x.baseHours = 0 ∧ x.baseSum = 0 ∧ x.baseN = 0

/-- The islands of a port's legs. -/
def State.portSwitches (s : State) (p : Nat) : List Nat := (s.port p).legs.flatMap fun l => [islHigh l, islLow l]

/-- The rebase of a port is that of its switches, and then its own words. -/
theorem doRebase_eq (s : State) (p : Nat) :
    s.doRebase p = ((s.each (s.portSwitches p) State.rebaseSwitch).setN (Pid.vceWorst p) 0).setZ (Pid.derate p) one27 := rfl

/-- The rebase of a switch writes 0 to its baseline and its share, and leaves every other word. -/
theorem rebaseSwitch_n (s : State) (i j : Nat) :
    (s.rebaseSwitch i).n j = if j = Pid.vceShare i ∨ j = Pid.vceBaseline i then 0 else s.n j := by
  unfold State.rebaseSwitch
  rw [State.setN_n, State.setN_n]
  by_cases hs : j = Pid.vceShare i
  · simp [hs]
  · by_cases hb : j = Pid.vceBaseline i
    · simp [hb]
    · simp only [hs, hb, or_false, if_false]
      rfl

/-- A switch is rebased after its own rebase, and stays so after that of any other. -/
theorem rebaseSwitch_rebased {s : State} {i j : Nat} (h : s.Rebased j ∨ j = i) : (s.rebaseSwitch i).Rebased j := by
  have hword : ∀ k, (j = i → k = Pid.vceShare i ∨ k = Pid.vceBaseline i) → (s.Rebased j → s.n k = 0) →
      (s.rebaseSwitch i).n k = 0 := by
    intro k hown hkept
    rw [rebaseSwitch_n]
    split
    next => rfl
    next hk => exact hkept (h.resolve_right fun e => hk (hown e))
  refine ⟨hword _ (fun e => .inr (by rw [e])) fun hb => hb.1, hword _ (fun e => .inl (by rw [e])) fun hb => hb.2.1,
    fun x hx => ?_⟩
  have hmod : (s.prf.sw.modify i VceSt.rebased)[j]? = some x := hx
  rw [List.getElem?_modify] at hmod
  split at hmod
  next =>
    obtain ⟨y, -, rfl⟩ := Option.map_eq_some_iff.1 hmod
    exact ⟨rfl, rfl, rfl⟩
  next hij =>
    obtain ⟨-, -, hsums⟩ := h.resolve_right (Ne.symm hij)
    exact hsums x (by simpa using hmod)

/-- Every switch of a list is rebased after the rebase of each. -/
theorem each_rebaseSwitch_rebased {l : List Nat} {s : State} {j : Nat} (h : s.Rebased j ∨ j ∈ l) :
    (s.each l State.rebaseSwitch).Rebased j := by
  induction l generalizing s with
  | nil => exact h.resolve_right List.not_mem_nil
  | cons i l ih =>
    refine ih (s := s.rebaseSwitch i) ?_
    rw [List.mem_cons, ← or_assoc] at h
    exact h.imp_left rebaseSwitch_rebased

/-- Whether a switch is rebased is seen from its two words and the Proofer. -/
theorem State.Rebased.of_eq {s u : State} {sw : Nat} (h : s.Rebased sw) (hprf : u.prf = s.prf)
    (hbase : u.w (Pid.vceBaseline sw) = s.w (Pid.vceBaseline sw)) (hshare : u.w (Pid.vceShare sw) = s.w (Pid.vceShare sw)) :
    u.Rebased sw := by
  unfold State.Rebased State.n at h ⊢
  rwa [hprf, hbase, hshare]

/-! ### One port -/

/-- The rebase of a port sets `derate` to 1.0. -/
theorem doRebase_derate (s : State) (p : Nat) : (s.doRebase p).w (Pid.derate p) = wordOfInt one27 :=
  State.setW_same _ _ _

/-- The rebase of a port rebases every switch of its legs; the words of the port are none of a switch. -/
theorem doRebase_rebased {s : State} {p sw : Nat} (hp : p < 4) (h : sw ∈ s.portSwitches p) : (s.doRebase p).Rebased sw := by
  have hne : ∀ k, k = Pid.vceBaseline sw ∨ k = Pid.vceShare sw → k ≠ Pid.derate p ∧ k ≠ Pid.vceWorst p := by
    simp only [Pid.vceBaseline, Pid.vceShare, Pid.derate, Pid.vceWorst]
    omega
  have hkept : ∀ k, k = Pid.vceBaseline sw ∨ k = Pid.vceShare sw →
      (s.doRebase p).w k = (s.each (s.portSwitches p) State.rebaseSwitch).w k := by
    intro k hk
    obtain ⟨hderate, hworst⟩ := hne k hk
    rw [doRebase_eq, State.setZ_w, if_neg hderate, State.setN_w, if_neg hworst]
  exact (each_rebaseSwitch_rebased (.inr h)).of_eq rfl (hkept _ (.inl rfl)) (hkept _ (.inr rfl))

/-- Noting a request leaves a switch rebased: Q-LOG and its high-water mark are no part of it. -/
theorem noted_rebased {s next : State} {role : Role} {kind id status sw : Nat} {old v : Word} (h : next.Rebased sw) :
    (s.noted role kind id old v status next).Rebased sw := by
  obtain ⟨hprf, hw⟩ := noted_parts (s := s) (next := next) (role := role) (kind := kind) (id := id) (old := old) (v := v) status
  refine h.of_eq hprf (hw _ ?_) (hw _ ?_)
  all_goals
    simp only [Pid.vceBaseline, Pid.vceShare, Pid.qHighWater]
    omega

/-! ### The request -/

/-- The rule of the rebase: a used port at rest and the value 0x01. -/
theorem rebaseOk_iff {s : State} {p : Nat} {v : Word} :
    s.rebaseOk p v = true ↔ (s.port p).used = true ∧ v = 1 ∧ ((s.port p).st = .idle ∨ (s.port p).st = .portStop) := by
  have hrest : (s.port p).st.atRest = true ↔ (s.port p).st = .idle ∨ (s.port p).st = .portStop := by
    cases (s.port p).st <;> simp [PortState.atRest]
  have hv : v.toNat = 1 ↔ v = 1 := ⟨fun h => BitVec.eq_of_toNat_eq h, fun h => by rw [h]; rfl⟩
  simp [State.rebaseOk, hrest, hv, and_assoc]

/-- A command of a role that does not pass, or that its rule does not accept, comes to the log entry of its refusal. -/
theorem cmdRow_refused {s done : State} {role named : Role} {id : Nat} {v : Word} {ok : Bool}
    (h : s.roleOk role named = false ∨ ok = false) :
    s.cmdRow role named id v ok done = s.audited role 2 id 0 v (s.rowStatus id role named ok) s := by
  obtain hrole | rfl := h
  · exact roleRow_refused hrole
  · simp [State.cmdRow, State.roleRow]

/-- A rebase that nothing refuses and no partner carries out is done and noted. -/
theorem exec_vceRebase_done {t p : Nat} {role : Role} {v : Word} {s : State}
    (hrole : (s.advance t).roleOk role .commissioner = true) (hok : (s.advance t).rebaseOk p v = true)
    (halone : (s.advance t).n Pid.pairState ≠ 1 ∨ (s.advance t).forwards (Pid.vceRebase p) = false)
    (hnote : (s.advance t).canNote role 2 (Pid.vceRebase p) 0 v = true) :
    exec (.vceRebase t role p v) s = .next ((s.advance t).noted role 2 (Pid.vceRebase p) 0 v 0 ((s.advance t).doRebase p)) :=
  congrArg Host.Outcome.next (cmdRow_done hrole hok halone hnote)

/-- Settles O27: a request that its rule accepts rebases every switch and notes it, and any other is the row of a refusal. -/
theorem vceRebase : Obligations.VceRebase := by
  unfold Obligations.VceRebase
  constructor
  case left =>
    rintro t p role v s _ rfl hrole hst hp hused hv hrest halone hnote
    have hpass : (s.advance t).roleOk role .commissioner = true := by simp [State.roleOk, hrole, hst]
    refine ⟨_, exec_vceRebase_done hpass (rebaseOk_iff.2 ⟨hused, hv, hrest⟩) halone hnote, ?derate, fun l hl sw hsw => ?switch⟩
    case derate =>
      unfold State.z
      rw [(noted_parts 0).2 _ (by simp only [Pid.derate, Pid.qHighWater]; omega), doRebase_derate]
      decide
    case switch => exact noted_rebased (doRebase_rebased hp (List.mem_flatMap.2 ⟨l, hl, hsw⟩))
  case right =>
    rintro t p role v s _ rfl hwhy
    refine congrArg Host.Outcome.next (cmdRow_refused ?_)
    rw [roleOk_eq_false, State.advance_unit, ← Bool.not_eq_true (State.rebaseOk _ _ _), rebaseOk_iff]
    obtain hmeets | hstandby | hunused | hv | ⟨hidle, hstop⟩ := hwhy
    · exact .inl (.inl hmeets)
    · exact .inl (.inr hstandby)
    · exact .inr fun ⟨hused, _, _⟩ => Bool.noConfusion (hunused.symm.trans hused)
    · exact .inr fun ⟨_, hone, _⟩ => hv hone
    · exact .inr fun ⟨_, _, hrest⟩ => hrest.elim hidle hstop

end Sys2Proof.Machine
end

section
/-! Fast samples and slow conversions: where each command completes (R207-R209, R220-R225). -/

namespace Sys2Proof.Machine

/-- An operation under a condition that must not hold is the choice between the state and its answer. -/
theorem State.onlyIf_not (s : State) (c : Bool) (f : State → State) : s.onlyIf (!c) f = if c then s else f s := by
  cases c <;> rfl

/-- Settles O41: each clause is the branch of its command that the hypotheses choose. -/
theorem completesConversion : Obligations.CompletesConversion := by
  unfold Obligations.CompletesConversion
  refine ⟨?fastConversion, ?sampleEntry, ?slowScanStart, ?slowConversionDone, ?slowOverRange, ?slowResultStale⟩
  case fastConversion =>
    intro t g i raws s a ha hsamp hown hlater hin hdue
    unfold exec execFastConversion
    dsimp only
    rw [← ha]
    exact congrArg _ (if_neg (by simp [hsamp, hown, hlater, hin, hdue]))
  case sampleEntry =>
    intro t p samples frozen s a ha hsamp hused hdue
    unfold exec execSampleEntry
    dsimp only
    rw [← ha, if_neg (by simp [hsamp, hused, hdue]), State.onlyIf_not]
  case slowScanStart =>
    intro t m s c cs a ha hchans hm himg hlock hidle hfirst
    unfold exec execSlowScanStart
    dsimp only
    rw [← ha, hchans, hfirst]
    exact congrArg _ (if_pos (by simp [himg, Option.isSome_iff_ne_none.2 hlock, hidle, hm]))
  case slowConversionDone =>
    intro t ch code s a ha hchan hdue hhi hlo
    unfold exec execSlowConversionDone
    dsimp only
    rw [← ha, if_pos (by simp [hchan, hdue]), if_neg (not_lt.2 hhi), if_neg (not_lt.2 hlo)]
  case slowOverRange =>
    intro t ch high s a ha hchan hdue
    unfold exec execSlowOverRange
    dsimp only
    rw [← ha, if_pos (by simp [hchan, hdue])]
  case slowResultStale =>
    intro t ch s n a ha hat hnew hused hold
    unfold exec execSlowResultStale
    dsimp only
    rw [← ha, hat]
    exact congrArg _ (if_pos (by rw [hnew]; simp [hused, hold]))

end Sys2Proof.Machine
end

section
/-! Window comparators and their clear: where each completes (R214, R227). -/

namespace Sys2Proof.Machine

/-- Settles O42: each clause is the branch of its command that the hypotheses choose; FA_CLEAR is a row of Service. -/
theorem completesFastInputs : Obligations.CompletesFastInputs := by
  unfold Obligations.CompletesFastInputs
  refine ⟨?windowComparatorFire, ?windowComparatorRelease, ?faClear⟩
  case windowComparatorFire =>
    intro t ch upper s p a ha hown hreleased
    unfold exec execWindowComparatorFire
    dsimp only
    rw [← ha, hown]
    exact congrArg _ (if_neg (Bool.eq_false_iff.1 hreleased))
  case windowComparatorRelease =>
    intro t ch s p a ha hown
    unfold exec execWindowComparatorRelease
    dsimp only
    rw [← ha, hown]
  case faClear =>
    intro t role ch v s a ha hrole hok halone hnote
    unfold exec execFaClear State.doFaClear
    dsimp only
    rw [← ha, cmdRow_done hrole hok halone hnote]

end Sys2Proof.Machine
end

section
/-! Carriers, edges, extra compares and the held state: where each command completes (R231, R236-R239, R243, R244, R247). -/

namespace Sys2Proof.Machine

section
variable {t l k p : Nat} {s a : State}

/-- A boundary with no re-alignment pending on the reference leg comes in its time (R231, R248). -/
theorem boundaryDue_at (h : l ≠ (s.port p).refLeg ∨ (s.port p).realign = false) (b : Nat) :
    s.boundaryDue p l b = s.boundaryAt p l b :=
  if_pos (h.imp_right fun h => by rw [h]; rfl)

/-- A due edge that no kept one precedes is issued at its tick, or kept, counted and told of where it is not free (R236-R239). -/
theorem exec_legEdge_due {y : Bool} (ha : a = s.advance t) (hown : a.portOfLeg l = some p) (hmod : a.n (Pid.modState p) ≠ 0)
    (hset : a.hasSet p l = true) (hnone : (a.leg l).delayed = none) (hdue : a.edgeDue p l = some y) :
    exec (.legEdge t l) s = .next (
      let tick := ((a.leg l).ticks a.now).2
      let free := a.edgeFree p l
      if tick < free then
        ((a.modLeg l fun x => { x with delayed := some (y, x.bounds) }).bump (Pid.minPulseCount l)).raise 0x1504 l (free - tick)
      else a.issueEdge p l tick y true) := by
  unfold exec execLegEdge
  dsimp only
  rw [← ha, hown]
  dsimp only
  rw [if_neg (by simp [hmod, hset]), hnone, hdue]

/-- A main word that is due and has not fired within 10 ns is recorded and does what its kind says: it drives its line, inverts its
output, or marks the sampling instant of the port (R247). -/
theorem exec_extraCompareFire_main {i : Nat} (ha : a = s.advance t) (hown : a.portOfLeg l = some p)
    (hdue : a.xDue p l k false = some i) (hmod : a.n (Pid.modState p) ≠ 0)
    (hfree : ((a.leg l).fires.any fun f => f.1 / 2 = k && within10ns f.2 i) = false) :
    exec (.extraCompareFire t l k false) s = .next (
      let w := (a.leg l).xcNow.getD k 0
      let b := a.modLeg l fun x => { x with fires := (2 * k, i) :: x.fires.filter fun f => f.1 ≠ 2 * k }
      if xKind w = 2 then { b with lines := b.lines.set (xTarget w) (i + 16 * tickPs) }
      else if xKind w = 3 then { b with dout := b.dout.set (xTarget w) (!(b.dout.getD (xTarget w) false)) }
      else b.modPort p fun q => { q with smpFired := some i }) := by
  have hkey : 2 * k + b01 false = 2 * k := rfl
  unfold exec execExtraCompareFire
  dsimp only
  rw [← ha, hown]
  dsimp only
  rw [hdue]
  dsimp only
  rw [if_neg hmod, hfree, hkey, Bool.false_and]
  simp only [Bool.false_eq_true, if_false]
  split
  case h_1 hline => rw [if_pos hline]
  case h_2 hout => rw [if_neg (by rw [hout]; decide), if_pos hout]
  case h_3 hline hout => rw [if_neg hline, if_neg hout]

end

/-- Settles O43: each clause is the branch of its command that the hypotheses choose; MOD_RELEASE is a row of Service. -/
theorem completesModulation : Obligations.CompletesModulation := by
  unfold Obligations.CompletesModulation
  refine ⟨?carrierBoundary, ?edgeIssued, ?edgeKept, ?keptEdgeIssued, ?deadTimeExpiry, ?compareLine, ?compareOutput, ?compareSampling,
    ?modRelease, ?midPeriodLoad⟩
  case carrierBoundary =>
    intro t l s p b a ha hown hnext hmod hdue hfree
    unfold exec execCarrierBoundary
    dsimp only
    rw [← ha, hown, hnext]
    dsimp only
    rw [if_neg (by simp [hmod, hdue]), boundaryDue_at hfree]
  case edgeIssued =>
    intro t l s p y a ha hown hmod hset hnone hdue hfree
    exact (exec_legEdge_due ha hown hmod hset hnone hdue).trans (congrArg _ (if_neg (not_lt.2 hfree)))
  case edgeKept =>
    intro t l s p y a ha hown hmod hset hnone hdue hearly
    exact (exec_legEdge_due ha hown hmod hset hnone hdue).trans (congrArg _ (if_pos hearly))
  case keptEdgeIssued =>
    intro t l s p y b a ha hown hmod hset hkept hfree
    unfold exec execLegEdge
    dsimp only
    rw [← ha, hown]
    dsimp only
    rw [if_neg (by simp [hmod, hset]), hkept]
    exact congrArg _ (if_neg (not_lt.2 hfree))
  case deadTimeExpiry =>
    intro t l s u p a ha hon hown hdue
    unfold exec execDeadTimeExpiry
    dsimp only
    rw [← ha, hon, hown]
    exact congrArg _ (if_pos hdue)
  case compareLine =>
    rintro t l k _ s p i a ha hown hdue hmod rfl hfree hkind
    exact (exec_extraCompareFire_main ha hown hdue hmod hfree).trans (congrArg _ (if_pos hkind))
  case compareOutput =>
    rintro t l k _ s p i a ha hown hdue hmod rfl hfree hkind
    exact (exec_extraCompareFire_main ha hown hdue hmod hfree).trans
      (congrArg _ ((if_neg (by rw [hkind]; decide)).trans (if_pos hkind)))
  case compareSampling =>
    rintro t l k _ s p i a ha hown hdue hmod rfl hfree hkind
    exact (exec_extraCompareFire_main ha hown hdue hmod hfree).trans
      (congrArg _ ((if_neg (by rw [hkind]; decide)).trans (if_neg (by rw [hkind]; decide))))
  case modRelease =>
    intro t role p v s a ha hrole hok halone hnote
    unfold exec execModRelease State.doModRelease
    dsimp only
    rw [← ha, cmdRow_done hrole hok halone hnote]
  case midPeriodLoad =>
    intro t l s p a ha hown href hserve hupd hsame hperiod hmid hnext
    unfold exec execMidPeriodLoad
    dsimp only
    rw [← ha, hown]
    exact congrArg _ (if_pos (by rw [decide_eq_true href, hsame, hnext]; simp [hserve, hupd, hperiod, hmid]))

end Sys2Proof.Machine
end

section
/-! Measured dead time: where each command completes (R251, R252). -/

namespace Sys2Proof.Machine

/-- Settles O44: each clause is the branch of its command that the hypotheses choose; a near crossing that is missing lies before no
turn-on, so the commutation is neither full nor crossed. -/
theorem completesDeadTime : Obligations.CompletesDeadTime := by
  unfold Obligations.CompletesDeadTime
  refine ⟨?faulted, ?nearMissing, ?resumed⟩
  case faulted =>
    intro t l near far fault s p a ha hown hfault
    unfold exec execNsCrossingReport
    dsimp only
    rw [← ha, hown]
    dsimp only
    rw [if_pos hfault, State.onlyIf_not]
  case nearMissing =>
    intro t l near far fault s p a ha hown hfault hmeas hprot hnear hon
    subst hfault hnear
    unfold exec execNsCrossingReport
    dsimp only
    rw [← ha, hown]
    dsimp only
    rw [if_neg (by simp), if_neg (by simp [hmeas, hprot]), if_neg (by simp [hon]), State.onlyIf_decide]
    rfl
  case resumed =>
    intro t l s p a ha hown
    unfold exec execDtAdaptiveResume
    dsimp only
    rw [← ha, hown]
    dsimp only
    rw [State.onlyIf_decide, State.onlyIf_decide]

end Sys2Proof.Machine
end

section
/-! Turn-on, interlock and turn-off of islands: where each command completes (R257, R259, R262-R266, R268). -/

namespace Sys2Proof.Machine

section
variable {s : State} {i : Nat}

/-- A turn-on in time, whose conditions hold, turns the switch on (R264, R265). -/
theorem tryOn_turnsOn (hearly : s.turnOnLate i tiePs = false) (hmay : s.mayTurnOn i = true) :
    s.tryOn i = (s.chgIsl i fun x => { x with
      on := true, pendAt := none, offConf := false, above := false
      pulseEnd := if x.pulseLen = 0 then none else some (s.now + x.pulseLen) }).showSw i := by
  unfold State.tryOn
  rw [if_neg (Bool.eq_false_iff.1 hearly), if_pos hmay]

/-- The on command of an enabled island outside T-type that is off, while its partner holds none, makes the turn-on pending and
tries it (R264). -/
theorem onCommand_pends {len : Nat} (hused : s.islUsed i = true) (henabled : s.enabled i = true)
    (hpartner : (s.island (s.partner i)).onCmd = false) (htopo : (s.keepIsl i).isTType (legOfIsl i) = false)
    (hoff : ((s.keepIsl i).island i).on = false) :
    s.onCommand i len =
      (let c := s.keepIsl i
       let d := c.chgIsl i fun x => { x with onCmd := true, pendAt := some c.now, cmdAt := c.now, pulseLen := len }
       (d.tryOn i).showSw i) := by
  have haccepted : ¬(!s.islUsed i || !s.enabled i) = true := by simp [hused, henabled]
  unfold State.onCommand
  dsimp only
  rw [if_neg haccepted, if_neg (Bool.eq_false_iff.1 hpartner), htopo, if_neg (Bool.eq_false_iff.1 hoff)]
  rfl

/-- Outside T-type an off command that has arrived turns the island off (R263). -/
theorem exec_islandOffCommand_arrived {t : Nat} {a : State} (ha : a = s.advance t) (hused : a.islUsed i = true)
    (htopo : a.isTType (legOfIsl i) = false)
    (hdue : (a.innerEnables.island i).offDue.any (fun u => decide (u ≤ a.innerEnables.now)) = true) :
    exec (.islandOffCommand t i) s = .next (
      (((a.innerEnables.keepIsl i).modIsl i fun x => { x with offDue := none }).islOff i).showSw i) := by
  unfold exec execIslandOffCommand
  dsimp only
  rw [← ha, hused, htopo, hdue]
  rfl

end

/-- Settles O45: a request is a row whose rule accepts it; each other clause is the branch that the hypotheses choose. -/
theorem completesIslandCommands : Obligations.CompletesIslandCommands := by
  unfold Obligations.CompletesIslandCommands
  refine ⟨?keepAliveSend, ?onArrived, ?onPending, ?ilMinTimeElapsed, ?gateAbovePlateau, ?islandOffCommand, ?offConfirm,
    ?turnOnTimeout, ?islPulse, ?islPulseEnd, ?softOffFullStrength⟩
  case keepAliveSend =>
    intro t s a ha hstarted hlock
    unfold exec execKeepAliveSend
    dsimp only
    rw [← ha]
    refine congrArg _ (if_pos ((Bool.and_eq_true _ _).mpr ⟨?started, Option.isSome_iff_ne_none.2 hlock⟩))
    case started =>
      split
      case h_6 => rfl
      all_goals next hst => exact absurd (by simp [hst]) hstarted
  case onArrived =>
    intro t i s a ha hdue
    unfold exec execIslandOnCommand
    dsimp only
    rw [← ha, if_pos hdue]
  case onPending =>
    rintro t i s b _ a ha hdue hb hused henabled hpartner rfl htopo hoff
    unfold exec execIslandOnCommand
    dsimp only
    rw [← ha, if_pos hdue, ← hb, onCommand_pends hused henabled hpartner htopo hoff]
  case ilMinTimeElapsed =>
    intro t i s a ha hearly hmay
    unfold exec execIlMinTimeElapsed
    dsimp only
    rw [← ha, tryOn_turnsOn hearly hmay]
  case gateAbovePlateau =>
    intro t i s a ha hon
    unfold exec execGateAbovePlateau
    dsimp only
    rw [← ha, if_neg (by simp [hon])]
  case islandOffCommand =>
    intro t i s b a ha hused htopo hb hdue
    rw [hb]
    exact exec_islandOffCommand_arrived ha hused htopo hdue
  case offConfirm =>
    intro t i s b c a ha hb hoff hnew hsoft hc htopo
    unfold exec execOffConfirm
    dsimp only
    rw [← ha, ← hb, if_neg (by simp [hoff, hnew]), hsoft]
    dsimp only
    rw [← hc, htopo]
    rfl
  case turnOnTimeout =>
    intro t i s a ha hlate
    unfold exec execTurnOnTimeout State.dropTurnOn
    dsimp only
    rw [← ha, if_pos hlate, State.onlyIf_decide]
  case islPulse =>
    intro t role i v s a ha hrole hok halone hnote
    unfold exec execIslPulse State.doPulse
    dsimp only
    rw [← ha, cmdRow_done hrole hok halone hnote]
  case islPulseEnd =>
    intro t i s n a ha hend hdue hfree
    unfold exec execIslPulseEnd
    dsimp only
    rw [← ha, hend]
    dsimp only
    rw [if_neg (not_lt.2 hdue), if_neg (by rcases hfree with hfree | hfree <;> simp [hfree])]
  case softOffFullStrength =>
    intro t i s n a ha hsoft hdue hdrive
    unfold exec execSoftOffFullStrength
    dsimp only
    rw [← ha, hsoft]
    exact congrArg _ (if_pos ⟨hdue, hdrive⟩)

end Sys2Proof.Machine
end

section
/-! Detections and supplies of islands: where each command completes (R260, R261, R263, R267, R280). -/

namespace Sys2Proof.Machine

/-- An off command that is not confirmed 2.0 µs later faults the leg with cause 0x0B and sets flag 10, once (R263). -/
theorem gateNotOff_late {s : State} {i n : Nat} (hat : (s.island i).offAt = some n) (hused : s.islUsed i = true)
    (hoff : (s.island i).on = false) (hconf : (s.island i).offConf = false) (hsoft : (s.island i).soft = none)
    (hdue : n + 2 * psUs ≤ s.now) (hnew : bitAt (s.island i).flags 10 = false) :
    s.gateNotOff i = ((s.chgIsl i fun x => { x with flags := x.flags + 1024 }).legFault (legOfIsl i) 0x0B i []).showSw i := by
  unfold State.gateNotOff
  dsimp only
  rw [hat, hused, hoff, hconf, hsoft, hnew, Option.any_some, decide_eq_true hdue]
  rfl

/-- Settles O46: each clause is the branch of its command that the hypotheses choose. -/
theorem completesIslandFaults : Obligations.CompletesIslandFaults := by
  unfold Obligations.CompletesIslandFaults
  refine ⟨?desaturation, ?gatePlateauMissing, ?gateNotOn, ?gateNotOff, ?islandWatchdogExpiry, ?islandLost, ?islandUndervoltage,
    ?islandSupplyRecover⟩
  case desaturation =>
    intro t i s a ha hlive hblank
    unfold exec execDesaturation
    dsimp only
    rw [← ha, if_pos (by simp [hlive, hblank])]
  case gatePlateauMissing =>
    intro t i s a ha hlive hset hin
    unfold exec execGatePlateauMissing
    dsimp only
    rw [← ha, if_pos (by simp [hlive, hset, hin])]
  case gateNotOn =>
    intro t i s a ha hused hon hbelow hblank
    unfold exec execGateNotOn
    dsimp only
    rw [← ha, if_pos (by simp [hused, hon, hbelow, hblank])]
  case gateNotOff =>
    intro t i s n a ha hat hused hoff hconf hsoft hdue hnew
    unfold exec execGateNotOff
    dsimp only
    rw [← ha, gateNotOff_late hat hused hoff hconf hsoft hdue hnew]
  case islandWatchdogExpiry =>
    intro t i s a ha hused hfed hnew hdue
    unfold exec execIslandWatchdogExpiry State.wdExpire
    dsimp only
    rw [← ha, if_pos (by simp [hused, hfed, hnew, hdue])]
  case islandLost =>
    intro t i s a ha hused hlock hnew
    unfold exec execIslandLost
    dsimp only
    rw [← ha, if_pos (by simp [hused, Option.isSome_iff_ne_none.2 hlock, hnew])]
  case islandUndervoltage =>
    intro t i vpLow vnLow s a ha hlow
    unfold exec execIslandUndervoltage
    dsimp only
    rw [← ha, if_neg (by rcases hlow with hlow | hlow <;> simp [hlow])]
  case islandSupplyRecover =>
    rintro t i s _ rfl
    rfl

end Sys2Proof.Machine
end

section
/-! Leg faults, trip inputs, clears and self-tests: where each command completes (R271, R273, R275-R277). -/

namespace Sys2Proof.Machine

/-- A clear that nothing refuses is accepted, with kind 2 for the automatic one and kind 1 for any other (R275, R276). -/
theorem doClear_accepted {s : State} {req : Requester} {p : Nat} {v : Word} (h : s.clearCode req p v = 0) :
    s.doClear req p v = s.acceptClear p (if req = .auto then 2 else 1) :=
  if_pos h

/-- The automatic clear is no request that any role may make. -/
theorem reqOk_ne_auto {s : State} {req : Requester} {named : Role} (h : s.reqOk req named = true) : req ≠ .auto := by
  rintro rfl
  exact Bool.false_ne_true h

/-- Settles O47: a request is a row whose rule accepts it; each other clause is the branch that the hypotheses choose. -/
theorem completesProtection : Obligations.CompletesProtection := by
  unfold Obligations.CompletesProtection
  refine ⟨?legFaultRunEnd, ?tripInputAssert, ?tripInputRelease, ?protClear, ?autoClear, ?autoWindowAgeOut, ?istCmd, ?istComplete⟩
  case legFaultRunEnd =>
    intro t p s n a ha hrun hdue
    unfold exec execLegFaultRunEnd
    dsimp only
    rw [← ha, hrun]
    exact congrArg _ (if_pos hdue)
  case tripInputAssert =>
    intro t n s a ha hn hports hhigh
    unfold exec execTripInputAssert
    dsimp only
    rw [← ha, if_neg (by simp [hn, hports, hhigh])]
  case tripInputRelease =>
    intro t n s a ha hn hports
    unfold exec execTripInputRelease
    dsimp only
    rw [← ha, if_neg (by simp [hn, hports])]
  case protClear =>
    intro t req p v s a ha hused hcode hreq halone hnote
    have hok : ((a.port p).used && decide (a.clearCode req p v = 0)) = true := by simp [hused, hcode]
    unfold exec execProtClear
    dsimp only
    rw [← ha, reqRow_done hreq hok halone hnote, if_pos hused, doClear_accepted hcode, if_neg (reqOk_ne_auto hreq)]
  case autoClear =>
    intro t p s n a ha hat hdue hcode
    unfold exec execAutoClear
    dsimp only
    rw [← ha, hat]
    dsimp only
    rw [if_pos hdue, if_pos (decide_eq_true hcode), doClear_accepted hcode, if_pos rfl]
  case autoWindowAgeOut =>
    intro t p s a ha hused
    unfold exec execAutoWindowAgeOut State.autoPrune
    dsimp only
    rw [← ha, if_pos hused]
  case istCmd =>
    intro t role i v s a ha hrole hok halone hnote
    unfold exec execIstCmd State.doIst
    dsimp only
    rw [← ha, cmdRow_done hrole hok halone hnote]
  case istComplete =>
    intro t i bits s a ha htesting
    unfold exec execIstComplete
    dsimp only
    rw [← ha, if_pos (Option.isSome_iff_ne_none.2 htesting)]

end Sys2Proof.Machine
end

section
/-! The packet timeout of the safety functions: a held fault keeps the outputs off and the ports at rest through the last evaluation
(R286, R287, R311). -/

namespace Sys2Proof.Machine

/-! ### A safety fault that is held -/

section
variable {s : State}

theorem safOk_of_faults (h : s.saf.faults ≠ []) : s.safOk = false := safOk_eq_false.2 (.inr (.inr (.inl h)))

/-- Following the decisions clears no fault and changes no command bit. -/
theorem safApply_faults_cmd (h : s.safOk = false) : s.safApply.saf.faults = s.saf.faults ∧ s.safApply.saf.cmd = s.saf.cmd := by
  obtain ⟨f, hsaf, hfaults, hcmd⟩ : ∃ f, s.safApply.saf = f ∧ f.faults = s.saf.faults ∧ f.cmd = s.saf.cmd := by
    unfold State.safOk at h
    unfold State.safApply
    simp only [h, State.onlyIf, Bool.not_false, if_true]
    exact ⟨_, (view_saf (same_setN (same_each rfl fun _ _ h => same_setN h))).trans ((each_safHalt_halts fun _ => used_lt).saf.trans
      (view_saf (same_ite (fun _ => same_setEnables rfl) fun _ => rfl))), rfl, rfl⟩
  rw [hsaf]
  exact ⟨hfaults, hcmd⟩

/-- Where the safety functions may not energise, following the decisions lets no port leave its rest. -/
theorem safApply_rests (h : s.safOk = false) {p : Nat} (hp : s.Rests p) : s.safApply.Rests p := by
  obtain ⟨b, c, -, hports, hbc, hlast⟩ := safApply_stages h
  have hb : b.Rests p := by unfold State.Rests State.port at *; rwa [hports]
  exact hlast.rests ((each_safHalt_halts fun _ => used_lt).keeps (hbc.rests hb))

/-- The faults of an evaluation are held and the used ports are at rest. -/
theorem safFaults_held {cs : List (Nat × Nat)} (hcs : cs ≠ []) :
    cs ⊆ (s.safFaults cs).saf.faults ∧ ∀ p ∈ s.usedPorts, (s.safFaults cs).Rests p := by
  unfold State.safFaults
  dsimp only
  generalize hz : State.safOnset _ _ = z
  have hsame : Same _ z := hz ▸ same_safOnset rfl
  have hsub : cs ⊆ z.saf.faults := by
    intro c hc
    rw [view_saf hsame]
    by_cases hold : c ∈ s.saf.faults <;> simp [State.modSaf, hold, hc]
  have hheld : z.saf.faults ≠ [] := fun h => hcs (List.subset_nil.1 (h ▸ hsub))
  obtain ⟨-, -, -, -, hrest⟩ := safetyDemandStopsEverything z (.inr (.inr (.inl hheld)))
  refine ⟨(safApply_faults_cmd (safOk_of_faults hheld)).1 ▸ hsub, ?_⟩
  rw [same_used hsame] at hrest
  exact hrest

/-- An evaluation while a fault is held keeps it and the command bits, puts every output off, and lets no port leave its rest. -/
theorem safRecognise_held {c : Nat × Nat} (hc : c ∈ s.saf.faults) (cs extra : List (Nat × Nat)) (all : Bool) :
    let u := s.safRecognise cs extra all
    c ∈ u.saf.faults ∧ u.saf.cmd = s.saf.cmd ∧ u.saf.gates = false ∧ (∀ x ∈ u.saf.sout, x.cmd = false) ∧
      ∀ p, s.Rests p → u.Rests p := by
  unfold State.safRecognise
  dsimp only
  generalize hz : State.safOnset _ _ = z
  have hsame : Same _ z := hz ▸ same_safOnset rfl
  have hmem : c ∈ z.saf.faults := by
    rw [view_saf hsame]
    exact List.mem_append_left _ hc
  have hoff : z.safOk = false := safOk_of_faults (List.ne_nil_of_mem hmem)
  obtain ⟨hfaults, hcmd⟩ := safApply_faults_cmd hoff
  obtain ⟨hgates, hsout, -⟩ := safetyDemandStopsEverything z (safOk_eq_false.1 hoff)
  exact ⟨hfaults ▸ hmem, hcmd.trans (congrArg SafSt.cmd (view_saf hsame) :), hgates, hsout,
    fun p hp => safApply_rests hoff (hsame.rests hp)⟩

/-- The timeout's command bits, all 0, rise nowhere and open no contactor of themselves: they are noted, and an evaluation follows
(R309, R311). -/
theorem setCmd_timeout (s : State) (path : Nat) :
    ∃ x : State, s.setCmd 0 path true = x.safRecognise [] [] false ∧
      x.saf.cmd = some 0 ∧ x.saf.faults = s.saf.faults ∧ x.ports = s.ports := by
  have hrise : ∀ k, bitAt 0 k = false := fun k => by simp [bitAt]
  unfold State.setCmd
  simp only [hrise, Bool.false_and, Bool.and_false, Bool.not_true, State.onlyIf, Bool.false_eq_true, if_false]
  refine ⟨_, rfl, ?_⟩
  split_ifs <;> exact ⟨rfl, rfl, rfl⟩

end

/-! ### The timeout -/

section
variable {s : State} {t : Nat}

theorem exec_packetTimeout_due (h : (s.advance t).packetDue 0 = true) :
    exec (.packetTimeout t) s = .next (s.advance t).packetTimedOut :=
  congrArg _ (if_pos h)

theorem exec_packetTimeout_early (h : (s.advance t).packetDue 0 = false) : exec (.packetTimeout t) s = .next (s.advance t) :=
  congrArg _ (if_neg (Bool.eq_false_iff.1 h))

/-- Packets that are used are due at the timeout, a tie included (R47, R311). -/
theorem packetDue_iff : s.packetDue 0 = true ↔ s.packetsUsed = true ∧ ∃ z, s.saf.timer = some z ∧ z + s.packetPs ≤ s.now := by
  unfold State.packetDue
  cases s.saf.timer <;> simp

/-- The state after the timeout: the fault of cause 0x05 held, no command bit, the outputs off and the used ports at rest (R311). -/
theorem packetTimedOut_safe (a : State) :
    let u := a.packetTimedOut
    u.saf.cmd = some 0 ∧ (5, 0) ∈ u.saf.faults ∧ u.saf.gates = false ∧ (∀ x ∈ u.saf.sout, x.cmd = false) ∧
      ∀ p ∈ a.usedPorts, u.Rests p := by
  unfold State.packetTimedOut
  dsimp only
  generalize hb : State.raise _ _ _ _ = b
  have hsame : Same _ b := hb ▸ same_raise (same_bump rfl)
  have hused : (b.holdAbort 1).usedPorts = a.usedPorts := (same_holdAbort rfl).2.1.trans (same_used hsame :)
  obtain ⟨hheld, hrest⟩ := safFaults_held (s := b.holdAbort 1) (List.cons_ne_nil (5, 0) [])
  obtain ⟨x, hx, hcmd, hfaults, hports⟩ := setCmd_timeout ((b.holdAbort 1).safFaults [(5, 0)]) 0
  have hmem : (5, 0) ∈ x.saf.faults := hfaults ▸ hheld List.mem_cons_self
  obtain ⟨hfault, hbits, hgates, hsout, hkeeps⟩ := safRecognise_held hmem [] [] false
  rw [hx]
  refine ⟨hbits.trans hcmd, hfault, hgates, hsout, fun p hp => hkeeps p ?_⟩
  have hp' := hrest p (hused ▸ hp)
  unfold State.Rests State.port at *
  rwa [hports]

end

/-- Settles O19: at the timeout the fault of cause 0x05 is held before the bits change, so their evaluation leaves everything off;
before it, or with packets not used, the timeout is not due. -/
theorem packetTimeout : Obligations.PacketTimeout := by
  unfold Obligations.PacketTimeout
  refine ⟨?due, ?early⟩
  case due =>
    rintro t z s _ rfl hused htimer hz
    exact ⟨_, _, rfl, exec_packetTimeout_due (packetDue_iff.2 ⟨hused, z, htimer, hz⟩), rfl, packetTimedOut_safe _⟩
  case early =>
    rintro t s _ rfl h
    refine exec_packetTimeout_early (Bool.eq_false_iff.2 fun hdue => ?_)
    obtain ⟨hused, z, htimer, hz⟩ := packetDue_iff.1 hdue
    rcases h with h | h
    · exact Bool.false_ne_true (h.symm.trans hused)
    · exact Nat.not_le.2 (h z htimer) hz

end Sys2Proof.Machine
end

section
/-! Safe inputs, outputs, and the tests of both: where each command completes (R294, R295, R298, R300-R302, R449). -/

namespace Sys2Proof.Machine

/-- The function of an input follows from the profile, which showing a safe input leaves (R299). -/
theorem modSin_sinFn {s : State} {n : Nat} (hn : n < 8) (f : SinSt → SinSt) (j : Nat) : (s.modSin n f).sinFn j = s.sinFn j := by
  have hid : Pid.profileWord ≠ Pid.sinState n := by unfold Pid.profileWord Pid.sinState; omega
  have hword : (s.modSin n f).n Pid.profileWord = s.n Pid.profileWord := State.setN_other _ _ hid
  unfold State.sinFn
  rw [hword]
  rfl

/-- A discrepancy that has lasted `sin_disc_time` marks the input, removes its permissive and is an input fault (R300). -/
theorem discrepant_due {s : State} {n tie d : Nat} (hused : s.sinFn n ≠ .unused) (hconfirmed : s.blockConfirmed = true)
    (hnew : (s.sin n).disc ≠ 1) (hheld : (s.sin n).disc ≠ 2) (hdiff : (s.sin n).diffAt = some d)
    (hdue : d + s.n Pid.sinDiscTime * psMs ≤ s.now + tie) :
    s.discrepant n tie = ((s.modSin n fun x => { x with
      disc := 1, perm := false, changed := if x.perm then s.now else x.changed }).safDemands false).inputFault n := by
  have hlasted : ((s.sin n).diffAt.any fun d => decide (d + s.n Pid.sinDiscTime * psMs ≤ s.now + tie)) = true :=
    (Option.any_eq_true _ _).2 ⟨d, hdiff, decide_eq_true hdue⟩
  unfold State.discrepant
  dsimp only
  rw [hlasted, if_pos (by simp [hused, hconfirmed, hnew, hheld])]

/-- Settles O48: each clause is the branch of its command that the hypotheses choose; a recurring test is due. -/
theorem completesSafetyInputs : Obligations.CompletesSafetyInputs := by
  unfold Obligations.CompletesSafetyInputs
  refine ⟨?safeInputChange, ?inputDiscrepancy, ?testPulsePassed, ?testPulseMissed, ?outputOffPulse, ?outputReadbackFault,
    ?vsoUndervoltage, ?coilCheck, ?holdingTestEnd, ?mirrorTimeExpiry⟩
  case safeInputChange =>
    intro t n ca cb s b a ha hn hsgo hb hfn
    have hused : (a.modSaf fun f => { f with raw := f.raw.set n (some (ca, cb)) }).sinFn n ≠ .unused :=
      (hsgo : _ = SinFn.sgo) ▸ SinFn.noConfusion
    unfold exec execSafeInputChange
    dsimp only
    rw [← ha, if_neg (Nat.not_le.2 hn), if_neg hused, ← hb, modSin_sinFn hn, hfn]
  case inputDiscrepancy =>
    intro t n s d a ha hdiff hused hconfirmed hnew hheld hdue
    unfold exec execInputDiscrepancy
    dsimp only
    rw [← ha, discrepant_due hused hconfirmed hnew hheld hdiff hdue]
  case testPulsePassed =>
    intro t n chB passed s a ha hn hused hconfirmed henabled hdue hpassed
    unfold exec execInputTestPulse
    dsimp only
    rw [← ha, if_neg (by simp [hn, hused, hconfirmed, henabled]), State.recur_due hdue, if_pos hpassed]
  case testPulseMissed =>
    intro t n chB passed s a ha hn hused hconfirmed henabled hdue hpassed hchB hmiss
    subst hpassed hchB
    unfold exec execInputTestPulse
    dsimp only
    rw [← ha, if_neg (by simp [hn, hused, hconfirmed, henabled]), State.recur_due hdue, hmiss]
    rfl
  case outputOffPulse =>
    intro t k low s a ha hk hcmd hdue
    unfold exec execOutputOffPulse
    dsimp only
    rw [← ha, if_neg (by simp [hk, hcmd]), State.recur_due hdue]
  case outputReadbackFault =>
    intro t k s a ha hk hon hcmd
    unfold exec execOutputReadbackFault
    dsimp only
    rw [← ha, if_neg (by simp [hk, hon]), if_pos hcmd]
  case vsoUndervoltage =>
    intro t s k a ha hfirst
    unfold exec execVsoUndervoltage
    dsimp only
    rw [← ha, hfirst]
  case coilCheck =>
    intro t k i1 i2 i3 s a ha hused hk hcmd hdue
    unfold exec execCoilCheck
    dsimp only
    rw [← ha, if_neg (by rcases hk with rfl | rfl <;> simp [hused, hcmd]), State.recur_due hdue]
    rfl
  case holdingTestEnd =>
    intro t s f a ha htest hdue hstill
    unfold exec execHoldingTestEnd
    dsimp only
    rw [← ha, htest]
    dsimp only
    rw [if_pos (by simp [hdue, hstill])]
    rfl
  case mirrorTimeExpiry =>
    intro t s a ha hused hdue hjudged hclosed hfail hopen
    unfold exec execMirrorTimeExpiry State.sccFailed
    dsimp only
    rw [← ha, if_neg (by simp [hused, hdue]), if_pos hjudged, if_neg (by rcases hopen with h | h <;> simp [hclosed, hfail, h])]

end Sys2Proof.Machine
end

section
/-! Demands, packets, straps, commit and reset of the safety functions: where each command completes (R286, R289, R305-R312). -/

namespace Sys2Proof.Machine

section
variable {s : State}

/-- A change of the safety state is what it makes of it. -/
theorem modSaf_congr {f g : SafSt → SafSt} (h : f s.saf = g s.saf) : s.modSaf f = s.modSaf g :=
  congrArg (fun x => { s with saf := x }) h

/-- Without an open comparison window none is due to close. -/
theorem windowDue_none {tie : Nat} (h : s.saf.win = none) : s.windowDue tie = false := by
  unfold State.windowDue
  rw [h]

/-- The first valid copy of a packet on an enabled path, with no bits in force before and another path enabled, is counted and opens
the comparison window (R310). -/
theorem packetCopy_first {q : Nat} {bs : List Byte} (hpath : s.paths.contains q = true) (hon : s.unit.st ≠ .off)
    (hvalid : s.copyValid bs = true) (hwin : s.saf.win = none) (hclosed : s.saf.closedSeq = none) (hlast : s.saf.lastSeq = none)
    (hcmd : s.saf.cmd = none) (hothers : ((s.bump (Pid.spRxCount q)).paths.all fun p => p = q) = false) :
    s.packetCopy q bs = (s.bump (Pid.spRxCount q)).modSaf fun f => { f with win := some (s.now, [(q, bs)]) } := by
  unfold State.packetCopy
  rw [if_neg (by rw [hpath]; simp [hon]), if_neg (by simp [hvalid]), windowDue_none hwin]
  have hwaits : (((s.bump (Pid.spRxCount q)).modSaf fun f => { f with win := some (s.now, [(q, bs)]) }).paths.all fun p =>
      [(q, bs)].any fun c => c.1 = p) = false := by
    simp only [List.any_cons, List.any_nil, Bool.or_false, eq_comm (a := q)]
    exact hothers
  simp only [State.onlyIf, State.modSaf, State.bump_saf, State.bump_now, hwin, hclosed, hlast, hcmd, reduceCtorEq, decide_false,
    Bool.and_false, Bool.not_true, Bool.false_eq_true, if_false]
  exact if_neg (Bool.eq_false_iff.1 hwaits)

/-- A reset edge that has arrived is taken, and judged (R312). -/
theorem exec_safetyReset_waiting {t source : Nat} {a b : State} (ha : a = s.advance t)
    (hwaiting : (if source = 1 then a.saf.resetIn else source = 2 && a.saf.resetPkt) = true)
    (hb : b = a.modSaf fun f => { f with resetIn := f.resetIn && source ≠ 1, resetPkt := f.resetPkt && source ≠ 2 }) :
    exec (.safetyReset t source) s = .next (if b.resetCode source ≠ 0
      then (b.setN Pid.resetRefuse (b.resetCode source)).raise 0x1C22 0 (source * 256 + b.resetCode source)
      else b.doReset source) := by
  unfold exec execSafetyReset
  dsimp only
  rw [← ha, hwaiting, hb]
  rfl

end

/-- Settles O49: each clause is the branch of its command that the hypotheses choose; a commit is a row of Commissioner. -/
theorem completesSafetyFunctions : Obligations.CompletesSafetyFunctions := by
  unfold Obligations.CompletesSafetyFunctions
  refine ⟨?safetyEvaluation, ?sgoDemand, ?strapRead, ?safetyCommit, ?safetyPacketCopy, ?safetyWindowClose, ?packetTimeout,
    ?statusPacketSend, ?resetDone, ?resetRefused⟩
  case safetyEvaluation =>
    intro t differ outs s a ha hon hdue
    unfold exec execSafetyEvaluation
    dsimp only
    rw [← ha, if_neg hon]
    exact congrArg Host.Outcome.next (State.recur_due hdue)
  case sgoDemand =>
    intro t cause input s a ha hpresent hnew
    unfold exec execSgoDemand
    dsimp only
    rw [← ha, if_pos hpresent, hnew]
    rfl
  case strapRead =>
    intro t pattern faulty s b a ha hloaded hnative hfaulty hpattern hlast hdue hb hword
    subst hfaulty
    have hsame : b.saf.strapLast = some pattern := hb ▸ hlast
    unfold exec execStrapRead
    dsimp only
    rw [← ha, if_neg (by simp [hloaded, hnative]), State.recur_due hdue, ← hb, Nat.mod_eq_of_lt hpattern, ← hword, hsame]
    simp [State.onlyIf]
  case safetyCommit =>
    intro t role v readbackOk s a ha hv hcode hread hrole halone hnote
    subst hread
    unfold exec execSafetyCommit
    dsimp only
    rw [← ha, roleRow_done hrole (by simp [hv, hcode]) halone hnote]
    unfold State.commitAsked State.doCommit
    rw [if_pos hv, if_neg (by simp [hcode])]
    rfl
  case safetyPacketCopy =>
    intro t path bytes s a ha hpath hon hvalid hwin hclosed hlast hcmd hothers
    unfold exec execSafetyPacketCopy
    dsimp only
    rw [← ha, packetCopy_first hpath hon hvalid hwin hclosed hlast hcmd hothers]
  case safetyWindowClose =>
    intro t s a ha hdue
    unfold exec execSafetyWindowClose
    dsimp only
    rw [← ha, if_pos hdue]
  case packetTimeout =>
    rintro t s _ rfl hdue
    exact exec_packetTimeout_due hdue
  case statusPacketSend =>
    intro t s b a ha hpaths hon hdue hb
    unfold exec execStatusPacketSend
    dsimp only
    rw [← ha, if_neg (by simp [hpaths, hon]), State.recur_due hdue, ← hb]
  case resetDone =>
    rintro t _ s a ha rfl hwaiting hcode
    generalize hb : a.modSaf _ = b at hcode ⊢
    rw [exec_safetyReset_waiting ha (by simp [hwaiting]) (hb.symm.trans (modSaf_congr (by simp))), if_neg (not_not.2 hcode)]
  case resetRefused =>
    rintro t _ s c a ha rfl hwaiting hcode hrefused
    generalize hb : a.modSaf _ = b at hcode ⊢
    rw [exec_safetyReset_waiting ha (by simp [hwaiting]) (hb.symm.trans (modSaf_congr (by simp))), hcode, if_pos hrefused]

end Sys2Proof.Machine
end

section
/-! The keys that are set at manufacture (R396). -/

namespace Sys2Proof.Machine

/-- Settles O8: of the fuses, `Evolve` admits a change of the re-binding record alone, and every command stays within `Evolve`. -/
theorem partKeysNeverChange : Obligations.PartKeysNeverChange := fun _ _ _ h => (exec_next_evo h).keys

end Sys2Proof.Machine
end

section
/-! What a holder with a partner forwards (R324, R409; log 36). -/

namespace Sys2Proof.Machine

section
variable {s next : State} {role named : Role} {id : Nat} {v : Word} {ok : Bool}

/-- An accepted command of a holder with a partner is carried out at the next outer boundary. -/
theorem cmdRow_forwarded (h : s.roleOk role named = true) (hk : ok = true) (hp : s.n Pid.pairState = 1) (hf : s.forwards id = true)
    (hl : id ≠ Pid.ladderCmd) (hn : s.canNote role 2 id 0 v = true) :
    s.cmdRow role named id v ok next = s.noted role 2 id 0 v 0 (s.forward id v) :=
  roleRow_forwarded h hk hp hf hl hn

/-- An accepted rung of a holder with a partner is pending at once, for it waits for its own boundary, and the standby is told too. -/
theorem cmdRow_rung_forwarded (h : s.roleOk role named = true) (hk : ok = true) (hp : s.n Pid.pairState = 1)
    (hf : s.forwards Pid.ladderCmd = true) (hn : s.canNote role 2 Pid.ladderCmd 0 v = true) :
    s.cmdRow role named Pid.ladderCmd v ok next = s.noted role 2 Pid.ladderCmd 0 v 0 (next.forward Pid.ladderCmd v) := by
  subst hk
  have hstep : s.inStep true Pid.ladderCmd v next = next.forward Pid.ladderCmd v := by unfold State.inStep; simp [hp, hf]
  unfold State.cmdRow State.roleRow
  rw [audited_eq hn, rowStatus_ok h, h, if_pos rfl, if_pos rfl, hstep]

end

/-- Settles O31: each request is an accepted row that is forwarded; the two writes that choose the holder are excepted by name. -/
theorem holderForwards : Obligations.HolderForwards := by
  unfold Obligations.HolderForwards
  refine ⟨?energise, ?stopPort, ?faClear, ?restart, ?ladderCmdRung, ?choiceOfHolder⟩
  case energise =>
    rintro t p role v s _ rfl - hused hcode hrole hp hf hnote
    have hid : Pid.energise p ≠ Pid.ladderCmd := by unfold Pid.energise Pid.ladderCmd; omega
    have hok := Bool.and_eq_true_iff.2 ⟨hused, decide_eq_true hcode⟩
    exact congrArg _ (roleRow_forwarded hrole hok hp hf hid hnote)
  case stopPort =>
    rintro t p role s _ rfl - hused hrole hp hf hnote
    have hid : Pid.stop p ≠ Pid.ladderCmd := by unfold Pid.stop Pid.ladderCmd; omega
    exact congrArg _ (roleRow_forwarded hrole hused hp hf hid hnote)
  case faClear =>
    rintro t ch role v s _ rfl hok hrole hp hf hnote
    have hid : Pid.faClear ch ≠ Pid.ladderCmd := by unfold Pid.faClear Pid.ladderCmd; omega
    exact congrArg _ (cmdRow_forwarded hrole hok hp hf hid hnote)
  case restart =>
    rintro t role v s _ rfl hok hrole hp hnote hf
    exact congrArg _ (cmdRow_forwarded hrole hok hp hf (by decide) hnote)
  case ladderCmdRung =>
    rintro t role v s _ rfl hok hrole hp hf hnote
    exact congrArg _ (cmdRow_rung_forwarded hrole hok hp hf hnote)
  case choiceOfHolder => exact fun _ => ⟨forwards_own (by decide), forwards_own (by decide)⟩

end Sys2Proof.Machine
end

section
/-! The standby pair: where each command completes (R319-R337; log 36). -/

namespace Sys2Proof.Machine

/-- A mark in STANDBY is heard; it renews and aligns, or is kept where the coming tick is nearer (R322; log 36). -/
theorem exec_leaseMarkReceive_standby {t : Nat} {errPs : Int} {s a : State} (ha : a = s.advance t) (hon : a.pairOn = true)
    (hholds : a.pair.holds = false) (hst : a.unit.st = .standby) :
    exec (.leaseMarkReceive t errPs) s = .next (
      if a.eng.running && decide (a.periodEnd < a.now + a.innerTicks * tickPs / 2) then
        a.modPair fun q => { q with heardAt := some a.now, early := some errPs }
      else a.pairHeard.markOf errPs) := by
  have hlive : ¬ (decide (a.unit.st ≠ .standby) || !a.pairOn) = true := by simp [hst, hon]
  unfold exec execLeaseMarkReceive
  dsimp only
  rw [← ha, hholds]
  exact congrArg _ ((if_neg Bool.false_ne_true).trans (if_neg hlive))

/-- Settles O50: each clause is the branch of its command that the hypotheses choose; the writes that choose the holder are rows of
Commissioner that are never forwarded. -/
theorem completesPair : Obligations.CompletesPair := by
  unfold Obligations.CompletesPair
  refine ⟨?frameTaken, ?frameError, ?frameHeard, ?pairAnnounce, ?mismatchRepeat, ?markRenews, ?markEarly, ?renewalUnconfirmedLimit,
    ?leaseExpiryTakeover, ?biscuitTake, ?pairSolo, ?pairHandover, ?standbyIslandTest, ?standbyHealthTimeout, ?pairFrameSilence⟩
  case frameTaken =>
    intro t bytes image forwarded s a ha hon hvalid
    unfold exec execPairFrameReceive
    dsimp only
    rw [← ha, hon, hvalid]
    rfl
  case frameError =>
    intro t bytes image forwarded s a ha hon hvalid
    unfold exec execPairFrameReceive
    dsimp only
    rw [← ha, hon, hvalid]
    rfl
  case frameHeard =>
    intro t bytes image forwarded s a ha hon hvalid
    unfold exec execPairFrameReceive
    dsimp only
    rw [← ha, hon, hvalid]
    rfl
  case pairAnnounce =>
    intro t s a ha hon hhold hnot1 hnot2 hdue
    have hann : a.announces = true := by unfold State.announces; simpa [hon, hnot1, hnot2] using hhold
    unfold exec execPairAnnounce
    dsimp only
    rw [← ha, if_pos hann, State.recur_due hdue]
  case mismatchRepeat =>
    intro t s m a ha hmis hstate hdue hann
    unfold exec execMismatchRepeat
    dsimp only
    rw [← ha, hmis]
    dsimp only
    rw [if_pos (by simp [hstate, hdue]), hann]
    rfl
  case markRenews =>
    intro t errPs s a ha hon hholds hst hnear
    have hlate : ¬ (a.eng.running && decide (a.periodEnd < a.now + a.innerTicks * tickPs / 2)) = true := by
      simpa [imp_iff_not_or] using hnear
    exact (exec_leaseMarkReceive_standby ha hon hholds hst).trans (congrArg _ (if_neg hlate))
  case markEarly =>
    intro t errPs s a ha hon hholds hst hrun hnear
    exact (exec_leaseMarkReceive_standby ha hon hholds hst).trans (congrArg _ (if_pos (by simp [hrun, hnear])))
  case renewalUnconfirmedLimit =>
    intro t s a ha hholds hlimit
    unfold exec execRenewalUnconfirmedLimit
    dsimp only
    rw [← ha, hholds, hlimit]
    rfl
  case leaseExpiryTakeover =>
    intro t s a ha hst hlimit
    unfold exec execLeaseExpiryTakeover
    dsimp only
    rw [← ha, hst, hlimit]
    rfl
  case biscuitTake =>
    intro t s f m a ha hrelease hst hpoint htick
    unfold exec execBiscuitTake
    dsimp only
    rw [← ha, hrelease]
    exact congrArg _ (if_pos (by simp [hst, hpoint, htick]))
  case pairSolo =>
    intro t role v s a ha hrole hok hnote
    unfold exec execPairSolo State.doSolo
    dsimp only
    rw [← ha, cmdRow_done hrole hok (.inr (forwards_own (by decide))) hnote]
  case pairHandover =>
    intro t role v s a ha hrole hok hnote
    unfold exec execPairHandover
    dsimp only
    rw [← ha, cmdRow_done hrole hok (.inr (forwards_own (by decide))) hnote]
  case standbyIslandTest =>
    intro t bits s a ha hst hused hdue
    unfold exec execStandbyIslandTest
    dsimp only
    rw [← ha, if_pos (by simp [hst, hused]), State.recur_due hdue]
    simp [State.onlyIf]
  case standbyHealthTimeout =>
    intro t s a ha hformed hdue
    unfold exec execStandbyHealthTimeout
    dsimp only
    rw [← ha, if_pos (by simp [hformed, hdue])]
  case pairFrameSilence =>
    intro t s a ha hformed htold hsilent
    unfold exec execPairFrameSilence
    dsimp only
    rw [← ha, if_pos (by rw [htold, hsilent]; simpa using hformed)]

end Sys2Proof.Machine
end

section
/-! Lattice cycles, forces, exchange and remote stations: where each command completes (R338-R360). -/

namespace Sys2Proof.Machine

section
variable {s a b : State} {v : Word} {t k : Nat}

/-- A cycle boundary not yet taken starts a cycle, or finds the last execution still running (R338, R341). -/
theorem exec_latticeCycleStart_boundary {di : Nat} (ha : a = s.advance t) (hmay : a.lat.may = true) (hrun : a.n Pid.latState = 1)
    (hlock : a.ref.lockedTo ≠ none) (hb : b = a.setN Pid.latCycleM a.latM) (hcycle : b.n Pid.periodSeq % b.latM = 0)
    (hnew : b.lat.tick ≠ some b.eng.count) :
    exec (.latticeCycleStart t di) s = .next (
      if b.lat.busy then
        let c := ((b.modLat fun x => { x with tick := some b.eng.count }).bump Pid.latOverrunCount).qLost 0x18
        if c.lat.overTold then c
        else (c.raise 0x1060 0 (min (usOf (c.now - c.lat.startAt)) 0xFFFFFFFF)).modLat fun x => { x with overTold := true }
      else b.latStart di) := by
  unfold exec execLatticeCycleStart
  dsimp only
  rw [← ha, if_neg (by simp [hmay, hrun]), if_neg (by simpa using hlock), ← hb]
  exact congrArg _ (if_neg (not_or.2 ⟨not_not.2 hcycle, hnew⟩))

theorem forceWordOk_op {op : Nat} (h : forceWordOk v op = true) : v.toNat / 2 ^ 16 = op := by
  unfold forceWordOk at h
  exact (of_decide_eq_true (Bool.and_eq_true_iff.1 h).1).1

/-- A word of operation 1 forces (R350). -/
theorem doLatForce_force (h : forceWordOk v 1 = true) : s.doLatForce v = s.force (v.toNat / 256 % 4) (v.toNat % 256) :=
  if_pos (forceWordOk_op h)

/-- A word of operation 0 ends a force (R350). -/
theorem doLatForce_unforce (h : forceWordOk v 0 = true) : s.doLatForce v = s.unforce (v.toNat / 256 % 4) (v.toNat % 256) :=
  if_neg (by rw [forceWordOk_op h]; decide)

/-- The instant of a station's last heartbeat is no part of its return. -/
theorem modStation_lastHb_back (n : Option Nat) :
    ((a.modStation k fun x => { x with lastHb := n }).station k).back = (a.station k).back := by
  unfold State.modStation State.modLat State.station
  rw [List.getD_eq_getElem?_getD, List.getD_eq_getElem?_getD, List.getElem?_modify_eq]
  cases a.lat.st[k]? <;> rfl

/-- A heartbeat in the operational state of a station that is not seen, on an active channel, is taken, and the station is back (R352). -/
theorem heartbeat_back (hon : a.stationOn k = true) (hdue : a.hbDue k tiePs = false) (hlost : a.n (Pid.rioState k) = 1)
    (hback : (a.station k).back = false) (hcan : a.canCode (a.n (Pid.rioCan k) - 1) = 1) :
    a.heartbeat k 5 = (
      let b := a.modStation k fun x => { x with lastHb := some a.now }
      (b.modStation k fun x => { x with back := true, gotDi := false, gotAw := false }).raise 0x0168 k (b.n (Pid.rioNode k) * 256)) := by
  have hseen : ¬ (a.n (Pid.rioState k) = 2 ∨ ((a.modStation k fun x => { x with lastHb := some a.now }).station k).back = true ∨
      ¬ (a.canCode (a.n (Pid.rioCan k) - 1) = 1 ∨ a.canCode (a.n (Pid.rioCan k) - 1) = 2)) := by
    rw [modStation_lastHb_back, hback, hcan, hlost]
    decide
  unfold State.heartbeat
  rw [hon, hdue]
  exact if_neg hseen

end

/-- Settles O52: a request is a row whose rule accepts it; each other clause is the branch that the hypotheses choose. -/
theorem completesLattice : Obligations.CompletesLattice := by
  unfold Obligations.CompletesLattice
  refine ⟨?cycleStart, ?cycleOverrun, ?executionEnd, ?watchdog, ?latticeForce, ?latticeUnforce, ?latFlagsClear, ?latActivate,
    ?programExchange, ?heartbeatReceive, ?heartbeatTimeout, ?tpdoReceive⟩
  case cycleStart =>
    intro t di s b a ha hmay hrun hlock hb hcycle hnew hidle
    rw [exec_latticeCycleStart_boundary ha hmay hrun hlock hb hcycle hnew, hidle, if_neg Bool.false_ne_true]
  case cycleOverrun =>
    intro t di s b a ha hmay hrun hlock hb hcycle hnew hbusy
    rw [exec_latticeCycleStart_boundary ha hmay hrun hlock hb hcycle hnew, if_pos hbusy]
  case executionEnd =>
    intro t out s a ha hbusy hrun hin
    unfold exec execLatticeExecutionEnd
    dsimp only
    rw [← ha, if_neg (by simp [hbusy, hrun]), if_neg (not_lt.2 hin)]
  case watchdog =>
    intro t s a ha hbusy hrun hlate
    unfold exec execLatticeWatchdog
    dsimp only
    rw [← ha, if_pos (by simp [hbusy, hrun, hlate])]
  case latticeForce =>
    intro t role v s a ha hword hok hrole halone hnote
    unfold exec execLatticeForce
    dsimp only
    rw [← ha, cmdRow_done hrole (by simp [hword, hok]) halone hnote, doLatForce_force hword]
  case latticeUnforce =>
    intro t role v s a ha hrole hword halone hnote
    unfold exec execLatticeUnforce
    dsimp only
    rw [← ha, cmdRow_done hrole hword halone hnote, doLatForce_unforce hword]
  case latFlagsClear =>
    rintro t role _ s a ha hmeets rfl hnote
    unfold exec execLatFlagsClear
    dsimp only
    rw [← ha, audited_eq hnote, hmeets]
    rfl
  case latActivate =>
    rintro t role _ s a ha rfl hcode hrole halone hnote
    unfold exec execLatActivate State.doActivate
    dsimp only
    rw [← ha, roleRow_done hrole (by simp [hcode]) halone hnote, if_pos rfl, if_pos hcode]
  case programExchange =>
    rintro t _ s g a ha hpending hidle hbank rfl
    unfold exec execProgramExchange
    dsimp only
    rw [← ha, hpending, hidle, hbank]
    rfl
  case heartbeatReceive =>
    rintro t st _ s _ rfl hon hdue rfl hlost hback hcan
    exact congrArg Host.Outcome.next (heartbeat_back hon hdue hlost hback hcan)
  case heartbeatTimeout =>
    intro t st s a ha hon hdue
    unfold exec execHeartbeatTimeout
    dsimp only
    rw [← ha, hon, hdue]
    rfl
  case tpdoReceive =>
    rintro t st _ bytes s a ha rfl hon hlen
    unfold exec execTpdoReceive State.tpdo
    dsimp only
    rw [← ha, hon]
    exact congrArg _ (if_neg (not_lt.2 hlen))

end Sys2Proof.Machine
end

section
/-! CAN channels: where each command completes (R367-R375; log 13). -/

namespace Sys2Proof.Machine

section
variable {s : State} {ch : Nat}

/-- A frame of Lattice or link is queued on an active channel with room (R368). -/
theorem canSubmit_queued {f : CanFrame} {src : CanSrc} (hcode : s.canCode ch = 1) (hsrc : src = .lattice ∨ src = .link)
    (hroom : (s.canCh ch).q.length < 32) :
    s.canSubmit ch f src = (.accepted, (s.modCan ch fun x => { x with q := x.q ++ [⟨f, src, 0, s.now⟩] }).highWater (0x14 + ch)
      ((s.canCh ch).q.length + 1)) := by
  have hsafety : src ≠ .safety := by rcases hsrc with rfl | rfl <;> decide
  have hmaster : src ≠ .timeMaster := by rcases hsrc with rfl | rfl <;> decide
  unfold State.canSubmit
  rw [hcode]
  dsimp only
  rw [if_neg hsafety, if_neg (fun h => hmaster h.1), if_neg (not_le.2 hroom)]
  rfl

/-- The safety slot takes a frame when it is free (R368). -/
theorem canSubmit_safety {f : CanFrame} (hcode : s.canCode ch = 1) (hfree : (s.canCh ch).safety = none) :
    s.canSubmit ch f .safety = (.accepted, s.modCan ch fun x => { x with safety := some ⟨f, .safety, 0, s.now⟩ }) := by
  unfold State.canSubmit
  rw [hcode]
  dsimp only
  rw [hfree]
  rfl

/-- A receive error on an active channel is counted and answered with an error frame (R364, R372). -/
theorem canRxError_active (hcode : s.canCode ch = 1 ∨ s.canCode ch = 2) (dominant : Bool) :
    s.canRxError ch dominant = ((s.bump (Pid.canErrCount ch)).modCan ch fun x => { x with errFrame := some s.now }).canCounters ch
      (s.n (Pid.canTec ch)) (s.n (Pid.canRec ch) + 1 + 8 * b01 dominant) :=
  (if_neg (by omega)).trans (if_pos hcode)

end

/-- Settles O53: CAN_BUSOFF_CMD is a row of Service; each other clause is the branch of its command that the hypotheses choose. -/
theorem completesCanBus : Obligations.CompletesCanBus := by
  unfold Obligations.CompletesCanBus
  refine ⟨?submitQueued, ?submitSafety, ?txAttemptEnd, ?busOffRecovery, ?canBusoffCmd, ?errorDetected, ?timeReferenceSend,
    ?frameReceived, ?frameBad, ?sourceTimeout⟩
  case submitQueued =>
    intro t ch f src s a ha hch hrtr hcode hsrc hroom
    unfold exec execCanSubmit
    dsimp only
    rw [← ha, if_pos ⟨hch, hrtr⟩, canSubmit_queued hcode hsrc hroom]
  case submitSafety =>
    rintro t ch f _ s a ha hch hrtr hcode rfl hfree
    unfold exec execCanSubmit
    dsimp only
    rw [← ha, if_pos ⟨hch, hrtr⟩, canSubmit_safety hcode hfree]
  case txAttemptEnd =>
    intro t ch r durPs s place e a ha hcode hch hjoin hoffer
    unfold exec execCanTxAttemptEnd
    dsimp only
    rw [← ha, if_neg (by omega)]
    cases r <;> simp only [hoffer]
  case busOffRecovery =>
    intro t ch s n a ha hoff hcount hcode hdue
    unfold exec execBusOffRecovery
    dsimp only
    rw [← ha, hoff]
    exact congrArg _ (if_pos (by simp [hcount, hcode, hdue]))
  case canBusoffCmd =>
    intro t role ch v s a ha hrole hok halone hnote
    unfold exec execCanBusoffCmd State.doBusoffCmd
    dsimp only
    rw [← ha, cmdRow_done hrole hok halone hnote]
  case errorDetected =>
    intro t ch dominant s a ha hch hcode hjoin
    unfold exec execCanErrorDetected
    dsimp only
    rw [← ha, if_neg (by omega), canRxError_active hcode]
  case timeReferenceSend =>
    intro t ch s b c a ha hactive hdue hb hidle hsub
    unfold exec execTimeReferenceSend
    dsimp only
    rw [← ha, hactive, if_neg (by decide), State.recur_due hdue, ← hb, hidle, hsub]
  case frameReceived =>
    intro t ch f durPs s a ha hch hcode hjoin hcrc
    unfold exec execCanFrameReceive
    dsimp only
    rw [← ha, if_pos ⟨hch, by simpa using hcode⟩, if_neg (not_lt.2 hjoin), hcrc]
    rfl
  case frameBad =>
    intro t ch f durPs s a ha hch hcode hjoin hcrc
    have hactive : [1, 2, 4].contains (a.canCode ch) = true := by rcases hcode with h | h <;> rw [h] <;> rfl
    unfold exec execCanFrameReceive
    dsimp only
    rw [← ha, if_pos ⟨hch, hactive⟩, if_neg (not_lt.2 hjoin), hcrc]
    exact congrArg _ (canRxError_active hcode false)
  case sourceTimeout =>
    intro t ch s a ha hch hpairs hdue
    unfold exec execCanSourceTimeout
    dsimp only
    rw [← ha, if_pos ⟨hch, hpairs, hdue⟩]

end Sys2Proof.Machine
end

section
/-! Internal time and timed outputs: where each command completes (R381, R383, R387). -/

namespace Sys2Proof.Machine

section
variable {s a : State} {t k : Nat}

/-- An output whose instant has come pulses: a periodic one moves to its next instant, a one-shot one has fired (R387). -/
theorem exec_timeOutPulse_due (ha : a = s.advance t) (harmed : (a.touts k).armed = true) (hrun : a.timeStopped = false)
    (hdue : (a.touts k).nextNs ≤ a.intNs) :
    exec (.timeOutPulse t k) s = .next (
      if (a.touts k).periodic then (a.toutFire k).modTout k fun x => { x with nextNs := x.nextNs + a.n (Pid.toutPeriod k) }
      else ((a.toutFire k).modTout k fun x => { x with armed := false }).setN (Pid.toutState k) 2) := by
  unfold exec execTimeOutPulse
  dsimp only
  rw [← ha]
  exact congrArg _ (if_neg (by simp [harmed, hrun, hdue]))

end

/-- Settles O54: a request is a row of Service that its rule accepts; each other clause is the branch that the hypotheses choose. -/
theorem completesInternalTime : Obligations.CompletesInternalTime := by
  unfold Obligations.CompletesInternalTime
  refine ⟨?holdoverExpiry, ?timeStep, ?toutArm, ?pulseOnce, ?pulsePeriodic, ?pulseEnd⟩
  case holdoverExpiry =>
    intro t s n a ha hheld hstate hdue
    unfold exec execHoldoverExpiry
    dsimp only
    rw [← ha, hheld]
    exact congrArg _ (if_pos ⟨hstate, hdue⟩)
  case timeStep =>
    rintro t role _ s d a ha rfl hpend hrole halone hnote
    have hok : a.timeStepOk 1 = true := by unfold State.timeStepOk; rw [hpend]; rfl
    unfold exec execTimeStep State.doTimeStep
    dsimp only
    rw [← ha, cmdRow_done hrole hok halone hnote, hpend]
  case toutArm =>
    rintro t role k _ s a ha hfactory hk rfl hahead hstart hrole halone hnote
    have hok : (!a.unit.st.factory && a.toutOk k 1) = true := by unfold State.toutOk; simp [hfactory, hk, hahead]
    unfold exec execToutArm
    dsimp only
    rw [← ha, roleRow_done hrole hok halone hnote, if_pos hok]
    unfold State.doTout
    dsimp only
    rw [hstart]
    rfl
  case pulseOnce =>
    intro t k s a ha harmed hrun hdue honce
    rw [exec_timeOutPulse_due ha harmed hrun hdue, honce, if_neg Bool.false_ne_true]
  case pulsePeriodic =>
    intro t k s a ha harmed hrun hdue hperiodic
    exact (exec_timeOutPulse_due ha harmed hrun hdue).trans (congrArg _ (if_pos hperiodic))
  case pulseEnd =>
    intro t k s n a ha hpulse hend
    unfold exec execTimeOutPulseEnd
    dsimp only
    rw [← ha, hpulse]
    exact congrArg _ (if_pos hend)

end Sys2Proof.Machine
end

section
/-! Ethernet ports and PTP: where each command completes (R376-R380; logs 14 and 46). -/

namespace Sys2Proof.Machine

/-- Settles O55: each clause is the branch of its command that the hypotheses choose. -/
theorem completesEthernet : Obligations.CompletesEthernet := by
  unfold Obligations.CompletesEthernet
  refine ⟨?linkUp, ?linkDown, ?frameTaken, ?frameBad, ?ptpSyncLoss, ?ptpFailback, ?txtsDiscard, ?pdelayReqSend, ?grandmasterSyncSend⟩
  case linkUp =>
    intro t e s a ha he htraining hmay
    unfold exec execEthLinkUp
    dsimp only
    rw [← ha, if_pos ⟨he, htraining, hmay⟩]
  case linkDown =>
    intro t e s a ha hup
    unfold exec execEthLinkDown State.ethDown
    dsimp only
    rw [← ha, if_pos hup, hup]
    rfl
  case frameTaken =>
    intro t e _ bytes s a ha hup rfl hmin hmax
    unfold exec execEthFrameReceive
    dsimp only
    rw [← ha, if_neg (by simp [hup]), if_neg (by simp [hmin, hmax])]
  case frameBad =>
    intro t e fcsOk bytes s a ha hup hbad
    unfold exec execEthFrameReceive
    dsimp only
    rw [← ha, if_neg (by simp [hup]), if_pos (by simp [hbad])]
  case ptpSyncLoss =>
    intro t e s n a ha hsync hdue
    unfold exec execPtpSyncLoss
    dsimp only
    rw [← ha, hsync]
    dsimp only
    rw [State.onlyIf_decide, if_pos hdue]
  case ptpFailback =>
    intro t s a ha hport hactive husable hlong
    unfold exec execPtpFailback
    dsimp only
    rw [← ha, if_pos ⟨hport, hactive, husable, hlong⟩]
  case txtsDiscard =>
    rintro t e s _ rfl
    rfl
  case pdelayReqSend =>
    intro t s a ha hfactory hdue
    unfold exec execPdelayReqSend State.onlyIf
    dsimp only
    rw [← ha, if_neg (Bool.eq_false_iff.1 hfactory), State.recur_due hdue]
  case grandmasterSyncSend =>
    intro t s a ha hcapable hfactory hgm0 hgm1
    unfold exec execGrandmasterSyncSend
    dsimp only
    rw [← ha, if_neg (by simp [hcapable, hfactory, hgm0, hgm1])]

end Sys2Proof.Machine
end

section
/-! Capture functions: where each command completes (R427, R429, R434; logs 16 and 22). -/

namespace Sys2Proof.Machine

/-- A write of 1 to `cr_arm` arms (R434). -/
theorem doCrArm_arm (s : State) (i : Nat) : s.doCrArm i 1 = s.capArm i := if_pos rfl

/-- A write of 2 to `cr_arm` releases the function's units (R434). -/
theorem doCrArm_release (s : State) (i : Nat) :
    s.doCrArm i 2 = (s.modFn i fun c => { c with units := [], kept := [], trig := none, deadFrom := none }).setN (Pid.crState i) 0 :=
  if_neg (by decide)

/-- Settles O60: a request is a row whose rule accepts it; each other clause is the branch that the hypotheses choose. -/
theorem completesCapture : Obligations.CompletesCapture := by
  unfold Obligations.CompletesCapture
  refine ⟨?captureTrigger, ?crumbComplete, ?captureRearm, ?crArm, ?crDisarm, ?crForce⟩
  case captureTrigger =>
    intro t f line s b a ha hsource hlo hhi hmask hfires
    unfold exec execCaptureTrigger
    dsimp only
    rw [← ha, hsource]
    dsimp only
    rw [if_pos ⟨hlo, hhi, hmask, hfires⟩, State.onlyIf_decide]
  case crumbComplete =>
    intro t f s no a ha hcur hf hinj hpost hdrained
    unfold exec execCrumbComplete
    dsimp only
    rw [← ha, hcur]
    dsimp only
    rw [if_neg (by simp [hf, hdrained]), if_neg (by simp [hinj]), if_neg (by simp [hinj])]
    exact congrArg Host.Outcome.next (if_neg (by simp [hpost]))
  case captureRearm =>
    rintro t _ s a ha rfl hdead hrun
    unfold exec execCaptureRearm
    dsimp only
    rw [← ha, if_pos ⟨rfl, hdead, by simp [hrun]⟩]
  case crArm =>
    intro t role f s a ha hf hok hrole halone hnote
    unfold exec execCrArm
    dsimp only
    rw [← ha, cmdRow_done hrole (Bool.and_eq_true_iff.2 ⟨decide_eq_true hf, hok⟩) halone hnote, doCrArm_arm]
  case crDisarm =>
    intro t role f s a ha hf hok hrole halone hnote
    unfold exec execCrDisarm
    dsimp only
    rw [← ha, cmdRow_done hrole (Bool.and_eq_true_iff.2 ⟨decide_eq_true hf, hok⟩) halone hnote, doCrArm_release]
  case crForce =>
    intro t role f v s a ha hf hok hrole halone hnote
    unfold exec execCrForce
    dsimp only
    rw [← ha, cmdRow_done hrole (Bool.and_eq_true_iff.2 ⟨decide_eq_true hf, hok⟩) halone hnote]

end Sys2Proof.Machine
end

section
/-! Little-endian fields (R6), and the bytes of an event record (R408). -/

namespace Sys2Proof.Machine

/-! ### Little-endian fields -/

section
variable {xs ys : List Byte} {n x off : Nat}

@[simp] theorem length_leBytes (n x : Nat) : (leBytes n x).length = n := by
  induction n generalizing x with
  | zero => rfl
  | succ n ih => exact congrArg (· + 1) (ih (x / 256))

/-- Little-endian bytes spell the number that they hold. -/
theorem leNat_leBytes (h : x < 256 ^ n) : leNat (leBytes n x) = x := by
  induction n generalizing x with
  | zero =>
    rw [pow_zero, Nat.lt_one_iff] at h
    exact h.symm
  | succ n ih =>
    have hrest : leNat (leBytes n (x / 256)) = x / 256 := ih (Nat.div_lt_of_lt_mul (by rwa [pow_succ'] at h))
    have hbyte : (BitVec.ofNat 8 x).toNat = x % 256 := BitVec.toNat_ofNat x 8
    rw [leBytes, leNat, hrest, hbyte]
    omega

/-- A field before the end of the first part lies in that part. -/
theorem leAt_append_of_le (h : off + n ≤ xs.length) : leAt (xs ++ ys) off n = leAt xs off n := by
  unfold leAt
  rw [List.drop_append_of_le_length (by omega), List.take_append_of_le_length (by rw [List.length_drop]; omega)]

/-- The last field reads the number that was appended. -/
theorem leAt_append_leBytes (hoff : xs.length = off) (h : x < 256 ^ n) : leAt (xs ++ leBytes n x) off n = x := by
  unfold leAt
  rw [← hoff, List.drop_left, List.take_of_length_le (length_leBytes n x).le, leNat_leBytes h]

/-- Bytes that hold one number read it. -/
theorem leAt_leBytes (h : x < 256 ^ n) : leAt (leBytes n x) 0 n = x := leAt_append_leBytes (xs := []) rfl h

end

/-! ### Event records -/

/-- The fields of the severity byte: class, network time not valid, TIME stopped, and 0 above (R408). -/
theorem severity_fields (code : Nat) (valid stopped : Bool) :
    severity code valid stopped % 16 = code / 4096 % 16 ∧ severity code valid stopped / 16 % 2 = (if valid then 0 else 1) ∧
      severity code valid stopped / 32 % 2 = (if stopped then 1 else 0) ∧ severity code valid stopped / 64 = 0 := by
  have hclass : evClass code = code / 4096 % 16 := rfl
  unfold severity
  rw [hclass]
  cases valid <;> cases stopped <;> simp [b01] <;> omega

/-- Settles O24: each field is appended behind those before it, and those after it lie beyond. -/
theorem eventRecordLayout : Obligations.EventRecordLayout := by
  unfold Obligations.EventRecordLayout
  intro e htime hcode hinst hsev
  replace htime : e.timeNs < 256 ^ 8 := htime
  replace hcode : e.code < 256 ^ 2 := hcode
  replace hinst : e.inst < 256 ^ 1 := hinst
  replace hsev : e.sev < 256 ^ 1 := hsev
  have hctx : e.ctx.toNat < 256 ^ 8 := e.ctx.isLt
  have hstamp : e.stamp.toNat < 256 ^ 4 := e.stamp.isLt
  unfold EvRec.bytes
  refine ⟨?length, ?time, ?code, ?inst, ?sev, ?ctx, ?stamp, severity_fields⟩
  case length => simp
  case time => simp [-List.append_assoc, leAt_append_of_le, leAt_leBytes htime]
  case code => simp [-List.append_assoc, leAt_append_of_le, leAt_append_leBytes _ hcode]
  case inst => simp [-List.append_assoc, leAt_append_of_le, leAt_append_leBytes _ hinst]
  case sev => simp [-List.append_assoc, leAt_append_of_le, leAt_append_leBytes _ hsev]
  case ctx => simp [-List.append_assoc, leAt_append_of_le, leAt_append_leBytes _ hctx]
  case stamp => simp [-List.append_assoc, leAt_append_leBytes _ hstamp]

end Sys2Proof.Machine
end

section
/-! Packets, sessions and telemetry of Bergil link: where each completes (R393-R415; logs 41, 43 and 46). -/

namespace Sys2Proof.Machine

section
variable {s a b : State} {t ch : Nat} {bytes : List Byte}

/-- A packet enters Q-CMD where it has room (R38). -/
theorem cmdIn_room (hroom : s.link.cmds.length < 16) (p : CmdPkt) :
    s.cmdIn p = (s.modLink fun x => { x with cmds := x.cmds ++ [p] }).highWater 0x0F (s.link.cmds.length + 1) :=
  if_neg (not_le.2 hroom)

/-- A packet that fits one segment is complete with it, and its padding is dropped (R394). -/
theorem packetDone_sole (hfits : leAt bytes 0xC 2 ≤ 30) :
    s.packetDone ch bytes 1 = s.cmdIn ⟨2 + ch, 0, 0, bytes.take (32 + leAt bytes 0xC 2)⟩ := by
  have hone : (32 + leAt bytes 0xC 2 + 61) / 62 = 1 := by omega
  exact if_neg (not_not.2 hone)

/-- A sole segment with no reassembly open, of a packet that fits one segment, is a whole packet (R394). -/
theorem segmentIn_sole (hlen : bytes.length = 64) (hhead : leAt bytes 0 1 = 0xC0) (hfits : leAt (bytes.drop 2) 0xC 2 ≤ 30)
    (hnone : s.link.reasm.getD ch none = none) :
    s.segmentIn ch bytes =
      (s.setReasm ch none).cmdIn ⟨2 + ch, 0, 0, (bytes.drop 2).take (32 + leAt (bytes.drop 2) 0xC 2)⟩ := by
  have hfirst : bitAt 0xC0 7 = true := by decide
  have hlast : bitAt 0xC0 6 = true := by decide
  unfold State.segmentIn
  dsimp only
  rw [if_neg (not_not.2 hlen), hnone, hhead, hfirst, hlast]
  exact packetDone_sole hfits

/-- A valid open by a role whose key opens it, that nothing refuses, is accepted where its log entry has room (R398, R44). -/
theorem openSession_accepted {path ip port : Nat} {r : Role} {key : BitVec 128}
    (hrole : roleOf (leAt (pktPayload bytes) 0 1) = some r) (hkey : s.roleKey r = some key) (htag : tagOk key bytes = true)
    (hcode : leAt bytes 2 2 = 0) (hlen : (pktPayload bytes).length = 20) (hzero : leAt (pktPayload bytes) 1 3 = 0)
    (hopen : s.openRefused r = false) (hlog : r.meets .service = false ∨ s.link.log.length + 1 ≤ 32) :
    s.openSession path ip port bytes = s.openAccept path ip port (leAt bytes 4 4) r key ((pktPayload bytes).drop 4) := by
  have hroom : ∀ n : AuditNote, n.items = [] → (r.meets .service && !s.logRoom n) = false := by
    intro n hn
    rcases hlog with h | h
    · rw [h]; rfl
    · unfold State.logRoom AuditNote.count
      simp [hn, twelves, h]
  unfold State.openSession
  dsimp only
  rw [hrole]
  dsimp only
  rw [hkey]
  dsimp only
  rw [htag, hopen, if_neg (by decide)]
  simp [hcode, hlen, hzero, hroom]

/-- What a queue held at most is no part of the link. -/
theorem highWater_link (q n : Nat) : (s.highWater q n).link = s.link := by
  unfold State.highWater State.onlyIf
  split <;> rfl

theorem modLink_congr {f g : LinkSt → LinkSt} (h : f s.link = g s.link) : s.modLink f = s.modLink g :=
  congrArg (fun l => { s with link := l }) h

/-- A packet that finds Q-TEL empty is the only one in it. -/
theorem tel_enters_empty (h : s.link.tel = []) (p : TelPkt) :
    (s.highWater 0xE (s.link.tel.length + 1)).modLink (fun l => { l with tel := l.tel ++ [p] }) =
      (s.highWater 0xE 1).modLink fun l => { l with tel := [p] } := by
  rw [h]
  exact modLink_congr (by rw [highWater_link, h]; rfl)

end

/-- Settles O56: each clause is the branch of its command that the hypotheses choose, after the events where they are served first. -/
theorem completesLinkTransport : Obligations.CompletesLinkTransport := by
  unfold Obligations.CompletesLinkTransport
  refine ⟨?datagram, ?segment, ?reassemblyTimeout, ?packetProcess, ?segmentRetry, ?sessionOpen, ?sessionIdle, ?telemetrySend,
    ?announceSend, ?peerAbsent, ?auditEntryWrite⟩
  case datagram =>
    intro t e ip port bytes s a ha hup hmin hlen hroom
    unfold exec execBlDatagramReceive State.datagramIn
    dsimp only
    rw [← ha, if_pos hup, if_neg (by omega), cmdIn_room hroom]
  case segment =>
    intro t ch bytes s a ha hon hlen hhead hfits hnone hroom
    unfold exec execBlSegmentReceive
    dsimp only
    rw [← ha, if_pos hon, segmentIn_sole hlen hhead hfits hnone, cmdIn_room (s := a.setReasm ch none) hroom]
  case reassemblyTimeout =>
    intro t ch s r a ha hopen hold
    unfold exec execBlReassemblyTimeout
    dsimp only
    rw [← ha, hopen]
    exact congrArg _ (if_pos hold)
  case packetProcess =>
    intro t ioOk readbackOk s b p ps a ha hb hcmds hcredit
    unfold exec execBlPacketProcess
    dsimp only
    rw [← ha, ← hb, hcmds]
    dsimp only
    rw [if_neg (by simp [hcredit])]
  case segmentRetry =>
    intro t s a ha hdue
    unfold exec execResponseSegmentRetry
    dsimp only
    rw [← ha, State.recur_due hdue]
    rfl
  case sessionOpen =>
    intro t path ip port bytes s r key a ha hup hcredit hpkt htype hrole hkey htag hcode hlen hzero hopen hlog
    unfold exec execSessionOpen
    dsimp only
    rw [← ha, if_neg (by simp [hup]), if_pos (by simp [hpkt, htype]), if_pos hcredit,
      openSession_accepted hrole hkey htag hcode hlen hzero hopen hlog]
  case sessionIdle =>
    intro t sid s x a ha hx hdue hwait
    have hidle : ¬ (a.now < x.lastAt + a.n Pid.sessIdle * psS ∨ (a.now = x.lastAt + a.n Pid.sessIdle * psS ∧ a.requestWaits x = true)) :=
      not_or.2 ⟨not_lt.2 hdue, fun h => hwait.elim (fun hne => hne h.1) (fun hw => Bool.false_ne_true (hw.symm.trans h.2))⟩
    unfold exec execSessionIdle
    dsimp only
    rw [← ha, hx]
    exact congrArg _ (if_neg hidle)
  case telemetrySend =>
    intro t sid s b x u a ha hb hx hsub hdue hown hup htel _
    have hpaths : (if bitAt u.flags 1 = true then [0, 1] else [x.path]).filter b.ethUp = [x.path] := by simp [hown, hup]
    unfold exec execTelemetrySend
    dsimp only
    rw [← ha, ← hb, hx]
    dsimp only
    rw [hsub]
    dsimp only
    rw [if_neg (not_lt.2 hdue), hpaths, if_neg (by simp [htel])]
    exact congrArg _ (congrArg State.serveTel (tel_enters_empty (s := b.modSess sid _) htel _))
  case announceSend =>
    intro t s key a ha hkey hperiod hst hdue
    unfold exec execAnnounceSend
    dsimp only
    rw [← ha, hkey]
    dsimp only
    rw [if_neg (by simp [hperiod, hst]), State.recur_due hdue]
    rfl
  case peerAbsent =>
    intro t i s p a ha hp hpresent hperiod hsilent
    unfold exec execPeerAbsent
    dsimp only
    rw [← ha, hp]
    exact congrArg _ (if_pos ⟨hpresent, hperiod, hsilent⟩)
  case auditEntryWrite =>
    intro t s b e es a ha hb hlog habove hflash hlock hsector
    have hanchor : ¬ b.n Pid.auditNext % 64 = 0 := by omega
    unfold exec execAuditEntryWrite
    dsimp only
    rw [← ha, ← hb, hlog]
    dsimp only
    rw [if_neg (by simp [habove, hflash, hlock]), State.onlyIf_decide, State.onlyIf_decide, if_neg hsector, if_neg hanchor]

end Sys2Proof.Machine
end

section
/-! Commands of an open link session that read, write, subscribe and close: where each completes (R398, R402-R408; log 41). -/

namespace Sys2Proof.Machine

/-! ### What each command comes to -/

section
variable {s : State} {sid : Nat} {ids : List Nat}

/-- Read of known identifiers answers their words. -/
theorem linkRead_known (h : ∀ k < ids.length, (findParam s.fourP (ids.getD k 0)).isSome) :
    s.linkRead ids = ⟨0, ids.flatMap fun id => leBytes 4 (s.readWord id).toNat, s⟩ := by
  unfold State.linkRead
  rw [ids_known _ _ h]

/-- Write of good items answers 0. -/
theorem linkWrite_good {role : Role} {rb : Bool} {items : List (Nat × Word)} (h : (s.writeAll role rb items).bad = none) :
    s.linkWrite role rb items = ⟨0, [], (s.writeAll role rb items).st⟩ := by
  unfold State.linkWrite
  dsimp only
  rw [h]

/-- Bulk read at offset 0 copies its target and answers the first slice of the copy (R404). -/
theorem linkBulkRead_start {role : Role} {id len : Nat} {bs : List Byte} (hid : (findParam s.fourP id).isSome)
    (hcrumb : crumbOf id = none) (hlog : id ≠ Pid.auditLog) (htarget : s.bulkTarget id = some bs) :
    s.linkBulkRead sid role id 0 len =
      ⟨0, leBytes 4 bs.length ++ leBytes 4 0 ++ bs.take len, s.modSess sid fun y => { y with copy := some (id, bs, s.now) }⟩ := by
  have hknown : ¬ (findParam s.fourP id).isNone = true := by simpa [Option.isSome_iff_ne_none] using hid
  unfold State.linkBulkRead
  rw [if_neg hknown, hcrumb]
  dsimp only
  rw [if_neg (fun h => hlog h.1), htarget]
  rfl

/-- Subscribe to present parameters with room for a subscription subscribes (R406). -/
theorem linkSubscribe_room {path period flags : Nat} (hpath : path < 2) (hperiod : 1 ≤ period ∧ period ≤ 1000) (hflags : flags < 4)
    (hcount : ids.length ≤ 64) (hids : ∀ k < ids.length, (findParam s.fourP (ids.getD k 0)).isSome)
    (hpresent : ∀ k < ids.length, s.absentPort (ids.getD k 0) = false)
    (hroom : (s.link.sess.filter fun y => y.sid ≠ sid && y.sub.isSome).length < 4) :
    s.linkSubscribe sid path period flags ids =
      ⟨0, [], s.modSess sid fun y =>
        { y with sub := some { period := period, flags := flags, ids := ids, lastAt := s.now } }⟩ := by
  have hall : ((List.range ids.length).find? fun k => s.absentPort (ids.getD k 0)) = none := by
    rw [List.find?_eq_none]
    intro k hk
    rw [hpresent k (List.mem_range.1 hk)]
    exact Bool.false_ne_true
  unfold State.linkSubscribe
  rw [if_neg (by omega), if_neg (by omega), if_neg (by omega), ids_known _ _ hids]
  dsimp only
  rw [hall]
  exact if_neg (not_le.2 hroom)

end

/-- Accepting a request changes no subscription. -/
theorem heard_subscribed (a : State) (x : SessSt) (seq sid : Nat) :
    ((a.heard x seq).link.sess.filter fun y => y.sid ≠ sid && y.sub.isSome).length =
      (a.link.sess.filter fun y => y.sid ≠ sid && y.sub.isSome).length := by
  unfold State.heard State.modSess State.modLink
  dsimp only
  rw [List.filter_map, List.length_map]
  refine congrArg List.length (List.filter_congr fun y _ => ?_)
  rw [Function.comp_apply]
  split <;> rfl

/-- A close is answered, and the session ends with cause 1 (R398). -/
theorem direct_close {a : State} {sid : Nat} {io rb : Bool} {x : SessSt} (h : a.sess? sid = some x) (hq : a.rspCredit = true) :
    a.direct sid io rb .close =
      ((a.heard x x.nextSeq).answer x x.path x.ip x.port 0xC x.nextSeq 0 [] none).endSession x.sid 1 := by
  rw [direct_eq a sid io rb .close x h rfl hq]
  unfold State.request
  dsimp only
  rw [judge_quiet _ _ _ _ _ _ _ _ rfl rfl]
  exact congrArg (State.endSession · x.sid 1) (if_pos (heard_sess a x x.nextSeq sid h))

/-! ### The rows -/

/-- Settles O57: each command is well formed, needs no log entry, and comes to what its lemma says. -/
theorem completesLinkReads : Obligations.CompletesLinkReads := by
  unfold Obligations.CompletesLinkReads
  refine ⟨?read, ?write, ?bulkRead, ?subscribe, ?readEvents, ?closeSession⟩
  case read =>
    rintro t sid ids s x _ rfl hx hcount hids hcredit
    have hformed : (LinkCmd.read ids).formed = .read ids := if_pos (decide_eq_true hcount)
    have hrun : ((s.advance t).heard x x.nextSeq).runCmd x x.path true true (.read ids) = _ := linkRead_known hids
    have hrow := direct_quiet _ _ _ _ _ _ _ hx hformed nofun hcredit rfl rfl hrun (heard_sess _ _ _ _ hx)
    exact congrArg Host.Outcome.next hrow
  case write =>
    rintro t sid items s x _ rfl hx hcount hrole hquiet hgood hstays hcredit
    have hformed : (LinkCmd.write items).formed = .write items := if_pos (decide_eq_true hcount)
    have hnote : ((s.advance t).heard x x.nextSeq).noteOf x.role x.path x.ip x.sid x.nextSeq (.write items) = none :=
      if_neg (by rw [hrole, Bool.false_or]; exact Bool.eq_false_iff.1 hquiet)
    have hrun : ((s.advance t).heard x x.nextSeq).runCmd x x.path true true (.write items) = _ := linkWrite_good hgood
    have hrow := direct_quiet _ _ _ _ _ _ _ hx hformed nofun hcredit rfl hnote hrun hstays
    exact congrArg Host.Outcome.next hrow
  case bulkRead =>
    rintro t sid target _ length s x bs _ rfl hx hcount rfl hid hcrumb hlog htarget hcredit
    have hformed : (LinkCmd.bulkRead target 0 length).formed = .bulkRead target 0 length := if_pos (decide_eq_true hcount)
    have hrun : ((s.advance t).heard x x.nextSeq).runCmd x x.path true true (.bulkRead target 0 length) = _ :=
      linkBulkRead_start hid hcrumb hlog htarget
    have hrow := direct_quiet _ _ _ _ _ _ _ hx hformed nofun hcredit rfl rfl hrun
      (modSess_isSome _ _ _ _ (fun _ => rfl) (heard_sess _ _ _ _ hx))
    exact congrArg Host.Outcome.next hrow
  case subscribe =>
    rintro t sid period flags ids s x _ rfl hx hpath hperiod hflags hcount hids hpresent hroom hcredit
    have hformed : (LinkCmd.subscribe period flags ids).formed = .subscribe period flags ids :=
      if_pos (decide_eq_true (by omega))
    obtain rfl : x.sid = sid := sess_sid hx
    have hrun : ((s.advance t).heard x x.nextSeq).runCmd x x.path true true (.subscribe period flags ids) = _ :=
      linkSubscribe_room hpath hperiod hflags hcount hids hpresent ((heard_subscribed ..).trans_lt hroom)
    have hrow := direct_quiet _ _ _ _ _ _ _ hx hformed nofun hcredit rfl rfl hrun
      (modSess_isSome _ _ _ _ (fun _ => rfl) (heard_sess _ _ _ _ hx))
    exact congrArg Host.Outcome.next hrow
  case readEvents =>
    rintro t sid first count s x _ rfl hx hcount hcredit
    have hformed : (LinkCmd.events first count).formed = .events first count := if_pos (decide_eq_true hcount)
    have hrun : ((s.advance t).heard x x.nextSeq).runCmd x x.path true true (.events first count) = _ := rfl
    have hrow := direct_quiet _ _ _ _ _ _ _ hx hformed nofun hcredit rfl rfl hrun (heard_sess _ _ _ _ hx)
    exact congrArg Host.Outcome.next hrow
  case closeSession =>
    rintro t sid s x _ rfl hx hcredit
    exact congrArg Host.Outcome.next (direct_close hx hcredit)

end Sys2Proof.Machine
end

section
/-! Commands of an open link session that load slots and banks and fuse: where each completes (R402, R405, R413, R414; logs 40, 41). -/

namespace Sys2Proof.Machine

/-! ### What each command comes to -/

section
variable {s : State} {sid : Nat} {k : BulkSt} {bytes : List Byte}

/-- Data in order are stored, in flash or beside the load of the bank, and counted (R405). -/
theorem linkData_inOrder (hk : s.link.bulk = some k) (hsid : k.sid = sid) (herase : k.erasing = false)
    (hfits : k.got + bytes.length ≤ k.total) :
    s.linkData sid k.got bytes =
      ⟨0, leBytes 4 (k.got + bytes.length),
        (if k.target = 0x10 then s else s.flashWrite (s.slotAt k.target + k.got) bytes).modLink fun l =>
          { l with bulk := some { k with got := k.got + bytes.length, lastAt := s.now,
                                         bytes := if k.target = 0x10 then k.bytes ++ bytes else k.bytes } }⟩ := by
  have hnow : (if k.target = 0x10 then s else s.flashWrite (s.slotAt k.target + k.got) bytes).now = s.now := by split <;> rfl
  unfold State.linkData
  rw [hk]
  dsimp only
  rw [if_neg (by simp [hsid, herase]), if_neg (not_not.2 rfl), if_neg (not_lt.2 hfits), hnow]

/-- The end of a complete load of the bank with the right digest checks the bank (R405). -/
theorem linkEnd_bank {ioOk : Bool} (hk : s.link.bulk = some k) (hsid : k.sid = sid) (herase : k.erasing = false)
    (hall : k.total ≤ k.got) (htarget : k.target = 0x10) (hdigest : sha256 k.bytes = k.digest) :
    s.linkEnd sid ioOk = (
      let b := (s.modLink fun l => { l with bulk := none }).setN Pid.bulkState 0
      let g := b.bankCheck k.bytes ioOk
      let st := if g.verified then 3 else 2
      ⟨0, leBytes 1 st, ((b.modLat fun y => { y with bank := some g }).setN Pid.latBankStatus st).raise 0x0287 0x10 st⟩) := by
  unfold State.linkEnd
  rw [hk]
  dsimp only
  rw [if_neg (by simp [hsid, herase]), if_neg (not_lt.2 hall), htarget, if_pos rfl, if_neg (not_not.2 hdigest), if_pos rfl]

/-- Re-binding leaves the link (R414). -/
theorem linkReBind_link (s : State) (old : Nat) (wrapped : List Byte) (rb : Bool) : (s.linkReBind old wrapped rb).st.link = s.link := by
  unfold State.linkReBind
  split
  · rfl
  split
  · rfl
  lift_lets
  intro base section9 counted fused
  clear_value section9
  split
  · rfl
  split
  · rfl
  split
  · exact (raise_parts ..).2
  · exact (raise_parts ..).2

/-- Re-binding leaves the unit's state (R414). -/
theorem linkReBind_unit (s : State) (old : Nat) (wrapped : List Byte) (rb : Bool) : (s.linkReBind old wrapped rb).st.unit = s.unit :=
  (State.linkReBind_evo (K := { fuse := true }) .start rfl).sameUnit rfl rfl

/-- Fusing a fingerprint leaves the unit and the link (R413). -/
theorem setFingerprint_parts (s : State) (fp : List Byte) :
    (s.setFingerprint fp).unit = s.unit ∧ (s.setFingerprint fp).link = s.link := by
  unfold State.setFingerprint State.each
  induction List.range 8 generalizing s with
  | nil => exact ⟨rfl, rfl⟩
  | cons k ks ih => exact ih _

/-- The first key, of a Commissioner in READY-REFUSED and without a signature, is fused (R413). -/
theorem linkReplaceKey_first {key sig : List Byte} (hfp : (s.fingerprint.all fun b => b = 0) = true) (hst : s.unit.st = .readyRefused)
    (hsig : (sig.all fun b => b = 0) = true) :
    s.linkReplaceKey .commissioner key sig true =
      ⟨0, [], (s.setFingerprint (sha256 key)).raise 0x0285 0 (leAt (sha256 key) 0 8)⟩ := by
  unfold State.linkReplaceKey State.fuseKey
  rw [if_pos hfp, hst, hsig]
  rfl

/-- A floor above the present one and not above the image's counter is fused (R413). -/
theorem linkRaiseFloor_above {floor : Nat} (habove : s.n Pid.rollbackFloor < floor) (hcount : floor ≤ s.n Pid.imageCounter)
    (hleft : s.n Pid.floorStepsLeft ≠ 0) :
    s.linkRaiseFloor floor true =
      ⟨0, [], ((s.setN Pid.floorStepsLeft (s.n Pid.floorStepsLeft - 1)).setN Pid.rollbackFloor floor).raise 0x0286 0
        (s.n Pid.rollbackFloor * 256 + floor)⟩ := by
  unfold State.linkRaiseFloor
  dsimp only
  rw [if_neg (not_le.2 habove), if_neg (not_lt.2 hcount), if_neg hleft]
  rfl

/-- A request of code 0x09 with 32 bytes is a re-binding (R402, R414). -/
theorem parseCmd_reBind (h : bytes.length = 32) : parseCmd 9 bytes = .reBind (leAt bytes 0 8) (bytes.drop 8) := by
  simp [parseCmd, h]

/-- A request of code 0x0A with 96 bytes replaces the integrator key (R402, R413). -/
theorem parseCmd_replaceKey (h : bytes.length = 96) : parseCmd 0xA bytes = .replaceKey (bytes.take 32) (bytes.drop 32) := by
  simp [parseCmd, h]

end

/-! ### The rows -/

/-- A session that is open stays so where the sessions are those of the accepted request. -/
theorem stays_open {a b : State} {x : SessSt} {sid : Nat} (hx : a.sess? sid = some x) (hb : b.link.sess = (a.heard x x.nextSeq).link.sess) :
    (b.sess? x.sid).isSome = true :=
  sess_of_link hb x.sid ▸ heard_sess a x x.nextSeq sid hx

/-- Settles O58: each command is well formed, passes its role, has room for its log entry, and comes to what its lemma says. -/
theorem completesLinkChanges : Obligations.CompletesLinkChanges := by
  unfold Obligations.CompletesLinkChanges
  refine ⟨?bulkWriteBegin, ?bulkWriteData, ?bulkWriteEnd, ?reBind, ?replaceIntegratorKey, ?raiseFloor⟩
  case bulkWriteBegin =>
    rintro t sid target total digest s x _ rfl hx hdigest hrole hslot hidle hpending hflash hfits hfree hlog hcredit
    have hformed : (LinkCmd.bulkBegin target total digest).formed = .bulkBegin target total digest := if_pos (decide_eq_true hdigest)
    have hrun : ((s.advance t).heard x x.nextSeq).runCmd x x.path true true (.bulkBegin target total digest) = _ :=
      linkBegin_slot _ _ target total digest hslot hidle hpending hflash hfits hfree
    have hrow := direct_logged _ _ _ _ _ _ _ _ hx hformed nofun hcredit hrole rfl (logRoom_single _ _ _ _ rfl hlog) hrun rfl
      (stays_open hx rfl)
    exact congrArg Host.Outcome.next hrow
  case bulkWriteData =>
    rintro t sid _ bytes s x k _ rfl hx hcount hrole hk hsid herase rfl hfits hcredit
    obtain rfl : x.sid = sid := sess_sid hx
    have hformed : (LinkCmd.bulkData k.got bytes).formed = .bulkData k.got bytes := if_pos (decide_eq_true hcount)
    have hrun : ((s.advance t).heard x x.nextSeq).runCmd x x.path true true (.bulkData k.got bytes) = _ :=
      linkData_inOrder hk hsid herase hfits
    have hrow := direct_quiet _ _ _ _ _ _ _ hx hformed nofun hcredit hrole rfl hrun (stays_open hx (by dsimp only; split <;> rfl))
    exact congrArg Host.Outcome.next hrow
  case bulkWriteEnd =>
    rintro t sid ioOk s x k _ rfl hx hrole hk hsid herase hall htarget hdigest hlog hcredit
    obtain rfl : x.sid = sid := sess_sid hx
    have hrun : ((s.advance t).heard x x.nextSeq).runCmd x x.path ioOk true .bulkEnd = _ :=
      linkEnd_bank hk hsid herase hall htarget hdigest
    have hrow := direct_logged _ _ _ _ .bulkEnd _ _ _ hx rfl nofun hcredit hrole rfl (logRoom_single _ _ _ _ rfl hlog) hrun
      (by dsimp only; rw [(raise_parts ..).1]; rfl) (stays_open hx (by dsimp only; rw [(raise_parts ..).2]; rfl))
    exact congrArg Host.Outcome.next hrow
  case reBind =>
    rintro t sid bytes rb s x _ rfl hx hlen hrole - - hlog hcredit
    have hrun : ((s.advance t).heard x x.nextSeq).runCmd x x.path true rb (.reBind (leAt bytes 0 8) (bytes.drop 8)) =
        ((s.advance t).heard x x.nextSeq).linkReBind (leAt bytes 0 8) (bytes.drop 8) rb := rfl
    have hrow := direct_logged _ _ _ _ (.reBind ..) _ _ _ hx rfl nofun hcredit hrole rfl (logRoom_single _ _ _ _ rfl hlog) hrun
      (by rw [linkReBind_unit]; rfl) (stays_open hx (by rw [linkReBind_link]))
    exact congrArg Host.Outcome.next ((congrArg _ (parseCmd_reBind hlen)).trans hrow)
  case replaceIntegratorKey =>
    rintro t sid bytes _ s x _ rfl hx hlen hrole hst hfp hsig rfl hlog hcredit
    have hmay : ((s.advance t).heard x x.nextSeq).cmdRole x.role 0xA = true := Bool.or_eq_true_iff.2 (.inr hfp)
    have hrun : ((s.advance t).heard x x.nextSeq).runCmd x x.path true true (.replaceKey (bytes.take 32) (bytes.drop 32)) = _ :=
      (congrArg (State.linkReplaceKey _ · _ _ _) hrole).trans (linkReplaceKey_first hfp hst hsig)
    have hrow := direct_logged _ _ _ _ (.replaceKey ..) _ _ _ hx rfl nofun hcredit hmay rfl (logRoom_single _ _ _ _ rfl hlog) hrun
      (congrArg UnitSt.st ((raise_parts ..).1.trans (setFingerprint_parts ..).1))
      (stays_open hx (congrArg LinkSt.sess ((raise_parts ..).2.trans (setFingerprint_parts ..).2)))
    exact congrArg Host.Outcome.next ((congrArg _ (parseCmd_replaceKey hlen)).trans hrow)
  case raiseFloor =>
    rintro t sid floor _ s x _ rfl hx hfloor hrole habove hcount hleft rfl hlog hcredit
    have hformed : (LinkCmd.raiseFloor floor).formed = .raiseFloor floor := if_pos (decide_eq_true hfloor)
    have hrun : ((s.advance t).heard x x.nextSeq).runCmd x x.path true true (.raiseFloor floor) = _ :=
      linkRaiseFloor_above habove hcount hleft
    have hrow := direct_logged _ _ _ _ _ _ _ _ hx hformed nofun hcredit hrole rfl (logRoom_single _ _ _ _ rfl hlog) hrun
      (congrArg UnitSt.st (raise_parts ..).1) (stays_open hx (congrArg LinkSt.sess (raise_parts ..).2))
    exact congrArg Host.Outcome.next hrow

end Sys2Proof.Machine
end
